-- ==== Sys2Proof/Word.lean ====
section
/-! DEFINITION. Word types of the model and the shape of its sparse maps. -/

namespace Sys2Proof

/-- One byte. -/
abbrev Byte := BitVec 8

/-- One 64-bit scratchpad, stack or network word (spec/05 R124). -/
abbrev Word := BitVec 64

/-- One stored 80/64 code word (spec/15 R390). -/
abbrev Code := BitVec 80

/-- A stored XACC or an accumulator entry (spec/02 R41). -/
abbrev Xacc := BitVec 128

/-- An MX or VX instruction (spec/03 R76). -/
abbrev Inst128 := BitVec 128

/-- Sparse data by key: pairs with strictly rising keys (spec/05 R124, spec/12 R308 for memories). -/
abbrev KMap (α : Type) := List (Nat × α)

/-- A register file of 2^n registers, indexed by its n-bit register number. -/
abbrev RegFile (n : Nat) (α : Type) := Vector α (2 ^ n)

end Sys2Proof
end

