-- ==== Sys2Proof/Machine/Mem.lean ====
section
/-! DEFINITION. Sparse maps and register files: the one place where keyed data is read and written. -/

namespace Sys2Proof

/-- The entry at a key, or the default an unlisted key reads as. -/
def KMap.get {α : Type} (d : α) : KMap α → Nat → α
  | [], _ => d
  | (k', v) :: t, k => if k' = k then v else KMap.get d t k

/-- Whether a key is listed. -/
def KMap.has {α : Type} : KMap α → Nat → Bool
  | [], _ => false
  | (k', _) :: t, k => if k' = k then true else KMap.has t k

/-- Writes an entry and keeps the keys rising. -/
def KMap.put {α : Type} : KMap α → Nat → α → KMap α
  | [], k, v => [(k, v)]
  | (k', v') :: t, k, v =>
    if k < k' then (k, v) :: (k', v') :: t
    else if k = k' then (k, v) :: t
    else (k', v') :: KMap.put t k v

/-- Removes an entry. -/
def KMap.del {α : Type} : KMap α → Nat → KMap α
  | [], _ => []
  | (k', v') :: t, k => if k' = k then t else (k', v') :: KMap.del t k

/-- Writes an entry in the canonical form: an entry equal to the default is removed. -/
def KMap.set {α : Type} [DecidableEq α] (d : α) (m : KMap α) (k : Nat) (v : α) : KMap α :=
  if v = d then KMap.del m k else KMap.put m k v

/-- The keys rise strictly. -/
def KMap.rising {α : Type} : KMap α → Bool
  | [] => true
  | [_] => true
  | (k, _) :: (k', v') :: t => decide (k < k') && KMap.rising ((k', v') :: t)

/-- The canonical form of a memory: keys rise strictly and no entry equals the default. -/
def KMap.wf {α : Type} [DecidableEq α] (d : α) (m : KMap α) : Bool :=
  KMap.rising m && m.all (fun e => decide (e.2 ≠ d))

/-- Applies a function to every listed entry whose key satisfies a test. -/
def KMap.mapIf {α : Type} (p : Nat → Bool) (f : Nat → α → α) (m : KMap α) : KMap α :=
  m.map (fun e => if p e.1 then (e.1, f e.1 e.2) else e)

/-- Removes every entry whose key satisfies a test. -/
def KMap.delIf {α : Type} (p : Nat → Bool) (m : KMap α) : KMap α :=
  m.filter (fun e => !p e.1)

/-- Reads a register file. -/
def RegFile.get {n : Nat} {α : Type} (r : RegFile n α) (i : BitVec n) : α := r[i.toNat]'i.isLt

/-- Writes a register file. -/
def RegFile.set {n : Nat} {α : Type} (r : RegFile n α) (i : BitVec n) (v : α) : RegFile n α :=
  Vector.set r i.toNat v i.isLt

/-- Changes one register of a register file. -/
def RegFile.modify {n : Nat} {α : Type} (r : RegFile n α) (i : BitVec n) (f : α → α) : RegFile n α :=
  r.set i (f (r.get i))

/-- Reads a fixed-size table at a number, with a default outside it. -/
def tget {α : Type} {n : Nat} (d : α) (v : Vector α n) (i : Nat) : α :=
  if h : i < n then v[i] else d

/-- Writes a fixed-size table at a number; outside it nothing changes. -/
def tset {α : Type} {n : Nat} (v : Vector α n) (i : Nat) (x : α) : Vector α n :=
  if h : i < n then v.set i x else v

/-- Changes one entry of a fixed-size table. -/
def tmod {α : Type} {n : Nat} (v : Vector α n) (i : Nat) (f : α → α) : Vector α n :=
  if h : i < n then v.set i (f v[i]) else v

/-- Bit field of width `w` at bit `lo` of a number. -/
def nfld (v lo w : Nat) : Nat := (v / 2 ^ lo) % 2 ^ w

/-- Packs fields into a number: each pair is a bit position and a value placed there. -/
def packFields (l : List (Nat × Nat)) : Nat := l.foldl (fun a p => a + p.2 * 2 ^ p.1) 0

/-- A Bool as a bit. -/
def b2n (b : Bool) : Nat := if b then 1 else 0

/-- Little-endian bytes of a number (spec/00 R11). -/
def leBytes : Nat → Nat → List Byte
  | 0, _ => []
  | n + 1, v => BitVec.ofNat 8 v :: leBytes n (v / 256)

/-- The number that little-endian bytes spell (spec/00 R11). -/
def leNat : List Byte → Nat
  | [] => 0
  | b :: t => b.toNat + 256 * leNat t

/-- The number in bytes `lo` to `lo + n - 1` of a byte list, little-endian; missing bytes read as 0. -/
def bytesAt (l : List Byte) (lo n : Nat) : Nat := leNat ((l.drop lo).take n)

/-- Adds to a saturating count of `w` bits (the "saturating" counters of the register tables). -/
def satAdd {w : Nat} (c : BitVec w) (n : Nat) : BitVec w :=
  if c.toNat + n < 2 ^ w then BitVec.ofNat w (c.toNat + n) else BitVec.allOnes w

end Sys2Proof
end

