-- ==== Sys2Proof/Names.lean ====
section
/-! DEFINITION. The names of the parts that commands and packets name: cores, ports, links, directions. -/

namespace Sys2Proof

/-- A core position by its global coordinates (spec/01 R27). -/
structure CoreId where
  x : Nat
  y : Nat
  deriving DecidableEq, Repr

/-- The two ports, one on each companion die (spec/01 Table 1.2). -/
inductive Port where
  | a
  | b
  deriving DecidableEq, Repr

/-- The other port. -/
def Port.other : Port → Port
  | .a => .b
  | .b => .a

/-- Port number: A is 0, B is 1 (spec/08 Table 8.3: die 0 or 1). -/
def Port.num : Port → Nat
  | .a => 0
  | .b => 1

/-- The port of a die number. -/
def Port.ofNum (n : Nat) : Port := if n = 0 then .a else .b

/-- Two values, one for each port. -/
structure Pair (α : Type) where
  a : α
  b : α
  deriving DecidableEq, Repr

/-- The value of one port. -/
def Pair.get {α : Type} (p : Pair α) : Port → α
  | .a => p.a
  | .b => p.b

/-- Writes the value of one port. -/
def Pair.set {α : Type} (p : Pair α) (i : Port) (v : α) : Pair α :=
  match i with
  | .a => { p with a := v }
  | .b => { p with b := v }

/-- Changes the value of one port. -/
def Pair.modify {α : Type} (p : Pair α) (i : Port) (f : α → α) : Pair α := p.set i (f (p.get i))

/-- A link of the network (spec/08 R195): a fine-mesh link of a router, a router's hub attachment,
an express link of a hub, or a hub's edge port. Directions are 0 N, 1 E, 2 S, 3 W. -/
inductive LinkId where
  | fine (c : CoreId) (dir : Nat)
  | attach (c : CoreId)
  | express (hx hy dir : Nat)
  | edge (hx hy : Nat)
  deriving DecidableEq, Repr

/-- A holder of a TICK copy (spec/09 R221). -/
inductive TickCopy where
  | field (f : Nat)
  | stack (s : Nat)
  | die (p : Port)
  deriving DecidableEq, Repr

/-- Where a register access comes from (spec/00 R13): a host port's BAR0 registers, its BAR4, a port's BAR2 control view
(a host-chosen address), a port's CTLDATA, a core of the wafer, or the control processor for the owner. -/
inductive RegPath where
  | bar0 (p : Port)
  | bar4 (p : Port)
  | view (p : Port)
  | ctlData (p : Port)
  | wafer
  | cp
  deriving DecidableEq, Repr

end Sys2Proof
end

