-- ==== Sys2Proof/Machine/CoreTypes.lean ====
section
/-! DEFINITION. The state of one core and of its router, and the packets of the network.
Every field's default is its reset value (spec/03 Table 3.1, 04 Tables 4.1, 4.13, 05 Table 5.8, 06 Table 6.4,
07 Tables 7.2-7.4, 08 Table 8.12, 09 Table 9.10, 15 Table 15.10). -/

namespace Sys2Proof.Machine

/-- Core kinds (spec/01 Table 1.4). -/
inductive Kind where
  | mx
  | vx
  | sx
  deriving DecidableEq, Repr

/-- A point of the network: a router, by its position, or a hub, by its hub coordinates (spec/08 R195). -/
inductive At where
  | router (c : CoreId)
  | hub (hx hy : Nat)
  deriving DecidableEq, Repr

/-- Where a packet waits at the boundary of a stopped field (spec/08 R213): the router or hub in front of the link, the port it
entered by, whether it is still on its way to its source's hub, and the stopped field. -/
structure NetPos where
  at_ : At
  inport : Nat
  up : Bool
  into : Nat
  deriving DecidableEq, Repr

/-- One packet of the network (spec/08 R199, Tables 8.3, 8.4): header fields, H1 and payload words with poison.
`counted` and `slot` say whether it is a counted packet and of which job slot (spec/09 R233, R234);
`tag` names the waiting request of a companion die or stack that a reply answers;
A multicast packet is its copies, one per member
(`mc` set, `group` the group number, `dx`, `dy` the member). `pos` is where it waits once it has reached the boundary of a
stopped field; none while it is anywhere else. `out`: it was
handed over while its field held injection for a table swap, and has not entered (spec/08 R211). -/
structure Packet where
  ptype : Nat
  dkind : Nat := 0
  dx : Nat := 0
  dy : Nat := 0
  sx : Nat := 0
  sy : Nat := 0
  mc : Bool := false
  group : Nat := 0
  epoch : BitVec 2 := 0
  len : Nat := 0
  qid : Nat := 0
  h1 : BitVec 64 := 0
  pay : List (Word × Bool) := []
  counted : Bool := false
  slot : Nat := 0
  tag : Nat := 0
  pos : Option NetPos := none
  out : Bool := false
  deriving DecidableEq, Repr

/-- One word of a row commit: address, data, byte mask, poison (spec/05 R133, R135). -/
structure RowWord where
  w : Nat
  data : Word
  mask : BitVec 8
  poison : Bool
  deriving DecidableEq, Repr

/-- Where a row's words go: plain words, entries of a queue's reservation, or a pot's slots. -/
inductive RowKind where
  | plain
  | entries (q rsv : Nat)
  | pot (q slot : Nat)
  deriving DecidableEq, Repr

/-- A row buffer's commit waiting for its grant (spec/05 R133). `src` is the packet the row came from, without
its payload; `own` marks words of the core's own move engine; `staged` a contribution not yet published (spec/09 R236). -/
structure Row where
  words : List RowWord
  kind : RowKind
  send : Nat
  own : Bool
  staged : Bool
  src : Packet
  deriving DecidableEq, Repr

/-- Scratchpad registers (spec/05 Table 5.8) and the next row of the patrol scrub (spec/05 R141).
DESIGN CHOICE (log 75): the patrol begins at row 0 after a wash or a core reset; the manual gives no first row.
DESIGN CHOICE (log 75): `washing` reads 0, since a whole wash is one event and no read falls inside it. -/
structure SpRegs where
  washing : Bool := false
  washFail : Bool := false
  ce : Bool := false
  ue : Bool := false
  unmap : Bool := false
  ceCount : BitVec 32 := 0
  ueCount : BitVec 32 := 0
  poisCount : BitVec 32 := 0
  waitCount : BitVec 32 := 0
  logWord : BitVec 14 := 0
  logOutcome : BitVec 2 := 0
  logSource : BitVec 2 := 0
  logValid : Bool := false
  scrubEn : Bool := true
  scrubPeriod : BitVec 8 := 0x10
  scrubRow : Nat := 0
  deriving DecidableEq, Repr

/-- A command in an engine's queue: its instruction, its address, and the operands read at dispatch
(spec/03 R83, spec/04 R100, R107). `behind` counts the vector commands that must still start before an SVINS copies
its sources (spec/04 R99, R100). SX moves use `thread`, `addr`, `da`, `len`, `qdst`, `qid`. -/
structure Cmd where
  inst : Inst128 := 0
  epc : Nat := 0
  addr : Nat := 0
  addr2 : Nat := 0
  sA : BitVec 32 := 0x3F80_0000
  sB : BitVec 32 := 0x3F80_0000
  va : BitVec 1024 := 0
  vb : BitVec 1024 := 0
  msk : BitVec 32 := 0
  behind : Nat := 0
  thread : Nat := 0
  da : Nat := 0
  len : Nat := 0
  qdst : Bool := false
  qid : Nat := 0
  deriving DecidableEq, Repr

/-- An engine: its command queue, the commands in progress (started, not completed), and whether its head
waits on its semaphore (spec/06 R148, R150). -/
structure Engine where
  queue : List Cmd := []
  prog : List Cmd := []
  waiting : Bool := false
  deriving DecidableEq, Repr

/-- What holds the MX or VX sequencer at the instruction at its program counter (spec/06 R149, R150, spec/03 R86,
spec/09 R230). -/
inductive SeqHold where
  | none
  | sem (s : Nat)
  | queue (q n : Nat)
  | release
  | full
  | credit (q n : Nat)
  deriving DecidableEq, Repr

/-- A loop in progress (spec/03 R86): first body word, body length in instructions, registers to advance. -/
structure Loop where
  start : BitVec 13
  len : Nat
  adv : BitVec 8
  deriving DecidableEq, Repr

/-- A stationary tile (spec/03 R59, R81): format code, KV, NV, and element bits, row by row (r * nv + c).
DESIGN CHOICE (log 76): the empty tile of Table 3.1 (KV = 0, NV = 0) carries format code 0 (INT8); the manual gives it none. -/
structure Tile where
  fmt : Nat := 0
  kv : Nat := 0
  nv : Nat := 0
  el : List Nat := []
  deriving DecidableEq, Repr

/-- A sieve list descriptor (spec/04 R101, Table 4.7). -/
structure SvList where
  base : BitVec 13 := 0
  km1 : BitVec 10 := 0
  dir : Bool := false
  ktype : Bool := false
  nanpol : Bool := false
  valid : Bool := false
  deriving DecidableEq, Repr

/-- What an SX thread waits for (spec/04 R115, spec/06 R149, spec/09 R230, R231). -/
inductive ThreadWait where
  | none
  | sem (s : Nat)
  | queue (q n : Nat)
  | steer (qt qv : Nat)
  | mvsync
  | room
  | held
  | credit (q n : Nat)
  | xpdone
  deriving DecidableEq, Repr

/-- An SX thread context (spec/04 R112, Table 4.12): `moves` counts its MOVEs not yet completed. -/
structure Thread where
  g : RegFile 4 (BitVec 32) := Vector.replicate 16 0
  pc : BitVec 15 := 0
  run : Bool := false
  wait : ThreadWait := .none
  tickHi : BitVec 32 := 0
  moves : Nat := 0
  deriving DecidableEq, Repr

/-- A queue descriptor (spec/07 Table 7.2). -/
structure QDesc where
  base : BitVec 13 := 0
  depth : BitVec 13 := 0
  esize : BitVec 3 := 0
  mode : BitVec 3 := 0
  state : BitVec 2 := 0
  epoch : BitVec 2 := 0
  expect : BitVec 12 := 0
  ftype : Bool := false
  dir : Bool := false
  nanpol : Bool := false
  klenm1 : BitVec 10 := 0
  pair : BitVec 4 := 0
  pen : Bool := false
  cren : Bool := false
  crgrp : Bool := false
  crx : BitVec 10 := 0
  cry : BitVec 10 := 0
  crq : BitVec 4 := 0
  deriving DecidableEq, Repr

/-- Entries reserved for one send to a PLAIN queue (spec/07 R166): how many, how many of its words have been
committed, how many entries have counted, and whether it waits for publication (spec/09 R236). -/
structure Rsv where
  id : Nat
  entries : Nat
  done : Nat := 0
  counted : Nat := 0
  staged : Bool := false
  deriving DecidableEq, Repr

/-- A pot slot's contribution counter (spec/07 R184); `staged`: it holds a contribution not yet published (spec/09 R236). -/
structure PotSlot where
  contrib : Nat := 0
  staged : Bool := false
  deriving DecidableEq, Repr

/-- A queue: descriptor, pointers, occupancy and counters (spec/07 R169-R177). -/
structure Queue where
  d : QDesc := {}
  head : Nat := 0
  tail : Nat := 0
  count : Nat := 0
  rsv : List Rsv := []
  slots : KMap PotSlot := []
  stgCredits : Nat := 0
  idWrites : List Nat := []
  drop : BitVec 16 := 0
  epdrop : BitVec 16 := 0
  acc : BitVec 32 := 0
  deriving DecidableEq, Repr

/-- A proof run request (spec/15 R399, Table 15.10 PRFRUN). -/
structure RunReq where
  entry : BitVec 13
  cx : BitVec 10
  cy : BitVec 10
  d : BitVec 8
  deriving DecidableEq, Repr

/-- Proofing registers and proof logic of a core (spec/15 R397-R400, Table 15.10). `requests` are run requests of
this core's tiles not yet taken by their proofer; `running` is the run in progress on this core. -/
structure Prf where
  table : BitVec 13 := 0
  px : BitVec 10 := 0
  py : BitVec 10 := 0
  pq : BitVec 4 := 0
  vx : BitVec 10 := 0
  vy : BitVec 10 := 0
  en : Bool := false
  isOpen : Bool := false
  sampled : Bool := false
  d : BitVec 8 := 0
  tileno : BitVec 12 := 0
  tileExpo : Nat := 0
  runq : List RunReq := []
  running : Option RunReq := none
  held : Bool := false
  requests : List (CoreId × RunReq) := []
  count : BitVec 32 := 0
  deriving DecidableEq, Repr

/-- What the words of an instruction held before a write landed on them, where the fetch may have come first (spec/03 R76, R87,
spec/04 R108, R117): the thread (0 for a sequencer), the instruction's address in the program counter's unit, and its code words. -/
structure Stale where
  thread : Nat
  pc : Nat
  lo : Code
  hi : Code
  deriving DecidableEq, Repr

/-- One core (everything the wash clears, spec/05 R144). `sxLast` is the thread that issued last (spec/04 R114); DESIGN CHOICE
(log 77): thread 3 after a reset, so that T0 comes first. `xpZero`: a core reset has returned XPNO to 0, and no exposure has begun
since (spec/09 R258). -/
structure CoreState where
  -- scratchpad
  mem : KMap Code := []
  stale : List Stale := []
  rewrites : KMap (Nat × Code) := []
  rows : List Row := []
  nextSend : Nat := 0
  portClosed : Bool := false
  sp : SpRegs := {}
  -- numeric status
  nx : BitVec 7 := 0
  nxCount : BitVec 16 := 0
  -- run state and error
  run : Bool := false
  halted : Bool := false
  err : Bool := false
  errCode : BitVec 8 := 0
  errEpc : BitVec 15 := 0
  errEngine : BitVec 3 := 0
  errTaken : Bool := false
  sched : Bool := false
  entry : BitVec 13 := 0
  -- MX and VX sequencer
  pc : BitVec 13 := 0
  a : RegFile 3 (BitVec 13) := Vector.replicate 8 0
  str : RegFile 3 (BitVec 13) := Vector.replicate 8 0
  lc0 : BitVec 16 := 0
  lc1 : BitVec 16 := 0
  loop0 : Option Loop := none
  loop1 : Option Loop := none
  hold : SeqHold := .none
  heldInst : Inst128 := 0
  -- MX
  sc : RegFile 3 (BitVec 32) := Vector.replicate 8 0x3F80_0000
  active : Tile := {}
  shadow : Option Tile := none
  acc : KMap Xacc := []
  accFp : RegFile 6 Bool := Vector.replicate 64 false
  mxSteps : BitVec 32 := 0
  mxStall : BitVec 32 := 0
  -- VX
  v : RegFile 5 (BitVec 1024) := Vector.replicate 32 0
  m : RegFile 2 (BitVec 32) := Vector.replicate 4 0
  u : RegFile 3 (BitVec 32) := Vector.replicate 8 0
  lists : RegFile 4 SvList := Vector.replicate 16 {}
  vxOps : BitVec 32 := 0
  svRej : BitVec 32 := 0
  svDup : BitVec 32 := 0
  svNan : BitVec 32 := 0
  svInsrt : BitVec 32 := 0
  -- SX
  th : RegFile 2 Thread := Vector.replicate 4 {}
  sxLast : BitVec 2 := 3
  sxIssue : BitVec 32 := 0
  -- engines 1 (array, vector unit), 2 (move; also the SX move engine), 3 (sieve)
  e1 : Engine := {}
  e2 : Engine := {}
  e3 : Engine := {}
  -- semaphores
  sem : RegFile 4 (BitVec 8) := Vector.replicate 16 0
  semErrSem : BitVec 4 := 0
  semErrEngine : BitVec 2 := 0
  semErrCount : BitVec 8 := 0
  semErrKind : Bool := false
  semErrValid : Bool := false
  semStall : BitVec 32 := 0
  semSig : BitVec 32 := 0
  -- queues
  q : RegFile 4 Queue := Vector.replicate 16 {}
  qnakCnt : BitVec 32 := 0
  qnakReason : BitVec 3 := 0
  qnakQueue : BitVec 4 := 0
  qnakX : BitVec 10 := 0
  qnakY : BitVec 10 := 0
  qnakValid : Bool := false
  qerrQueue : BitVec 4 := 0
  qerrX : BitVec 10 := 0
  qerrY : BitVec 10 := 0
  qerrSrcValid : Bool := false
  qerrValid : Bool := false
  -- exposures
  done : Bool := false
  xpZero : Bool := false
  part : Bool := false
  epoch : BitVec 2 := 0
  stopat : Bool := false
  stopped : Bool := false
  xphWait : BitVec 32 := 0
  held : List (Nat × Packet) := []
  credHold : RegFile 4 Nat := Vector.replicate 16 0
  xpdWait : List Nat := []
  -- proofing
  prf : Prf := {}
  -- network
  netNak : BitVec 32 := 0
  netReason : BitVec 4 := 0
  netX : BitVec 10 := 0
  netY : BitVec 10 := 0
  netValid : Bool := false
  deriving DecidableEq, Repr

/-- The router of a position, which the wash leaves alone (spec/05 R144, spec/08 R219, Table 8.12): NETRD0 with it. -/
structure Router where
  down : BitVec 4 := 0
  attDown : Bool := false
  xmin : BitVec 6 := 24
  linkCe : BitVec 32 := 0
  linkRpl : BitVec 32 := 0
  fwd : BitVec 32 := 0
  blk : BitVec 32 := 0
  netrd0 : Word := 0
  exA : KMap (BitVec 32) := []
  exS : KMap (BitVec 32) := []
  fkA : KMap (BitVec 32) := []
  fkS : KMap (BitVec 32) := []
  deriving DecidableEq, Repr

/-- A READ combined at a hub (spec/08 R217): the earlier READ, the exposure of the hub's field in which it reached the hub
(spec/09 R236), and the later requesters. -/
structure Combine where
  lead : Packet
  expo : Nat := 0
  waiters : List Packet
  deriving DecidableEq, Repr

/-- The hub of a hub group (spec/08 Table 8.13). -/
structure Hub where
  xdown : BitVec 4 := 0
  attDown : BitVec 4 := 0
  edgeDown : Bool := false
  cmb : List Combine := []
  cmbCount : BitVec 32 := 0
  fwd : BitVec 32 := 0
  rpl : BitVec 32 := 0
  exA : KMap (BitVec 32) := []
  exS : KMap (BitVec 32) := []
  fkA : KMap (BitVec 32) := []
  fkS : KMap (BitVec 32) := []
  deriving DecidableEq, Repr

end Sys2Proof.Machine
end

