-- ==== Sys2Proof/Machine/JobTypes.lean ====
section
/-! DEFINITION. Jobs: base configurations, overlays and the job table (spec/09 R224-R257, spec/13 R351-R353).
DESIGN CHOICE (log 12): the byte layout of images and overlays is open (spec/13 R353); a command that reads one
carries its decoded content. -/

namespace Sys2Proof.Machine

/-- A core position by logical field and raster position within the field (spec/09 R225, R241). -/
structure LPos where
  lf : Nat
  pos : Nat
  deriving DecidableEq, Repr

/-- A queue of an image: descriptor, and its credit target as a logical position where it names a core. -/
structure QImage where
  n : Nat
  d : QDesc
  target : Option LPos := none
  deriving DecidableEq, Repr

/-- One scheduled core's configuration (spec/09 R241): scratchpad images by word, descriptors, XPCFG, entry address
and PRFCFG with its proofer and voter by logical position. -/
structure CoreImage where
  at_ : LPos
  words : List (Nat × Word) := []
  queues : List QImage := []
  part : Bool := true
  epoch : BitVec 2 := 0
  entry : BitVec 13 := 0
  prf : Prf := {}
  proofer : Option LPos := none
  voter : Option LPos := none
  deriving DecidableEq, Repr

/-- What a placement-dependent device address names (spec/09 R225, spec/12 Table 12.4): a core, by X and Y in DA[43:24], or a field
controller, by its field number in DA[31:24]. -/
inductive RelocTo where
  | core (p : LPos)
  | fc (lf : Nat)
  deriving DecidableEq, Repr

/-- One placement-dependent device address in an image or a patch (spec/09 R225, Table 9.6): the word that holds it. -/
structure Reloc where
  at_ : LPos
  word : Nat
  target : RelocTo
  deriving DecidableEq, Repr

/-- One run of carried state and its place in the two checkpoint areas: a region of the job in one stack, and its first byte in
each area (spec/09 R251). -/
structure CkptItem where
  at_ : LPos
  word : Nat
  len : Nat
  region : Nat := 0
  stack : Nat := 0
  off0 : Nat
  off1 : Nat
  deriving DecidableEq, Repr

/-- A base configuration (spec/09 R241). `working` and `spares` are grid offsets from the first working field; `region0` is the
configuration size (spec/13 R351); `regions` names each stack region's number, stacks and size; `kernelIn` each input's
number, core and queue (spec/13 R352); `mainBytes` is what LOAD_JOB stores in region 0. -/
structure JobImage where
  working : List (Int × Int) := []
  spares : List (Int × Int) := []
  cores : List CoreImage := []
  relocs : List Reloc := []
  groups : List (Nat × List LPos) := []
  expLen : Nat := 64
  holdMax : Nat := 0
  ckptSpacing : Nat := 1
  ckptItems : List CkptItem := []
  region0 : Nat := 0
  regions : List (Nat × List Nat × Nat) := []
  kernelIn : List (Nat × LPos × Nat) := []
  mainBytes : List Byte := []
  deriving DecidableEq, Repr

/-- Queue actions of Table 9.9. -/
inductive QAction where
  | keep
  | set
  | renew
  | reset
  deriving DecidableEq, Repr

/-- Core actions of Table 9.8. -/
inductive CoreAction where
  | resume
  | reenter (entry : BitVec 13)
  deriving DecidableEq, Repr

/-- The changes an overlay makes to one core (spec/09 Table 9.6). -/
structure CoreChange where
  at_ : LPos
  queues : List (QImage × QAction) := []
  part : Option Bool := none
  epoch : Option (BitVec 2) := none
  action : CoreAction := .resume
  patch : List (Nat × Word) := []
  deriving DecidableEq, Repr

/-- An overlay (spec/09 R242, Table 9.6). A fault overlay names the lost logical field and one logical spare. `relocs` are the
placement-dependent addresses among its patch words. -/
structure Overlay where
  id : Nat := 0
  fault : Option (Nat × Nat) := none
  changes : List CoreChange := []
  relocs : List Reloc := []
  groups : List (Nat × List LPos) := []
  expLen : Option Nat := none
  holdMax : Option Nat := none
  deriving DecidableEq, Repr

/-- Job states (spec/09 Table 9.1); `empty` is an empty slot. -/
inductive JobState where
  | empty
  | loaded
  | running
  | paused
  | suspended
  | stopped
  deriving DecidableEq, Repr

/-- The safelight interval of a job (spec/09 R245, R246): none, an overlay staged, armed, or the interval's phases. -/
inductive Safelight where
  | idle
  | staged (o : Overlay)
  | armed (o : Overlay)
  | drain (o : Overlay)
  | apply (o : Overlay)
  deriving DecidableEq, Repr

/-- Reasons of its own that hold a job's develop point (spec/09 Table 9.3); LATE, CLOCK and POWER follow from the rest of the
state. -/
structure Holds where
  fault : Bool := false
  coreError : Bool := false
  test : Bool := false
  pause : Bool := false
  deriving DecidableEq, Repr

/-- A stack region of a job (spec/13 R351). -/
structure Region where
  id : Nat
  stack : Nat
  off : Nat
  size : Nat
  deriving DecidableEq, Repr

/-- A logged input of a companion die (spec/09 R254): the exposure, the packet with its logical destination. -/
structure LogEntry where
  expo : Nat
  die : Port
  pkt : Packet
  dest : Option LPos
  deriving DecidableEq, Repr

/-- An input of a job sent and not yet answered (spec/13 R352): its number, its INPUT, the journaled command, where it went. -/
structure InputSent where
  num : Nat
  input : Nat
  entry : Nat
  dest : LPos
  queue : Nat
  deriving DecidableEq, Repr

/-- An overrun record (spec/09 Table 9.4): header fields and entries. -/
structure OverrunRec where
  flags : Nat
  expNo : Nat
  sched : Nat
  stopTick : Nat
  holdMax : Nat
  sum : BitVec 32
  notReady : Nat
  entries : List (BitVec 128)
  deriving DecidableEq, Repr

/-- One slot of the job table. `fields` maps logical fields to field numbers (none once lost), `spareFields` logical
spares; `begin_` is B(n) and `sched` D(n); `held` while the develop point is held, with `waitAll` the queues whose WAITING was
set in every sample so far. `faultFields` are fields of the partition lost or with a dead core; `inPlace` asks for a roll-back
in place; `noCover` while PAUSED for want of a fault overlay; `rolled` after a roll-back whose step 4 waits for RESUME.
`epochAdd` counts roll-backs modulo 4 and `renews` the RENEWs of each queue; `replayTo` is the held exposure while an input log is replayed. -/
structure Job where
  state : JobState := .empty
  image : JobImage := {}
  regions : List Region := []
  ovActive : KMap Overlay := []
  ovShadow : KMap Overlay := []
  inForce : List Overlay := []
  fields : List (Option Nat) := []
  spareFields : List (Option Nat) := []
  expNo : Nat := 0
  begin_ : Nat := 0
  sched : Nat := 0
  lastDev : Nat := 0
  expLen : Nat := 64
  holdMax : Nat := 0
  lastCkpt : Nat := 0
  holds : Holds := {}
  held : Bool := false
  lateTicks : Nat := 0
  waitAll : List (CoreId × Nat) := []
  faultFields : List Nat := []
  inPlace : Bool := false
  noCover : Bool := false
  rolled : Bool := false
  poisonAt : List (CoreId × Nat) := []
  safelight : Safelight := .idle
  pauseReq : Bool := false
  preemptReq : Bool := false
  commitReq : Bool := false
  warnFrom : Option Nat := none
  overrun : Option OverrunRec := none
  log : List LogEntry := []
  replayTo : Option Nat := none
  inputs : List InputSent := []
  nextInput : Nat := 0
  epochAdd : Nat := 0
  renews : List (LPos × Nat) := []
  proof : List (Nat × Nat × BitVec 64) := []
  debugHold : Bool := false
  holdSecs : Nat := 0
  deriving DecidableEq, Repr

end Sys2Proof.Machine
end

