-- ==== Sys2Proof/Machine/ModTypes.lean ====
section
/-! DEFINITION. Fields, stacks and the module around the wafer. Every default is the reset value of the register tables
(spec/09 Table 9.11, spec/14 Table 14.6, spec/15 Table 15.11). -/

namespace Sys2Proof.Machine

/-- An error record (spec/15 Table 15.3); the bytes of the record are formed from it. `unit` 0xFF, `field` 0xFF,
`job` 0xFF and coordinates 0xFFFF stand for none. `stamp`, no byte of the
record, is when its writer wrote it, by the clock of the control domain or by an MC's (spec/09 R221). -/
structure ErrRec where
  cls : Nat
  seqno : Nat := 0
  tick : Nat := 0
  severity : Nat := 0
  source : Nat := 0
  field : Nat := 0xFF
  job : Nat := 0xFF
  x : Nat := 0xFFFF
  y : Nat := 0xFFFF
  unit : Nat := 0xFF
  action : Nat := 0
  expNo : Nat := 0
  code : Nat := 0
  detail : List Byte := []
  ownGen : Nat := 0
  count : Nat := 1
  flags : Nat := 0
  stamp : Nat := 0
  deriving DecidableEq, Repr

/-- What XPLEN, XPHMAX, XPEXPNO, XPSCHED, XPLAST and XPCKPT keep once a field has left its partition: only a field reset or a start
returns them to 0 (spec/09 R259). -/
structure XpKept where
  lenm1 : Nat := 0
  holdMax : Nat := 0
  expNo : Nat := 0
  sched : Nat := 0
  lastDev : Nat := 0
  lastCkpt : Nat := 0
  deriving DecidableEq, Repr

/-- A vote in progress (spec/15 R400): the tile's primary, proofer, voter and descriptor, and the voter's result. -/
structure Vote where
  primary : CoreId
  proofer : CoreId
  voter : CoreId
  d : BitVec 8
  result : Option Bool := none
  deriving DecidableEq, Repr

/-- What the field controller last read of one position (spec/15 R394): SPCE, SPUE, SPPOIS, LINKCE, LINKRPL. -/
structure LastRead where
  ce : Nat := 0
  ue : Nat := 0
  pois : Nat := 0
  linkCe : Nat := 0
  linkRpl : Nat := 0
  deriving DecidableEq, Repr

/-- A field controller and its field. `votes` are the votes in progress, oldest first, and `prfPend` the sampled tiles without a
result: primary, descriptor and exposure (spec/15 R399, R400). `reports` are protective actions not yet reported: 1 to 3 the switch opened
with that cause, 4 the stop at 100 °C, 5 a throttling step, 6 a fence (spec/01 Table 1.1, R16); `busy`: a
protective action is under way (spec/01 R17); `lost`: a lost field (spec/14 R378, R382). `thermLim` and `powLim` are clock
codes, 20 (650 MHz) for no limit; `thermAt`, `powAt` when the last step was made, `thermUp`, `coolSince` the first sample of an
interval, `closedAt` the switch's closing, all by the control domain's clock (spec/09 R221). `testDue` are the hub groups due, with the
time from which they are due, `testLast` the tick of each one's last due point (spec/15 R408). `loaded`: the active CP has loaded its firmware
(spec/01 R18). `bank` is the code bank that runs, `bankNew` a bank loaded and not switched (spec/17 R446). -/
structure FieldState where
  tick : BitVec 64 := 0
  tickAdj : Int := 0
  tickHi : Vector (BitVec 32) 3 := Vector.replicate 3 0
  -- clock and power (spec/14 Table 14.6)
  clkSet : Nat := 18
  clkEff : Nat := 18
  clkLimit : Nat := 0
  lock : Bool := false
  run : Bool := false
  gated : Bool := false
  clkPend : Option Nat := none
  power : Nat := 0
  swOpen : Bool := false
  cause : Nat := 0
  tstop : Bool := false
  lockout : Bool := false
  closedAt : Option Nat := none
  vcore : BitVec 16 := 0
  amps : BitVec 16 := 0
  watts : BitVec 16 := 0
  tempMax : BitVec 8 := 0
  tempHg : Nat := 0
  tempPeak : BitVec 8 := 0x80
  temps : List Int := []
  coolSince : Option Nat := none
  grant : BitVec 16 := 0
  base : BitVec 16 := 0
  thermLim : Nat := 20
  powLim : Nat := 20
  thermUp : Option Nat := none
  thermAt : Option Nat := none
  powAt : Option Nat := none
  fthr : BitVec 32 := 0
  fgate : BitVec 32 := 0
  -- exposures (spec/09 Table 9.11)
  job : Option Nat := none
  spare : Bool := false
  logical : Nat := 0
  kept : XpKept := {}
  delta : Vector (BitVec 32) 16 := Vector.replicate 16 0
  xpHolds : BitVec 32 := 0
  xpHTicks : BitVec 32 := 0
  xpSafe : BitVec 32 := 0
  -- proofing, errors, test (spec/15 Table 15.11)
  errCe : BitVec 32 := 0
  errUe : BitVec 32 := 0
  pois : BitVec 32 := 0
  prfS : BitVec 32 := 0
  prfM : BitVec 32 := 0
  voteX : BitVec 10 := 0
  voteY : BitVec 10 := 0
  voteFaulty : Bool := false
  voteValid : Bool := false
  votes : List Vote := []
  prfPend : List (CoreId × BitVec 8 × Nat) := []
  nakNoted : Bool := false
  testDue : List (Nat × Nat) := []
  testDefer : Bool := false
  testFail : Bool := false
  testHg : Nat := 0
  testTick : BitVec 32 := 0
  last : KMap LastRead := []
  pendFence : List CoreId := []
  -- route tables (spec/08 R211, R213): every router and hub of the field swaps in one cycle; `rtMissing` are the stopped fields
  -- that the tables in force treat as missing, `rtMissArmed` those of the armed tables
  rtActive : Bool := false
  rtArmed : Bool := false
  rtHeld : Bool := false
  rtMissArmed : List Nat := []
  rtMissing : List Nat := []
  -- control
  lost : Bool := false
  busy : Bool := false
  reports : List Nat := []
  testLast : KMap Nat := []
  loaded : Bool := false
  bank : Nat := 0
  bankNew : Bool := false
  deriving DecidableEq, Repr

/-- The field's core clock runs: powered ON, clock running and not gated (spec/14 R369, R371). -/
def FieldState.clocked (f : FieldState) : Bool := f.run && f.power == 0 && !f.gated

/-- The field's routers and hubs forward: they run on while only the cores are gated (spec/08 R213). -/
def FieldState.forwards (f : FieldState) : Bool := f.run && f.power == 0

/-- A stack and its controller (spec/12 R308, spec/15 R402-R404). `rebuild`: the first unit not yet rebuilt;
`loaded`: the active CP has loaded its firmware (spec/01 R18). -/
structure StackState where
  mem : KMap Code := []
  delta : Vector (BitVec 32) 16 := Vector.replicate 16 0
  tick : BitVec 64 := 0
  tickAdj : Int := 0
  locked : Bool := false
  selfRefresh : Bool := false
  lost : Bool := false
  failed : Bool := false
  rebuild : Option Nat := none
  bank : Nat := 0
  loaded : Bool := false
  deriving DecidableEq, Repr

/-- Supply states (spec/14 R372-R376, spec/19 R475-R476). -/
inductive Supply where
  | off
  | normal
  | warning
  | reset
  deriving DecidableEq, Repr

/-- What the flash devices hold of the module records while a supply warning delays their writes (spec/01 R32, spec/14 R373,
spec/15 R401): the in-service list and FREL.REPLACE. -/
structure FlashCopy where
  service : KMap (BitVec 2)
  serviceHub : KMap Bool
  replace : Bool
  deriving DecidableEq, Repr

/-- The module around the wafer. `sby` counts periods of 10 ns on the standby oscillator while standby power holds, `ctl`
those of the control domain's clock (spec/14 R366). `step` is the step of the start sequence in progress, 0 before
standby power, 10 once it has ended (spec/16 Table 16.3). `warmReq`: a module warm reset has been asked for over the
management network. `coolantNoted`: the coolant condition that holds has its record; `expressOnly`: fields whose controllers the CP
reaches over the express network alone (spec/01 R25). -/
structure ModState where
  sby : Nat := 0
  ctl : Nat := 0
  standby : Bool := false
  step : Nat := 0
  supply : Supply := .off
  present : Bool := false
  presentAt : Nat := 0
  mainClosed : Bool := false
  ctlLock : Bool := false
  tsrc : Port := .a
  tsPresent : Bool := false
  fallback : Bool := true
  stbySrc : Nat := 0
  coolantOk : Bool := false
  coolantNoted : Bool := false
  capOver : Bool := false
  cap : Nat := 27000
  memMode : Bool := false
  prefPort : Option Port := none
  prefEnd : Option Nat := none
  ringBreaks : Nat := 0
  expressOnly : List Nat := []
  replace : Bool := false
  policy : Nat := 0
  advised : Bool := false
  warmReq : Bool := false
  deriving DecidableEq, Repr

end Sys2Proof.Machine
end

