-- ==== Sys2Proof/Machine/HostTypes.lean ====
section
/-! DEFINITION. The two ports, the control processors, firmware and the management controllers (spec/01 R15-R25, spec/12,
spec/13, spec/17, spec/18). Every default is the reset value of the register tables (spec/12 Table 12.10, spec/13 Table 13.1). -/

namespace Sys2Proof.Machine

/-- Completion statuses of PCI Express: Successful, Unsupported Request, Completer Abort, Request Retry Status. -/
inductive Cpl where
  | sc
  | ur
  | ca
  | rrs
  deriving DecidableEq, Repr

/-- TLPs that a port has placed in its transmit order (spec/12 R317, R318, R323, R324). -/
inductive Tx where
  | write (addr : Nat) (bytes : List Byte) (poison : Bool := false)
  | msix (addr data : Nat)
  | readReq (tag addr len : Nat)
  | cpl (tag : Nat) (status : Cpl) (data : List (Word × Bool))
  deriving DecidableEq, Repr

/-- An inbound window (spec/12 Table 12.5). `by_` is the port and the session that opened it. -/
structure InWin where
  base : Nat
  size : Nat
  kind : Nat
  job : Nat
  perm : BitVec 2
  shared : Bool
  reqId : BitVec 16
  reqMask : BitVec 16
  epoch : BitVec 2
  lf : Nat := 0
  lx0 : Nat := 0
  ly0 : Nat := 0
  nx : Nat := 1
  ny : Nat := 1
  sx : Nat := 1
  sy : Nat := 1
  stride : Nat := 8
  boff : Nat := 0
  region : Nat := 0
  stack : Nat := 0
  roff : Nat := 0
  qid : Nat := 0
  by_ : Port × Nat
  closing : Bool := false
  deriving DecidableEq, Repr

/-- An outbound window (spec/12 R316). -/
structure OutWin where
  base : Nat
  size : Nat
  haddr : Nat
  perm : BitVec 2
  by_ : Port × Nat
  deriving DecidableEq, Repr

/-- An inbox slot (spec/13 R335): its bytes written so far; `busy` once committed; `fence` the tags of its fence READs
(spec/12 R322). -/
structure InSlot where
  bytes : KMap Byte := []
  busy : Bool := false
  fence : List Nat := []
  deriving DecidableEq, Repr

/-- An entry of a reply ring not yet written: a reply or an event (spec/13 Table 13.4). -/
structure RingEntry where
  tag : Nat := 0
  status : Nat := 0
  opcode : Nat := 0
  event : Bool := false
  quiet : Bool := false
  payload : List Byte := []
  deriving DecidableEq, Repr

/-- A session (spec/13 R341-R348). `kept` holds entries that wait; `posted` counts entries written; `hist` the last 64
sequence numbers with their status, none while in progress; `lost` counts dropped events. -/
structure Session where
  rbase : Nat
  rlog2 : Nat
  esize : Nat
  vector : Nat
  subJobs : Bool := false
  subErrs : Bool := false
  nextSeq : Nat := 1
  hist : List (Nat × Option Nat) := []
  posted : Nat := 0
  kept : List RingEntry := []
  lost : Nat := 0
  spdm : List (List Byte) := []
  deriving DecidableEq, Repr

/-- An MSI-X vector (spec/12 R324, R325): table entry, pending bit, tick of its last message, and a message held back. -/
structure Msix where
  addr : Nat := 0
  data : Nat := 0
  masked : Bool := true
  pend : Bool := false
  last : Option Nat := none
  heldBack : Bool := false
  deriving DecidableEq, Repr

/-- An inbound read in progress (spec/12 R311, R320): the TLP's tag, when it arrived, and its parts in order: the tag of each
READ with the words that have come back. -/
structure InRead where
  tag : Nat
  at_ : Nat
  win : Option (Port × Nat)
  parts : List (Nat × Option (List (Word × Bool)))
  deriving DecidableEq, Repr

/-- An inbound read that waits behind a replay (spec/09 R254): the TLP's tag, when it arrived, its window, offset and length. -/
structure HeldRead where
  tag : Nat
  at_ : Nat
  win : Port × Nat
  off : Nat
  len : Nat
  deriving DecidableEq, Repr

/-- An outbound READ in progress (spec/12 R318): the requester's packet and the request's tag. -/
structure OutRead where
  tag : Nat
  pkt : Packet
  deriving DecidableEq, Repr

/-- What a companion die waits for from the wafer, by packet tag: a fence READ of a window, a JOB_INPUT's QSEND. -/
inductive Await where
  | fence (port : Port) (win : Nat)
  | input (job num : Nat)
  deriving DecidableEq, Repr

/-- A port and the companion die behind it. `fenceTab`: destinations written since the last fence, with the window
(spec/12 R322). `ready`: the start sequence has readied the port (spec/12 R302). `refAt` and
`settledAt`: when its REFCLK was declared present, and when it settled. `perst` is an assertion of PERST# that is not ignored (spec/19 R471); `cprsnt` reads 1 while no cable is mated. `viaPeer`: its edge field is lost, so the
other die carries its traffic (spec/15 R405). -/
structure PortState where
  -- PCI Express function
  cfg : KMap (BitVec 32) := []
  busMaster : Bool := false
  memEnable : Bool := false
  maxPayload : Nat := 128
  maxReadReq : Nat := 512
  d3 : Bool := false
  linkUp : Bool := false
  degraded : Bool := false
  ready : Bool := false
  reset : Bool := false
  -- connector (spec/19 R471)
  perst : Bool := false
  cprsnt : Bool := true
  delaySel : Nat := 7
  pref : Bool := false
  refPresent : Bool := false
  refSettled : Bool := false
  refAt : Nat := 0
  settledAt : Nat := 0
  -- registers (Table 12.10)
  evt : BitVec 7 := 0
  evtEn : BitVec 7 := 0x7F
  wrDeny : BitVec 32 := 0
  rdDeny : BitVec 32 := 0
  rdTmo : BitVec 32 := 0
  obDisc : BitVec 32 := 0
  ctlAddr : BitVec 48 := 0
  winNak : Vector (BitVec 32) 64 := Vector.replicate 64 0
  winAcc : Vector (BitVec 32) 64 := Vector.replicate 64 0
  inWin : Vector (Option InWin) 64 := Vector.replicate 64 none
  outWin : Vector (Option OutWin) 64 := Vector.replicate 64 none
  -- inbox and sessions (Table 13.1)
  slots : Vector InSlot 8 := Vector.replicate 8 {}
  order : List Nat := []
  inboxDisc : BitVec 32 := 0
  logReason : BitVec 4 := 0
  logSlot : BitVec 3 := 0
  logOpcode : BitVec 16 := 0
  logValid : Bool := false
  sess : Vector (Option Session) 16 := Vector.replicate 16 none
  ringCons : Vector (BitVec 16) 16 := Vector.replicate 16 0
  -- MSI-X (R324)
  msixEn : Bool := false
  msixMask : Bool := false
  msix : Vector Msix 64 := Vector.replicate 64 {}
  -- traffic
  fenceTab : List (Packet × Nat) := []
  inReads : List InRead := []
  heldReads : List HeldRead := []
  outReads : List OutRead := []
  grace : Option Nat := none
  tx : List Tx := []
  -- the die's own
  tick : BitVec 64 := 0
  tickAdj : Int := 0
  tagNext : Nat := 1
  await : List (Nat × Await) := []
  viaPeer : Bool := false
  deriving DecidableEq, Repr

/-- A journaled command (spec/01 R21, spec/13 R342-R344). `fence`: tags of fence READs outstanding; `started`: it has
started and is not complete; `param` its bytes from P[0]; `resv`: a reserved header byte was not 0; `aux` a value a command keeps while it waits; `deaf`: its reply is
discarded (spec/13 Table 13.12). -/
structure Entry where
  id : Nat
  port : Port
  sess : Nat
  seq : Nat
  tag : Nat
  opcode : Nat
  quiet : Bool
  param : List Byte
  fence : List Nat := []
  started : Bool := false
  waiting : Bool := false
  resv : Bool := false
  aux : Nat := 0
  deaf : Bool := false
  deriving DecidableEq, Repr

/-- The control processors (spec/01 R15-R25). `active` is none while no CP runs; `up` says which CP is in service;
`lastBeat` is the control domain's time of the last heartbeat. -/
structure CpState where
  active : Option Port := none
  up : Pair Bool := { a := false, b := false }
  cpact : Port := .a
  lastBeat : Nat := 0
  journal : List Entry := []
  nextId : Nat := 0
  owner : Option (Port × Nat) := none
  ownGen : BitVec 32 := 0
  claim : Option Nat := none
  deriving DecidableEq, Repr

/-! ### Firmware (spec/17) -/

/-- A flash slot: its state code of Table 17.5, its generation, and its image. -/
structure FlashSlot where
  state : Nat := 0
  gen : Nat := 0
  image : List Byte := []
  deriving DecidableEq, Repr

/-- One die's flash (Table 17.1): MODULE A and B, MC A and B, LOADER. -/
structure Flash where
  mod : Vector FlashSlot 2 := Vector.replicate 2 {}
  mc : Vector FlashSlot 2 := Vector.replicate 2 {}
  loader : FlashSlot := {}
  deriving DecidableEq, Repr

/-- Sources of an update (Table 17.11). -/
inductive UpdSrc where
  | port (p : Port) (sess : Nat)
  | service
  | pldm
  deriving DecidableEq, Repr

/-- The update in progress: 1 receiving, 2 writing, 3 written, 4 activating (Table 17.11); then P[0] of its activation and the command. -/
structure Update where
  src : UpdSrc
  target : Nat
  size : Nat
  bytes : KMap Byte := []
  state : Nat := 1
  slot : Nat := 0
  arg : Nat := 0
  entry : Option Nat := none
  deriving DecidableEq, Repr

/-- Firmware: fuses (Table 17.3), flash of both dies, the images that run, trial starts, the update. -/
structure FwState where
  keyHash : Vector (BitVec 384) 4 := Vector.replicate 4 0
  revoke : BitVec 4 := 0
  arc : Nat := 0
  modSecret : BitVec 256 := 0
  serial : BitVec 64 := 0
  grade : Nat := 0
  flash : Pair Flash := { a := {}, b := {} }
  runMod : Nat := 0
  runMc : Pair Nat := { a := 0, b := 0 }
  trialAt : Option Nat := none
  mcTrialAt : Pair (Option Nat) := { a := none, b := none }
  upd : Option Update := none
  syncDue : Bool := false
  baud : Nat := 0
  replies : List (List Byte) := []
  deriving DecidableEq, Repr

/-! ### Management (spec/18) -/

/-- Where a management request comes from (spec/18 R459). -/
inductive Mgmt where
  | smbus (p : Port)
  | vdm (p : Port)
  | udp (p : Port) (addr : Nat)
  deriving DecidableEq, Repr

/-- A management controller: its record store with what its receiver has acknowledged, its own count of records, its
receiver, its endpoint IDs by binding, the oldest record's loss, the tick of its last send. -/
structure McState where
  running : Bool := false
  store : List (ErrRec × Bool) := []
  ownCount : Nat := 0
  receiver : Option Nat := none
  eid : Vector Nat 3 := Vector.replicate 3 0
  lossy : Bool := false
  sentAt : Option Nat := none
  sent : List (List Byte) := []
  health : Nat := 0
  deriving DecidableEq, Repr

/-- The settings both MCs share (spec/18 R456), the sensor readings (Table 18.3), records
the MCs wrote that a CP has not yet posted (R465), and the replies sent. -/
structure MgmtState where
  testPeriod : Nat := 86400
  testDefer : Nat := 10
  acl : Vector (Option (Nat × Nat)) 8 := Vector.replicate 8 none
  addrStatic : Option (Nat × Nat × Nat) := none
  sensors : KMap Int := []
  sensorTick : Nat := 0
  mcPend : List ErrRec := []
  replies : List (Mgmt × List Byte) := []
  deriving DecidableEq, Repr

/-- A debug snapshot of a job slot (spec/16 R430-R432). -/
inductive Snap where
  | none
  | asked (port : Port) (sess hold : Nat) (mask : Nat) (space : List Region)
  | held (port : Port) (expires : Nat) (space : List Region) (data : List Byte)
  | expired
  deriving DecidableEq, Repr

end Sys2Proof.Machine
end

