-- ==== Sys2Proof/Syntax.lean ====
section
/-! DEFINITION. The commands: one constructor for each row of the opcode table (spec/95: each is one whole step).
Operands name the acting agent and what reaches the module from outside: TLP bytes, test outcomes, sensor readings, decoded
images (log 12, log 15, log 18). -/

namespace Sys2Proof

open Sys2Proof.Machine

/-- Words that a wash leaves bad, by core: the physical outcome of its verification (spec/05 R147; log 15). -/
abbrev Stuck := List (CoreId × List (Nat × Code))

/-- Shadow tables the route builder has written: exception and fork entries of a router, or of a hub (spec/08 R204, R211). -/
inductive Tables where
  | router (c : CoreId) (ex fk : List (BitVec 32))
  | hub (hx hy : Nat) (ex fk : List (BitVec 32))
  deriving DecidableEq, Repr

/-- A clock domain that locks (spec/14 Table 14.1). -/
inductive ClockDomain where
  | control
  | field (f : Nat)
  | stack (s : Nat)
  deriving DecidableEq, Repr

/-- What an in-field test found failing (spec/15 R411; log 15). -/
inductive TestFail where
  | core (c : CoreId)
  | router (c : CoreId)
  | hub (h : Nat)
  deriving DecidableEq, Repr

/-- What an outbound read of an image brought (spec/13 R353; log 12): the read failed, the image cannot be read or its
digest fails, or its content. -/
inductive HostRead (α : Type) where
  | failed
  | bad
  | ok (a : α)
  deriving DecidableEq, Repr

/-- A connector's straps as sampled (spec/14 R361, spec/19 R471). -/
structure Straps where
  delay : Fin 8
  pref : Bool
  deriving DecidableEq, Repr

/-- Whose trial has run 300 s (spec/17 R440). -/
inductive TrialOf where
  | module
  | mc (p : Port)
  deriving DecidableEq, Repr

/-- PLDM update requests (spec/18 R467). -/
inductive PldmReq where
  | start (target size : Nat)
  | block (off : Nat) (data : List Byte)
  | verify
  deriving DecidableEq, Repr

/-- A command of the block. -/
inductive Instr where
  -- MX instructions: issue at the sequencer of core `c`
  /-- MXNOP (R150) -/
  | mxnop (c : CoreId)
  /-- MXLDS (R71) -/
  | mxlds (c : CoreId)
  /-- MXMMA (R63) -/
  | mxmma (c : CoreId)
  /-- MXCVT (R83) -/
  | mxcvt (c : CoreId)
  /-- MXLDACC (R84) -/
  | mxldacc (c : CoreId)
  /-- MXCLRACC (R84) -/
  | mxclracc (c : CoreId)
  /-- MXMOVE (R85) -/
  | mxmove (c : CoreId)
  /-- MXSETA (R86) -/
  | mxseta (c : CoreId)
  /-- MXSETSC (R86) -/
  | mxsetsc (c : CoreId)
  /-- MXLOOP (R86) -/
  | mxloop (c : CoreId)
  /-- MXQWAIT (R86) -/
  | mxqwait (c : CoreId)
  /-- MXQREL (R86) -/
  | mxqrel (c : CoreId)
  /-- MXHALT (R86) -/
  | mxhalt (c : CoreId)
  -- VX instructions
  /-- VNOP (R150) -/
  | vnop (c : CoreId)
  /-- VMOVE (R108) -/
  | vmove (c : CoreId)
  /-- VSETA (R109) -/
  | vseta (c : CoreId)
  /-- VSETU (R109) -/
  | vsetu (c : CoreId)
  /-- VLOOP (R109) -/
  | vloop (c : CoreId)
  /-- VQWAIT (R109) -/
  | vqwait (c : CoreId)
  /-- VQREL (R109) -/
  | vqrel (c : CoreId)
  /-- VHALT (R109) -/
  | vhalt (c : CoreId)
  /-- VLD (R92) -/
  | vld (c : CoreId)
  /-- VST (R92) -/
  | vst (c : CoreId)
  /-- VOP (R93) -/
  | vop (c : CoreId)
  /-- VFMA (R93) -/
  | vfma (c : CoreId)
  /-- VCMP (R109) -/
  | vcmp (c : CoreId)
  /-- VSEL (R109) -/
  | vsel (c : CoreId)
  /-- VRED (R95) -/
  | vred (c : CoreId)
  /-- VTR (R96) -/
  | vtr (c : CoreId)
  /-- VCVT (R97) -/
  | vcvt (c : CoreId)
  /-- VCVTX (R97) -/
  | vcvtx (c : CoreId)
  /-- VKEY (R98) -/
  | vkey (c : CoreId)
  /-- VIOTA (R98) -/
  | viota (c : CoreId)
  /-- SVCFG (R107) -/
  | svcfg (c : CoreId)
  /-- SVCLR (R102) -/
  | svclr (c : CoreId)
  /-- SVINS (R103) -/
  | svins (c : CoreId)
  /-- SVINSW (R103) -/
  | svinsw (c : CoreId)
  -- SX instructions: issue by thread `t`
  /-- ALU (R121) -/
  | alu (c : CoreId) (t : Fin 4)
  /-- ADDI (R121) -/
  | addi (c : CoreId) (t : Fin 4)
  /-- ANDI (R121) -/
  | andi (c : CoreId) (t : Fin 4)
  /-- ORI (R121) -/
  | ori (c : CoreId) (t : Fin 4)
  /-- XORI (R121) -/
  | xori (c : CoreId) (t : Fin 4)
  /-- SLTI (R121) -/
  | slti (c : CoreId) (t : Fin 4)
  /-- SLTIU (R121) -/
  | sltiu (c : CoreId) (t : Fin 4)
  /-- SHI (R121) -/
  | shi (c : CoreId) (t : Fin 4)
  /-- LUI (R121) -/
  | lui (c : CoreId) (t : Fin 4)
  /-- LB (R117) -/
  | lb (c : CoreId) (t : Fin 4)
  /-- LBU (R117) -/
  | lbu (c : CoreId) (t : Fin 4)
  /-- LH (R117) -/
  | lh (c : CoreId) (t : Fin 4)
  /-- LHU (R117) -/
  | lhu (c : CoreId) (t : Fin 4)
  /-- LW (R117) -/
  | lw (c : CoreId) (t : Fin 4)
  /-- LD (R117) -/
  | ld (c : CoreId) (t : Fin 4)
  /-- LX (R121) -/
  | lx (c : CoreId) (t : Fin 4)
  /-- SB (R117) -/
  | sb (c : CoreId) (t : Fin 4)
  /-- SH (R117) -/
  | sh (c : CoreId) (t : Fin 4)
  /-- SW (R117) -/
  | sw (c : CoreId) (t : Fin 4)
  /-- SD (R117) -/
  | sd (c : CoreId) (t : Fin 4)
  /-- BEQ (R121) -/
  | beq (c : CoreId) (t : Fin 4)
  /-- BNE (R121) -/
  | bne (c : CoreId) (t : Fin 4)
  /-- BLT (R121) -/
  | blt (c : CoreId) (t : Fin 4)
  /-- BGE (R121) -/
  | bge (c : CoreId) (t : Fin 4)
  /-- BLTU (R121) -/
  | bltu (c : CoreId) (t : Fin 4)
  /-- BGEU (R121) -/
  | bgeu (c : CoreId) (t : Fin 4)
  /-- JAL (R121) -/
  | jal (c : CoreId) (t : Fin 4)
  /-- JALR (R121) -/
  | jalr (c : CoreId) (t : Fin 4)
  /-- SEMW (R154) -/
  | semw (c : CoreId) (t : Fin 4)
  /-- SEMS (R152) -/
  | sems (c : CoreId) (t : Fin 4)
  /-- QWAIT (R121) -/
  | sxQwait (c : CoreId) (t : Fin 4)
  /-- QREL (R170) -/
  | sxQrel (c : CoreId) (t : Fin 4)
  /-- STEER (R118) -/
  | steer (c : CoreId) (t : Fin 4)
  /-- SEND (R119) -/
  | send (c : CoreId) (t : Fin 4)
  /-- MOVE (R119) -/
  | move (c : CoreId) (t : Fin 4)
  /-- MVSYNC (R119) -/
  | mvsync (c : CoreId) (t : Fin 4)
  /-- CSRR (R121) -/
  | csrr (c : CoreId) (t : Fin 4)
  /-- TSTART (R113) -/
  | tstart (c : CoreId) (t : Fin 4)
  /-- THALT (R113) -/
  | thalt (c : CoreId) (t : Fin 4)
  -- Core events; `e` is an engine or thread number
  /-- SEMAPHORE_TAKE (R150) -/
  | semaphoreTake (c : CoreId) (e : Nat)
  /-- COMMAND_COMPLETE (R152) -/
  | commandComplete (c : CoreId) (e : Nat) (k : Nat)
  /-- SEM_DEADLOCK (R157) -/
  | semDeadlock (c : CoreId)
  /-- QUEUE_WAIT_END (R169) -/
  | queueWaitEnd (c : CoreId) (e : Nat)
  /-- SEQUENCER_QUEUE_ROOM (R149) -/
  | sequencerQueueRoom (c : CoreId) (e : Nat)
  /-- CORE_ERROR (R407) -/
  | coreError (c : CoreId)
  /-- INBOUND_COMMIT (R133) -/
  | inboundCommit (c : CoreId)
  /-- CORRECTION_REWRITE (R140) -/
  | correctionRewrite (c : CoreId) (bank : Nat)
  /-- PATROL_SCRUB (R141) -/
  | patrolScrub (c : CoreId)
  /-- WASH (R145) -/
  | wash (c : CoreId) (stuck : List (Nat × Code))
  /-- CORE_RESET (R420) -/
  | coreReset (c : CoreId)
  -- Network: `k` is the place of a packet in flight
  /-- WRITE_ARRIVAL (R200) -/
  | writeArrival (k : Nat)
  /-- QSEND_ARRIVAL (R491) -/
  | qsendArrival (k : Nat)
  /-- CREDIT_ARRIVAL (R180) -/
  | creditArrival (k : Nat)
  /-- READ_ARRIVAL (R216) -/
  | readArrival (k : Nat)
  /-- RDATA_ARRIVAL (R216) -/
  | rdataArrival (k : Nat)
  /-- NAK_RECEIVE (R207) -/
  | nakReceive (k : Nat)
  /-- POT_COMBINE (R186) -/
  | potCombine (c : CoreId)
  /-- POT_IDENTITY_WRITE (R186) -/
  | potIdentityWrite (c : CoreId) (q : Nat)
  /-- NETRD1_WRITE (R216) -/
  | netrd1Write (c : CoreId) (v : Word)
  /-- HUB_READ_COMBINE (R217) -/
  | hubReadCombine (k : Nat) (hx : Nat) (hy : Nat)
  /-- LINK_DOWN (R212) -/
  | linkDown (l : LinkId)
  /-- ROUTE_ARM (R211) -/
  | routeArm (f : Nat) (tabs : List Tables)
  /-- ROUTE_SWAP (R211) -/
  | routeSwap (f : Nat)
  -- Exposures; `j` is a job slot
  /-- XPDONE (R229) -/
  | xpdone (c : CoreId) (eng : Nat)
  /-- XPDONE_DEFERRED (R231) -/
  | xpdoneDeferred (c : CoreId)
  /-- DEVELOP_POINT (R235) -/
  | developPoint (j : Nat) (stuck : Stuck)
  /-- OVERRUN (R238) -/
  | overrun (j : Nat)
  /-- SAFELIGHT_DRAIN_END (R246) -/
  | safelightDrainEnd (j : Nat)
  /-- SAFELIGHT_START (R246) -/
  | safelightStart (j : Nat)
  /-- ROLL_BACK (R253) -/
  | rollBack (j : Nat) (stuck : Stuck)
  /-- ROLLBACK_RESTART (R253) -/
  | rollbackRestart (j : Nat)
  -- Faults, proofing, registers
  /-- FAULT_REPORT (R16) -/
  | faultReport (f : Nat)
  /-- TICK_COMPARE (R222) -/
  | tickCompare (h : TickCopy)
  /-- PRFMARK_BEGIN (R398) -/
  | prfmarkBegin (c : CoreId) (d : BitVec 8)
  /-- PRFMARK_END (R399) -/
  | prfmarkEnd (c : CoreId)
  /-- PRFRUN (R399) -/
  | prfrun (c : CoreId)
  /-- PROOF_RUN_START (R399) -/
  | proofRunStart (c : CoreId)
  /-- PRFCMP (R399) -/
  | prfcmp (c : CoreId) (v : Word)
  /-- VOTE_COMPLETE (R400) -/
  | voteComplete (f : Nat)
  /-- JOBACK (R352) -/
  | joback (c : CoreId) (v : Word)
  /-- REGISTER_WRITE (R495) -/
  | registerWrite (p : RegPath) (c : CoreId) (addr : Nat) (v : Word)
  /-- CLEARING_READ (R13) -/
  | clearingRead (p : RegPath) (tag : Nat) (addr : Nat)
  /-- XPTICKLO_READ (R259) -/
  | xptickloRead (p : RegPath) (f : Nat)
  /-- CTLDATA_READ (R334) -/
  | ctldataRead (p : Port) (tag : Nat)
  -- Host traffic
  /-- CONFIG_REQUEST (R302) -/
  | configRequest (p : Port) (tag : Nat) (off : Nat) (w : Option (BitVec 32))
  /-- WINDOW_WRITE_TLP (R315) -/
  | windowWriteTlp (p : Port) (req : BitVec 16) (off : Nat) (bytes : List (Option Byte)) (poison : Bool)
  /-- WINDOW_READ_TLP (R315) -/
  | windowReadTlp (p : Port) (req : BitVec 16) (tag : Nat) (off : Nat) (len : Nat)
  /-- INBOUND_READ_TIMEOUT (R320) -/
  | inboundReadTimeout (p : Port) (tag : Nat)
  /-- OUTBOUND_WRITE (R317) -/
  | outboundWrite (k : Nat)
  /-- OUTBOUND_READ (R318) -/
  | outboundRead (k : Nat)
  /-- OUTBOUND_COMPLETION (R318) -/
  | outboundCompletion (p : Port) (tag : Nat) (data : Option (List (Word × Bool)))
  /-- FENCE_COMPLETE (R322) -/
  | fenceComplete (p : Port)
  /-- MSIX_HOLDOFF_END (R325) -/
  | msixHoldoffEnd (p : Port) (v : Nat)
  /-- INBOX_WRITE (R336) -/
  | inboxWrite (p : Port) (off : Nat) (bytes : List Byte)
  /-- INBOXCTL_ABORT (R337) -/
  | inboxctlAbort (p : Port) (mask : BitVec 8)
  /-- PACKET_TAKE (R342) -/
  | packetTake (p : Port)
  /-- COMMAND_START (R344) -/
  | commandStart (n : Nat)
  /-- KEPT_REPLY_POST (R347) -/
  | keptReplyPost (p : Port) (s : Nat)
  -- Afion opcodes; `n` is the journal number of the accepted command
  /-- HELLO (R341) -/
  | hello (n : Nat)
  /-- BYE (R341) -/
  | bye (n : Nat)
  /-- CLAIM (R327) -/
  | claim (n : Nat)
  /-- YIELD (R327) -/
  | yield (n : Nat)
  /-- SESSION_STATUS (R349) -/
  | sessionStatus (n : Nat)
  /-- NOP (R349) -/
  | nop (n : Nat)
  /-- OPEN_WINDOW (R350) -/
  | openWindow (n : Nat)
  /-- CLOSE_WINDOW (R314) -/
  | closeWindow (n : Nat)
  /-- ALLOC_REGION (R351) -/
  | allocRegion (n : Nat)
  /-- FREE_REGION (R349) -/
  | freeRegion (n : Nat)
  /-- SET_MEMMODE (R349) -/
  | setMemmode (n : Nat)
  /-- LOAD_JOB (R353) -/
  | loadJob (n : Nat) (r : HostRead JobImage)
  /-- UNLOAD_JOB (R226) -/
  | unloadJob (n : Nat)
  /-- START (R225) -/
  | start (n : Nat) (stuck : Stuck)
  /-- PAUSE (R226) -/
  | pause (n : Nat)
  /-- RESUME (R255) -/
  | resume (n : Nat)
  /-- PREEMPT (R256) -/
  | preempt (n : Nat)
  /-- KILL (R427) -/
  | kill (n : Nat) (stuck : Stuck)
  /-- LOAD_OVERLAY (R242) -/
  | loadOverlay (n : Nat) (r : HostRead Overlay)
  /-- APPLY_MODE (R245) -/
  | applyMode (n : Nat)
  /-- COMMIT (R243) -/
  | commit (n : Nat)
  /-- JOB_STATUS (R349) -/
  | jobStatus (n : Nat)
  /-- JOB_INPUT (R352) -/
  | jobInput (n : Nat)
  /-- GET_TICK (R349) -/
  | getTick (n : Nat)
  /-- SET_FALLBACK (R365) -/
  | setFallback (n : Nat)
  /-- WAIT_EXP (R349) -/
  | waitExp (n : Nat)
  /-- SET_PROOFING (R398) -/
  | setProofing (n : Nat)
  /-- SET_SDC_POLICY (R401) -/
  | setSdcPolicy (n : Nat)
  /-- GET_NEGATIVE (R349) -/
  | getNegative (n : Nat)
  /-- READ_ERRORS (R395) -/
  | readErrors (n : Nat)
  /-- READ_OVERRUN (R239) -/
  | readOverrun (n : Nat)
  /-- RUN_TEST (R408) -/
  | runTest (n : Nat) (fails : List TestFail)
  /-- SET_POWER_CAP (R385) -/
  | setPowerCap (n : Nat)
  /-- SET_CLOCK (R367) -/
  | setClock (n : Nat)
  /-- SET_FIELD_POWER (R371) -/
  | setFieldPower (n : Nat) (stuck : Stuck)
  /-- READ_SENSORS (R462) -/
  | readSensors (n : Nat)
  /-- FW_BEGIN (R443) -/
  | fwBegin (n : Nat)
  /-- FW_BLOCK (R443) -/
  | fwBlock (n : Nat)
  /-- FW_END (R443) -/
  | fwEnd (n : Nat)
  /-- FW_ACTIVATE (R445) -/
  | fwActivate (n : Nat)
  /-- FW_STATUS (R454) -/
  | fwStatus (n : Nat)
  /-- GET_IDENTITY (R349) -/
  | getIdentity (n : Nat)
  /-- SPDM (R451) -/
  | spdm (n : Nat)
  /-- SET_DEBUG_HOLD (R430) -/
  | setDebugHold (n : Nat)
  /-- SNAPSHOT (R430) -/
  | snapshot (n : Nat)
  /-- READ_SNAPSHOT (R432) -/
  | readSnapshot (n : Nat)
  -- Module events
  /-- SNAPSHOT_EXPIRY (R432) -/
  | snapshotExpiry (j : Nat)
  /-- HEARTBEAT (R22) -/
  | heartbeat
  /-- TAKEOVER (R22) -/
  | takeover
  /-- RING_BREAK (R25) -/
  | ringBreak (off : List Nat)
  /-- PERST_ASSERT (R471) -/
  | perstAssert (p : Port)
  /-- PORT_RESET (R416) -/
  | portReset (p : Port)
  /-- MODULE_WARM_RESET (R425) -/
  | moduleWarmReset
  /-- FUNCTION_LEVEL_RESET (R417) -/
  | functionLevelReset (p : Port)
  /-- CPRSNT_CHANGE (R471) -/
  | cprsntChange (p : Port) (mated : Bool) (straps : Straps)
  /-- LINK_LOSS (R328) -/
  | linkLoss (p : Port)
  /-- LINK_RETURN (R328) -/
  | linkReturn (p : Port)
  /-- GRACE_EXPIRY (R328) -/
  | graceExpiry (p : Port)
  /-- D3HOT_ENTRY (R331) -/
  | d3hotEntry (p : Port)
  /-- D0_RETURN (R331) -/
  | d0Return (p : Port)
  /-- OWNER_PREF_EXPIRY (R330) -/
  | ownerPrefExpiry
  /-- REFCLK_PRESENT (R361) -/
  | refclkPresent (p : Port)
  /-- REFCLK_SETTLED (R361) -/
  | refclkSettled (p : Port)
  /-- REFCLK_LOST (R364) -/
  | refclkLost (p : Port)
  /-- CLOCK_LOCK (R362) -/
  | clockLock (d : ClockDomain)
  /-- CLOCK_RECOVERY (R365) -/
  | clockRecovery
  /-- STANDBY_TRIM (R363) -/
  | standbyTrim (eth : Bool)
  /-- CLOCK_SWITCH (R367) -/
  | clockSwitch (f : Nat)
  /-- CLOCK_GATE (R369) -/
  | clockGate (f : Nat)
  /-- CLOCK_UNGATE (R369) -/
  | clockUngate (f : Nat)
  /-- SUPPLY_WARNING (R373) -/
  | supplyWarning (mv : Nat)
  /-- SUPPLY_WARNING_CLEAR (R375) -/
  | supplyWarningClear (mv : Nat)
  /-- POWER_HOLD_PAUSE (R374) -/
  | powerHoldPause (j : Nat)
  /-- SUPPLY_RESET (R376) -/
  | supplyReset (mv : Nat)
  /-- SUPPLY_RETURN (R376) -/
  | supplyReturn (mv : Nat)
  /-- RAIL_FAULT (R377) -/
  | railFault (f : Nat) (cause : Nat)
  /-- FIELD_LOST (R378) -/
  | fieldLost (f : Nat)
  /-- TEMP_SAMPLE (R380) -/
  | tempSample (f : Nat) (temps : List Int)
  /-- THROTTLE_STEP (R381) -/
  | throttleStep (f : Nat)
  /-- THERMAL_RESTART (R383) -/
  | thermalRestart (f : Nat) (stuck : Stuck)
  /-- COOLANT_STATE_CHANGE (R478) -/
  | coolantStateChange (flow : Bool)
  /-- POWER_SHARE (R386) -/
  | powerShare (fixed : Nat) (draws : List (Nat × Nat × Nat))
  /-- POWER_LIMIT_STEP (R387) -/
  | powerLimitStep (f : Nat)
  /-- ERROR_COUNT_SWEEP (R394) -/
  | errorCountSweep (f : Nat)
  /-- TEST_DUE (R409) -/
  | testDue (f : Nat) (h : Nat) (fails : List TestFail)
  /-- TEST_DEFER_EXPIRY (R409) -/
  | testDeferExpiry (f : Nat) (h : Nat)
  /-- STACK_WRITE (R402) -/
  | stackWrite (k : Nat)
  /-- STACK_READ (R402) -/
  | stackRead (k : Nat)
  /-- STACK_LOST (R403) -/
  | stackLost (s : Nat)
  /-- STACK_RETURN (R404) -/
  | stackReturn (s : Nat)
  /-- STACK_REBUILD_COMPLETE (R404) -/
  | stackRebuildComplete (s : Nat)
  /-- FIELD_RESET (R419) -/
  | fieldReset (f : Nat) (stuck : Stuck) (fails : List TestFail)
  /-- COLD_POWER_ON (R424) -/
  | coldPowerOn (a : Straps) (b : Straps)
  /-- START_SEQUENCE_END (R424) -/
  | startSequenceEnd (stuck : Stuck) (fails : List (Nat × TestFail)) (dead : List Port)
  /-- PRESENT_MATE (R475) -/
  | presentMate
  /-- PRESENT_BREAK (R476) -/
  | presentBreak
  /-- TRIAL_PASS (R440) -/
  | trialPass (t : TrialOf)
  /-- SVC_HELLO (R448) -/
  | svcHello (seq : Nat) (baud : Nat)
  /-- SVC_BEGIN (R449) -/
  | svcBegin (seq : Nat) (target : Nat) (size : Nat)
  /-- SVC_BLOCK (R449) -/
  | svcBlock (seq : Nat) (off : Nat) (data : List Byte)
  /-- SVC_END (R449) -/
  | svcEnd (seq : Nat)
  /-- SVC_ACTIVATE (R449) -/
  | svcActivate (seq : Nat) (arg : Nat)
  /-- SVC_STATUS (R449) -/
  | svcStatus (seq : Nat)
  /-- GET_HEALTH (R460) -/
  | getHealth (m : Mgmt)
  /-- GET_RECORDS (R464) -/
  | getRecords (m : Mgmt) (from_ : Nat)
  /-- SET_TEST (R460) -/
  | setTest (m : Mgmt) (period : Nat) (defer_ : Nat)
  /-- MODULE_RESET (R460) -/
  | moduleReset (m : Mgmt) (key : BitVec 32)
  /-- SET_ACL (R460) -/
  | setAcl (m : Mgmt) (i : Nat) (kind : Nat) (addr : Nat)
  /-- SET_ADDR (R460) -/
  | setAddr (m : Mgmt) (mode : Nat) (ip : Nat) (pre : Nat) (gw : Nat)
  /-- GET_JOBS (R460) -/
  | getJobs (m : Mgmt)
  /-- SET_ENDPOINT_ID (R457) -/
  | setEndpointId (m : Mgmt) (eid : Nat)
  /-- SET_EVENT_RECEIVER (R463) -/
  | setEventReceiver (m : Mgmt) (recv : Nat)
  /-- SENSOR_POLL (R461) -/
  | sensorPoll (vals : List (Nat × Int))
  /-- RECORD_DELIVERY (R463) -/
  | recordDelivery (p : Port) (acked : Bool)
  /-- PLDM_UPDATE (R467) -/
  | pldmUpdate (m : Mgmt) (u : PldmReq)
  /-- ACTIVATE_FIRMWARE (R467) -/
  | activateFirmware (m : Mgmt) (self_ : Bool)
  /-- CANCEL_UPDATE (R467) -/
  | cancelUpdate (m : Mgmt)
  /-- PERST_DEASSERT (R361) -/
  | perstDeassert (p : Port) (straps : Straps)
  /-- LINK_UP (R332) -/
  | linkUp (p : Port) (rate : Nat) (width : Nat)
  /-- STANDBY_POWER_LOSS (R376) -/
  | standbyPowerLoss
  /-- FLIT_REPLAY (R198) -/
  | flitReplay (l : LinkId) (far : Bool)
  /-- DEVELOP_HOLD (R237) -/
  | developHold (j : Nat)
  /-- HANDOVER (R446) -/
  | handover
  deriving DecidableEq, Repr

end Sys2Proof
end

