-- ==== Sys2Proof/Config.lean ====
section
/-! DEFINITION. What one implementation fixes and the values the manual leaves open.
Every constant here is opaque: no proof can see its value (log entries are named at each). -/

namespace Sys2Proof.Config

/-- How many of the writes on an instruction's words its fetch has missed, where the spec leaves that to timing (spec/03 R87, log 4). -/
opaque fetchAge : Nat → Nat

/-- DESIGN CHOICE (log 9): core cycles counted by a stall counter when the wait it counts ends;
the cycle counts of an event are timing the model leaves open. -/
opaque stallCycles : Nat → BitVec 32

/-- DESIGN CHOICE (log 68): corrected code words that a router's inputs count while a packet passes, by draw and router. -/
opaque linkCorrected : Nat → Nat → BitVec 32

/-- DESIGN CHOICE (log 9): input-cycles in which a router's head flit had no output slot while a packet passes, by draw and
router: timing the model leaves open. -/
opaque blockedCycles : Nat → Nat → BitVec 32

/-- DESIGN CHOICE (log 6): units of 64 bytes that a rebuild forms in one tick, by draw: the manual gives a bound on its bandwidth and a
typical time (spec/15 R404). -/
opaque rebuiltUnits : Nat → BitVec 8

/-- DESIGN CHOICE (log 21): EPC and ENGINE of a core error that an arriving packet or a publication raises: no instruction of
the core failed, and the manual gives the two fields no value (spec/07 R194, spec/03 Table 3.16). -/
opaque errorSite : Nat → BitVec 32

/-- DESIGN CHOICE (log 10): SX CSR CYCLE, core cycles since start (spec/04 Table 4.12). -/
opaque cycleCount : Nat → BitVec 32

/-- DESIGN CHOICE (log 17): the trimmed VCORE of a field in mV (spec/14 R368: no nominal value is published). -/
opaque vcoreMv : Nat → BitVec 16

/-- DESIGN CHOICE (log 19): bits of a configuration register whose offset the manual leaves to PCI Express (spec/12 R301). -/
opaque cfgWord : Nat → BitVec 32

/-- DESIGN CHOICE (log 19): offset of a capability in configuration space behind the header: 0 PCI Express, 1 MSI-X, 2 Device Serial Number, 3 Advanced
Error Reporting. -/
opaque capOff : Nat → Nat

/-- DESIGN CHOICE (log 14): the images that flash holds from manufacture, by target of Table 17.2 (spec/17 R433): their
bytes are not in the manual. -/
opaque factoryImage : Nat → List Byte

/-- DESIGN CHOICE (log 14): the key hashes fused at manufacture (spec/17 R436). -/
opaque factoryKeyHash : Nat → BitVec 384

/-- DESIGN CHOICE (log 16): SHA-384, defined by its own standard (spec/17 R434). -/
opaque sha384 : List Byte → BitVec 384

/-- DESIGN CHOICE (log 16): Ed25519 verification (RFC 8032; spec/17 R435) of key, message, signature. -/
opaque ed25519Ok : List Byte → List Byte → List Byte → Bool

/-- DESIGN CHOICE (log 16): ML-DSA-65 verification (FIPS 204; spec/17 R435). -/
opaque mldsaOk : List Byte → List Byte → List Byte → Bool

/-- DESIGN CHOICE (log 16): HKDF with SHA-384 (RFC 5869; spec/17 R450) of secret, salt and label. -/
opaque hkdf : BitVec 256 → List Byte → List Byte → BitVec 256

/-- DESIGN CHOICE (log 16): the SPDM 1.2 response (spec/17 R451-R453) to a request, given the requests
of the connection so far, the measurement values and the four key seeds. -/
opaque spdmResponse : List (List Byte) → List Byte → List (BitVec 384) → List (BitVec 256) → List Byte

/-- DESIGN CHOICE (log 14): the digest of the SE's boot code, fixed in silicon (spec/17 Table 17.10). -/
opaque romDigest : Nat → BitVec 384

end Sys2Proof.Config
end

