-- ==== Sys2Proof/Machine/Num.lean ====
section
/-! DEFINITION. Number formats and rounding: spec/02 R34-R36, R46, R48-R56. -/

namespace Sys2Proof.Machine

/-- NXSTAT event bits of Table 2.9: one bit per event, bit 0 NAN_OUT to bit 6 SCALE. -/
abbrev Ev := BitVec 7

def evNanOut : Ev := 1
def evInfOut : Ev := 2
def evXovf : Ev := 4
def evSat : Ev := 8
def evUfl : Ev := 16
def evXspec : Ev := 32
def evScale : Ev := 64

/-- A value read from a floating-point format: NaN, an infinity, or sign and m * 2^e. -/
inductive Fp where
  | nan
  | inf (neg : Bool)
  | fin (neg : Bool) (m : Nat) (e : Int)
  deriving DecidableEq, Repr

/-- A floating-point format of Table 2.1. -/
structure Fmt where
  mbits : Nat
  bias : Nat
  width : Nat
  maxCode : Nat
  infCode : Option Nat
  nanCode : Nat
  deriving DecidableEq, Repr

def fmtE4M3 : Fmt := { mbits := 3, bias := 7, width := 8, maxCode := 0x7E, infCode := none, nanCode := 0x7F }
def fmtE5M2 : Fmt := { mbits := 2, bias := 15, width := 8, maxCode := 0x7B, infCode := some 0x7C, nanCode := 0x7E }
def fmtBF16 : Fmt := { mbits := 7, bias := 127, width := 16, maxCode := 0x7F7F, infCode := some 0x7F80, nanCode := 0x7FC0 }
def fmtFP16 : Fmt := { mbits := 10, bias := 15, width := 16, maxCode := 0x7BFF, infCode := some 0x7C00, nanCode := 0x7E00 }
def fmtFP32 : Fmt :=
  { mbits := 23, bias := 127, width := 32, maxCode := 0x7F7F_FFFF, infCode := some 0x7F80_0000, nanCode := 0x7FC0_0000 }

/-- The value of a bit pattern (spec/02 R34, R36: every NaN encoding is NaN). -/
def fpDecode (f : Fmt) (b : Nat) : Fp :=
  let neg := b.testBit (f.width - 1)
  let mag := b % 2 ^ (f.width - 1)
  if some mag = f.infCode then .inf neg
  else if mag > f.maxCode then .nan
  else
    let ex := mag / 2 ^ f.mbits
    let man := mag % 2 ^ f.mbits
    if ex = 0 then .fin neg man (1 - (f.bias : Int) - f.mbits)
    else .fin neg (man + 2 ^ f.mbits) ((ex : Int) - f.bias - f.mbits)

/-- Quotient rounded to nearest, ties to even. -/
def rneDiv (n d : Nat) : Nat :=
  let q := n / d
  let r := n % d
  if 2 * r < d then q else if 2 * r > d then q + 1 else if q % 2 = 0 then q else q + 1

/-- Rounded value of (n / d) * 2^e as an integer, ties to even. -/
def rneScaled (n d : Nat) (e : Int) : Nat :=
  if e ≥ 0 then rneDiv (n * 2 ^ e.toNat) d else rneDiv n (d * 2 ^ (-e).toNat)

/-- Floor of log2 of n / d, for positive n and d. -/
def log2Frac (n d : Nat) : Int :=
  let k : Int := (n.log2 : Int) - d.log2
  let ge : Bool := if k ≥ 0 then decide (n ≥ d * 2 ^ k.toNat) else decide (n * 2 ^ (-k).toNat ≥ d)
  if ge then k else k - 1

/-- Magnitude code of (n / d) * 2^e rounded to nearest even with an unbounded exponent (spec/02 R52);
a code above `maxCode` is an overflow.  n and d are positive. -/
def roundMag (f : Fmt) (n d : Nat) (e : Int) : Nat :=
  let emin : Int := 1 - (f.bias : Int) - f.mbits
  let q := max (log2Frac n d + e - f.mbits) emin
  (q - emin).toNat * 2 ^ f.mbits + rneScaled n d (e - q)

/-- A bit pattern with the events it set. -/
structure Rnd where
  bits : Nat
  ev : Ev
  deriving DecidableEq, Repr

/-- Sign bit placed over a magnitude code. -/
def withSign (f : Fmt) (neg : Bool) (mag : Nat) : Nat := mag + b2n neg * 2 ^ (f.width - 1)

/-- The canonical NaN, an operation that delivers NaN (spec/02 R36, Table 2.2). -/
def rndNan (f : Fmt) : Rnd := { bits := f.nanCode, ev := evNanOut }

/-- An infinity of VX arithmetic or of the FP32 sequence. -/
def rndInf (f : Fmt) (neg : Bool) : Rnd :=
  match f.infCode with
  | some c => { bits := withSign f neg c, ev := evInfOut }
  | none => rndNan f

/-- IEEE rounding of a finite value: overflow goes to infinity (spec/04 R93), zero keeps its sign. -/
def rndIeee (f : Fmt) (neg : Bool) (n d : Nat) (e : Int) : Rnd :=
  if n = 0 then { bits := withSign f neg 0, ev := 0 }
  else
    let c := roundMag f n d e
    if c > f.maxCode then rndInf f neg
    else { bits := withSign f neg c, ev := if c = 0 then evUfl else 0 }

/-- Exact sum of two finite values: signed numerator at the smaller exponent. -/
def finSum (n1 : Bool) (m1 : Nat) (e1 : Int) (n2 : Bool) (m2 : Nat) (e2 : Int) : Int × Int :=
  let e := min e1 e2
  let a : Int := (m1 * 2 ^ (e1 - e).toNat : Nat)
  let b : Int := (m2 * 2 ^ (e2 - e).toNat : Nat)
  ((if n1 then -a else a) + (if n2 then -b else b), e)

/-- IEEE addition rounded once to the format (spec/02 R46, spec/04 R93). -/
def fpAdd (f : Fmt) (a b : Fp) : Rnd :=
  match a, b with
  | .nan, _ => rndNan f
  | _, .nan => rndNan f
  | .inf s, .inf t => if s = t then rndInf f s else rndNan f
  | .inf s, _ => rndInf f s
  | _, .inf t => rndInf f t
  | .fin s m e, .fin t n g =>
    let v := finSum s m e t n g
    if v.1 = 0 then
      { bits := withSign f (if m = 0 ∧ n = 0 then s && t else false) 0, ev := 0 }
    else rndIeee f (v.1 < 0) v.1.natAbs 1 v.2

/-- Negation of a value. -/
def Fp.negate : Fp → Fp
  | .nan => .nan
  | .inf s => .inf (!s)
  | .fin s m e => .fin (!s) m e

/-- Exact product of two values, as IEEE 754 forms it (NaN for an infinity times zero). -/
def fpMulExact (a b : Fp) : Fp :=
  match a, b with
  | .nan, _ => .nan
  | _, .nan => .nan
  | .inf s, .inf t => .inf (s ^^ t)
  | .inf s, .fin t n _ => if n = 0 then .nan else .inf (s ^^ t)
  | .fin s m _, .inf t => if m = 0 then .nan else .inf (s ^^ t)
  | .fin s m e, .fin t n g => .fin (s ^^ t) (m * n) (e + g)

/-- An exact value rounded once to the format. -/
def fpRound (f : Fmt) (a : Fp) : Rnd :=
  match a with
  | .nan => rndNan f
  | .inf s => rndInf f s
  | .fin s m e => rndIeee f s m 1 e

/-- Product rounded once. -/
def fpMul (f : Fmt) (a b : Fp) : Rnd := fpRound f (fpMulExact a b)

/-- Fused multiply-add rounded once (spec/02 R47, spec/04 R93). -/
def fpFma (f : Fmt) (a b c : Fp) : Rnd := fpAdd f (fpMulExact a b) c

/-- rne32 of a product of two FP32 patterns, as the scale product of spec/02 R48 needs it. -/
def mul32 (a b : Nat) : Nat := (fpMul fmtFP32 (fpDecode fmtFP32 a) (fpDecode fmtFP32 b)).bits

/-- One element of the FP32 sequence of spec/02 R46: s = rne32(s + rne32(a * b)). -/
def mac32 (s : Nat) (a b : Fp) : Nat :=
  let p := fpMul fmtFP32 a b
  (fpAdd fmtFP32 (fpDecode fmtFP32 s) (fpDecode fmtFP32 p.bits)).bits

/-- Order key of a non-NaN value pattern under spec/02 R55: -0 below +0. -/
def fpOrd (f : Fmt) (b : Nat) : Int :=
  let mag := b % 2 ^ (f.width - 1)
  if b.testBit (f.width - 1) then -(mag : Int) - 1 else mag

/-- MAX (or MIN) of two floating-point patterns under spec/02 R55. -/
def fpMaxMin (f : Fmt) (isMax : Bool) (a b : Nat) : Nat :=
  if fpDecode f a = .nan ∨ fpDecode f b = .nan then f.nanCode
  else if (fpOrd f a < fpOrd f b) = isMax then b else a

/-- The ordered key of an FP32 pattern (spec/02 R56). -/
def keyFp32 (b : BitVec 32) : BitVec 32 := if b.getLsbD 31 then ~~~b else b ^^^ 0x8000_0000#32

/-- The ordered key of an INT32 value (spec/02 R56). -/
def keyInt32 (b : BitVec 32) : BitVec 32 := b ^^^ 0x8000_0000#32

/-! ### Conversions -/

/-- Destination formats of a conversion (spec/02 R49, codes of Table 3.12). -/
inductive DFmt where
  | int8 | e4m3 | e5m2 | bf16 | fp16 | fp32 | int32 | xacc
  deriving DecidableEq, Repr

/-- The DFMT code of Table 3.12. -/
def DFmt.ofCode (c : Nat) : DFmt :=
  match c % 8 with
  | 0 => .int8 | 1 => .e4m3 | 2 => .e5m2 | 3 => .bf16 | 4 => .fp16 | 5 => .fp32 | 6 => .int32 | _ => .xacc

/-- Element width in bits. -/
def DFmt.width : DFmt → Nat
  | .int8 => 8 | .e4m3 => 8 | .e5m2 => 8 | .bf16 => 16 | .fp16 => 16 | .fp32 => 32 | .int32 => 32 | .xacc => 128

/-- The floating-point format, where the destination is one. -/
def DFmt.fmt : DFmt → Option Fmt
  | .e4m3 => some fmtE4M3 | .e5m2 => some fmtE5M2 | .bf16 => some fmtBF16 | .fp16 => some fmtFP16
  | .fp32 => some fmtFP32 | _ => none

/-- Most positive and most negative integer of an integer destination (as its bit pattern). -/
def intLimit (d : DFmt) (neg : Bool) : Nat :=
  match d with
  | .int8 => if neg then 0x80 else 0x7F
  | _ => if neg then 0x8000_0000 else 0x7FFF_FFFF

/-- nan delivered in the destination (spec/02 R50). -/
def convNan (d : DFmt) : Rnd :=
  match d.fmt with
  | some f => rndNan f
  | none => { bits := 0, ev := 0 }

/-- overflow(±) delivered in the destination (spec/02 R50, R52, Table 2.8); `ieee` is the mode bit OVM. -/
def convOverflow (d : DFmt) (ieee neg : Bool) : Rnd :=
  match d.fmt with
  | none => { bits := intLimit d neg, ev := evSat }
  | some f =>
    if ieee then
      match f.infCode with
      | some c => { bits := withSign f neg c, ev := evInfOut }
      | none => rndNan f
    else { bits := withSign f neg f.maxCode, ev := evSat }

/-- inf(±) delivered in the destination (spec/02 R50, Table 2.8 last column). -/
def convInf (d : DFmt) (ieee neg : Bool) : Rnd :=
  match d.fmt with
  | none => { bits := intLimit d neg, ev := evSat }
  | some f =>
    match f.infCode with
    | some c => { bits := withSign f neg c, ev := evInfOut }
    | none => if ieee then rndNan f else { bits := withSign f neg f.maxCode, ev := evSat }

/-- Zero of a sign in the destination; an integer destination delivers 0 (spec/02 R51, R54). -/
def convZero (d : DFmt) (neg : Bool) : Rnd :=
  match d.fmt with
  | some f => { bits := withSign f neg 0, ev := 0 }
  | none => { bits := 0, ev := 0 }

/-- round_once of a nonzero exact magnitude m * 2^e (spec/02 R49, R51, R53). -/
def roundOnce (d : DFmt) (ieee neg : Bool) (m : Nat) (e : Int) : Rnd :=
  match d.fmt with
  | some f =>
    let c := roundMag f m 1 e
    if c > f.maxCode then convOverflow d ieee neg
    else { bits := withSign f neg c, ev := if c = 0 then evUfl else 0 }
  | none =>
    let v := rneScaled m 1 e
    let lim := intLimit d false
    if v > (if neg then lim + 1 else lim) then { bits := intLimit d neg, ev := evSat }
    else if v = 0 then { bits := 0, ev := evUfl }
    else { bits := if neg then 2 ^ d.width - v else v, ev := 0 }

/-- NXSTAT.SCALE of a conversion: sAB is NaN, infinite or zero (Table 2.9). -/
def scaleEv (s : Fp) : Ev :=
  match s with
  | .nan => evScale
  | .inf _ => evScale
  | .fin _ m _ => if m = 0 then evScale else 0

/-- The signed value of a 104-bit sum (spec/02 R41). -/
def xaccSum (x : Xacc) : Int := (x.extractLsb' 0 104).toInt

/-- OVF as derived from the sum (spec/02 R41, Table 2.5). -/
def xaccOvf (x : Xacc) : Bool :=
  x.extractLsb' 96 8 != (if x.getLsbD 95 then 0xFF#8 else 0x00#8)

/-- A stored XACC with OVF derived and reserved bits zero (spec/02 R41). -/
def xaccNorm (x : Xacc) : Xacc :=
  let y := (x.extractLsb' 0 107).zeroExtend 128
  if xaccOvf y then y ||| (1#128 <<< 107) else y

/-- XACC addition (spec/02 R42). -/
def xaccAdd (a b : Xacc) : Xacc :=
  let s := a.extractLsb' 0 104 + b.extractLsb' 0 104
  let fl := a.extractLsb' 104 3 ||| b.extractLsb' 104 3
  xaccNorm ((fl ++ s).zeroExtend 128)

/-- Signed value to 104-bit sum. -/
def xaccOfInt (v : Int) : Xacc := xaccNorm ((BitVec.ofInt 104 v).zeroExtend 128)

def xaccNanFlag : Xacc := 1#128 <<< 104
def xaccPinf : Xacc := 1#128 <<< 105
def xaccNinf : Xacc := 1#128 <<< 106

/-- The XACC contribution of one FP8 product (spec/02 R40, R43, Table 2.6). -/
def xaccProduct (a b : Fp) : Xacc :=
  match fpMulExact a b with
  | .nan => xaccNanFlag
  | .inf s => if s then xaccNinf else xaccPinf
  | .fin s m e =>
    let v : Int := (m * 2 ^ (e + 40).toNat : Nat)
    xaccOfInt (if s then -v else v)

/-- The XACC contribution of one INT8 product: an integer in units of 2^-40 (spec/02 R40). -/
def xaccIntProduct (a b : Int) : Xacc := xaccOfInt (a * b * 2 ^ 40)

/-- One conversion from XACC under sAB (spec/02 R48-R53); the destination is not XACC. -/
def convXacc (d : DFmt) (ieee : Bool) (x : Xacc) (sab : Nat) : Rnd :=
  let s := fpDecode fmtFP32 sab
  let v := xaccSum x
  let nan := x.getLsbD 104
  let pinf := x.getLsbD 105
  let ninf := x.getLsbD 106
  let ovf := xaccOvf x
  let base : Ev := scaleEv s ||| (if ovf then evXovf else 0) ||| (if nan || pinf || ninf then evXspec else 0)
  let r : Rnd :=
    match s with
    | .nan => convNan d
    | .inf t =>
      if nan || (pinf && ninf) then convNan d
      else if pinf || ninf then convInf d ieee (ninf ^^ t)
      else if v = 0 then convNan d
      else convOverflow d ieee (decide (v < 0) ^^ t)
    | .fin t m e =>
      if nan || (pinf && ninf) then convNan d
      else if pinf || ninf then if m = 0 then convNan d else convInf d ieee (ninf ^^ t)
      else if ovf then convOverflow d ieee (decide (v < 0) ^^ t)
      else if v = 0 ∨ m = 0 then convZero d false
      else roundOnce d ieee (decide (v < 0) ^^ t) (v.natAbs * m) (e - 40)
  { bits := r.bits, ev := r.ev ||| base }

/-- One conversion from a finite-precision source under sAB (spec/02 R54). -/
def convFp (d : DFmt) (ieee : Bool) (a : Fp) (sab : Nat) : Rnd :=
  let s := fpDecode fmtFP32 sab
  let r : Rnd :=
    match a, s with
    | .nan, _ => convNan d
    | _, .nan => convNan d
    | .inf u, .inf t => convInf d ieee (u ^^ t)
    | .inf u, .fin t m _ => if m = 0 then convNan d else convInf d ieee (u ^^ t)
    | .fin u n _, .inf t => if n = 0 then convNan d else convOverflow d ieee (u ^^ t)
    | .fin u n e, .fin t m g =>
      if n = 0 ∨ m = 0 then convZero d (u ^^ t)
      else roundOnce d ieee (u ^^ t) (n * m) (e + g)
  { bits := r.bits, ev := r.ev ||| scaleEv s }

/-- The value of an integer element. -/
def fpOfInt (v : Int) : Fp := .fin (decide (v < 0)) v.natAbs 0

/-- The value of an element of a source format (codes of Table 3.12 without XACC). -/
def srcValue (d : DFmt) (b : Nat) : Fp :=
  match d with
  | .int8 => fpOfInt (BitVec.ofNat 8 b).toInt
  | .int32 => fpOfInt (BitVec.ofNat 32 b).toInt
  | .e4m3 => fpDecode fmtE4M3 b
  | .e5m2 => fpDecode fmtE5M2 b
  | .bf16 => fpDecode fmtBF16 b
  | .fp16 => fpDecode fmtFP16 b
  | _ => fpDecode fmtFP32 b

/-- INT4 to E4M3 (spec/02 R38, Table 2.3). -/
def int4ToE4M3 (n : Nat) : Nat :=
  match n % 16 with
  | 0 => 0x00 | 1 => 0x38 | 2 => 0x40 | 3 => 0x44 | 4 => 0x48 | 5 => 0x4A | 6 => 0x4C | 7 => 0x4E
  | 8 => 0xD0 | 9 => 0xCE | 10 => 0xCC | 11 => 0xCA | 12 => 0xC8 | 13 => 0xC4 | 14 => 0xC0 | _ => 0xB8

/-- INT4 to INT8 by sign extension (spec/02 R38). -/
def int4ToInt8 (n : Nat) : Nat := ((BitVec.ofNat 4 n).signExtend 8).toNat

end Sys2Proof.Machine
end

