-- ==== Sys2Proof/Machine/Flags.lean ====
section
/-! DEFINITION. Numeric status: how operations set NXSTAT and NXCOUNT (spec/02 R58, Table 2.9). -/

namespace Sys2Proof.Machine

/-- Records one operation's events: NXCOUNT counts an operation that set any bit (Table 2.9).
DEDUCED (log 8): each element of a vector or accumulator row is one operation. -/
def CoreState.noteEv (c : CoreState) (e : Ev) : CoreState :=
  if e = 0 then c else { c with nx := c.nx ||| e, nxCount := satAdd c.nxCount 1 }

/-- Records the events of a list of operations. -/
def CoreState.noteEvs (c : CoreState) (l : List Ev) : CoreState := l.foldl CoreState.noteEv c

/-- NXSTAT as read (Table 2.9). -/
def CoreState.nxstat (c : CoreState) : Nat := c.nx.toNat + c.nxCount.toNat * 2 ^ 16

end Sys2Proof.Machine
end

