-- ==== Sys2Proof/Machine/Operands.lean ====
section
/-! DEFINITION. Instruction words and operand fields: the header of Table 3.7, the field positions of Tables 3.10 to
3.15, 4.4, 4.9, and the range checks made at decode (spec/03 R78, R81-R86, spec/04 R97, R104, R109, R121). -/

namespace Sys2Proof.Machine

/-- Bits [lo + w - 1 : lo] of an instruction. -/
def ifld (i : Inst128) (lo w : Nat) : Nat := nfld i.toNat lo w

/-- OPC (Table 3.7). -/
def iOpc (i : Inst128) : Nat := ifld i 0 8
/-- WSEM (Table 3.7). -/
def iWsem (i : Inst128) : Nat := ifld i 8 4
/-- WEN (Table 3.7). -/
def iWen (i : Inst128) : Bool := i.getLsbD 12
/-- SSEM (Table 3.7). -/
def iSsem (i : Inst128) : Nat := ifld i 13 4
/-- SEN (Table 3.7). -/
def iSen (i : Inst128) : Bool := i.getLsbD 17

/-- Every bit above the header that lies outside the named fields (bit, width) is zero. -/
def reservedZero (i : Inst128) (named : List (Nat × Nat)) : Bool :=
  (List.range 110).all (fun j =>
    !(i.getLsbD (18 + j)) || named.any (fun f => decide (f.1 ≤ 18 + j ∧ 18 + j < f.1 + f.2)))

/-! ### MX: format codes and limits (Tables 3.2, 3.9) -/

/-- Element width in bits of a format code (Table 3.9). -/
def fmtBits (f : Nat) : Nat :=
  match f with
  | 0 => 8 | 1 => 8 | 2 => 8 | 3 => 16 | 4 => 16 | 5 => 32 | _ => 4

/-- KV limit of a format (Table 3.2; INT4 takes the FP8 limits, R81). -/
def kvMax (f : Nat) : Nat :=
  match f with
  | 3 => 4 | 4 => 4 | 5 => 2 | _ => 8

/-- NV limit of a format (Table 3.2). -/
def nvMax (f : Nat) : Nat := if f = 5 then 8 else 16

/-- A pairing of Table 2.4: broadcast format, stationary format. -/
def pairingOk (b s : Nat) : Bool :=
  match b with
  | 0 => s == 0 || s == 6
  | 1 => s == 1 || s == 2 || s == 7
  | 2 => s == 1 || s == 2 || s == 7
  | _ => b == s

/-- Decode check of one MX instruction (spec/03 R78): its opcode is known, its reserved bits are zero and its fields
are in range. -/
def mxLegal (i : Inst128) : Bool :=
  match iOpc i with
  | 0x00 => reservedZero i []
  | 0x1F => reservedZero i []
  | 0x01 => -- MXLDS, Table 3.10
    reservedZero i [(20, 37)] && decide (ifld i 48 4 ≤ kvMax (ifld i 20 3)) &&
      decide (ifld i 52 5 ≤ nvMax (ifld i 20 3))
  | 0x02 => -- MXMMA, Table 3.11, R82
    let mode := ifld i 20 2
    let count := ifld i 50 7
    reservedZero i [(20, 45), (66, 37)] && decide (ifld i 22 3 ≤ 5) && decide (count ≤ 64) &&
      (match mode with
       | 2 => ifld i 64 1 == 0 && decide (ifld i 57 6 + ifld i 94 4 ≤ 64) &&
              decide (ifld i 94 4 ≤ kvMax (ifld i 22 3)) && decide (ifld i 98 5 ≤ nvMax (ifld i 22 3))
       | 3 => false
       | _ => decide (ifld i 57 6 + count ≤ 64) && ifld i 66 37 == 0)
  | 0x03 => -- MXCVT, Table 3.12
    reservedZero i [(20, 54)] && decide (ifld i 26 7 ≤ 64) && decide (ifld i 20 6 + ifld i 26 7 ≤ 64) &&
      decide (ifld i 33 5 ≤ 16)
  | 0x04 => -- MXLDACC, Table 3.13
    reservedZero i [(20, 38)] && decide (ifld i 26 7 ≤ 64) && decide (ifld i 20 6 + ifld i 26 7 ≤ 64)
  | 0x05 => -- MXCLRACC, Table 3.13, R84
    reservedZero i [(20, 14)] && decide (ifld i 26 7 ≤ 64) && decide (ifld i 20 6 + ifld i 26 7 ≤ 64)
  | 0x08 => reservedZero i [(20, 33), (64, 48)] -- MXMOVE, Table 3.14
  | 0x10 => reservedZero i [(20, 17)] && !(i.getLsbD 23 && ifld i 20 3 == 0)
  | 0x11 => if i.getLsbD 23 then reservedZero i [(20, 20)] else reservedZero i [(20, 36)]
  | 0x12 => reservedZero i [(20, 33)] && decide (1 ≤ ifld i 37 8) && !(i.getLsbD 45)
  | 0x13 => reservedZero i [(20, 16)] && decide (1 ≤ ifld i 24 12)
  | 0x14 => reservedZero i [(20, 16)] && decide (1 ≤ ifld i 24 12)
  | _ => false

/-! ### VX: field positions of Table 4.4 -/

def vVd (i : Inst128) : Nat := ifld i 20 5
def vVa (i : Inst128) : Nat := ifld i 25 5
def vVb (i : Inst128) : Nat := ifld i 30 5
def vVc (i : Inst128) : Nat := ifld i 35 5
def vType (i : Inst128) : Nat := ifld i 40 2
def vMen (i : Inst128) : Bool := i.getLsbD 42
def vMreg (i : Inst128) : Nat := ifld i 43 2
def vFn (i : Inst128) : Nat := ifld i 45 6
def vOvm (i : Inst128) : Bool := i.getLsbD 51
def vIdx (i : Inst128) : Nat := ifld i 52 3
def vOff (i : Inst128) : Nat := ifld i 55 13
def vUreg (i : Inst128) : Nat := ifld i 68 3
def vUen (i : Inst128) : Bool := i.getLsbD 71
def vQl (i : Inst128) : Nat := ifld i 72 4
def vN (i : Inst128) : Nat := ifld i 76 12
def vUben (i : Inst128) : Bool := i.getLsbD 92
def vUregb (i : Inst128) : Nat := ifld i 93 3
def vImm (i : Inst128) : Nat := ifld i 96 32

/-- Element bytes of a conversion format code (Table 3.12). -/
def cvtBytes (f : Nat) : Nat :=
  match f with
  | 0 => 1 | 1 => 1 | 2 => 1 | 3 => 2 | 4 => 2 | _ => 4

/-- Elements of a VCVT: 128 bytes by the wider format (spec/04 R97). -/
def cvtCount (sf df : Nat) : Nat := 128 / max (cvtBytes sf) (cvtBytes df)

/-- PART leaves all E elements inside the register (spec/04 R97). DESIGN CHOICE (log 78): with source and destination of one
width PART places nothing, and a PART other than 0 is out of range. -/
def cvtPartOk (sf df part : Nat) : Bool :=
  let e := cvtCount sf df
  let narrow := min (cvtBytes sf) (cvtBytes df)
  if cvtBytes sf = cvtBytes df then part == 0 else decide ((part + 1) * e * narrow ≤ 128)

/-- Decode check of one VX instruction (spec/04 R109, Tables 4.5, 4.6). -/
def vxLegal (i : Inst128) : Bool :=
  let fn := vFn i
  let ty := vType i
  match iOpc i with
  | 0x00 => reservedZero i []
  | 0x1F => reservedZero i []
  | 0x08 => reservedZero i [(20, 33), (64, 48)]
  | 0x10 => reservedZero i [(45, 4), (96, 13)] && !(i.getLsbD 48 && ifld i 45 3 == 0)
  | 0x11 => reservedZero i [(68, 3), (96, 32)]
  | 0x12 => reservedZero i [(45, 1), (96, 32)] && decide (1 ≤ ifld i 112 8) && !(i.getLsbD 120)
  | 0x13 => reservedZero i [(72, 16)] && decide (1 ≤ vN i)
  | 0x14 => reservedZero i [(72, 16)] && decide (1 ≤ vN i)
  | 0x20 => reservedZero i [(20, 5), (42, 5), (52, 16)] && decide (ifld i 45 2 ≤ 2)
  | 0x21 => reservedZero i [(25, 5), (42, 3), (52, 16)]
  | 0x30 => reservedZero i [(20, 15), (40, 11)] && (decide (fn ≤ 7) || (decide (fn ≤ 13) && ty == 3))
  | 0x31 => reservedZero i [(20, 25)]
  | 0x32 => reservedZero i [(20, 2), (25, 10), (40, 11)] && (ty == 0 || ty == 3) && decide (fn ≤ 3)
  | 0x33 => reservedZero i [(20, 15), (42, 3)] -- VSEL ignores MEN (spec/04 R94)
  | 0x34 => reservedZero i [(20, 10), (40, 11)] && decide (fn ≤ 2)
  | 0x35 => reservedZero i [(20, 10), (40, 11)] && ty == 0 && decide (fn ≤ 4)
  | 0x36 => reservedZero i [(20, 10), (35, 2), (45, 7), (68, 4), (92, 4)] && decide (ifld i 45 3 ≤ 6) &&
      decide (ifld i 48 3 ≤ 6) && cvtPartOk (ifld i 48 3) (ifld i 45 3) (ifld i 35 2)
  | 0x37 => reservedZero i [(20, 5), (35, 2), (45, 3), (51, 20), (71, 1), (92, 4)] && decide (ifld i 45 3 ≤ 6) &&
      decide ((ifld i 35 2 + 1) * 32 * cvtBytes (ifld i 45 3) ≤ 128)
  | 0x38 => reservedZero i [(20, 10), (40, 5)] && (ty == 0 || ty == 3)
  | 0x39 => reservedZero i [(20, 5), (40, 5), (68, 3)] && ty == 3
  | 0x50 => reservedZero i [(52, 16), (72, 4), (96, 13)] && !(i.getLsbD 107 && i.getLsbD 108)
  | 0x51 => reservedZero i [(72, 4)]
  | 0x52 => reservedZero i [(25, 10), (42, 3), (72, 4)]
  | 0x53 => reservedZero i [(52, 16), (72, 16)]
  | _ => false

/-! ### SX: formats of Table 4.9 -/

abbrev Inst32 := BitVec 32

def sfld (i : Inst32) (lo w : Nat) : Nat := nfld i.toNat lo w
def sOpc (i : Inst32) : Nat := sfld i 0 6
def sGd (i : Inst32) : Nat := sfld i 6 4
def sGa (i : Inst32) : Nat := sfld i 10 4
def sGb (i : Inst32) : Nat := sfld i 14 4
def sFn (i : Inst32) : Nat := sfld i 18 6
/-- IMM18 sign-extended to 32 bits (spec/04 R120). -/
def sImm18 (i : Inst32) : BitVec 32 := (i.extractLsb' 14 18).signExtend 32
/-- OFF22 sign-extended to 32 bits. -/
def sOff22 (i : Inst32) : BitVec 32 := (i.extractLsb' 10 22).signExtend 32
/-- LUI value: IMM22 shifted left by 10. -/
def sLui (i : Inst32) : BitVec 32 := i &&& 0xFFFF_FC00#32

/-- Decode check of one SX instruction (spec/04 R121, Tables 4.9 to 4.12). -/
def sxLegal (i : Inst32) : Bool :=
  let fn := sFn i
  let top := sfld i 24 8 == 0
  match sOpc i with
  | 0x00 => top && (decide (fn ≤ 0x0D) || (decide (0x10 ≤ fn) && decide (fn ≤ 0x12)))
  | 0x07 => sfld i 21 11 == 0 && decide (sfld i 19 2 ≤ 2)
  | 0x08 => true
  | 0x15 => sGd i % 2 == 0
  | 0x16 => top && decide (fn < 32) && decide (sfld i 20 2 ≤ 2)
  | 0x1B => sGd i % 2 == 0
  | 0x28 => sfld i 14 18 == 0 && sGd i == 0
  | 0x29 => sfld i 14 18 == 0 && sGd i == 0
  | 0x2A => sfld i 14 6 == 0 && sGd i == 0
  | 0x2B => sfld i 14 6 == 0 && sGd i == 0
  | 0x2C => sfld i 23 9 == 0 && sGd i % 2 == 0 && sfld i 18 4 % 2 == 0
  | 0x30 => top && decide (fn < 32) && sGa i % 2 == 0 && sGb i % 2 == 0
  | 0x31 => top && decide (fn < 32) && sGd i % 2 == 0
  | 0x32 => sfld i 6 26 == 0
  | 0x38 => sGa i == 0 && [0, 1, 2, 0x10, 0x11, 0x20].contains (sfld i 14 18)
  | 0x3C => top
  | 0x3E => sfld i 6 26 == 0
  | o => decide ((1 ≤ o ∧ o ≤ 6) ∨ (0x10 ≤ o ∧ o ≤ 0x14) ∨ (0x18 ≤ o ∧ o ≤ 0x1A) ∨ (0x20 ≤ o ∧ o ≤ 0x27))

end Sys2Proof.Machine
end

