-- ==== Sys2Proof/Machine/Sieve.lean ====
section
/-! DEFINITION. The sieve's order and procedure (spec/04 R102-R104), shared by the sieve and the KEEPK pots. -/

namespace Sys2Proof.Machine

/-- The key of a pair: bits [63:32] (spec/04 R102). -/
def pairKey (w : Word) : BitVec 32 := w.extractLsb' 32 32

/-- The index of a pair: bits [31:0] (spec/04 R102). -/
def pairIdx (w : Word) : BitVec 32 := w.extractLsb' 0 32

/-- Pair a ranks before pair b under DIR (spec/04 R102). -/
def pairBefore (dir : Bool) (a b : Word) : Bool :=
  (if dir then (pairKey a).ult (pairKey b) else (pairKey b).ult (pairKey a)) ||
    (pairKey a == pairKey b && (pairIdx a).ult (pairIdx b))

/-- The empty pair of DIR (spec/04 R102). -/
def emptyPair (dir : Bool) : Word := if dir then 0xFFFF_FFFF_FFFF_FFFF else 0x0000_0000_FFFF_FFFF

/-- The NaN keys (spec/04 R104). -/
def isNanKey (k : BitVec 32) : Bool := decide (0xFF80_0001 ≤ k.toNat) || decide (k.toNat ≤ 0x007F_FFFE)

/-- A list and the counters of one sieve procedure (spec/04 R103). -/
structure SvRun where
  list : List Word
  rej : Nat := 0
  dup : Nat := 0
  nan : Nat := 0
  ins : Nat := 0
  deriving DecidableEq, Repr

/-- Second pass of R103 for one survivor. -/
def svTake (dir : Bool) (r : SvRun) (c : Word) : SvRun :=
  match r.list.getLast? with
  | none => { r with rej := r.rej + 1 }
  | some last =>
    if !pairBefore dir c last then { r with rej := r.rej + 1 }
    else
      let p := r.list.findIdx (fun w => pairBefore dir c w)
      if p > 0 ∧ r.list[p - 1]? = some c then { r with dup := r.dup + 1 }
      else { r with list := r.list.take p ++ c :: (r.list.drop p).dropLast, ins := r.ins + 1 }

/-- First pass of R103 for one candidate: the candidate goes on, or is counted. -/
def svFirst (dir nanpol : Bool) (last0 : Word) (st : SvRun × List Word) (c : Word) : SvRun × List Word :=
  if pairIdx c = 0xFFFF_FFFF#32 then ({ st.1 with rej := st.1.rej + 1 }, st.2)
  else if nanpol && isNanKey (pairKey c) then ({ st.1 with nan := st.1.nan + 1 }, st.2)
  else if !pairBefore dir c last0 then ({ st.1 with rej := st.1.rej + 1 }, st.2)
  else (st.1, st.2 ++ [c])

/-- The procedure of R103 on a list and its candidates in order. -/
def svProcedure (dir nanpol : Bool) (l cands : List Word) : SvRun :=
  let st := cands.foldl (svFirst dir nanpol (l.getLastD 0)) ({ list := l }, [])
  st.2.foldl (svTake dir) st.1

end Sys2Proof.Machine
end

