-- ==== Sys2Proof/Machine/Ecc.lean ====
section
/-! DEFINITION. The 80/64 code of spec/15 R390-R392: encoder, syndrome and decoder. -/

namespace Sys2Proof.Machine

/-- XOR of bits 0 to `n - 1` of a number. -/
def parityOf : Nat → Nat → Bool
  | 0, _ => false
  | n + 1, v => (v % 2 == 1) ^^ parityOf n (v / 2)

/-- Remainder step: clears coefficient `i` by the generator 0x4377 (spec/15 R391). -/
def genStep (r i : Nat) : Nat := if r.testBit i then r ^^^ (0x4377 <<< (i - 14)) else r

/-- Remainder of a polynomial of degree at most 78 modulo the generator (spec/15 R391). -/
def genRem (c : Nat) : Nat := (List.range 65).foldl (fun r j => genStep r (78 - j)) c

/-- The code word of 64 data bits and a poison bit (spec/15 R391). -/
def eccEncode (d : Word) (p : Bool) : Code :=
  let u := d.toNat + b2n p * 2 ^ 64
  let c := u * 2 ^ 14
  let c79 := c + genRem c % 2 ^ 14
  BitVec.ofNat 80 (c79 + b2n (parityOf 79 c79) * 2 ^ 79)

/-- Multiplication by alpha in GF(2^7) with x^7 + x^3 + 1 (spec/15 R391). -/
def gfMulX (a : Nat) : Nat := if a.testBit 6 then ((a * 2) ^^^ 0x89) % 128 else a * 2

/-- alpha to the power `i`. -/
def gfPow : Nat → Nat
  | 0 => 1
  | i + 1 => gfMulX (gfPow i)

/-- The powers alpha^0 to alpha^126. -/
def gfTable : List Nat := (List.range 126).foldl (fun l _ => l ++ [gfMulX (l.getLastD 1)]) [1]

/-- Discrete logarithm of a nonzero element (0 for the zero element). -/
def gfLog (a : Nat) : Nat := (gfTable.findIdx? (· == a)).getD 0

/-- Product in GF(2^7). -/
def gfMul (a b : Nat) : Nat :=
  if a = 0 ∨ b = 0 then 0 else gfTable.getD ((gfLog a + gfLog b) % 127) 0

/-- Quotient in GF(2^7) by a nonzero element. -/
def gfDiv (a b : Nat) : Nat :=
  if a = 0 then 0 else gfTable.getD ((gfLog a + 127 - gfLog b) % 127) 0

/-- S1 of a received word: the sum of alpha^i over the set positions 0 to 78 (spec/15 R392). -/
def synd1 (r : Nat) : Nat :=
  (List.range 79).foldl (fun s j => gfMulX s ^^^ b2n (r.testBit (78 - j))) 0

/-- S3 of a received word: the sum of alpha^(3i) over the set positions 0 to 78 (spec/15 R392). -/
def synd3 (r : Nat) : Nat :=
  (List.range 79).foldl (fun s j => gfMulX (gfMulX (gfMulX s)) ^^^ b2n (r.testBit (78 - j))) 0

/-- Decoding outcome of Table 15.1. -/
inductive EccOutcome where
  | clean
  | corrected1
  | corrected2
  | uncorrectable
  deriving DecidableEq, Repr

/-- SPELOG.OUTCOME code of Table 15.1 (0 for a clean word). -/
def EccOutcome.code : EccOutcome → Nat
  | .clean => 0
  | .corrected1 => 1
  | .corrected2 => 2
  | .uncorrectable => 3

/-- What a decoded word gives: outcome, data bits and poison bit (spec/15 R392). -/
structure EccWord where
  outcome : EccOutcome
  data : Word
  poison : Bool
  deriving DecidableEq, Repr

/-- Data bits of a code word: positions 14 to 77 (spec/15 R390). -/
def codeData (r : Nat) : Word := BitVec.ofNat 64 (r / 2 ^ 14)

/-- Poison bit of a code word: position 78 (spec/15 R390). -/
def codePoison (r : Nat) : Bool := r.testBit 78

/-- The word with the given positions flipped. -/
def flipBits (r : Nat) (ps : List Nat) : Nat := ps.foldl (fun a i => a ^^^ (1 <<< i)) r

/-- The positions whose locators solve z^2 + S1 z + (S3 + S1^3)/S1 = 0 (spec/15 R392). -/
def locators (s1 s3 : Nat) : List Nat :=
  let q := gfDiv (s3 ^^^ gfMul s1 (gfMul s1 s1)) s1
  (List.range 127).filter (fun i =>
    let z := gfTable.getD i 0
    (gfMul z z ^^^ gfMul s1 z ^^^ q) == 0)

/-- The rows of Table 15.1 by syndrome (spec/15 R392). -/
def eccSyndrome (c : Code) : EccWord :=
  let r := c.toNat
  let s1 := synd1 r
  let s3 := synd3 r
  let p := parityOf 80 r
  let out (o : EccOutcome) (v : Nat) : EccWord := { outcome := o, data := codeData v, poison := codePoison v }
  if s1 = 0 ∧ s3 = 0 then
    if p then out .corrected1 r else out .clean r
  else if s1 = 0 then out .uncorrectable r
  else if s3 = gfMul s1 (gfMul s1 s1) then
    let i := gfLog s1
    if i ≤ 78 then
      if p then out .corrected1 (flipBits r [i]) else out .corrected2 (flipBits r [i])
    else out .uncorrectable r
  else if p then out .uncorrectable r
  else
    match locators s1 s3 with
    | [i, j] => if i ≤ 78 ∧ j ≤ 78 then out .corrected2 (flipBits r [i, j]) else out .uncorrectable r
    | _ => out .uncorrectable r

/-- Decodes a received word by Table 15.1 (spec/15 R392).  The code is systematic, so S1 = S3 = 0 with P = 0
says that the word is the encoding of its own information bits; the first row is written that way. -/
def eccDecode (c : Code) : EccWord :=
  let d := codeData c.toNat
  let p := codePoison c.toNat
  if c = eccEncode d p then { outcome := .clean, data := d, poison := p } else eccSyndrome c

end Sys2Proof.Machine
end

