-- ==== Sys2Proof/Machine/Spad.lean ====
section
/-! DEFINITION. One core's scratchpad: banks, reads with their outcomes, masked writes, pending rewrites
(spec/05), and the geometry of cores (spec/01 R26-R29). -/

namespace Sys2Proof.Machine

/-- Kind of the core at a position (spec/01 R29, Table 1.4). -/
def coreKind (c : CoreId) : Kind :=
  if (c.x + c.y) % 4 = 3 then .vx else if c.x % 4 = 0 ∧ c.y % 4 = 0 then .sx else .mx

/-- Field number at a grid position, none in the four corners and outside the grid (spec/01 R26). -/
def fieldAt (x y : Nat) : Option Nat :=
  if x ≥ 8 ∨ y ≥ 8 then none
  else if y = 0 then (if 1 ≤ x ∧ x ≤ 6 then some (x - 1) else none)
  else if y = 7 then (if 1 ≤ x ∧ x ≤ 6 then some (53 + x) else none)
  else some (6 + 8 * (y - 1) + x)

/-- Grid position of a field number (spec/01 Table 1.3). -/
def fieldPos (f : Nat) : Nat × Nat :=
  if f < 6 then (f + 1, 0) else if f < 54 then ((f - 6) % 8, (f - 6) / 8 + 1) else (f - 53, 7)

/-- Field of a core, none where no core exists (spec/01 R27). -/
def coreField (c : CoreId) : Option Nat := fieldAt (c.x / 96) (c.y / 128)

/-- Hub group of a core within its field (spec/01 R28). -/
def coreHub (c : CoreId) : Nat := 6 * (c.y % 128 / 16) + c.x % 96 / 16

/-- Position number of a core within its field, raster order (spec/01 R31). -/
def corePos (c : CoreId) : Nat := 96 * (c.y % 128) + c.x % 96

/-- The core at a raster position of a field. -/
def coreAtPos (f p : Nat) : CoreId :=
  { x := 96 * (fieldPos f).1 + p % 96, y := 128 * (fieldPos f).2 + p / 96 }

/-- Key of a core in the core map. -/
def coreKey (c : CoreId) : Nat := 768 * c.y + c.x

/-- The core of a key. -/
def coreOfKey (n : Nat) : CoreId := { x := n % 768, y := n / 768 }

/-- Scratchpad words of a kind (spec/05 Table 5.1). -/
def Kind.words : Kind → Nat
  | .mx => 6144
  | .vx => 8192
  | .sx => 4096

/-- Banks of a kind (spec/05 Table 5.1). -/
def Kind.banks : Kind → Nat
  | .mx => 8
  | .vx => 16
  | .sx => 4

/-- Rows of a kind (spec/05 Table 5.1). -/
def Kind.rows (k : Kind) : Nat := k.words / k.banks

/-- Adds one to a saturating 32-bit count. -/
def sat1 (c : BitVec 32) : BitVec 32 := satAdd c 1

/-- SPELOG keeps the first outcome, and the first uncorrectable one (spec/05 R143). -/
def SpRegs.log (r : SpRegs) (w code src : Nat) : SpRegs :=
  if !r.logValid || (code == 3 && r.logOutcome ≠ 3) then
    { r with logWord := BitVec.ofNat 14 w, logOutcome := BitVec.ofNat 2 code,
             logSource := BitVec.ofNat 2 src, logValid := true }
  else r

/-- SPPOIS counts a read that delivers a stored poison bit (spec/05 Table 5.7). -/
def SpRegs.notePoison (r : SpRegs) (p : Bool) : SpRegs :=
  if p then { r with poisCount := sat1 r.poisCount } else r

/-- The registers after a read of a word with an outcome (spec/05 Table 5.7). -/
def SpRegs.note (r : SpRegs) (e : EccWord) (w src : Nat) : SpRegs :=
  match e.outcome with
  | .clean => r.notePoison e.poison
  | .uncorrectable => SpRegs.log { r with ueCount := sat1 r.ueCount, ue := true } w 3 src
  | .corrected1 => SpRegs.log { r.notePoison e.poison with ceCount := sat1 r.ceCount, ce := true } w 1 src
  | .corrected2 => SpRegs.log { r.notePoison e.poison with ceCount := sat1 r.ceCount, ce := true } w 2 src

/-- The decoded word at an address. -/
def CoreState.dec (c : CoreState) (w : Nat) : EccWord := eccDecode (KMap.get 0 c.mem w)

/-- The data a read of a word delivers (spec/05 Table 5.7). -/
def CoreState.data (c : CoreState) (w : Nat) : Word := (c.dec w).data

/-- Whether a read of a word delivers a poison indication (spec/05 Table 5.7). -/
def CoreState.poisoned (c : CoreState) (w : Nat) : Bool :=
  (c.dec w).poison || (c.dec w).outcome == .uncorrectable

/-- A read of the word delivers it clean and without poison (spec/05 Table 5.7). -/
def CoreState.clean (c : CoreState) (w : Nat) : Bool := (c.dec w).outcome == .clean && !(c.dec w).poison

/-- Queues the rewrite a read asks for; a bank holds at most one (spec/05 R140). -/
def CoreState.addRewrite (k : Kind) (c : CoreState) (w : Nat) (e : EccWord) : CoreState :=
  if e.outcome = .clean ∨ KMap.has c.rewrites (w % k.banks) then c
  else { c with rewrites := KMap.put c.rewrites (w % k.banks)
                  (w, eccEncode e.data (e.poison || e.outcome == .uncorrectable)) }

/-- What one read of a word records (spec/05 R139, R140). `src`: 0 engine, 1 inbound, 3 patrol scrub. -/
def CoreState.noteRead (k : Kind) (src : Nat) (c : CoreState) (w : Nat) : CoreState :=
  let e := c.dec w
  CoreState.addRewrite k { c with sp := c.sp.note e w src } w e

/-- Records the reads of a list of words. -/
def CoreState.noteReads (k : Kind) (src : Nat) (c : CoreState) (ws : List Nat) : CoreState :=
  ws.foldl (CoreState.noteRead k src) c

/-- The bits a byte mask covers (spec/05 R135). -/
def maskBits (m : BitVec 8) : Word :=
  (List.range 8).foldl (fun a i => if m.getLsbD i then a ||| (0xFF#64 <<< (8 * i)) else a) 0

/-- Stores a code word and drops a pending rewrite of it (spec/05 R140). -/
def CoreState.store (k : Kind) (c : CoreState) (w : Nat) (v : Code) : CoreState :=
  { c with mem := KMap.set 0 c.mem w v,
           rewrites := match KMap.get (0, 0) c.rewrites (w % k.banks) with
             | (w', _) => if KMap.has c.rewrites (w % k.banks) ∧ w' = w
                          then KMap.del c.rewrites (w % k.banks) else c.rewrites }

/-- One granted word write with its byte mask: full, merged, or nothing (spec/05 R135, R136, Table 5.5). -/
def CoreState.write (k : Kind) (c : CoreState) (w : Nat) (mask : BitVec 8) (data : Word) (poison : Bool) : CoreState :=
  if mask = 0 then c
  else if mask = 0xFF then CoreState.store k c w (eccEncode data poison)
  else
    let e := c.dec w
    let mb := maskBits mask
    CoreState.store k { c with sp := c.sp.note e w 2 } w
      (eccEncode ((e.data &&& ~~~mb) ||| (data &&& mb)) (e.poison || poison || e.outcome == .uncorrectable))

/-- The instruction fetched after the one at a word address: the next pair, or a loop's first body word at its end. -/
def CoreState.follow (c : CoreState) (p : Nat) : Nat :=
  let loops (l : Option Loop) (n : BitVec 16) (p : Nat) : Nat :=
    match l with
    | some l => if p = l.start.toNat + 2 * l.len ∧ 1 < n.toNat then l.start.toNat else p
    | none => p
  loops c.loop0 c.lc0 (loops c.loop1 c.lc1 (p + 2))

/-- Instructions that may have been fetched ahead of issue: the next four of the sequencer, or of each running thread, by thread and
address (spec/03 R76, R87, spec/04 R108, R117). An instruction that issue holds was fetched for good. -/
def CoreState.ahead (k : Kind) (c : CoreState) : List (Nat × Nat) :=
  if !c.run || c.err then []
  else
    match k with
    | .sx => (List.range 4).flatMap (fun t =>
        let x := c.th.get (BitVec.ofNat 2 t)
        if x.run then (List.range 4).map (fun i => (t, x.pc.toNat + 4 * i)) else [])
    | _ =>
      if c.halted then []
      else
        let p := if c.hold = .none then c.pc.toNat else c.follow c.pc.toNat
        let q := c.follow p
        let r := c.follow q
        [(0, p), (0, q), (0, r), (0, c.follow r)]

/-- Words of the instruction at an address of the program counter. -/
def instWords (k : Kind) (pc : Nat) : Nat × Nat :=
  match k with
  | .sx => (pc / 8, pc / 8)
  | _ => (pc, pc + 1)

/-- Keeps the code words, before a write of the words `ws`, of every instruction that may have been fetched already. -/
def CoreState.keepOld (k : Kind) (c : CoreState) (ws : List Nat) : CoreState :=
  let l := c.ahead k
  let hit := l.filter (fun e => ws.contains (instWords k e.2).1 || ws.contains (instWords k e.2).2)
  { c with stale := c.stale.filter (fun e => l.contains (e.thread, e.pc)) ++ hit.map (fun e =>
      { thread := e.1
        pc := e.2
        lo := KMap.get 0 c.mem (instWords k e.2).1
        hi := KMap.get 0 c.mem (instWords k e.2).2 }) }

/-- What an instruction's words held before the writes that its fetch may have missed, oldest first. -/
def CoreState.earlier (c : CoreState) (t pc : Nat) : List Stale := c.stale.filter (fun e => e.thread == t && e.pc == pc)

/-- Writes the words of a beat; an instruction that may have been fetched before keeps what it held (spec/03 R87). -/
def CoreState.writeBeat (k : Kind) (c : CoreState) (ws : List RowWord) : CoreState :=
  ws.foldl (fun c r => CoreState.write k c r.w r.mask r.data r.poison) (c.keepOld k (ws.map (·.w)))

/-- Groups words that follow one another into row commits: a new row starts where the row or the address run
changes (spec/05 R133; spec/07 R165: a wrap starts a new row). -/
def rowGroups (k : Kind) : List RowWord → List (List RowWord)
  | [] => []
  | r :: t =>
    match rowGroups k t with
    | [] => [[r]]
    | [] :: gs => [r] :: gs
    | (g :: gt) :: gs =>
      if g.w / k.banks = r.w / k.banks ∧ g.w = r.w + 1 then (r :: g :: gt) :: gs else [r] :: (g :: gt) :: gs

end Sys2Proof.Machine
end

