-- ==== Sys2Proof/Machine/CoreOps.lean ====
section
/-! DEFINITION. Operations of one core shared by its instructions: core errors, address registers, semaphores,
queue occupancy and release (spec/03 R89, spec/06, spec/07). -/

namespace Sys2Proof.Machine

/-! ### Core errors -/

/-- A core error stops every engine and thread and records its code (spec/03 R89, spec/04 R111, R123).
A core that has stopped records no second error. -/
def CoreState.fail (c : CoreState) (code epc engine : Nat) : CoreState :=
  if c.err then c
  else
    { c with
      err := true
      run := false
      errCode := BitVec.ofNat 8 code
      errEpc := BitVec.ofNat 15 epc
      errEngine := BitVec.ofNat 3 engine
      th := c.th.map (fun t => { t with run := false }) }

/-- Illegal-instruction code of every kind (Tables 3.17, 4.8, 4.14). -/
def eIllegal : Nat := 0x01
/-- Address code (Tables 3.17, 4.8, 4.14). -/
def eAddr : Nat := 0x02
def eAccKind : Nat := 0x03
def eNoTile : Nat := 0x04
/-- Poison code of every kind (Tables 3.17, 4.8, 4.14). -/
def ePoison : Nat := 0x05
def ePairing : Nat := 0x06
def eSieve : Nat := 0x07
def eAlign : Nat := 0x08
def eSemOvf : Nat := 0x40
def eSemDeadlock : Nat := 0x41
def eQRange : Nat := 0x48
def eQState : Nat := 0x49
def eQOverflow : Nat := 0x4A
def eQExcess : Nat := 0x4B
def eQCredit : Nat := 0x4C
def eQPair : Nat := 0x4D
def eQFormat : Nat := 0x4E
def eQDest : Nat := 0x4F

/-- A queue error records QERR, the last queue error (Table 7.3), and stops the core (spec/07 R194). `src`: sender X and Y of an
arriving send. A core that has stopped records it too, since an arriving send can fail there. -/
def CoreState.failQueue (c : CoreState) (code epc engine q : Nat) (src : Option (Nat × Nat)) : CoreState :=
  CoreState.fail
    { c with
      qerrQueue := BitVec.ofNat 4 q
      qerrX := BitVec.ofNat 10 (src.getD (0, 0)).1
      qerrY := BitVec.ofNat 10 (src.getD (0, 0)).2
      qerrSrcValid := src.isSome
      qerrValid := true }
    code epc engine

/-! ### Address, stride and uniform registers (spec/03 Table 3.1, spec/04 Table 4.1) -/

/-- A0 reads as 0. -/
def CoreState.aReg (c : CoreState) (i : Nat) : BitVec 13 :=
  if i % 8 = 0 then 0 else c.a.get (BitVec.ofNat 3 i)

/-- A0 ignores writes. -/
def CoreState.setA (c : CoreState) (i : Nat) (v : BitVec 13) : CoreState :=
  if i % 8 = 0 then c else { c with a := c.a.set (BitVec.ofNat 3 i) v }

/-- The word (A[IDX] + OFF) mod 8,192 (spec/03 R62). -/
def CoreState.addrOf (c : CoreState) (idx off : Nat) : Nat := (c.aReg idx + BitVec.ofNat 13 off).toNat

/-- A uniform register. -/
def CoreState.uReg (c : CoreState) (i : Nat) : BitVec 32 := c.u.get (BitVec.ofNat 3 i)

/-- A scale register. -/
def CoreState.scReg (c : CoreState) (i : Nat) : BitVec 32 := c.sc.get (BitVec.ofNat 3 i)

/-! ### Semaphores (spec/06) -/

/-- Count of a semaphore. -/
def CoreState.semCount (c : CoreState) (s : Nat) : Nat := (c.sem.get (BitVec.ofNat 4 s)).toNat

/-- A take subtracts one; it never drives a count below 0 (spec/06 R152). -/
def CoreState.take (c : CoreState) (s : Nat) : CoreState :=
  if c.semCount s = 0 then c
  else { c with sem := c.sem.modify (BitVec.ofNat 4 s) (· - 1) }

/-- A signal adds one; above 255 the count stays 255, SEMERR records and the core stops with SEM_OVF
(spec/06 R152, R155). -/
def CoreState.signal (c : CoreState) (s engine epc : Nat) : CoreState :=
  let c := { c with semSig := sat1 c.semSig }
  if c.semCount s = 255 then
    CoreState.fail
      { c with
        semErrSem := BitVec.ofNat 4 s
        semErrEngine := BitVec.ofNat 2 engine
        semErrCount := 255
        semErrKind := false
        semErrValid := true }
      eSemOvf epc engine
  else { c with sem := c.sem.modify (BitVec.ofNat 4 s) (· + 1) }

/-- The semaphore on which the head of an engine's queue waits (spec/06 R150): it was found wanting, or its count is 0 now. -/
def CoreState.headWait (c : CoreState) (g : Engine) : Option Nat :=
  match g.queue with
  | [] => none
  | x :: _ => if g.waiting || (iWen x.inst && c.semCount (iWsem x.inst) == 0) then some (iWsem x.inst) else none

/-- The semaphore engine or thread `e` waits on, if it waits on one (spec/06 R161 SEMWAIT). -/
def CoreState.semWait (k : Kind) (c : CoreState) (e : Nat) : Option Nat :=
  match k with
  | .sx =>
    match (c.th.get (BitVec.ofNat 2 e)).wait with
    | .sem s => if e < 4 then some s else none
    | _ => none
  | _ =>
    match e with
    | 0 => match c.hold with
      | .sem s => some s
      | _ => none
    | 1 => c.headWait c.e1
    | 2 => c.headWait c.e2
    | 3 => if k = .vx then c.headWait c.e3 else none
    | _ => none

/-! ### Queues (spec/07) -/

def CoreState.qu (c : CoreState) (n : Nat) : Queue := c.q.get (BitVec.ofNat 4 n)

def CoreState.setQ (c : CoreState) (n : Nat) (v : Queue) : CoreState :=
  { c with q := c.q.set (BitVec.ofNat 4 n) v }

/-- DEPTH as a number. -/
def Queue.depth (q : Queue) : Nat := q.d.depth.toNat

/-- MODE is a combining mode. -/
def Queue.isPot (q : Queue) : Bool := q.d.mode ≠ 0

/-- A credit queue is a PLAIN queue with ESIZE 0b000 (spec/07 R179). -/
def Queue.isCredit (q : Queue) : Bool := q.d.mode == 0 && q.d.esize == 0

/-- Entry size of a PLAIN queue in words (Table 7.2). -/
def Queue.esize (q : Queue) : Nat :=
  match q.d.esize.toNat with
  | 1 => 1 | 2 => 2 | 3 => 4 | 4 => 8 | _ => 0

/-- Width of an entry or slot in words (spec/07 R173). -/
def Queue.width (q : Queue) : Nat :=
  match q.d.mode.toNat with
  | 0 => q.esize
  | 1 => 2
  | 5 => q.d.klenm1.toNat + 1
  | _ => 1

/-- First word of entry or slot `i` (modulo DEPTH). -/
def Queue.entryAddr (q : Queue) (i : Nat) : Nat :=
  q.d.base.toNat + (i % max 1 q.depth) * q.width

/-- QOCC.PARTIAL: reserved and not counted entries, or pot slots with a contribution and not complete (Table 7.4). -/
def Queue.partialCount (q : Queue) : Nat :=
  if q.isPot then (q.slots.filter (fun e => 0 < e.2.contrib ∧ e.2.contrib < q.d.expect.toNat)).length
  else (q.rsv.map (fun r => r.entries - r.counted)).foldl (· + ·) 0

/-- Free entries of a PLAIN queue (spec/07 R181). -/
def Queue.free (q : Queue) : Nat := q.depth - q.count - q.partialCount

/-- Counts committed entries in reservation order; a staged reservation and everything after it waits for
publication (spec/07 R166, R169, spec/09 R236). -/
def countEntries (w : Nat) : List Rsv → List Rsv × Nat
  | [] => ([], 0)
  | r :: t =>
    if r.staged then (r :: t, 0)
    else
      let full := if w = 0 then 0 else min r.entries (r.done / w)
      if full = r.entries then
        let (t', n) := countEntries w t
        (t', n + (r.entries - r.counted))
      else ({ r with counted := full } :: t, full - r.counted)

/-- Slots complete and publishable from the head on (spec/07 R169). -/
def potRun (slots : KMap PotSlot) (depth expect : Nat) : Nat → Nat → Nat
  | 0, _ => 0
  | n + 1, i =>
    let s := KMap.get {} slots (i % max 1 depth)
    if s.contrib = expect ∧ !s.staged then potRun slots depth expect n (i + 1) + 1 else 0

/-- COUNT after what has landed (spec/07 R169). -/
def Queue.recount (q : Queue) : Queue :=
  if q.isPot then { q with count := potRun q.slots q.depth q.d.expect.toNat q.depth q.head }
  else
    let (r, n) := countEntries q.width q.rsv
    { q with rsv := r, count := q.count + n }

/-- XPSTGn: entries, slots or credits staged for publication (Table 9.10). -/
def Queue.stagedCount (q : Queue) : Nat :=
  if q.isCredit then q.stgCredits
  else if q.isPot then (q.slots.filter (fun e => e.2.staged && e.2.contrib == q.d.expect.toNat)).length
  else (q.rsv.map (fun r => if r.staged then r.entries - r.counted else 0)).foldl (· + ·) 0

/-- QOCC.STAGED: sends to the queue are staged, those to a slot that is not complete too (Table 7.4). -/
def Queue.hasStaged (q : Queue) : Bool := q.stagedCount != 0 || q.slots.any (fun e => e.2.staged)

/-- The identity of a pot's slot, word by word (Table 7.5). -/
def Queue.identity (q : Queue) : List Word :=
  match q.d.mode.toNat with
  | 3 => [if q.d.ftype then 0x8000_0000_8000_0000 else 0xFF80_0000_FF80_0000]
  | 4 => [if q.d.ftype then 0x7FFF_FFFF_7FFF_FFFF else 0x7F80_0000_7F80_0000]
  | 5 => List.replicate q.width (emptyPair q.d.dir)
  | _ => List.replicate q.width 0

/-- Words of one slot as a full write. -/
def slotBeat (base : Nat) (ws : List Word) (poison : Bool) : List RowWord :=
  ws.mapIdx (fun i d => { w := base + i, data := d, mask := 0xFF, poison := poison })

/-- The partner of a queue in a steering pair (spec/07 R190). -/
def CoreState.pairOf (c : CoreState) (n : Nat) : Option Nat :=
  let q := c.qu n
  let p := q.d.pair.toNat
  let r := c.qu p
  if q.d.pen && r.d.pen && r.d.pair.toNat == n && p ≠ n then some p else none

/-- The queues a release of queue `n` releases: both members of a pair (spec/07 R192). -/
def CoreState.relSet (c : CoreState) (n : Nat) : List Nat :=
  match c.pairOf n with
  | some p => [n, p]
  | none => [n]

/-- Error of a wait, release or steer on a queue in RESET, or of a wait above DEPTH (spec/07 R171). -/
def CoreState.waitErr (c : CoreState) (q n : Nat) : Option Nat :=
  if (c.qu q).d.state = 0 then some eQState
  else if n > (c.qu q).depth then some eQRange
  else none

/-- Error of a release (spec/07 R171, R192). DESIGN CHOICE (log 78): QERR names the queue that the instruction names, also where
the other member of its pair fails. -/
def CoreState.relErr (c : CoreState) (q n : Nat) : Option Nat :=
  if (c.relSet q).any (fun i => (c.qu i).d.state == 0) then some eQState
  else if (c.relSet q).any (fun i => decide ((c.qu i).count < n)) then some eQRange
  else none

/-- Whether the credit holds have room for a release (spec/09 R230). -/
def CoreState.credRoom (c : CoreState) (q n : Nat) : Bool :=
  (c.relSet q).all (fun i => !(c.qu i).d.cren || !c.done || decide (c.credHold.get (BitVec.ofNat 4 i) + n ≤ 4096))

/-- Takes `n` head entries or slots off one queue (spec/07 R170, R186). -/
def Queue.dropHead (q : Queue) (n : Nat) : Queue :=
  let released := (List.range n).map (fun i => (q.head + i) % max 1 q.depth)
  { q with
    head := if q.isCredit then 0 else (q.head + n) % max 1 q.depth
    count := q.count - n
    slots := if q.isPot then released.foldl KMap.del q.slots else q.slots
    idWrites := if q.isPot then q.idWrites ++ released else q.idWrites }

/-- A pot's COUNT follows its slots after a release; a PLAIN queue's was lowered (spec/07 R169, R170). -/
def Queue.settle (q : Queue) : Queue := if q.isPot then q.recount else q

/-- Queue `n` read through 64 bytes of head view: word `i` (spec/07 R178). -/
def CoreState.headWord (c : CoreState) (n i : Nat) : Option Nat :=
  let q := c.qu n
  if i < q.width then some ((q.entryAddr q.head + i) % 8192) else none

/-- Loads a descriptor from RESET (spec/07 R174): pointers 0, COUNT, identities. -/
def CoreState.loadQueue (k : Kind) (c : CoreState) (n : Nat) (d : QDesc) : CoreState :=
  let old := c.qu n
  let q : Queue := { drop := old.drop, epdrop := old.epdrop, acc := old.acc, d := d }
  if d.state = 0 then c.setQ n q
  else
    let q := if q.isCredit then { q with count := q.depth } else q
    let c := c.setQ n q
    if q.isPot then
      (List.range q.depth).foldl
        (fun c i => CoreState.writeBeat k c (slotBeat (q.entryAddr i) q.identity false)) c
    else c

/-- Drops the rows that wait for a queue (its reservations are discarded, spec/07 R174). -/
def CoreState.dropRows (c : CoreState) (n : Nat) : CoreState :=
  { c with rows := c.rows.filter (fun r => match r.kind with
      | .entries q _ => q ≠ n
      | .pot q _ => q ≠ n
      | .plain => true) }

/-- QSLOTS.USED (Table 7.3). -/
def CoreState.slotsUsed (c : CoreState) : Nat :=
  ((List.range 16).map (fun i => if (c.qu i).isPot ∧ (c.qu i).d.state ≠ 0 then (c.qu i).depth else 0)).foldl (· + ·) 0

end Sys2Proof.Machine
end

