-- ==== Sys2Proof/Machine/State.lean ====
section
/-! DEFINITION. The state of the module as plain data, its faults and refusals, and the state at reset. -/

namespace Sys2Proof.Machine

/-- The module. `net` holds the packets in flight in the order they were handed over; `fused`, `service` the negative's two
lists of positions and `fusedHub`, `serviceHub` of hubs (spec/01 R31, R32); `errs` the active CP's records (spec/15 R395);
`flashErrs` those kept in flash,
`flashWait` those whose flash write a supply warning delays, `flashCopy` what flash holds of the module records while such a write waits; `freeCtr` counts the free values drawn (the model's own); `pending` is the queue of waiting
commands (the model's own). -/
structure State where
  cores : KMap CoreState := []
  routers : KMap Router := []
  hubs : KMap Hub := []
  net : List Packet := []
  fields : Vector FieldState 60 := Vector.replicate 60 {}
  stk : Vector StackState 16 := Vector.replicate 16 {}
  jobs : Vector Job 16 := Vector.replicate 16 {}
  dieDelta : Pair (Vector (BitVec 32) 16) := { a := Vector.replicate 16 0, b := Vector.replicate 16 0 }
  fused : KMap (BitVec 2) := []
  service : KMap (BitVec 2) := []
  fusedHub : KMap Bool := []
  serviceHub : KMap Bool := []
  errs : List ErrRec := []
  errNext : Nat := 0
  flashErrs : List ErrRec := []
  flashWait : List ErrRec := []
  flashCopy : Option FlashCopy := none
  ports : Pair PortState := { a := {}, b := {} }
  cp : CpState := {}
  fw : FwState := {}
  mc : Pair McState := { a := {}, b := {} }
  mgmt : MgmtState := {}
  mod : ModState := {}
  snaps : Vector Snap 16 := Vector.replicate 16 .none
  freeCtr : Nat := 0
  pending : List Instr := []
  deriving DecidableEq, Repr

/-- The module as it stands before its first event: every register at its reset value, nothing powered (spec/16 Table 16.4,
column Cold; log 2 says how it comes up; log 14 names the values that the manual does not give). -/
def State.reset : State :=
  let good (t : Nat) : FlashSlot := { state := 4, gen := 1, image := Config.factoryImage t }
  let die : Flash := { mod := #v[good 0, {}], mc := #v[good 1, {}], loader := good 2 }
  { fw :=
      { keyHash := Vector.ofFn (fun i => Config.factoryKeyHash i.val)
        flash := { a := die, b := die } } }

/-- The block takes no command that stops it: every event the spec lists has an effect on State, so no fault is
raised by any command (safe). -/
inductive Fault
  deriving DecidableEq, Repr

/-- Refusals. `notModelled`: raised by a dispatch arm whose command has no meaning yet; safe, since the block stops. -/
inductive Refusal where
  | notModelled (mnemonic : String)
  deriving DecidableEq, Repr

/-- What a command answers. -/
abbrev Out := Host.Outcome State Fault Refusal

end Sys2Proof.Machine
end

