-- ==== Sys2Proof/Machine/Reply.lean ====
section
/-! DEFINITION. What a port sends to its host: reply-ring entries, events, MSI-X messages, PORTEVT (spec/12 R323-R325,
spec/13 R345-R348, Tables 13.4, 13.5). -/

namespace Sys2Proof.Machine

def State.port (s : State) (p : Port) : PortState := s.ports.get p

def State.modPort (s : State) (p : Port) (f : PortState → PortState) : State := { s with ports := s.ports.modify p f }

/-- TICK as the active companion die holds it (spec/09 R221). -/
def State.now (s : State) : Nat := (s.port s.cp.cpact).tick.toNat

def PortState.send (x : PortState) (t : Tx) : PortState := { x with tx := x.tx ++ [t] }

/-- Memory write TLPs for a run of bytes: none exceeds the payload size or crosses a 4 KiB boundary (spec/12 R317). -/
def writeTlps (mps : Nat) : Nat → Nat → List Byte → List Tx
  | 0, _, _ => []
  | f + 1, addr, bs =>
    if bs.isEmpty then []
    else
      let n := min mps (4096 - addr % 4096)
      .write addr (bs.take n) :: writeTlps mps f (addr + n) (bs.drop n)

/-- Places a memory write in the transmit order. -/
def PortState.sendWrite (x : PortState) (addr : Nat) (bs : List Byte) : PortState :=
  { x with tx := x.tx ++ writeTlps (max 1 x.maxPayload) (bs.length + 1) addr bs }

/-! ### MSI-X (R324, R325) -/

def PortState.vec (x : PortState) (v : Nat) : Msix := tget {} x.msix v

/-- A vector's message: withheld in D3hot, pending while masked, held back within 100 ticks of the last one. -/
def PortState.sendMsix (now : Nat) (x : PortState) (v : Nat) : PortState :=
  let m := x.vec v
  if !x.msixEn || x.msixMask || m.masked || x.d3 || !x.linkUp then
    { x with msix := tset x.msix v { m with pend := true } }
  else if (m.last.map (fun t => decide (now < t + 100))).getD false then
    { x with msix := tset x.msix v { m with heldBack := true } }
  else PortState.send { x with msix := tset x.msix v { m with last := some now, pend := false, heldBack := false } } (.msix m.addr m.data)

/-- Sends the messages of pending vectors that are no longer masked (spec/12 R324, R331). -/
def PortState.flushMsix (now : Nat) (x : PortState) : PortState :=
  (List.range 64).foldl (fun x v => if (x.vec v).pend then PortState.sendMsix now x v else x) x

/-- Sets a bit of PORTEVT and raises vector 0 when it is enabled (Table 12.7). -/
def State.portEvent (s : State) (p : Port) (bit : Nat) : State :=
  s.modPort p (fun x =>
    let x := { x with evt := x.evt ||| BitVec.ofNat 7 (2 ^ bit) }
    if x.evtEn.getLsbD bit then PortState.sendMsix s.mod.ctl x 0 else x)

def evOwnChg : Nat := 0
def evGraceStart : Nat := 1
def evGraceEnd : Nat := 2
def evTakeover : Nat := 3
def evErrRec : Nat := 4
def evPeerLink : Nat := 5
def evWinClosed : Nat := 6

/-- Sets a bit of PORTEVT on both ports. -/
def State.bothEvent (s : State) (bit : Nat) : State := (s.portEvent .a bit).portEvent .b bit

/-! ### The reply ring (R345-R348) -/

/-- The status block of an entry (Table 13.4). -/
def statusBlock (e : RingEntry) (k : Nat) (sess : Nat) (s : Session) : List Byte :=
  let room := 64 * 2 ^ s.esize - 16
  let phase := b2n ((k / 2 ^ s.rlog2) % 2 == 0)
  leBytes 8 e.tag ++ leBytes 2 e.status ++ leBytes 2 e.opcode ++ leBytes 2 e.payload.length ++ leBytes 1 sess ++
    leBytes 1 (phase + 2 * b2n e.event + 4 * b2n (decide (room < e.payload.length)))

/-- The ring has room for the next entry and the port can post (R345, R347).
DEDUCED (log 25): entries are also kept while the link is down outside a grace period. -/
def PortState.canPost (x : PortState) (n : Nat) (s : Session) : Bool :=
  x.linkUp && !x.d3 && x.grace.isNone &&
    decide ((s.posted + 65536 - (tget 0 x.ringCons n).toNat) % 65536 < 2 ^ s.rlog2)

/-- Writes one entry: payload first, status block last, then the session's vector (R345). -/
def PortState.write (now : Nat) (x : PortState) (n : Nat) (s : Session) (e : RingEntry) : PortState :=
  let size := 64 * 2 ^ s.esize
  let at_ := s.rbase + (s.posted % 2 ^ s.rlog2) * size
  let x := x.sendWrite (at_ + 16) (e.payload.take (size - 16))
  let x := x.send (.write at_ (statusBlock e s.posted n s))
  let x := { x with sess := tset x.sess n (some { s with posted := s.posted + 1 }) }
  if e.quiet then x else PortState.sendMsix now x s.vector

/-- The LOST event (Table 13.5). -/
def lostEvent (n : Nat) : RingEntry := { opcode := 0xFF03, event := true, payload := leBytes 4 n }

/-- Posts kept entries while the ring has room (R347); the first event posted after a drop is preceded by LOST (R348). -/
def PortState.flushKept (now : Nat) : Nat → PortState → Nat → PortState
  | 0, x, _ => x
  | f + 1, x, n =>
    match tget none x.sess n with
    | none => x
    | some s =>
      match s.kept with
      | [] => x
      | e :: rest =>
        if !x.canPost n s then x
        else if e.event && s.lost != 0 then
          PortState.flushKept now f (PortState.write now x n { s with lost := 0 } (lostEvent s.lost)) n
        else PortState.flushKept now f (PortState.write now x n { s with kept := rest } e) n

/-- Posts or keeps one entry, in order (R347). -/
def PortState.put (now : Nat) (x : PortState) (n : Nat) (e : RingEntry) : PortState :=
  match tget none x.sess n with
  | none => x
  | some s =>
    let y := { x with sess := tset x.sess n (some { s with kept := s.kept ++ [e] }) }
    if s.kept.isEmpty then PortState.flushKept now 2 y n else y

/-- An event: dropped and counted when 64 entries are kept (R348). -/
def PortState.putEvent (now : Nat) (x : PortState) (n : Nat) (e : RingEntry) : PortState :=
  match tget none x.sess n with
  | none => x
  | some s =>
    if 64 ≤ s.kept.length then { x with sess := tset x.sess n (some { s with lost := s.lost + 1 }) } else PortState.put now x n e

/-- Posts what every session of a port has kept. -/
def PortState.flushAll (now : Nat) (x : PortState) : PortState :=
  (List.range 16).foldl (fun x n =>
    PortState.flushKept now (((tget none x.sess n).map (fun s => s.kept.length + 1)).getD 0) x n) x

/-- Sends an event to the sessions of a port that a test selects. -/
def PortState.eventTo (now : Nat) (x : PortState) (sel : Session → Bool) (e : RingEntry) : PortState :=
  (List.range 16).foldl (fun x n =>
    match tget none x.sess n with
    | some s => if sel s then PortState.putEvent now x n e else x
    | none => x) x

/-- JOB_STATE goes to the subscribing sessions of the owner (Table 13.5): state code, reason. -/
def State.jobEvent (s : State) (j code reason expno : Nat) : State :=
  match s.cp.owner with
  | none => s
  | some (p, _) =>
    let pay := leBytes 1 j ++ leBytes 1 code ++ leBytes 1 reason ++ leBytes 5 0 ++ leBytes 8 expno
    let e : RingEntry := { opcode := 0xFF01, event := true, payload := pay }
    s.modPort p (fun x => PortState.eventTo s.mod.ctl x (fun t => t.subJobs) e)

/-! ### Replies of journaled commands -/

/-- The kept status of a sequence number: the last 64 (R343). -/
def Session.setStatus (x : Session) (seq st : Nat) : Session :=
  { x with hist := x.hist.map (fun e => if e.1 = seq then (seq, some st) else e) }

/-- A command completes: it leaves the journal, its status is kept and its reply posted (R342-R347). -/
def State.complete (s : State) (e : Entry) (status : Nat) (payload : List Byte) : State :=
  let s := { s with cp := { s.cp with journal := s.cp.journal.filter (fun x => x.id ≠ e.id) } }
  if e.deaf then s
  else
    s.modPort e.port (fun x =>
      let x := { x with sess := match tget none x.sess e.sess with
        | some q => tset x.sess e.sess (some (q.setStatus e.seq status))
        | none => x.sess }
      PortState.put s.mod.ctl x e.sess
        { tag := e.tag, status := status, opcode := e.opcode, quiet := e.quiet, payload := payload })

/-- The journaled command of a number. -/
def State.entry (s : State) (n : Nat) : Option Entry := s.cp.journal.find? (fun e => e.id == n)

/-- Changes a journaled command. -/
def State.modEntry (s : State) (n : Nat) (f : Entry → Entry) : State :=
  { s with cp := { s.cp with journal := s.cp.journal.map (fun e => if e.id = n then f e else e) } }

/-- Completes every waiting command that a test selects, with a status and payload. -/
def State.completeIf (s : State) (sel : Entry → Bool) (status : Nat) (payload : State → Entry → List Byte) : State :=
  (s.cp.journal.filter sel).foldl (fun s e => s.complete e status (payload s e)) s

/-- Parameter bytes P[n] (Table 13.2). -/
def Entry.p (e : Entry) (n w : Nat) : Nat := bytesAt e.param n w

/-! Status codes (Table 13.6). -/
def stOk : Nat := 0
def stDuplicate : Nat := 1
def stSeqGap : Nat := 2
def stBadOpcode : Nat := 3
def stBadLength : Nat := 4
def stNotOwner : Nat := 5
def stBadParam : Nat := 6
def stBadState : Nat := 7
def stNoResource : Nat := 8
def stBusy : Nat := 9
def stConfig : Nat := 0xA
def stImage : Nat := 0xB
def stHostRead : Nat := 0xC
def stInputRefused : Nat := 0xD
def stAborted : Nat := 0xE
def stClaimRefused : Nat := 0xF
def stSignature : Nat := 0x10
def stRollback : Nat := 0x11
def stExpired : Nat := 0x12

end Sys2Proof.Machine
end

