-- ==== Sys2Proof/Machine/Records.lean ====
section
/-! DEFINITION. Error records: layout, numbering, merging and delivery (spec/15 R395, R396, spec/18 R464-R466). -/

namespace Sys2Proof.Machine

/-! Classes (spec/15 Table 15.4). -/
def clsSpCeRate : Nat := 1
def clsStackUe : Nat := 2
def clsLinkDown : Nat := 3
def clsNetNak : Nat := 4
def clsCoreError : Nat := 5
def clsWashFail : Nat := 6
def clsSdc : Nat := 7
def clsFieldLost : Nat := 8
def clsStackLost : Nat := 9
def clsTimebase : Nat := 0xA
def clsTestFail : Nat := 0xB
def clsTakeover : Nat := 0xC
def clsRefclk : Nat := 0xD
def clsSupply : Nat := 0xE
def clsCoolant : Nat := 0xF
def clsCapover : Nat := 0x10
def clsOverrun : Nat := 0x11
def clsLatency : Nat := 0x12
def clsRing : Nat := 0x13
def clsLockout : Nat := 0x14
def clsGrade : Nat := 0x15

/-- The 64 bytes of a record (spec/15 Table 15.3): CHECK makes their sum 0 modulo 256. -/
def ErrRec.bytes (r : ErrRec) (serial : Nat) : List Byte :=
  let b := leBytes 1 1 ++ leBytes 1 1 ++ leBytes 2 r.cls ++ leBytes 4 r.seqno ++ leBytes 8 r.tick ++ leBytes 1 r.severity ++
    leBytes 1 r.source ++ leBytes 1 r.field ++ leBytes 1 r.job ++ leBytes 2 r.x ++ leBytes 2 r.y ++ leBytes 1 r.unit ++
    leBytes 1 r.action ++ leBytes 6 r.expNo ++ leBytes 4 r.code ++ (r.detail ++ leBytes 12 0).take 12 ++ leBytes 8 serial ++
    leBytes 4 r.ownGen ++ leBytes 2 (min r.count 0xFFFF) ++ leBytes 1 r.flags
  b ++ leBytes 1 ((256 - (b.map (·.toNat)).foldl (· + ·) 0 % 256) % 256)

/-- Like events (R396): one class, source and unit, both of severity below 2, within 100,000,000 ticks of the
clock that the record's writer keeps (spec/09 R221). -/
def ErrRec.like (old new : ErrRec) : Bool :=
  old.cls == new.cls && old.source == new.source && old.unit == new.unit && decide (old.severity < 2) && decide (new.severity < 2) &&
    decide (new.stamp ≤ old.stamp + 100000000)

/-- An MC stores a record: an acknowledged one gives way first (spec/18 R464). -/
def McState.storeRec (m : McState) (r : ErrRec) : McState :=
  if m.store.length < 256 then { m with store := m.store ++ [(r, false)] }
  else
    match m.store.findIdx? (fun e => e.2) with
    | some i => { m with store := m.store.eraseIdx i ++ [(r, false)] }
    | none => { m with store := m.store.drop 1 ++ [(r, false)], lossy := true }

/-- Delivers a record: events, PORTEVT.ERRREC, both MCs; severity 3 or 4 also to flash, once no supply warning
delays the write (R395, spec/14 R373). -/
def State.deliverRec (s : State) (r : ErrRec) : State :=
  let e : RingEntry := { opcode := 0xFF02, event := true, payload := r.bytes s.fw.serial.toNat }
  let post (s : State) (p : Port) : State := s.modPort p (fun x => PortState.eventTo s.mod.ctl x (fun t => t.subErrs) e)
  let s := ((post (post s .a) .b)).bothEvent evErrRec
  let s := { s with mc := { a := s.mc.a.storeRec r, b := s.mc.b.storeRec r } }
  let s := if r.flags % 2 = 1 then { s with mod := { s.mod with advised := true } } else s
  if r.severity < 3 then s
  else if s.mod.supply = .warning then { s with flashWait := s.flashWait ++ [r] }
  else { s with flashErrs := s.flashErrs ++ [r] }

/-- Merges a like event into the latest like record: the updated record, and the list. -/
def mergeRec (r : ErrRec) : List ErrRec → Option (ErrRec × List ErrRec)
  | [] => none
  | o :: t =>
    match mergeRec r t with
    | some (u, t') => some (u, o :: t')
    | none =>
      if o.like r then
        let u := { o with count := min (o.count + 1) 0xFFFF }
        some (u, u :: t)
      else none

/-- The classes an MC writes while no CP runs (R395). -/
def mcClass (c : Nat) : Bool := c == clsSupply || c == clsRefclk || c == clsCoolant

/-- A CP runs: one is active, and the control domain has a clock (spec/14 R366). -/
def State.cpRuns (s : State) : Bool := s.cp.active.isSome && (s.ports.a.refPresent || s.ports.b.refPresent)

/-- Writes an error record or merges a like event into one (R395, R396). While no CP runs, an MC writes its own classes
with SOURCE 6 and its own numbering (spec/18 R465). -/
def State.errorRecord (s : State) (r : ErrRec) : State :=
  let r := { r with
    tick := s.now
    ownGen := s.cp.ownGen.toNat
    stamp := if s.cpRuns then s.mod.ctl else s.mod.sby
    expNo := if r.job < 16 then (tget {} s.jobs r.job).expNo else 0 }
  match s.cpRuns with
  | false =>
    if mcClass r.cls then
      let one (m : McState) : McState :=
        if m.running then
          match mergeRec { r with source := 6 } (m.store.map (·.1)) with
          | some (u, _) => { m with store := m.store.map (fun e => if e.1.seqno = u.seqno ∧ e.1.source = 6 then (u, false) else e) }
          | none => { m.storeRec { r with source := 6, seqno := 2 ^ 31 + m.ownCount % 2 ^ 31 } with ownCount := m.ownCount + 1 }
        else m
      -- the record that a CP posts later carries the count of the MC that serves: MC-A, or MC-B while it does not run
      let count := if s.mc.a.running then s.mc.a.ownCount else s.mc.b.ownCount
      { s with
        mc := { a := one s.mc.a, b := one s.mc.b }
        mgmt := { s.mgmt with mcPend := s.mgmt.mcPend ++ [{ r with source := 6, seqno := 2 ^ 31 + count % 2 ^ 31 }] } }
    else s
  | true =>
    match mergeRec r s.errs with
    | some (u, l) => ({ s with errs := l }).deliverRec u
    | none =>
      let r := { r with seqno := s.errNext }
      let l := s.errs ++ [r]
      ({ s with errs := l.drop (l.length - 4096), errNext := s.errNext + 1 }).deliverRec r

/-- Once a CP runs it posts the records that the MCs wrote, as events (spec/18 R465). -/
def State.postMc (s : State) : State :=
  if !s.cpRuns || s.mgmt.mcPend.isEmpty then s
  else
    let l := s.mgmt.mcPend
    let post (s : State) (r : ErrRec) : State :=
      let e : RingEntry := { opcode := 0xFF02, event := true, payload := r.bytes s.fw.serial.toNat }
      let one (s : State) (p : Port) : State := s.modPort p (fun x => PortState.eventTo s.mod.ctl x (fun t => t.subErrs) e)
      (one (one s .a) .b).bothEvent evErrRec
    l.foldl post { s with mgmt := { s.mgmt with mcPend := [] } }

/-- The module health state (spec/18 R466). -/
def State.healthNow (s : State) : Nat :=
  if s.mod.replace || s.mod.advised then 2
  else if s.stk.toList.any (fun k => k.lost) || s.fields.toList.any (fun f => f.lockout) || s.mod.ringBreaks == 1 then 1
  else 0

end Sys2Proof.Machine
end

