-- ==== Sys2Proof/Machine/Ops.lean ====
section
/-! DEFINITION. Named operations over the state: cores, fields, jobs and the negative, free values, the counts of counted
packets, and which cores run. -/

namespace Sys2Proof.Machine

/-! ### Cores, routers, hubs, fields, jobs -/

/-- A core's state; a core never changed reads as washed (spec/05 R144). -/
def State.core (s : State) (c : CoreId) : CoreState := KMap.get {} s.cores (coreKey c)

def State.setCore (s : State) (c : CoreId) (v : CoreState) : State :=
  { s with cores := KMap.put s.cores (coreKey c) v }

def State.modCore (s : State) (c : CoreId) (f : CoreState → CoreState) : State := s.setCore c (f (s.core c))

def State.router (s : State) (c : CoreId) : Router := KMap.get {} s.routers (coreKey c)

def State.setRouter (s : State) (c : CoreId) (v : Router) : State :=
  { s with routers := KMap.put s.routers (coreKey c) v }

/-- Key of the hub at hub coordinates. -/
def hubKey (hx hy : Nat) : Nat := 48 * hy + hx

def State.hub (s : State) (hx hy : Nat) : Hub := KMap.get {} s.hubs (hubKey hx hy)

def State.setHub (s : State) (hx hy : Nat) (v : Hub) : State :=
  { s with hubs := KMap.put s.hubs (hubKey hx hy) v }

def State.field (s : State) (f : Nat) : FieldState := tget {} s.fields f

def State.modField (s : State) (f : Nat) (g : FieldState → FieldState) : State :=
  { s with fields := tmod s.fields f g }

def State.job (s : State) (j : Nat) : Job := tget {} s.jobs j

def State.modJob (s : State) (j : Nat) (g : Job → Job) : State := { s with jobs := tmod s.jobs j g }

def State.stack (s : State) (n : Nat) : StackState := tget {} s.stk n

def State.modStack (s : State) (n : Nat) (g : StackState → StackState) : State :=
  { s with stk := tmod s.stk n g }

/-- A fresh free value's index (log 9): the counter advances at every draw. -/
def State.draw (s : State) : Nat × State := (s.freeCtr, { s with freeCtr := s.freeCtr + 1 })

/-- DESIGN CHOICE (log 9): beat-cycles that a core's requesters were refused, a free count in SPWAIT (spec/05 Table 5.8). -/
def State.countWait (s : State) (c : CoreId) : State :=
  let (n, s) := s.draw
  s.modCore c (fun x => { x with sp := { x.sp with waitCount := satAdd x.sp.waitCount (Config.stallCycles n).toNat } })

/-- DESIGN CHOICE (log 9): a wait ends after a free count of cycles, which its counters take (Tables 3.16, 6.4). -/
def State.countStall (s : State) (c : CoreId) (sem : Bool) (mx : Bool) : State :=
  let (n, s) := s.draw
  let d := (Config.stallCycles n).toNat
  s.modCore c (fun x => { x with
    semStall := if sem then satAdd x.semStall d else x.semStall
    mxStall := if mx then satAdd x.mxStall d else x.mxStall })

/-! ### The negative (spec/01 R31-R33) -/

/-- The effective code of a position: the larger of the fused and the in-service code. -/
def State.code (s : State) (c : CoreId) : Nat :=
  max (KMap.get 0 s.fused (coreKey c)).toNat (KMap.get 0 s.service (coreKey c)).toNat

/-- The core is in service (spec/01 Table 1.6). -/
def State.inService (s : State) (c : CoreId) : Bool := s.code c == 0

/-- Keeps what the flash devices hold of the module records, before a change that a supply warning keeps from being written
(spec/14 R373). -/
def State.keepFlash (s : State) : State :=
  if s.mod.supply = .warning ∧ s.flashCopy = none then
    { s with flashCopy := some { service := s.service, serviceHub := s.serviceHub, replace := s.mod.replace } }
  else s

/-- Moves a position's in-service entry towards removal only (spec/01 R32). -/
def State.fence (s : State) (c : CoreId) (v : BitVec 2) : State :=
  if (KMap.get 0 s.service (coreKey c)).toNat < v.toNat then
    { s.keepFlash with service := KMap.put s.service (coreKey c) v }
  else s

/-- A field controller takes a protective action that it has still to report (spec/01 R16, R17). -/
def FieldState.protect (x : FieldState) (n : Nat) : FieldState := { x with reports := x.reports ++ [n], busy := true }

/-! ### Partitions -/

/-- Job slot whose partition holds a field. -/
def State.fieldJob (s : State) (f : Nat) : Option Nat := (s.field f).job

/-- Job slot of a core's field. -/
def State.coreJob (s : State) (c : CoreId) : Option Nat := (coreField c).bind s.fieldJob

/-- A logical position placed on the wafer (spec/09 R225). -/
def Job.place (j : Job) (p : LPos) : Option CoreId :=
  ((j.fields[p.lf]?).getD none).map (fun f => coreAtPos f p.pos)

/-- Fields of a partition: working fields and unused spares. -/
def Job.allFields (j : Job) : List Nat := j.fields.filterMap id ++ j.spareFields.filterMap id

/-- Working fields of a partition. -/
def Job.workFields (j : Job) : List Nat := j.fields.filterMap id

/-- The job holds a partition (spec/09 Table 9.1). -/
def Job.holdsPartition (j : Job) : Bool :=
  j.state == .running || j.state == .paused || j.state == .stopped

/-- The job is in a safelight interval: its cores are stopped (spec/09 R246). -/
def Job.inSafelight (j : Job) : Bool :=
  match j.safelight with
  | .drain _ => true
  | .apply _ => true
  | _ => false

/-- Cores scheduled on a field, by the placement in force. -/
def State.coresOf (s : State) (f : Nat) : List CoreId :=
  (s.cores.map (fun e => coreOfKey e.1)).filter (fun c => coreField c == some f)

/-- A fault that asks for a roll-back in place (spec/08 R212, spec/15 Table 15.7: a link down, R403, R407). -/
def State.faultInPlace (s : State) (j : Nat) : State :=
  s.modJob j (fun q =>
    if q.state == .running || q.state == .paused then { q with holds := { q.holds with fault := true }, inPlace := true } else q)

/-! ### Counted packets (spec/09 R233, R234) -/

/-- An end that counts packets. -/
inductive NetEnd where
  | field (f : Nat)
  | stack (n : Nat)
  | die (p : Port)
  deriving DecidableEq, Repr

/-- Adds to an end's count for a job slot, modulo 2^32. -/
def State.addDelta (s : State) (e : NetEnd) (slot : Nat) (v : BitVec 32) : State :=
  match e with
  | .field f => s.modField f (fun x => { x with delta := tmod x.delta slot (· + v) })
  | .stack n => s.modStack n (fun x => { x with delta := tmod x.delta slot (· + v) })
  | .die p => { s with dieDelta := s.dieDelta.modify p (fun d => tmod d slot (· + v)) }

/-- The tree's sum of every count of a slot (spec/09 R234). -/
def State.deltaSum (s : State) (slot : Nat) : BitVec 32 :=
  (s.fields.toList.map (fun f => tget 0 f.delta slot)).foldl (· + ·) 0 +
  (s.stk.toList.map (fun f => tget 0 f.delta slot)).foldl (· + ·) 0 +
  tget 0 s.dieDelta.a slot + tget 0 s.dieDelta.b slot

/-- Sets every count of a slot to 0 (spec/09 R234: at START and at every roll-back). -/
def State.clearDelta (s : State) (slot : Nat) : State :=
  { s with
    fields := s.fields.map (fun f => { f with delta := tset f.delta slot 0 })
    stk := s.stk.map (fun f => { f with delta := tset f.delta slot 0 })
    dieDelta := { a := tset s.dieDelta.a slot 0, b := tset s.dieDelta.b slot 0 } }

/-! ### Stacks and dies that cannot be reached (spec/15 R403, R405) -/

/-- Lost stacks. -/
def State.lostStacks (s : State) : List Nat := (List.range 16).filter (fun n => (s.stack n).lost)

/-- The stack has no cover: lost without parity, or one of two lost in stack-parity mode (spec/15 R403, R404). -/
def State.noCover (s : State) (n : Nat) : Bool := (s.stack n).lost && (!s.mod.memMode || decide (2 ≤ s.lostStacks.length))

/-- The proxy of a lost stack: the next stack in ascending order, wrapping, that is not lost (spec/15 R403). -/
def State.proxyOf (s : State) (n : Nat) : Option Nat :=
  ((List.range 15).map (fun i => (n + 1 + i) % 16)).find? (fun m => !(s.stack m).lost)

/-- Edge field of a companion die (spec/01 Table 1.5). -/
def dieField (p : Port) : Nat :=
  match p with
  | .a => 22
  | .b => 37

/-- The die whose attachment carries a die's traffic: its own, the other's once its edge field is lost, or none (R405). -/
def State.dieAttach (s : State) (p : Port) : Option Port :=
  if !(s.port p).viaPeer then some p else if !(s.port p.other).viaPeer then some p.other else none

/-! ### Which cores run -/

/-- The cores of a field may run: its clock runs and its job is RUNNING outside a safelight interval
(spec/09 Table 9.1, R246; spec/06 R160). -/
def State.fieldRuns (s : State) (f : Nat) : Bool :=
  (s.field f).clocked &&
    match s.fieldJob f with
    | some j => (s.job j).state == .running && !(s.job j).inSafelight
    | none => false

/-- The core's engines work: commands in progress complete, in a safelight interval too (spec/09 R245). -/
def State.coreWorks (s : State) (c : CoreId) : Bool :=
  match coreField c with
  | some f => (s.field f).clocked && !(s.core c).err &&
      match s.fieldJob f with
      | some j => (s.job j).state == .running
      | none => false
  | none => false

/-- The core runs: its field runs, it is not stopped by a core error or by STOPAT (spec/09 R245). -/
def State.coreRuns (s : State) (c : CoreId) : Bool :=
  match coreField c with
  | some f => s.fieldRuns f && !(s.core c).err && !(s.core c).stopped
  | none => false

end Sys2Proof.Machine
end

