-- ==== Sys2Proof/Machine/Net.lean ====
section
/-! DEFINITION. The network: packets, routes, hand-off, take-off and refusals (spec/08, spec/09 R233-R236).
DESIGN CHOICE (log 11): a packet in flight is one element of `net`; its route is walked when it arrives, under the tables,
down links and negative of that moment, and a multicast packet is expanded into its copies at hand-off. -/

namespace Sys2Proof.Machine

/-! ### Packets (Tables 8.3, 8.4) -/

def pWrite : Nat := 0
def pQsend : Nat := 1
def pCredit : Nat := 2
def pRead : Nat := 3
def pRdata : Nat := 4
def pNak : Nat := 5
def pFcmsg : Nat := 6

/-- NAK reasons (Table 8.7). -/
def nakClosed : Nat := 0
def nakReset : Nat := 1
def nakFull : Nat := 2
def nakExcess : Nat := 3
def nakFormat : Nat := 4
def nakCredit : Nat := 5
def nakUnmapped : Nat := 8
def nakWashing : Nat := 9
def nakNoroute : Nat := 10
def nakFenced : Nat := 11
def nakMalformed : Nat := 12

/-- H0 of a packet (Table 8.3). -/
def Packet.h0 (p : Packet) : BitVec 64 :=
  BitVec.ofNat 64 (packFields [(0, p.ptype), (3, p.dkind), (5, if p.mc then p.group else p.dx), (15, if p.mc then 0 else p.dy),
    (25, p.sx), (35, p.sy), (45, b2n p.mc), (46, p.epoch.toNat), (48, p.len), (60, p.qid)])

/-- DA of a packet (H1 bits [47:0]). -/
def Packet.da (p : Packet) : Nat := nfld p.h1.toNat 0 48

/-- Response class: CREDIT, RDATA, NAK, FCMSG (spec/08 R196). -/
def Packet.isResponse (p : Packet) : Bool := p.ptype == pCredit || decide (pRdata ≤ p.ptype)

/-- Core the packet came from (spec/08 R494). -/
def Packet.srcCore (p : Packet) : Option CoreId := if p.sx < 768 then some { x := p.sx, y := p.sy } else none

/-- The end the packet came from. -/
def Packet.srcEnd (p : Packet) : Option NetEnd :=
  if p.sx < 768 then (coreField { x := p.sx, y := p.sy }).map .field
  else if p.sx < 784 then some (.stack (p.sx - 768))
  else if p.sx < 786 then some (.die (Port.ofNum (p.sx - 784)))
  else none

/-- The core a packet is addressed to (DKIND 0). -/
def Packet.dstCore (p : Packet) : CoreId := { x := p.dx, y := p.dy }

/-- DA of a scratchpad byte (spec/12 Table 12.4). -/
def daCore (c : CoreId) (off : Nat) : Nat := packFields [(34, c.x), (24, c.y), (0, off)]

/-- A queue send's DA that breaks the layout of the scratchpad space (spec/12 R307, Table 12.4). -/
def Packet.daBad (p : Packet) : Bool := p.ptype == pQsend && (nfld p.da 44 4 != 0 || nfld p.da 16 8 != 0)

/-- The word in an address register's layout that names a core (DA[43:24]). -/
def daTarget (da : Nat) : CoreId := { x := nfld da 34 10, y := nfld da 24 10 }

/-- Reserved header bits are zero and DA[2:0] = 0 (spec/08 R200, R494). -/
def Packet.wellFormed (p : Packet) : Bool :=
  let h := p.h1.toNat
  decide (p.sx < 786) &&
  match p.ptype with
  | 0 => nfld h 0 3 == 0
  | 1 => nfld h 0 3 == 0 && nfld h 48 16 == 0
  | 2 => nfld h 13 51 == 0
  | 3 => nfld h 0 3 == 0 && nfld h 63 1 == 0
  | 4 => nfld h 0 3 == 0 && nfld h 49 15 == 0
  | 5 => nfld h 20 44 == 0
  | 6 => true
  | _ => false

/-- A response addressed to a packet's source (spec/08 R494). -/
def Packet.reply (p : Packet) (ty sx sy : Nat) : Packet :=
  { ptype := ty
    dkind := if p.sx < 768 then 0 else if p.sx < 784 then 1 else 2
    dx := if p.sx < 768 then p.sx else if p.sx < 784 then p.sx - 768 else p.sx - 784
    dy := if p.sx < 768 then p.sy else 0
    sx := sx
    sy := sy
    counted := p.counted
    slot := p.slot
    tag := p.tag }

/-- The NAK of a refused packet (Table 8.4); a core's carries its own epoch (spec/09 R248). -/
def Packet.nak (p : Packet) (sx sy : Nat) (epoch : BitVec 2) (reason words : Nat) : Packet :=
  { p.reply pNak sx sy with
    epoch := epoch
    h1 := BitVec.ofNat 64 (packFields [(0, reason), (4, if p.ptype = pRead then 0 else p.qid), (8, words % 4096)]) }

/-- The RDATA that answers a READ (Table 8.4): RWORD as a byte offset of the requester's scratchpad, RQ and QID kept. -/
def Packet.rdata (p : Packet) (sx sy : Nat) (epoch : BitVec 2) (ws : List (Word × Bool)) : Packet :=
  let rq := p.h1.getLsbD 61
  { p.reply pRdata sx sy with
    epoch := epoch
    len := p.len
    qid := if rq then p.qid else 0
    h1 := BitVec.ofNat 64 (packFields [(0, if p.sx < 768 then daCore { x := p.sx, y := p.sy } (8 * nfld p.h1.toNat 48 13) else 0),
      (48, b2n rq)])
    pay := ws }

/-! ### Places of the edge (spec/01 R493, spec/08 R195) -/

/-- Hub coordinates of a field's hub group (spec/08 R195). -/
def hubOf (f h : Nat) : Nat × Nat := (6 * (fieldPos f).1 + h % 6, 8 * (fieldPos f).2 + h / 6)

/-- The hub a stack's attachment joins (spec/01 R493, Tables 1.5, 1.9): field and hub group. -/
def stackEdge (n : Nat) : Nat × Nat :=
  match n with
  | 0 => (1, 3) | 1 => (2, 3) | 2 => (3, 3) | 3 => (4, 3)
  | 4 => (13, 29) | 5 => (21, 29) | 6 => (45, 29) | 7 => (53, 29)
  | 8 => (58, 45) | 9 => (57, 45) | 10 => (56, 45) | 11 => (55, 45)
  | 12 => (46, 24) | 13 => (38, 24) | 14 => (14, 24) | _ => (6, 24)

/-- Field and hub group of a companion die's attachment (spec/01 Tables 1.5, 1.9). -/
def dieEdge (p : Port) : Nat × Nat :=
  match p with
  | .a => (22, 24)
  | .b => (37, 29)

/-- Field through whose core ports or edge ports a packet enters the network (spec/08 R202, R211). -/
def State.entryField (s : State) (p : Packet) : Option Nat :=
  match p.srcEnd with
  | some (.field f) => some f
  | some (.stack n) => some (stackEdge n).1
  | some (.die d) => some (dieEdge ((s.dieAttach d).getD d)).1
  | none => none

/-- Injection is held where a packet enters (spec/08 R211). -/
def State.injectionHeld (s : State) (p : Packet) : Bool :=
  match s.entryField p with
  | some f => (s.field f).rtHeld
  | none => false

/-! ### Hand-off and take-off -/

/-- Hands a packet to the network: counted sent at its own end (spec/09 R233, R234); while injection is held there it waits at
its port (spec/08 R211). -/
def State.send (s : State) (e : NetEnd) (p : Packet) : State :=
  let s := { s with net := s.net ++ [{ p with out := s.injectionHeld p }] }
  if p.counted then s.addDelta e p.slot 1 else s

/-- Takes a packet off: counted at the end where it is taken off (spec/09 R233, R234). -/
def State.takeOff (s : State) (e : NetEnd) (p : Packet) : State :=
  if p.counted then s.addDelta e p.slot (-1) else s

/-- Members of a multicast group of a partition (spec/08 R214). -/
def State.members (s : State) (slot g : Nat) : List CoreId :=
  let j := s.job slot
  let pick (l : List (Nat × List LPos)) : Option (List LPos) := (l.find? (fun e => e.1 == g)).map (fun e => e.2)
  let l := match j.inForce.reverse.findSome? (fun o => pick o.groups) with
    | some m => m
    | none => (pick j.image.groups).getD []
  l.filterMap j.place

/-- A packet from a core is counted when it leaves the field, or its end is a stack or a die, or its group has a member
outside the field (spec/09 R233). -/
def coreCounted (src : CoreId) (p : Packet) (members : List CoreId) : Bool :=
  if p.ptype = pFcmsg ∨ p.dkind = 3 then false
  else if p.mc then members.any (fun m => coreField m != coreField src)
  else if p.dkind = 0 then (coreField p.dstCore).isSome && coreField p.dstCore != coreField src
  else true

/-- The copies of a multicast packet, one per member, with the member's X and Y in DA[43:24] (spec/08 R214). -/
def Packet.copies (p : Packet) (members : List CoreId) : List Packet :=
  members.map (fun m =>
    { p with dx := m.x, dy := m.y, h1 := if p.ptype = pCredit then p.h1 else
        BitVec.ofNat 64 (p.h1.toNat - p.da + daCore m (nfld p.da 0 24) + nfld p.da 44 4 * 2 ^ 44) })

/-- A core's packet completed with its source, epoch, count and slot (spec/09 R233, R248). -/
def State.stampCore (s : State) (src : CoreId) (p : Packet) : Packet × List CoreId :=
  let slot := (s.coreJob src).getD 0
  let ms := if p.mc then s.members slot p.group else []
  ({ p with
    sx := src.x
    sy := src.y
    epoch := (s.core src).epoch
    slot := slot
    counted := coreCounted src p ms }, ms)

/-- Destination fields of a device address (spec/12 Table 12.4): DKIND, DX, DY; none for an unmapped address. -/
def daDest (da : Nat) : Option (Nat × Nat × Nat) :=
  match nfld da 44 4 with
  | 0 => if nfld da 16 8 = 0 ∧ (coreField (daTarget da)).isSome then some (0, (daTarget da).x, (daTarget da).y) else none
  | 1 => if nfld da 41 3 = 0 then some (1, nfld da 37 4, 0) else none
  | 2 => if nfld da 13 11 = 0 ∧ (coreField (daTarget da)).isSome then some (0, (daTarget da).x, (daTarget da).y) else none
  | 3 => if nfld da 32 12 = 0 ∧ nfld da 24 8 < 60 ∧ nfld da 17 7 = 0 then some (3, nfld da 24 8, 0) else none
  | 4 => some (2, nfld da 43 1, 0)
  | _ => none

/-! ### Routes (spec/08 R202-R205, R212) -/

/-- How a route ends. -/
inductive RouteEnd where
  | arrive
  | refuse (c : CoreId)
  | wait
  deriving DecidableEq, Repr

/-- A route walked so far: its end, the routers and hubs passed in order, whether a hub stood before the link that ends it,
whether that link is down, and where it waits before a stopped field. -/
structure Walk where
  fin : RouteEnd
  path : List At := []
  atHub : Option (Nat × Nat) := none
  down : Bool := false
  pos : Option NetPos := none
  deriving DecidableEq, Repr

/-- Routers of a route. -/
def Walk.routers (w : Walk) : List CoreId := w.path.filterMap (fun a => match a with | .router c => some c | .hub _ _ => none)

/-- Hubs of a route. -/
def Walk.hubs (w : Walk) : List (Nat × Nat) := w.path.filterMap (fun a => match a with | .hub x y => some (x, y) | .router _ => none)

/-- The part of a route that has been left behind: without the point at which it is refused or waits. -/
def Walk.left (w : Walk) : Walk := if w.fin = .arrive then w else { w with path := w.path.dropLast }

/-- Field of a point of the network. -/
def At.field : At → Option Nat
  | .router c => coreField c
  | .hub hx hy => fieldAt (hx / 6) (hy / 8)

/-- Neighbour in a direction: 0 N, 1 E, 2 S, 3 W. -/
def stepDir (x y dir : Nat) : Option (Nat × Nat) :=
  match dir with
  | 0 => if y = 0 then none else some (x, y - 1)
  | 1 => some (x + 1, y)
  | 2 => some (x, y + 1)
  | _ => if x = 0 then none else some (x - 1, y)

/-- Dimension-ordered direction from (x, y) to (tx, ty); Y first where the turn point lies in a missing corner (R203). -/
def dimDir (yFirst : Bool) (x y tx ty : Nat) : Option Nat :=
  let dx := if x < tx then some 1 else if tx < x then some 3 else none
  let dy := if y < ty then some 2 else if ty < y then some 0 else none
  if yFirst then dy.orElse (fun _ => dx) else dx.orElse (fun _ => dy)

/-- The central router nearest to a position within its hub group (spec/08 R195, R202). -/
def centralOf (c : CoreId) : CoreId :=
  { x := 16 * (c.x / 16) + (if c.x % 16 ≤ 7 then 7 else 8), y := 16 * (c.y / 16) + (if c.y % 16 ≤ 7 then 7 else 8) }

/-- Attachment number of a central router: (7,7), (8,7), (7,8), (8,8). -/
def attachNum (c : CoreId) : Nat := (c.x % 16 - 7) + 2 * (c.y % 16 - 7)

/-- The position a hub answers for (spec/08 R212): its group's router at (8, 8). -/
def hubPoint (hx hy : Nat) : CoreId := { x := 16 * hx + 8, y := 16 * hy + 8 }

/-- The first valid exception entry that matches a destination and an input port gives the output port (R204). -/
def exMatch (t : KMap (BitVec 32)) (dx dy inport : Nat) : Option Nat :=
  (t.find? (fun e =>
    let v := e.2.toNat
    let m := nfld v 20 2
    nfld v 31 1 == 1 && (nfld v 22 3 == 7 || nfld v 22 3 == inport) &&
    (m == 3 || (m == 1 && nfld v 0 10 == dx) || (m == 2 && nfld v 10 10 == dy) ||
     (m == 0 && nfld v 0 10 == dx && nfld v 10 10 == dy)))).map (fun e => nfld e.2.toNat 25 3)

/-- What a packet's route goes to. -/
structure Target where
  core : Option CoreId
  hubX : Nat
  hubY : Nat
  express : Bool
  yFirstFine : Bool
  yFirstHub : Bool
  shut : Bool
  deriving DecidableEq, Repr

def cornerPoint (x y : Nat) : Bool := (coreField { x := x, y := y }).isNone
def cornerHub (hx hy : Nat) : Bool := (fieldAt (hx / 6) (hy / 8)).isNone

/-- The route target of a packet from a core: its tier by XMIN (spec/08 R202). -/
def State.target (s : State) (p : Packet) (src : Option CoreId) : Target :=
  let edge (fh : Nat × Nat) : Nat × Nat := hubOf fh.1 fh.2
  let dst := p.dstCore
  let hub : Nat × Nat :=
    match p.dkind with
    | 0 => (dst.x / 16, dst.y / 16)
    | 1 => edge (stackEdge (if (s.stack p.dx).lost then (s.proxyOf p.dx).getD p.dx else p.dx))
    | 2 => edge (dieEdge ((s.dieAttach (Port.ofNum p.dx)).getD .a))
    | _ => edge (p.dx, 0)
  let dist (a b : Nat) : Nat := (a - b) + (b - a)
  let near := match src with
    | some c => p.dkind == 0 && decide (dist c.x dst.x + dist c.y dst.y ≤ (s.router c).xmin.toNat)
    | none => false
  let srcHub : Nat × Nat := match src with
    | some c => (c.x / 16, c.y / 16)
    | none => match p.srcEnd with
      | some (.stack n) => edge (stackEdge n)
      | some (.die d) => edge (dieEdge ((s.dieAttach d).getD .a))
      | _ => hub
  { core := if p.dkind = 0 then some dst else none
    hubX := hub.1
    hubY := hub.2
    express := !near
    yFirstFine := near && match src with
      | some c => cornerPoint dst.x c.y
      | none => false
    yFirstHub := cornerHub hub.1 srcHub.2
    shut := (p.dkind == 1 && s.noCover p.dx) || (p.dkind == 2 && (s.dieAttach (Port.ofNum p.dx)).isNone) }

/-- One field forwards (its routers and hubs are not stopped, spec/08 R213). -/
def State.forwardsAt (s : State) (c : CoreId) : Bool :=
  match coreField c with
  | some f => (s.field f).forwards
  | none => false

/-- A point's refusal: by the router there, or for a hub by its group's router at (8, 8) (spec/08 R212). -/
def Walk.refuse (w : Walk) (a : At) (down : Bool) : Walk :=
  match a with
  | .router c => { w with fin := .refuse c, down := down }
  | .hub hx hy => { w with fin := .refuse (hubPoint hx hy), atHub := some (hx, hy), down := down }

/-- Walks a route from a point, entered by `inport`; `up` while the packet is on its way to its source's hub. -/
def State.walk (s : State) (t : Target) : Nat → At → Nat → Bool → Walk → Walk
  | 0, _, _, _, w => { w with fin := .wait }
  | n + 1, .router c, inport, up, w =>
    let r := s.router c
    let w := { w with path := w.path ++ [.router c] }
    let goal := if up then centralOf c else t.core.getD c
    let out : Option Nat :=
      match exMatch r.exA (t.core.getD { x := 16 * t.hubX, y := 16 * t.hubY }).x
          (t.core.getD { x := 16 * t.hubX, y := 16 * t.hubY }).y inport with
      | some o => some o
      | none => if c = goal then some (if up then 5 else 4) else dimDir (t.yFirstFine && !up) c.x c.y goal.x goal.y
    match out with
    | none => w.refuse (.router c) false
    | some 4 => if t.core = some c then { w with fin := .arrive } else w.refuse (.router c) false
    | some 5 =>
      if centralOf c ≠ c ∨ r.attDown then w.refuse (.router c) r.attDown
      else State.walk s t n (.hub (c.x / 16) (c.y / 16)) 5 false w
    | some 6 => w.refuse (.router c) false
    | some 7 => w.refuse (.router c) false
    | some d =>
      match stepDir c.x c.y d with
      | none => w.refuse (.router c) false
      | some (x, y) =>
        let c' : CoreId := { x := x, y := y }
        if (coreField c').isNone || r.down.getLsbD d || s.code c' == 2 then w.refuse (.router c) (r.down.getLsbD d)
        else if (s.field ((coreField c).getD 0)).rtMissing.any (fun g => coreField c' == some g) then w.refuse (.router c) false
        else if !s.forwardsAt c' then
          { w with fin := .wait, pos := some { at_ := .router c, inport := inport, up := up, into := (coreField c').getD 0 } }
        else State.walk s t n (.router c') ((d + 2) % 4) up w
  | n + 1, .hub hx hy, inport, _, w =>
    let h := s.hub hx hy
    let w := { w with path := w.path ++ [.hub hx hy] }
    let out : Option Nat :=
      match exMatch h.exA t.hubX t.hubY inport with
      | some o => some o
      | none => if hx = t.hubX ∧ hy = t.hubY then some (if t.core.isSome then 5 else 4)
                else dimDir t.yFirstHub hx hy t.hubX t.hubY
    match out with
    | none => w.refuse (.hub hx hy) false
    | some 4 => if h.edgeDown || t.shut || t.core.isSome then w.refuse (.hub hx hy) h.edgeDown else { w with fin := .arrive }
    | some 5 =>
      match t.core with
      | none => w.refuse (.hub hx hy) false
      | some c =>
        let near : CoreId := { x := 16 * hx + (if c.x % 16 ≤ 7 then 7 else 8), y := 16 * hy + (if c.y % 16 ≤ 7 then 7 else 8) }
        let cut := h.attDown.getLsbD (attachNum near)
        if cut || s.code near == 2 then w.refuse (.hub hx hy) cut
        else State.walk s t n (.router near) 5 false w
    | some 6 => w.refuse (.hub hx hy) false
    | some 7 => w.refuse (.hub hx hy) false
    | some d =>
      match stepDir hx hy d with
      | none => w.refuse (.hub hx hy) false
      | some (x, y) =>
        match fieldAt (x / 6) (y / 8) with
        | none => w.refuse (.hub hx hy) false
        | some f =>
          if h.xdown.getLsbD d || (s.field ((fieldAt (hx / 6) (hy / 8)).getD 0)).rtMissing.contains f then
            w.refuse (.hub hx hy) (h.xdown.getLsbD d)
          else if !(s.field f).forwards then
            { w with fin := .wait, pos := some { at_ := .hub hx hy, inport := inport, up := false, into := f } }
          else State.walk s t n (.hub x y) ((d + 2) % 4) false w

/-- The route of a packet that waits in front of a stopped field (spec/08 R213): it waits on; once the tables there treat that
field as missing it is refused or dropped; once the field runs again it goes on. -/
def State.resumeRoute (s : State) (t : Target) (q : NetPos) : Walk :=
  let stay : Walk := { fin := .wait, path := [q.at_], pos := some q }
  match q.at_.field with
  | none => stay
  | some f =>
    if (s.field f).rtMissing.contains q.into then stay.refuse q.at_ false
    else if !(s.field f).forwards || !(s.field q.into).forwards then stay
    else State.walk s t 4096 q.at_ q.inport q.up { fin := .wait }

/-- A packet of a stack or a die enters at its edge port, unless that port is down: the hub in front of it refuses or drops it
(spec/08 R212). -/
def State.edgeRoute (s : State) (t : Target) (fh : Nat × Nat) : Walk :=
  let h := hubOf fh.1 fh.2
  if !(s.field fh.1).forwards then { fin := .wait }
  else if (s.hub h.1 h.2).edgeDown then Walk.refuse { fin := .wait, path := [.hub h.1 h.2] } (.hub h.1 h.2) true
  else State.walk s t 4096 (.hub h.1 h.2) 4 false { fin := .wait }

/-- The route of a packet from its source (spec/08 R202): fine mesh alone, or through the hubs. FCMSG and packets to a
field controller end at their hub's field. A packet held back from injection stands at its port (R211). -/
def State.route (s : State) (p : Packet) : Walk :=
  let src := p.srcCore
  let t := s.target p src
  if p.out && s.injectionHeld p then { fin := .wait }
  else
    match p.pos with
    | some q => s.resumeRoute t q
    | none =>
      match src with
      | some c =>
        if (coreField c).isNone then { fin := .arrive }
        else if !s.forwardsAt c then { fin := .wait }
        else if p.dkind = 0 ∧ (coreField p.dstCore).isNone then { fin := .arrive }
        else State.walk s t 4096 (.router c) 4 t.express { fin := .wait }
      | none =>
        match p.srcEnd with
        | some (.stack n) => s.edgeRoute t (stackEdge n)
        | some (.die d) => s.edgeRoute t (dieEdge ((s.dieAttach d).getD .a))
        | _ => { fin := .arrive }

/-- What a passing packet counts at a router: the flits it forwarded for others, and free counts of corrected words and of
cycles without a slot (Table 8.12; log 9, log 68). -/
def Router.pass (r : Router) (key draw flits : Nat) : Router :=
  { r with
    fwd := satAdd r.fwd flits
    linkCe := satAdd r.linkCe (Config.linkCorrected draw key).toNat
    blk := satAdd r.blk (Config.blockedCycles draw key).toNat }

/-- Counts a packet's flits at the routers and hubs that forwarded it (Tables 8.12, 8.13). -/
def State.countFlits (s : State) (p : Packet) (w : Walk) : State :=
  let n := p.pay.length + 2
  let (d, s) := s.draw
  let others (c : CoreId) : Bool := some c != p.srcCore && (p.dkind != 0 || c != p.dstCore)
  let s := w.routers.foldl (fun s c => s.setRouter c ((s.router c).pass (coreKey c) d (if others c then n else 0))) s
  w.hubs.foldl (fun s h => let r := s.hub h.1 h.2; s.setHub h.1 h.2 { r with fwd := satAdd r.fwd n }) s

/-! ### Hand-off by a core (spec/07 R164, spec/08 R214, spec/09 R233, R234) -/

/-- The copies of a multicast packet, each with the field that counts its send: the source's for the first, and for every further
one the field of the router or hub that forks (spec/09 R233, R234). DESIGN CHOICE (log 11): the tree is the union of
the members' own routes, since how the route builder lays a group out is open. -/
def State.forks (s : State) (f : Nat) : List At → List Packet → List (Packet × Nat)
  | _, [] => []
  | seen, p :: t =>
    let path := (s.route p).path
    (p, (((path.filter (fun a => seen.contains a)).getLast?).bind At.field).getD f) :: State.forks s f (seen ++ path) t

/-- Hands a stamped packet of a core to the network; nothing enters for a WRITE or QSEND of no words (spec/07 R164). -/
def State.handOff (s : State) (src : CoreId) (p : Packet) (ms : List CoreId) : State :=
  match coreField src with
  | none => s
  | some f =>
    if (p.ptype = pWrite ∨ p.ptype = pQsend) ∧ p.len = 0 then s
    else if p.mc then (s.forks f [] (p.copies ms)).foldl (fun s c => s.send (.field c.2) c.1) s
    else s.send (.field f) p

/-! ### Refusals (spec/08 R206-R208) -/

/-- Refuses a packet at a point: it is taken off, and answered by a NAK; a READ also by poisoned RDATA. `ep`: the epoch the answers
carry (spec/09 R248). -/
def State.refuseAt (s : State) (p : Packet) (e : NetEnd) (sx sy : Nat) (ep : BitVec 2) (reason words : Nat) : State :=
  let s := (s.takeOff e p).send e (p.nak sx sy ep reason words)
  if p.ptype = pRead then s.send e (p.rdata sx sy ep (List.replicate p.len (0, true))) else s

/-- The field end of a position. -/
def posEnd (c : CoreId) : NetEnd := .field ((coreField c).getD 0)

/-- The job whose partition a packet serves: that of its core end. -/
def State.packetJob (s : State) (p : Packet) : Option Nat :=
  if p.dkind = 0 then s.coreJob p.dstCore else p.srcCore.bind s.coreJob

/-- A packet whose route ends in front of a down or missing link: a request is refused as NOROUTE, a response is dropped
and counted; its partition's develop point is held for a response, or where the link is down (spec/08 R206, R212). -/
def State.refuseRoute (s : State) (p : Packet) (c : CoreId) (w : Walk) : State :=
  let s := match s.packetJob p with
    | some j => if p.isResponse || w.down then s.faultInPlace j else s
    | none => s
  if p.isResponse then
    let s := s.takeOff (posEnd c) p
    match w.atHub with
    | some h => let r := s.hub h.1 h.2; s.setHub h.1 h.2 { r with rpl := sat1 r.rpl }
    | none => let r := s.router c; s.setRouter c { r with linkRpl := sat1 r.linkRpl }
  else s.refuseAt p (posEnd c) c.x c.y 0 nakNoroute p.len

/-- Takes the k-th packet out of the network. -/
def State.dropNet (s : State) (k : Nat) : State := { s with net := s.net.eraseIdx k }

/-- Packets of one class between one source and one destination keep their order (spec/08 R201). -/
def samePath (a b : Packet) : Bool :=
  a.sx == b.sx && a.sy == b.sy && a.dkind == b.dkind && a.dx == b.dx && a.dy == b.dy && a.isResponse == b.isResponse

/-- The k-th packet in flight, if it is of a type, for a kind of destination, and first on its path. -/
def State.arriving (s : State) (k : Nat) (types kinds : List Nat) : Option Packet :=
  match s.net[k]? with
  | none => none
  | some p =>
    if types.contains p.ptype && kinds.contains p.dkind && !((s.net.take k).any (samePath p)) then some p else none

/-! ### Combined READs (spec/08 R217) -/

/-- The RDATA copy of a combined requester, with that requester's RWORD, RQ and QID. -/
def combinedCopy (r p : Packet) : Packet := r.rdata p.sx p.sy p.epoch p.pay

/-- A combining entry whose READ an RDATA answers. -/
def Combine.answers (m : Combine) (p : Packet) : Bool :=
  p.h1 == (m.lead.rdata p.sx p.sy p.epoch []).h1 && p.dkind == (m.lead.reply 0 0 0).dkind && p.dx == (m.lead.reply 0 0 0).dx &&
    p.dy == (m.lead.reply 0 0 0).dy && p.len == m.lead.len && p.tag == m.lead.tag

/-- An RDATA passes hubs: each that holds an entry of its READ sends a copy to each combined requester, whose READ is then taken
off (spec/09 R233), and frees the entry. -/
def State.fanOut (s : State) (p : Packet) (hs : List (Nat × Nat)) : State :=
  hs.foldl (fun s e =>
    let h := s.hub e.1 e.2
    match h.cmb.find? (fun m => m.answers p) with
    | none => s
    | some m =>
      let s := s.setHub e.1 e.2 { h with cmb := h.cmb.filter (fun x => x ≠ m) }
      let f := (fieldAt (e.1 / 6) (e.2 / 8)).getD 0
      m.waiters.foldl (fun s r => (s.takeOff (.field f) r).send (.field f) (combinedCopy r p)) s) s

/-- A packet stands in front of a field that is still stopped: the drain of a safelight interval or of a KILL does not wait for it (spec/09
R249, spec/16 R427). -/
def State.atEdge (s : State) (p : Packet) : Bool := p.pos.any (fun q => !(s.field q.into).forwards)

/-- What a packet does on the part of its route that it leaves behind: flits counted, combined READs answered. -/
def State.passed (s : State) (p : Packet) (w : Walk) : State :=
  let s := s.countFlits p w.left
  if p.ptype = pRdata then s.fanOut p w.left.hubs else s

/-- The k-th packet comes to stand in front of a stopped field (spec/08 R213). -/
def State.standAt (s : State) (k : Nat) (p : Packet) (w : Walk) : State :=
  if w.pos.isNone ∨ w.pos = p.pos then s
  else State.passed { s with net := s.net.set k { p with pos := w.pos } } p w

/-- A packet that arrives for a core ungates its field's cores (spec/14 R369). -/
def State.ungate (s : State) (p : Packet) : State :=
  if p.dkind ≠ 0 then s
  else
    match coreField p.dstCore with
    | some f => s.modField f (fun x => { x with gated := false })
    | none => s

/-- Runs an arrival: the route decides between waiting, a refusal on the way, and the endpoint. -/
def State.arrive (s : State) (k : Nat) (types kinds : List Nat) (f : State → Packet → State) : State :=
  match s.arriving k types kinds with
  | none => s
  | some p =>
    let w := s.route p
    match w.fin with
    | .wait => s.standAt k p w
    | .refuse c => ((s.dropNet k).passed p w).refuseRoute p c w
    | .arrive => f (((s.dropNet k).passed p w).ungate p) p

/-- What a core's position refuses before its inbound port looks at the packet (spec/08 Tables 8.6, 8.7; spec/05 R146;
spec/16 R429; spec/07 R491 step 1). -/
def State.coreRefusal (s : State) (c : CoreId) (p : Packet) : Option Nat :=
  if (coreField c).isNone then some nakUnmapped
  else if s.code c = 2 then some nakNoroute
  else if s.code c = 1 then some nakFenced
  else if (s.core c).portClosed then some nakWashing
  else if (s.coreJob c).isNone then some nakUnmapped
  else if !p.wellFormed then some nakMalformed
  else none

/-- Counts an unmapped access in SPSTAT.UNMAP (spec/05 R126). -/
def CoreState.setUnmap (c : CoreState) : CoreState := { c with sp := { c.sp with unmap := true } }

/-- The point that refuses a packet bound for a position: the position itself, or, where no core exists there (spec/01 R27), the
point at which the packet entered. DESIGN CHOICE (log 11): the manual names no refusing point for such a position. -/
def State.refusePoint (s : State) (c : CoreId) (p : Packet) : CoreId :=
  if (coreField c).isSome then c
  else
    match p.srcCore with
    | some d => d
    | none =>
      match p.srcEnd with
      | some (.stack n) => let h := hubOf (stackEdge n).1 (stackEdge n).2; hubPoint h.1 h.2
      | some (.die d) => let e := dieEdge ((s.dieAttach d).getD d); let h := hubOf e.1 e.2; hubPoint h.1 h.2
      | _ => c

/-- An access that breaks R126: at an unmapped offset, or not within one word. -/
def unmapsCore (p : Packet) (reason : Nat) : Bool :=
  reason == nakUnmapped || (reason == nakMalformed && (p.ptype == pWrite || p.ptype == pRead) && nfld p.da 0 3 != 0)

/-- A refusal by a core (spec/08 R206), with SPSTAT.UNMAP where the access breaks R126. -/
def State.coreRefuse (s : State) (c : CoreId) (p : Packet) (reason words : Nat) : State :=
  let s := if unmapsCore p reason ∧ (coreField c).isSome then s.modCore c CoreState.setUnmap else s
  let d := s.refusePoint c p
  s.refuseAt p (posEnd d) d.x d.y (s.core c).epoch reason words

end Sys2Proof.Machine
end

