-- ==== Sys2Proof/Machine/Queues.lean ====
section
/-! DEFINITION. Arrivals at a core: words into row buffers, queue sends, credits, pots (spec/05 R126, R133, spec/07). -/

namespace Sys2Proof.Machine

/-- A core error raised by an arriving packet or a publication (log 21). -/
def State.failAt (s : State) (c : CoreId) (code q : Nat) (src : Option (Nat × Nat)) : State :=
  let (n, s) := s.draw
  let v := (Config.errorSite n).toNat
  s.modCore c (fun x => x.failQueue code (nfld v 0 15) (nfld v 16 2) q src)

/-- A packet's sender as QERR and QNAKLOG name it. -/
def Packet.sender (p : Packet) : Nat × Nat := (p.sx, p.sy)

/-- An arrival from another field, a stack or a die is staged (spec/07 R168, spec/09 R236): a counted packet, and an RDATA that
crosses a field boundary, counted or not (spec/08 R216). -/
def stagedAt (c : CoreId) (p : Packet) : Bool := (p.counted || p.ptype == pRdata) && p.srcEnd != (coreField c).map .field

/-- Byte masks of a WRITE's words (Table 8.4): FMASK, 0xFF, LMASK, and FMASK alone for one word. -/
def writeMask (p : Packet) (i : Nat) : BitVec 8 :=
  if p.ptype ≠ pWrite then 0xFF
  else if i = 0 then BitVec.ofNat 8 (nfld p.h1.toNat 48 8)
  else if i + 1 = p.len then BitVec.ofNat 8 (nfld p.h1.toNat 56 8)
  else 0xFF

/-- Queues row commits for the words of one send (spec/05 R133). -/
def CoreState.addRows (k : Kind) (c : CoreState) (ws : List RowWord) (kind : RowKind) (own staged : Bool) (p : Packet) : CoreState :=
  { c with
    rows := c.rows ++ (rowGroups k ws).map (fun g =>
      { words := g, kind := kind, send := c.nextSend, own := own, staged := staged, src := { p with pay := [] } })
    nextSend := c.nextSend + 1 }

/-- Words of a packet that land at mapped offsets of a core, from a byte offset on (spec/05 R126). -/
def mappedWords (k : Kind) (p : Packet) (off : Nat) : List RowWord :=
  (p.pay.mapIdx (fun i d =>
    ({ w := off / 8 + i, data := d.1, mask := writeMask p i, poison := d.2 } : RowWord))).filter
      (fun r => decide (r.w < k.words))

/-- A remote write into a scratchpad: mapped words go to row buffers, the others are refused in one NAK
(spec/05 R126, spec/08 R206). -/
def State.writeIn (s : State) (c : CoreId) (p : Packet) : State :=
  let k := coreKind c
  let ws := mappedWords k p (nfld p.da 0 16)
  let refused := p.pay.length - ws.length
  let s := s.modCore c (fun x => x.addRows k ws .plain false (stagedAt c p) p)
  if refused = 0 then s.takeOff (posEnd c) p
  else
    let s := s.modCore c CoreState.setUnmap
    (s.takeOff (posEnd c) p).send (posEnd c) (p.nak c.x c.y (s.core c).epoch nakUnmapped refused)

/-! ### Queue sends (spec/07 R165, R166, R175, R176, R181, R184, R185, R491) -/

/-- A queue send breaks Table 7.1 for its queue (spec/07 R185). -/
def sendFormatBad (q : Queue) (p : Packet) : Bool :=
  let off := if p.ptype = pRdata then 0 else nfld p.da 0 16
  let slot := nfld off 0 12
  if q.isCredit then true
  else if nfld off 12 4 ≠ 0 then true
  else if !q.isPot then slot ≠ 0 || q.esize == 0 || p.len % max 1 q.esize ≠ 0 || p.len == 0
  else if q.d.mode = 5 then p.len == 0 || decide (q.width < p.len) || decide (q.depth ≤ slot)
  else p.len == 0 || p.len % q.width ≠ 0 || decide (q.depth < slot + p.len / q.width)

/-- Words of a PLAIN send at consecutive entries from the tail, wrapping at the region's end (spec/07 R165). -/
def plainWords (q : Queue) (p : Packet) : List RowWord :=
  p.pay.mapIdx (fun i d =>
    { w := (q.d.base.toNat + (q.tail * q.esize + i) % (max 1 q.depth * q.esize)) % 8192
      data := d.1, mask := 0xFF, poison := d.2 })

/-- Reserves the entries of a PLAIN send and queues its rows (spec/07 R166). -/
def CoreState.acceptPlain (k : Kind) (c : CoreState) (n : Nat) (p : Packet) (own staged : Bool) : CoreState :=
  let q := c.qu n
  let ents := p.len / max 1 q.esize
  let q' := { q with
    tail := (q.tail + ents) % max 1 q.depth
    rsv := q.rsv ++ [{ id := c.nextSend, entries := ents, staged := staged }]
    acc := satAdd q.acc ents }
  (c.setQ n q').addRows k (plainWords q p) (.entries n c.nextSend) own staged p

/-- Queues the rows of a pot contribution: slot by slot for the one- and two-word slots, whole for KEEPK
(spec/07 R165, R186). -/
def CoreState.acceptPot (k : Kind) (c : CoreState) (n : Nat) (p : Packet) (own staged : Bool) : CoreState :=
  let q := c.qu n
  let slot := if p.ptype = pRdata then 0 else nfld p.da 0 12
  let base := q.d.base.toNat + slot * q.width
  let ws : List RowWord := p.pay.mapIdx (fun i d => { w := (base + i) % 8192, data := d.1, mask := 0xFF, poison := d.2 })
  let mk (g : List RowWord) (sl : Nat) : Row :=
    { words := g, kind := .pot n sl, send := c.nextSend, own := own, staged := staged, src := { p with pay := [] } }
  let rows := if q.d.mode = 5 then [mk ws slot]
    else (rowGroups k ws).map (fun g => mk g (((g.head?.map (·.w)).getD base - q.d.base.toNat) / max 1 q.width))
  { c with rows := c.rows ++ rows, nextSend := c.nextSend + 1 }

/-- A queue send that passed the core's own refusals: epoch, state, format, room, in this order (spec/07 R491). -/
def State.queueIn (s : State) (c : CoreId) (p : Packet) (own : Bool) : State :=
  let x := s.core c
  let n := p.qid
  let q := x.qu n
  let e := posEnd c
  if p.epoch ≠ q.d.epoch then
    (s.setCore c (x.setQ n { q with epdrop := satAdd q.epdrop 1 })).takeOff e p
  else if q.d.state ≠ 1 then
    (s.setCore c (x.setQ n { q with drop := satAdd q.drop p.len })).refuseAt p e c.x c.y x.epoch
      (if q.d.state = 2 then nakClosed else nakReset) p.len
  else if sendFormatBad q p then
    (s.failAt c eQFormat n (some p.sender)).refuseAt p e c.x c.y x.epoch nakFormat p.len
  else if q.isPot then
    (s.setCore c (x.acceptPot (coreKind c) n p own (stagedAt c p))).takeOff e p
  else if q.free < p.len / max 1 q.esize then
    (s.failAt c eQOverflow n (some p.sender)).refuseAt p e c.x c.y x.epoch nakFull p.len
  else (s.setCore c (x.acceptPlain (coreKind c) n p own (stagedAt c p))).takeOff e p

/-- A credit return that passed the core's own refusals (spec/07 R180, R491); a staged one is held, and accepted at
publication (spec/07 R168, spec/09 Table 9.2). -/
def State.creditIn (s : State) (c : CoreId) (p : Packet) : State :=
  let x := s.core c
  let n := p.qid
  let q := x.qu n
  let e := posEnd c
  let credits := nfld p.h1.toNat 0 13
  if p.epoch ≠ q.d.epoch then
    (s.setCore c (x.setQ n { q with epdrop := satAdd q.epdrop 1 })).takeOff e p
  else if q.d.state ≠ 1 then
    s.refuseAt p e c.x c.y x.epoch (if q.d.state = 2 then nakClosed else nakReset) 0
  else if !q.isCredit then
    (s.failAt c eQFormat n (some p.sender)).refuseAt p e c.x c.y x.epoch nakFormat 0
  else if stagedAt c p then
    (s.setCore c (x.setQ n { q with stgCredits := q.stgCredits + credits })).takeOff e p
  else if q.depth < q.count + credits then
    (s.failAt c eQCredit n (some p.sender)).refuseAt p e c.x c.y x.epoch nakCredit 0
  else (s.setCore c (x.setQ n { q with count := q.count + credits, acc := satAdd q.acc credits })).takeOff e p

/-! ### Commits (spec/05 R133, spec/07 R169) -/

/-- Takes the first row that satisfies a test. -/
def takeRow (t : Row → Bool) : List Row → Option (Row × List Row)
  | [] => none
  | r :: rest => if t r then some (r, rest) else (takeRow t rest).map (fun e => (e.1, r :: e.2))

def Row.isPot (r : Row) : Bool :=
  match r.kind with
  | .pot _ _ => true
  | _ => false

/-- Marks words of a reservation committed and counts entries (spec/07 R169). -/
def Queue.committed (q : Queue) (id n : Nat) : Queue :=
  Queue.recount { q with rsv := q.rsv.map (fun r => if r.id = id then { r with done := r.done + n } else r) }

/-- One row commit of the inbound port: the oldest row that is not a pot's (spec/05 R133). -/
def CoreState.commitRow (k : Kind) (c : CoreState) : CoreState :=
  match takeRow (fun r => !r.isPot) c.rows with
  | none => c
  | some (r, rest) =>
    let c := CoreState.writeBeat k { c with rows := rest } r.words
    match r.kind with
    | .entries q id => c.setQ q ((c.qu q).committed id r.words.length)
    | _ => c

/-! ### The pot unit (spec/07 R183-R187) -/

/-- Element-wise maximum or minimum of two words (Table 7.5). -/
def maxMinWord (ftype isMax : Bool) (a b : Word) : Word :=
  let half (lo : Nat) : BitVec 32 :=
    let x : BitVec 32 := a.extractLsb' lo 32
    let y : BitVec 32 := b.extractLsb' lo 32
    if ftype then (if isMax == decide (x.toInt ≥ y.toInt) then x else y)
    else BitVec.ofNat 32 (fpMaxMin fmtFP32 isMax x.toNat y.toNat)
  (half 32) ++ (half 0)

/-- Combines a contribution into a slot (spec/07 R183, Table 7.5). -/
def combineSlot (q : Queue) (old new : List Word) : List Word :=
  match q.d.mode.toNat with
  | 1 =>
    let x := xaccAdd (xaccNorm ((old.getD 1 0) ++ (old.getD 0 0))) (xaccNorm ((new.getD 1 0) ++ (new.getD 0 0)))
    [x.extractLsb' 0 64, x.extractLsb' 64 64]
  | 2 => [old.getD 0 0 + new.getD 0 0]
  | 3 => [maxMinWord q.d.ftype true (old.getD 0 0) (new.getD 0 0)]
  | 4 => [maxMinWord q.d.ftype false (old.getD 0 0) (new.getD 0 0)]
  | _ => (svProcedure q.d.dir q.d.nanpol old new).list

/-- Combines one contribution into one slot in the scratchpad; poison of either side poisons the slot (R187). -/
def CoreState.combine (k : Kind) (c : CoreState) (n slot : Nat) (new : List RowWord) (staged : Bool) : CoreState :=
  let q := c.qu n
  let base := q.entryAddr slot
  let addrs := (List.range q.width).map (fun i => (base + i) % 8192)
  let poison := new.any (·.poison) || addrs.any c.poisoned
  let res := combineSlot q (addrs.map c.data) (new.map (·.data))
  let c1 := { c with sp := addrs.foldl (fun r w => r.note (c.dec w) w 2) c.sp }
  let c2 := CoreState.writeBeat k c1 (slotBeat base res poison)
  let p := KMap.get {} q.slots slot
  let p' : PotSlot := { contrib := p.contrib + 1, staged := p.staged || staged }
  c2.setQ n (Queue.recount { q with slots := KMap.put q.slots slot p', acc := satAdd q.acc 1 })

/-- Combines the slots of a row in order, up to a slot that is complete: gives the state and, where one was, how many
words were combined before it (spec/07 R184). -/
def CoreState.combineRow (k : Kind) (n width : Nat) (staged : Bool) :
    Nat → CoreState → Nat → List RowWord → Nat → CoreState × Option Nat
  | 0, c, _, _, _ => (c, none)
  | f + 1, c, slot, ws, used =>
    if ws.isEmpty then (c, none)
    else
      let q := c.qu n
      if q.d.expect.toNat ≤ (KMap.get {} q.slots slot).contrib then (c, some used)
      else CoreState.combineRow k n width staged f (c.combine k n slot (ws.take width) staged) (slot + 1) (ws.drop width) (used + width)

/-- Slots a row covers. -/
def rowSlots (width : Nat) (keepk : Bool) (slot : Nat) (words : Nat) : List Nat :=
  if keepk then [slot] else (List.range (words / max 1 width)).map (slot + ·)

/-- The pot unit takes its oldest row (spec/07 R186); a row that waits for an identity write stays. -/
def State.potCombine (s : State) (c : CoreId) : State :=
  let x := s.core c
  match takeRow Row.isPot x.rows with
  | none => s
  | some (r, rest) =>
    match r.kind with
    | .pot n slot =>
      let q := x.qu n
      let keepk := q.d.mode == 5
      if (rowSlots q.width keepk slot r.words.length).any (fun i => q.idWrites.contains i) then s
      else
        let w := if keepk then r.words.length else q.width
        match CoreState.combineRow (coreKind c) n w r.staged (r.words.length + 1) { x with rows := rest } slot r.words 0 with
        | (y, none) => s.setCore c y
        | (y, some used) =>
          let later := (y.rows.filter (fun t => t.send == r.send)).map (fun t => t.words.length)
          let refused := r.words.length - used + later.foldl (· + ·) 0
          let s := s.setCore c { y with rows := y.rows.filter (fun t => t.send != r.send) }
          let s := s.failAt c eQExcess n (some r.src.sender)
          s.send (posEnd c) (r.src.nak c.x c.y y.epoch nakExcess refused)
    | _ => s

/-- The pot unit writes the identity into the oldest released slot (spec/07 R186). -/
def CoreState.identityWrite (k : Kind) (c : CoreState) (n : Nat) : CoreState :=
  let q := c.qu n
  match q.idWrites with
  | [] => c
  | slot :: rest =>
    (CoreState.writeBeat k c (slotBeat (q.entryAddr slot) q.identity false)).setQ n { q with idWrites := rest }

end Sys2Proof.Machine
end

