-- ==== Sys2Proof/Machine/CoreRegs.lean ====
section
/-! DEFINITION. The core control register block (spec/12 R492, Table 12.11): what each offset reads, what a clearing read
clears (spec/00 R13), and what an applied write does (spec/12 R495, spec/00 Table 0.4). -/

namespace Sys2Proof.Machine

def engBusy (e : Engine) : Bool := !e.queue.isEmpty || !e.prog.isEmpty

/-- Every engine of the core has completed its commands. -/
def CoreState.idle (c : CoreState) : Bool := !engBusy c.e1 && !engBusy c.e2 && !engBusy c.e3

/-- HALTED: fetch stopped by the halt instruction and every engine idle (Tables 3.16, 4.7), with no proof comparison
outstanding; for SX, once the core has started, every thread stopped and the move engine idle (spec/04 R113, Table 4.13). -/
def CoreState.isHalted (k : Kind) (c : CoreState) : Bool :=
  match k with
  | .sx => (c.run || c.err) && !engBusy c.e2 && c.th.toList.all (fun t => !t.run)
  | _ => c.halted && c.idle

/-- The sequencer is held on a semaphore or a queue wait (SEQWAIT). -/
def CoreState.seqWait (c : CoreState) : Bool :=
  match c.hold with
  | .sem _ => true
  | .queue _ _ => true
  | _ => false

/-- Offset 0x0200-0x0378 of an MX core (Table 3.16). -/
def readMx (c : CoreState) (off : Nat) : Option Nat :=
  match off with
  | 0x200 => some (packFields [(0, b2n c.run), (1, b2n (c.isHalted .mx)), (2, b2n c.err), (3, b2n c.seqWait),
      (4, b2n (engBusy c.e1)), (5, b2n (engBusy c.e2)), (16, c.pc.toNat)])
  | 0x208 => some (packFields [(0, c.errCode.toNat), (8, c.errEpc.toNat % 8192), (21, c.errEngine.toNat % 4)])
  | 0x210 => some c.entry.toNat
  | 0x218 => some c.mxSteps.toNat
  | 0x220 => some c.mxStall.toNat
  | _ => none

/-- A sieve descriptor as SVLISTn reads it (Table 4.7). -/
def SvList.reg (l : SvList) : Nat :=
  packFields [(0, l.base.toNat), (13, l.km1.toNat), (23, b2n l.dir), (24, b2n l.ktype), (25, b2n l.nanpol), (26, b2n l.valid)]

/-- Offset 0x0200-0x0378 of a VX core (Table 4.7). -/
def readVx (c : CoreState) (off : Nat) : Option Nat :=
  match off with
  | 0x200 => some (packFields [(0, b2n c.run), (1, b2n (c.isHalted .vx)), (2, b2n c.err), (3, b2n c.seqWait),
      (4, b2n (engBusy c.e1)), (5, b2n (engBusy c.e2)), (6, b2n (engBusy c.e3)), (16, c.pc.toNat)])
  | 0x208 => some (packFields [(0, c.errCode.toNat), (8, c.errEpc.toNat % 8192), (21, c.errEngine.toNat % 4)])
  | 0x210 => some c.entry.toNat
  | 0x218 => some c.vxOps.toNat
  | 0x220 => some c.svRej.toNat
  | 0x228 => some c.svDup.toNat
  | 0x230 => some c.svNan.toNat
  | 0x238 => some c.svInsrt.toNat
  | _ =>
    if 0x300 ≤ off ∧ off ≤ 0x378 ∧ off % 8 = 0 then some (c.lists.get (BitVec.ofNat 4 ((off - 0x300) / 8))).reg else none

/-- Thread `t`. -/
def CoreState.thread (c : CoreState) (t : Nat) : Thread := c.th.get (BitVec.ofNat 2 t)

/-- SXSTAT.WAIT: the thread waits under R115, in a SEMW, QWAIT, STEER or MVSYNC whose condition is not met. -/
def Thread.waits (t : Thread) : Bool :=
  match t.wait with
  | .sem _ => true
  | .queue _ _ => true
  | .steer _ _ => true
  | .mvsync => true
  | _ => false

/-- Offset 0x0200-0x0238 of an SX core (Table 4.13). -/
def readSx (c : CoreState) (off : Nat) : Option Nat :=
  let bits (f : Thread → Bool) (lo : Nat) : List (Nat × Nat) := (List.range 4).map (fun t => (lo + t, b2n (f (c.thread t))))
  match off with
  | 0x200 => some (packFields (bits (fun t => t.run) 0 ++ bits Thread.waits 4 ++
      [(8, b2n (c.isHalted .sx)), (9, b2n c.err), (10, b2n (engBusy c.e2))]))
  | 0x208 => some (packFields [(0, c.errCode.toNat), (8, c.errEpc.toNat), (23, c.errEngine.toNat % 4), (25, c.errEngine.toNat / 4)])
  | 0x210 => some (c.entry.toNat * 4)
  | 0x218 => some c.sxIssue.toNat
  | _ =>
    if 0x220 ≤ off ∧ off ≤ 0x238 ∧ off % 8 = 0 then some (c.thread ((off - 0x220) / 8)).pc.toNat else none

/-- Scratchpad registers (Table 5.8). -/
def readSp (k : Kind) (c : CoreState) (off : Nat) : Option Nat :=
  let r := c.sp
  match off with
  | 0x100 => some (packFields [(0, k.words), (16, k.banks)])
  | 0x108 => some (packFields [(0, b2n r.washing), (1, b2n r.washFail), (2, b2n r.ce), (3, b2n r.ue), (4, b2n r.unmap)])
  | 0x110 => some r.ceCount.toNat
  | 0x118 => some r.ueCount.toNat
  | 0x120 => some r.poisCount.toNat
  | 0x128 => some (packFields [(0, r.logWord.toNat), (14, r.logOutcome.toNat), (16, r.logSource.toNat), (31, b2n r.logValid)])
  | 0x130 => some (packFields [(0, b2n r.scrubEn), (4, r.scrubPeriod.toNat)])
  | 0x138 => some r.waitCount.toNat
  | _ => none

/-- Semaphore registers (Table 6.4). -/
def readSem (k : Kind) (c : CoreState) (off : Nat) : Option Nat :=
  match off with
  | 0x420 => some (packFields ((List.range 4).flatMap (fun e =>
      match c.semWait k e with
      | some s => [(8 * e, s), (8 * e + 7, 1)]
      | none => [])))
  | 0x428 => some (packFields [(0, c.semErrSem.toNat), (4, c.semErrEngine.toNat), (8, c.semErrCount.toNat),
      (16, b2n c.semErrKind), (31, b2n c.semErrValid)])
  | 0x430 => some c.semStall.toNat
  | 0x438 => some c.semSig.toNat
  | _ =>
    if 0x400 ≤ off ∧ off ≤ 0x418 ∧ off % 8 = 0 then
      some (packFields ((List.range 4).map (fun i => (8 * i, c.semCount ((off - 0x400) / 2 + i)))))
    else none

/-- A release that waits for the credit holds is a paired one on this queue (Table 7.4). -/
def CoreState.pairedOn (c : CoreState) (q n : Nat) : Bool := (c.pairOf q).isSome && (c.relSet q).contains n

/-- Whether an engine or thread waits on a queue by a wait, a STEER or a paired release: QOCC.WAITING (Table 7.4). -/
def CoreState.queueWaiting (k : Kind) (c : CoreState) (n : Nat) : Bool :=
  let thr (t : Thread) : Bool := t.run &&
    match t.wait with
    | .queue q _ => q == n
    | .steer a b => a == n || b == n
    | .credit q _ => c.pairedOn q n
    | _ => false
  match k with
  | .sx => c.th.toList.any thr
  | _ => match c.hold with
    | .queue q _ => q == n
    | .credit q _ => c.pairedOn q n
    | _ => false

/-- Per-queue registers (Table 7.4). -/
def readQueue (k : Kind) (c : CoreState) (n off : Nat) : Option Nat :=
  let q := c.qu n
  let d := q.d
  match off with
  | 0x00 => some (packFields [(0, d.base.toNat), (13, d.depth.toNat), (26, d.mode.toNat), (29, d.state.toNat)])
  | 0x08 => some (packFields [(0, d.epoch.toNat), (2, d.esize.toNat), (5, b2n d.ftype), (6, b2n d.dir), (7, b2n d.nanpol),
      (8, d.klenm1.toNat), (18, d.expect.toNat)])
  | 0x10 => some (packFields [(0, d.pair.toNat), (4, b2n d.pen), (5, b2n d.cren), (6, b2n d.crgrp), (8, d.crx.toNat),
      (18, d.cry.toNat), (28, d.crq.toNat)])
  | 0x18 => some (if q.isCredit then 0 else packFields [(0, q.head), (13, q.tail)])
  | 0x20 => some (packFields [(0, q.count), (13, q.partialCount), (26, b2n (c.queueWaiting k n)), (27, b2n q.hasStaged)])
  | 0x28 => some (packFields [(0, q.drop.toNat), (16, q.epdrop.toNat)])
  | 0x30 => some q.acc.toNat
  | 0x38 => some 0
  | _ => none

/-- Core-wide queue registers (Table 7.3). -/
def readQueueCore (c : CoreState) (off : Nat) : Option Nat :=
  match off with
  | 0xC00 => some c.qnakCnt.toNat
  | 0xC08 => some (packFields [(0, c.qnakReason.toNat), (4, c.qnakQueue.toNat), (8, c.qnakX.toNat), (18, c.qnakY.toNat), (31, b2n c.qnakValid)])
  | 0xC10 => some (packFields [(0, c.qerrQueue.toNat), (4, c.qerrX.toNat), (14, c.qerrY.toNat), (24, b2n c.qerrSrcValid), (31, b2n c.qerrValid)])
  | 0xC18 => some c.slotsUsed
  | _ => none

/-- XPSTAT.HELD: a counted packet or credit return is held (Table 9.10). -/
def CoreState.heldAny (c : CoreState) : Bool := !c.held.isEmpty || c.credHold.toList.any (· ≠ 0)

/-- Exposure registers (Table 9.10); `expno` is what XPNO shows. -/
def readXp (c : CoreState) (expno off : Nat) : Option Nat :=
  match off with
  | 0xD00 => some 0
  | 0xD08 => some (packFields [(0, b2n c.done), (1, b2n c.heldAny), (2, b2n c.stopped)])
  | 0xD10 => some (packFields [(0, b2n c.part), (1, c.epoch.toNat), (3, b2n c.stopat)])
  | 0xD18 => some (expno % 2 ^ 32)
  | 0xD20 => some c.xphWait.toNat
  | _ => if 0xD40 ≤ off ∧ off ≤ 0xDB8 ∧ off % 8 = 0 then some (c.qu ((off - 0xD40) / 8)).stagedCount else none

/-- Router registers (Table 8.12). -/
def readRouter (c : CoreState) (r : Router) (f : FieldState) (off : Nat) : Option Nat :=
  let tab (t : KMap (BitVec 32)) (i : Nat) : Option Nat := some (KMap.get 0 t i).toNat
  match off with
  | 0xE00 => some (packFields [(0, b2n f.rtActive), (1, b2n f.rtArmed), (2, r.down.toNat), (6, b2n r.attDown), (7, b2n f.rtHeld)])
  | 0xE08 => some r.xmin.toNat
  | 0xE10 => some c.netNak.toNat
  | 0xE18 => some (packFields [(0, c.netReason.toNat), (4, c.netX.toNat), (14, c.netY.toNat), (31, b2n c.netValid)])
  | 0xE20 => some r.linkCe.toNat
  | 0xE28 => some r.linkRpl.toNat
  | 0xE30 => some r.fwd.toNat
  | 0xE38 => some r.blk.toNat
  | 0xE40 => some 0
  | 0xE48 => some 0
  | _ =>
    if off % 8 ≠ 0 then none
    else if 0xE80 ≤ off ∧ off < 0xEC0 then tab r.exA ((off - 0xE80) / 8)
    else if 0xEC0 ≤ off ∧ off < 0xF00 then tab r.exS ((off - 0xEC0) / 8)
    else if 0xF00 ≤ off ∧ off < 0xF80 then tab r.fkA ((off - 0xF00) / 8)
    else if 0xF80 ≤ off ∧ off < 0x1000 then tab r.fkS ((off - 0xF80) / 8)
    else none

/-- Proofing registers (Table 15.10). -/
def readPrf (p : Prf) (off : Nat) : Option Nat :=
  match off with
  | 0x1400 => some (packFields [(0, p.table.toNat), (13, p.px.toNat), (23, p.py.toNat), (33, p.pq.toNat), (37, p.vx.toNat),
      (47, p.vy.toNat), (57, b2n p.en)])
  | 0x1408 => some 0
  | 0x1410 => some (packFields [(0, b2n p.isOpen), (1, b2n p.sampled), (2, p.d.toNat), (10, p.tileno.toNat), (22, p.runq.length),
      (25, b2n p.running.isSome), (26, b2n p.held)])
  | 0x1418 => some 0
  | 0x1420 => some 0
  | 0x1428 => some p.count.toNat
  | _ => none

/-- XPNO of a core: the EXPNO of its job, 0 from a wash or a core reset until the next exposure begins (spec/09 R258). -/
def State.xpNo (s : State) (c : CoreId) : Nat :=
  match s.coreJob c with
  | some j => if (s.job j).rolled || (s.core c).xpZero then 0 else (s.job j).expNo
  | none => 0

/-- A register of a core's control block, as every read returns it; none at a reserved offset (Table 12.11). Head views
are words of the scratchpad and read separately. -/
def State.readCoreReg (s : State) (c : CoreId) (off : Nat) : Option Nat :=
  let x := s.core c
  let k := coreKind c
  if off < 0x140 then readSp k x off
  else if off = 0x180 then some (if k = .sx then 0 else x.nxstat)
  else if off < 0x400 then
    match k with
    | .mx => readMx x off
    | .vx => readVx x off
    | .sx => readSx x off
  else if off < 0x440 then readSem k x off
  else if 0x800 ≤ off ∧ off < 0xC00 then readQueue k x ((off - 0x800) / 0x40) (off % 0x40)
  else if off < 0xC20 then readQueueCore x off
  else if off < 0xE00 then readXp x (s.xpNo c) off
  else if off < 0x1000 then readRouter x (s.router c) (s.field ((coreField c).getD 0)) off
  else if 0x1400 ≤ off then readPrf x.prf off
  else none

/-- The scratchpad word behind a head view offset (spec/07 R178): none is a view word that reads 0. -/
def CoreState.viewWord (c : CoreState) (off : Nat) : Option Nat := c.headWord ((off - 0x1000) / 0x40) (off % 0x40 / 8)

/-- Whether an offset is a head view word. -/
def isView (off : Nat) : Bool := decide (0x1000 ≤ off ∧ off < 0x1400 ∧ off % 8 = 0)

/-- Clears the RC field at an offset, back to its reset value (spec/00 Table 0.4, R13). -/
def State.clearCoreReg (s : State) (c : CoreId) (off : Nat) : State :=
  let k := coreKind c
  let upd (f : CoreState → CoreState) : State := s.modCore c f
  let rt (f : Router → Router) : State := s.setRouter c (f (s.router c))
  match off with
  | 0x110 => upd (fun x => { x with sp := { x.sp with ceCount := 0 } })
  | 0x118 => upd (fun x => { x with sp := { x.sp with ueCount := 0 } })
  | 0x120 => upd (fun x => { x with sp := { x.sp with poisCount := 0 } })
  | 0x138 => upd (fun x => { x with sp := { x.sp with waitCount := 0 } })
  | 0x180 => upd (fun x => { x with nxCount := 0 })
  | 0x218 => upd (fun x => match k with
      | .mx => { x with mxSteps := 0 }
      | .vx => { x with vxOps := 0 }
      | .sx => { x with sxIssue := 0 })
  | 0x220 => upd (fun x => match k with
      | .mx => { x with mxStall := 0 }
      | .vx => { x with svRej := 0 }
      | .sx => x)
  | 0x228 => upd (fun x => if k = .vx then { x with svDup := 0 } else x)
  | 0x230 => upd (fun x => if k = .vx then { x with svNan := 0 } else x)
  | 0x238 => upd (fun x => if k = .vx then { x with svInsrt := 0 } else x)
  | 0x430 => upd (fun x => { x with semStall := 0 })
  | 0x438 => upd (fun x => { x with semSig := 0 })
  | 0xC00 => upd (fun x => { x with qnakCnt := 0 })
  | 0xD20 => upd (fun x => { x with xphWait := 0 })
  | 0xE10 => upd (fun x => { x with netNak := 0 })
  | 0xE20 => rt (fun r => { r with linkCe := 0 })
  | 0xE28 => rt (fun r => { r with linkRpl := 0 })
  | 0xE30 => rt (fun r => { r with fwd := 0 })
  | 0xE38 => rt (fun r => { r with blk := 0 })
  | 0x1428 => upd (fun x => { x with prf := { x.prf with count := 0 } })
  | _ =>
    if 0x800 ≤ off ∧ off < 0xC00 then
      let n := (off - 0x800) / 0x40
      match off % 0x40 with
      | 0x28 => upd (fun x => x.setQ n { x.qu n with drop := 0, epdrop := 0 })
      | 0x30 => upd (fun x => x.setQ n { x.qu n with acc := 0 })
      | _ => s
    else s

/-- An applied write to a field with no action of its own: RW fields take the value, W1C bits clear
(spec/00 Table 0.4; Tables 2.9, 3.16, 4.7, 4.13, 5.8, 7.3, 8.12). -/
def CoreState.plainWrite (k : Kind) (c : CoreState) (off : Nat) (v : Word) : CoreState :=
  match off with
  | 0x108 =>
    { c with sp := { c.sp with ce := c.sp.ce && !v.getLsbD 2, ue := c.sp.ue && !v.getLsbD 3, unmap := c.sp.unmap && !v.getLsbD 4 } }
  | 0x128 => { c with sp := { c.sp with logValid := c.sp.logValid && !v.getLsbD 31 } }
  | 0x130 => { c with sp := { c.sp with scrubEn := v.getLsbD 0, scrubPeriod := v.extractLsb' 4 8 } }
  | 0x180 => { c with nx := c.nx &&& ~~~(v.extractLsb' 0 7) }
  | 0x210 =>
    match k with
    | .sx => if c.th.toList.any (fun t => t.run) then c else { c with entry := v.extractLsb' 2 13 }
    | _ => if c.run then c else { c with entry := v.extractLsb' 0 13 }
  | 0xC08 => { c with qnakValid := c.qnakValid && !v.getLsbD 31 }
  | 0xE18 => { c with netValid := c.netValid && !v.getLsbD 31 }
  | _ => c

end Sys2Proof.Machine
end

