-- ==== Sys2Proof/Machine/Send.lean ====
section
/-! DEFINITION. What a core hands to its port: sends, credit returns, held packets (spec/07 R163, R180, spec/09 R229-R231),
its own register writes (spec/12 R495), remote reads (spec/08 R216) and proof marks (spec/15 R397-R400). -/

namespace Sys2Proof.Machine

/-- Hands a packet to the core port: a counted packet waits while XPSTAT.DONE = 1 (spec/09 R230). `eng` names the
engine or thread that waits with it. -/
def State.handCore (s : State) (c : CoreId) (eng : Nat) (p : Packet) : State :=
  let (p, ms) := s.stampCore c p
  if p.counted && (s.core c).done then s.modCore c (fun x => { x with held := x.held ++ [(eng, p)] })
  else s.handOff c p ms

/-- The credit return of `n` credits of queue `q` (spec/07 R180). -/
def creditPacket (d : QDesc) (n : Nat) : Packet :=
  { ptype := pCredit
    mc := d.crgrp
    group := if d.crgrp then d.crx.toNat else 0
    dx := if d.crgrp then 0 else d.crx.toNat
    dy := if d.crgrp then 0 else d.cry.toNat
    qid := d.crq.toNat
    h1 := BitVec.ofNat 64 n }

/-- A credit return leaves, or joins its queue's hold while DONE = 1 (spec/09 R230). -/
def State.creditReturn (s : State) (c : CoreId) (q n : Nat) : State :=
  let x := s.core c
  let d := (x.qu q).d
  if !d.cren || n == 0 then s
  else
    let (p, ms) := s.stampCore c (creditPacket d n)
    if p.counted && x.done then
      s.setCore c { x with credHold := x.credHold.set (BitVec.ofNat 4 q) (x.credHold.get (BitVec.ofNat 4 q) + n) }
    else s.handOff c p ms

/-- A release takes effect: both members of a pair release and return their credits (spec/07 R170, R192). -/
def State.release (s : State) (c : CoreId) (q n : Nat) : State :=
  ((s.core c).relSet q).foldl (fun s i =>
    (s.modCore c (fun x => x.setQ i ((x.qu i).dropHead n).settle)).creditReturn c i n) s

/-- A write of 1 to XPDONE.DONE (spec/09 R229, R231, R245): it takes effect at once, or waits while DONE = 1. -/
def State.xpdone (s : State) (c : CoreId) (eng : Nat) : State :=
  s.modCore c (fun x =>
    if x.done then { x with xpdWait := x.xpdWait ++ [eng] }
    else { x with done := true, stopped := x.stopat })

/-- The READ that a write of NETRD word 1 issues (spec/08 R216). -/
def netrdPacket (w0 w1 : Word) : Packet :=
  let da := nfld w0.toNat 0 48
  let d := (daDest da).getD (0, (daTarget da).x, (daTarget da).y)
  { ptype := pRead
    dkind := d.1
    dx := d.2.1
    dy := d.2.2
    len := nfld w0.toNat 48 12
    qid := nfld w1.toNat 14 4
    h1 := BitVec.ofNat 64 (packFields [(0, da), (48, nfld w1.toNat 0 13), (61, nfld w1.toNat 13 1), (62, nfld w1.toNat 18 1)]) }

/-- A WRITE of words to a device address (Table 8.4). -/
def writePacket (da : Nat) (ws : List (Word × Bool)) : Packet :=
  let d := (daDest da).getD (0, (daTarget da).x, (daTarget da).y)
  { ptype := pWrite
    dkind := d.1
    dx := d.2.1
    dy := d.2.2
    len := ws.length
    h1 := BitVec.ofNat 64 (packFields [(0, da), (48, 0xFF), (56, 0xFF)])
    pay := ws }

/-- A queue send of words to a queue of the core a device address names. -/
def qsendPacket (da qid : Nat) (ws : List (Word × Bool)) : Packet :=
  { ptype := pQsend
    dx := (daTarget da).x
    dy := (daTarget da).y
    len := ws.length
    qid := qid
    h1 := BitVec.ofNat 64 da
    pay := ws }

/-! ### Proof marks (spec/15 R397-R399) -/

/-- Exposure of the core: e = xpno + xpstat.done (spec/15 R398). -/
def State.coreExpo (s : State) (c : CoreId) : Nat :=
  ((s.coreJob c).map (fun j => (s.job j).expNo)).getD 0 + b2n (s.core c).done

/-- The proofing code and seed that applied to an exposure (spec/15 R398). -/
def Job.proofAt (j : Job) (e : Nat) : Nat × BitVec 64 :=
  match (j.proof.filter (fun p => decide (p.1 ≤ e))).getLast? with
  | some p => p.2
  | none => (0, 0)

/-- The mixing function and the sampling test (spec/15 R398). -/
def proofSampled (lf ly lx e t code : Nat) (seed : BitVec 64) : Bool :=
  let k : BitVec 64 := BitVec.ofNat 64 (packFields [(58, lf), (51, ly), (44, lx), (12, e % 2 ^ 32), (0, t % 4096)])
  let x := k ^^^ seed
  let x := (x ^^^ (x >>> 30)) * 0xBF58_476D_1CE4_E5B9#64
  let x := (x ^^^ (x >>> 27)) * 0x94D0_49BB_1331_11EB#64
  let x := x ^^^ (x >>> 31)
  let bits := [0, 10, 8, 6, 4, 2].getD code 0
  code ≠ 0 && (x >>> (64 - bits)) == 0

/-- The two words of a proof descriptor (spec/15 Table 15.5). -/
def CoreState.proofDesc (c : CoreState) (d : BitVec 8) : Nat × Nat :=
  let at_ (i : Nat) : Nat := (c.data ((c.prf.table.toNat + 2 * d.toNat + i) % 8192)).toNat
  (at_ 0, at_ 1)

/-- Words of an extent with their poison, as a move engine reads them (spec/05 R139). -/
def CoreState.extent (c : CoreState) (base len : Nat) : List (Word × Bool) :=
  (List.range len).map (fun i => (c.data ((base + i) % 8192), c.poisoned ((base + i) % 8192)))

/-- The words of an extent, for counting their reads. -/
def extentWords (base len : Nat) : List Nat := (List.range len).map (fun i => (base + i) % 8192)

/-- Copies of a tile's inputs to a core that runs its proof, and the run request (spec/15 R399 step 1). -/
def State.proofCopies (s : State) (c dst : CoreId) (d : BitVec 8) : State :=
  let x := s.core c
  let w := x.proofDesc d
  let e0 := (nfld w.1 0 13, nfld w.1 13 13)
  let e1 := (nfld w.1 26 13, nfld w.1 39 13)
  let reads := extentWords ((x.prf.table.toNat + 2 * d.toNat) % 8192) 2 ++ extentWords e0.1 e0.2 ++ extentWords e1.1 e1.2
  let req : RunReq := { entry := BitVec.ofNat 13 (nfld w.2 21 13), cx := BitVec.ofNat 10 c.x, cy := BitVec.ofNat 10 c.y, d := d }
  let s := s.setCore c { x.noteReads (coreKind c) 0 reads with prf := { x.prf with requests := x.prf.requests ++ [(dst, req)] } }
  let s := s.handCore c 2 (writePacket (daCore dst (8 * e0.1)) (x.extent e0.1 e0.2))
  s.handCore c 2 (writePacket (daCore dst (8 * e1.1)) (x.extent e1.1 e1.2))

/-- The queue send of a tile's output extent (spec/15 R399 step 2). -/
def State.proofOutput (s : State) (c dst : CoreId) (d : BitVec 8) : State :=
  let x := s.core c
  let w := (x.proofDesc d).2
  let base := nfld w 0 13
  let len := nfld w 13 8 + 1
  let s := s.setCore c (CoreState.noteReads (coreKind c) 0 x (extentWords base len))
  s.handCore c 2 (qsendPacket (daCore dst 0) x.prf.pq.toNat (x.extent base len))

/-- The proofer and the voter of a core (PRFCFG). -/
def Prf.proofer (p : Prf) : CoreId := { x := p.px.toNat, y := p.py.toNat }
def Prf.voter (p : Prf) : CoreId := { x := p.vx.toNat, y := p.vy.toNat }

/-- A begin mark (spec/15 R397-R399). -/
def State.prfBegin (s : State) (c : CoreId) (d : BitVec 8) : State :=
  let x := s.core c
  if !x.prf.en then s
  else
    match coreField c, s.coreJob c with
    | some f, some j =>
      let e := s.coreExpo c
      let t := if x.prf.tileExpo = e then x.prf.tileno.toNat else 0
      let cs := (s.job j).proofAt e
      let lf := (s.field f).logical
      let smp := proofSampled lf (c.y % 128) (c.x % 96) e t cs.1 cs.2
      let p : Prf := { x.prf with
        isOpen := true
        sampled := smp
        d := d
        tileno := BitVec.ofNat 12 (t + 1)
        tileExpo := e
        count := if smp then sat1 x.prf.count else x.prf.count }
      let s := s.setCore c { x with prf := p }
      if smp then
        (s.modField f (fun g => { g with prfS := sat1 g.prfS, prfPend := g.prfPend ++ [(c, d, e)] })).proofCopies c p.proofer d
      else s
    | _, _ => s

/-- An end mark (spec/15 R399 step 2). -/
def State.prfEnd (s : State) (c : CoreId) : State :=
  let x := s.core c
  if !x.prf.en || !x.prf.isOpen then s
  else
    let s := s.setCore c { x with prf := { x.prf with isOpen := false } }
    if x.prf.sampled then s.proofOutput c x.prf.proofer x.prf.d else s

/-- The oldest tile of a primary and descriptor that lacks its result has it now. -/
def dropPend (c : CoreId) (d : BitVec 8) (l : List (CoreId × BitVec 8 × Nat)) : List (CoreId × BitVec 8 × Nat) :=
  l.eraseP (fun p => p.1 == c && p.2.1 == d)

/-- A comparison of the own output with the received one, bit for bit with poison, and its report (spec/15 R399 step 4,
R400): PASS ends the tile; MISMATCH holds the develop point for FAULT and starts the vote; a voter's result is kept. -/
def State.prfCompare (s : State) (c : CoreId) (a b len : Nat) : State :=
  let x := s.core c
  match x.prf.running, coreField c with
  | some req, some f =>
    let s := s.setCore c (CoreState.noteReads (coreKind c) 0 x (extentWords a len ++ extentWords b len))
    let same := x.extent a len == x.extent b len
    let primary : CoreId := { x := req.cx.toNat, y := req.cy.toNat }
    let forVote (v : Vote) : Bool := v.voter == c && v.primary == primary && v.d == req.d && v.result.isNone
    if (s.field f).votes.any forVote then
      s.modField f (fun g => { g with votes := g.votes.map (fun v => if forVote v then { v with result := some same } else v) })
    else if same then s.modField f (fun g => { g with prfPend := dropPend primary req.d g.prfPend })
    else
      let voter := (s.core primary).prf.voter
      let s := s.modField f (fun g =>
        { g with prfM := sat1 g.prfM, votes := g.votes ++ [{ primary := primary, proofer := c, voter := voter, d := req.d }] })
      let s := s.modCore c (fun y => { y with prf := { y.prf with held := true } })
      let s := match s.coreJob c with
        | some j => s.modJob j (fun q => { q with holds := { q.holds with fault := true } })
        | none => s
      (s.proofCopies primary voter req.d).proofOutput primary voter req.d
  | _, _ => s

/-! ### A core's own register block (spec/12 R495) -/

/-- A packet of words that a core sends to itself (spec/08 R199). -/
def State.ownPacket (s : State) (c : CoreId) (p : Packet) : Packet := { (s.stampCore c p).1 with counted := false }

/-- A defined offset of a core's control register block: a register, or a word of a head view (spec/12 R495, Table 12.11). -/
def State.ownDefined (s : State) (c : CoreId) (off : Nat) : Bool := off < 0x2000 && ((s.readCoreReg c off).isSome || isView off)

/-- One word a core writes to a defined offset of its own control register block (spec/12 R495). -/
def State.ownWrite (s : State) (c : CoreId) (eng off : Nat) (w : Word × Bool) : State :=
    match off with
    | 0xD00 => if w.1.getLsbD 0 then s.xpdone c eng else s
    | 0xE40 => s.setRouter c { s.router c with netrd0 := w.1 }
    | 0xE48 => s.handCore c eng (netrdPacket (s.router c).netrd0 w.1)
    | 0x1408 => if w.1.getLsbD 8 then s.prfEnd c else s.prfBegin c (w.1.extractLsb' 0 8)
    | 0x1420 => s.prfCompare c (nfld w.1.toNat 0 13) (nfld w.1.toNat 13 13) (nfld w.1.toNat 26 8 + 1)
    | _ => s.modCore c (fun x => CoreState.plainWrite (coreKind c) x off w.1)

/-- The words of a local WRITE at an offset of the own block, each with its offset; offsets do not wrap (spec/12 Table 12.4). -/
def blockWords (off : Nat) (ws : List (Word × Bool)) : List (Nat × (Word × Bool)) := ws.mapIdx (fun i w => (off + 8 * i, w))

/-- A local WRITE to the own block (spec/12 R495, spec/08 R200, R206): words at defined offsets are applied in order, the others are
refused in one NAK. -/
def State.ownBlock (s : State) (c : CoreId) (eng da : Nat) (ws : List (Word × Bool)) : State :=
  let p := s.ownPacket c (writePacket da ws)
  if da % 8 ≠ 0 then s.coreRefuse c p nakMalformed ws.length
  else
    let l := blockWords (nfld da 0 13) ws
    let good := l.filter (fun w => s.ownDefined c w.1)
    let t := good.foldl (fun s w => s.ownWrite c eng w.1 w.2) s
    if good.length = l.length then t else t.coreRefuse c p nakUnmapped (l.length - good.length)

/-- A send by a core's engine or thread (spec/07 R163, spec/05 R133, spec/12 R495): local words go through the core's own
row buffer, its own registers are written at once, everything else leaves as a packet. -/
def State.coreSend (s : State) (c : CoreId) (eng da : Nat) (qdst : Bool) (qid : Nat) (ws : List (Word × Bool)) : State :=
  if ws.isEmpty then s
  else if qdst then
    let p := qsendPacket da qid ws
    if daTarget da = c then
      let p := s.ownPacket c p
      if !p.wellFormed then s.coreRefuse c p nakMalformed p.len
      else if p.daBad then s.coreRefuse c p nakUnmapped p.len
      else s.queueIn c p true
    else s.handCore c eng p
  else
    match daDest da with
    | some (0, x, y) =>
      if (⟨x, y⟩ : CoreId) = c then
        let p := s.ownPacket c (writePacket da ws)
        if nfld da 44 4 = 2 then s.ownBlock c eng da ws
        else if da % 8 ≠ 0 then s.coreRefuse c p nakMalformed ws.length
        else
          let k := coreKind c
          let rows := mappedWords k p (nfld da 0 16)
          let s := s.modCore c (fun x => x.addRows k rows .plain true false p)
          if rows.length = ws.length then s
          else s.coreRefuse c p nakUnmapped (ws.length - rows.length)
      else s.handCore c eng (writePacket da ws)
    | _ => s.handCore c eng (writePacket da ws)

/-- A queue send must name the scratchpad space (spec/07 R163, Table 7.8). -/
def destBad (da : Nat) (qdst : Bool) : Bool := qdst && nfld da 44 4 ≠ 0

/-- Whether engine `eng` still has something held or a waiting XPDONE write, or uncommitted local words (spec/03 Table 3.8
MXMOVE completes; spec/09 R230, R231). -/
def CoreState.sendPending (c : CoreState) (eng : Nat) : Bool :=
  c.held.any (fun h => h.1 == eng) || c.xpdWait.contains eng || c.rows.any (fun r => r.own)

end Sys2Proof.Machine
end

