-- ==== Sys2Proof/Machine/MxArray.lean ====
section
/-! DEFINITION. The MX array engine: loads, steps, conversions and the accumulator file
(spec/03 R59-R75, R80-R84; spec/02 R39-R57). -/

namespace Sys2Proof.Machine

/-- Reads a command's words: a word outside the scratchpad raises ADDR, a poison indication raises POISON
(spec/03 R62, Table 3.17; spec/05 R139). Gives whether the command goes on. -/
def CoreState.fetchWords (k : Kind) (c : CoreState) (ws : List Nat) (epc engine : Nat) : CoreState × Bool :=
  if ws.any (fun w => decide (k.words ≤ w)) then (c.fail eAddr epc engine, false)
  else
    let c' := CoreState.noteReads k 0 c ws
    if ws.any c.poisoned then (c'.fail ePoison epc engine, false) else (c', true)

/-- The word that holds element `j` of width `e` bits of the stored row at word `w` (spec/03 R62, spec/05 R137). -/
def elemWord (w j e : Nat) : Nat := (w + j * e / 64) % 8192

/-- Element `j` of the stored row at word `w`. -/
def CoreState.elem (c : CoreState) (w j e : Nat) : Nat :=
  nfld (c.data (elemWord w j e)).toNat (j * e % 64) e

/-- Stored row `i` of an operand (spec/03 R62). -/
def storedRow (base pitch i : Nat) : Nat := (base + i * pitch) % 8192

/-- An operand read under its layout bit (spec/03 R74): element (i, j) is element `j` of stored row `i`, or with the
layout bit element `i` of stored row `j`. -/
structure Operand where
  base : Nat
  pitch : Nat
  tr : Bool
  fmt : Nat
  deriving DecidableEq, Repr

def Operand.word (o : Operand) (i j : Nat) : Nat :=
  if o.tr then elemWord (storedRow o.base o.pitch j) i (fmtBits o.fmt)
  else elemWord (storedRow o.base o.pitch i) j (fmtBits o.fmt)

def Operand.bits (o : Operand) (c : CoreState) (i j : Nat) : Nat :=
  if o.tr then c.elem (storedRow o.base o.pitch j) i (fmtBits o.fmt)
  else c.elem (storedRow o.base o.pitch i) j (fmtBits o.fmt)

/-- INT4 widening as the tile or the column feed is read (spec/02 R38, spec/03 R64). -/
def widen (fmt b : Nat) : Nat :=
  match fmt with
  | 6 => int4ToInt8 b
  | 7 => int4ToE4M3 b
  | _ => b

/-- The format of a widened element. -/
def widenFmt (fmt : Nat) : Nat :=
  match fmt with
  | 6 => 0
  | 7 => 1
  | f => f

/-- Floating-point value of an element of a format code (Table 3.9). -/
def fmtValue (fmt b : Nat) : Fp :=
  match fmt with
  | 1 => fpDecode fmtE4M3 b
  | 2 => fpDecode fmtE5M2 b
  | 3 => fpDecode fmtBF16 b
  | 4 => fpDecode fmtFP16 b
  | _ => fpDecode fmtFP32 b

/-- One multiply-accumulate of a pairing: XACC for the 8-bit pairings (spec/02 R40-R43), the FP32 sequence for the
others (spec/02 R46). -/
def macStep (bf sf : Nat) (acc : Xacc) (b t : Nat) : Xacc :=
  if bf = 0 then xaccAdd acc (xaccIntProduct (BitVec.ofNat 8 b).toInt (BitVec.ofNat 8 t).toInt)
  else if bf ≤ 2 then xaccAdd acc (xaccProduct (fmtValue bf b) (fmtValue sf t))
  else BitVec.ofNat 128 (mac32 (acc.toNat % 2 ^ 32) (fmtValue bf b) (fmtValue sf t))

/-- Accumulator entry (spec/03 R66). -/
def CoreState.accGet (c : CoreState) (row col : Nat) : Xacc := KMap.get 0 c.acc (16 * row + col)

def CoreState.accSet (c : CoreState) (row col : Nat) (v : Xacc) : CoreState :=
  { c with acc := KMap.set 0 c.acc (16 * row + col) v }

/-- Kind tag of a row: true for FP32 (spec/03 R66). -/
def CoreState.rowFp (c : CoreState) (row : Nat) : Bool := c.accFp.get (BitVec.ofNat 6 row)

def CoreState.setRowFp (c : CoreState) (row : Nat) (v : Bool) : CoreState :=
  { c with accFp := c.accFp.set (BitVec.ofNat 6 row) v }

/-- Rows [lo, lo + n) that an array command touches (spec/03 R72). -/
def mxRows (i : Inst128) : Nat × Nat :=
  match iOpc i with
  | 0x02 => (ifld i 57 6, if ifld i 20 2 = 2 then ifld i 94 4 else ifld i 50 7)
  | 0x03 => (ifld i 20 6, ifld i 26 7)
  | 0x04 => (ifld i 20 6, ifld i 26 7)
  | 0x05 => (ifld i 20 6, ifld i 26 7)
  | _ => (0, 0)

def rowsMeet (a b : Nat × Nat) : Bool := decide (a.1 < b.1 + b.2) && decide (b.1 < a.1 + a.2)

/-! ### What a command in program order meets (spec/03 R78, R80) -/

/-- The tile formats, the tile width and the row kinds that the array's next command will meet, once every command before it has
run: `fmt`, `nv` of the active tile, `shadow` the same two of a tile not yet swapped in. -/
structure MxAhead where
  fmt : Nat
  nv : Nat
  shadow : Option (Nat × Nat)
  fp : RegFile 6 Bool
  deriving DecidableEq, Repr

/-- Rows that a command writes take its kind. -/
def MxAhead.setRows (a : MxAhead) (rows : Nat × Nat) (fp : Bool) : MxAhead :=
  { a with fp := (List.range rows.2).foldl (fun t r => t.set (BitVec.ofNat 6 (rows.1 + r)) fp) a.fp }

/-- A SWAP activates the shadow tile, where there is one (spec/03 R71). -/
def MxAhead.swap (a : MxAhead) (i : Inst128) : MxAhead :=
  match a.shadow with
  | some t => if i.getLsbD 64 then { a with fmt := t.1, nv := t.2, shadow := none } else a
  | none => a

/-- What the next command meets after this one (spec/03 R66, R67, R71, R84). -/
def MxAhead.after (a : MxAhead) (i : Inst128) : MxAhead :=
  match iOpc i with
  | 0x01 => { a with shadow := some (ifld i 20 3, ifld i 52 5) }
  | 0x02 =>
    let a := a.swap i
    let nv := if ifld i 20 2 = 2 then ifld i 98 5 else a.nv
    if i.getLsbD 63 && nv != 0 then a.setRows (mxRows i) (decide (3 ≤ ifld i 22 3)) else a
  | 0x04 => a.setRows (mxRows i) (i.getLsbD 33)
  | 0x05 => a.setRows (mxRows i) (i.getLsbD 33)
  | _ => a

/-- What a command that the sequencer decodes now will meet, behind the commands queued before it. -/
def CoreState.mxAhead (c : CoreState) : MxAhead :=
  c.e1.queue.foldl (fun a d => a.after d.inst)
    { fmt := c.active.fmt
      nv := c.active.nv
      shadow := c.shadow.map (fun t => (t.fmt, t.nv))
      fp := c.accFp }

/-- Decode check of a field whose range rests on the rows' kind (spec/03 R78, Table 3.12): ENT is 0 to 8 for FP32 rows.
DEDUCED (log 79): the kind is the one the rows have in program order. -/
def mxEntOk (a : MxAhead) (i : Inst128) : Bool :=
  iOpc i != 0x03 || decide (ifld i 33 5 ≤ 8) ||
    (List.range (ifld i 26 7)).all (fun r => !a.fp.get (BitVec.ofNat 6 (ifld i 20 6 + r)))

/-- The pairing of an MXMMA as it issues (spec/03 R80): in WS and IS against the tile it will step against, in OS against its
feed. A SWAP without a tile raises MX_NOTILE at its start and is not judged here. -/
def mxPairOk (a : MxAhead) (i : Inst128) : Bool :=
  iOpc i != 0x02 ||
    (if ifld i 20 2 = 2 then pairingOk (ifld i 22 3) (ifld i 66 3)
     else (i.getLsbD 64 && a.shadow.isNone) || pairingOk (ifld i 22 3) (a.swap i).fmt)

/-- Whether an array command may start now: MXLDS needs the shadow buffer free, a SWAP waits for the latest MXLDS,
a drain command waits for rows whose writes are in flight (spec/03 R71, R72). -/
def mxReady (c : CoreState) (i : Inst128) : Bool :=
  match iOpc i with
  | 0x01 => c.shadow.isNone
  | 0x02 => !(i.getLsbD 64) || !(c.e1.prog.any (fun p => iOpc p.inst == 0x01))
  | _ => !(c.e1.prog.any (fun p => (iOpc p.inst == 0x02 || iOpc p.inst == 0x04 || iOpc p.inst == 0x05) &&
      rowsMeet (mxRows p.inst) (mxRows i)))

/-- MXLDS: the tile goes into the shadow buffer (spec/03 R71, R74, R81). -/
def mxLds (c : CoreState) (cmd : Cmd) : CoreState × Bool :=
  let i := cmd.inst
  let fmt := ifld i 20 3
  let kv := ifld i 48 4
  let nv := ifld i 52 5
  let o : Operand := { base := cmd.addr, pitch := ifld i 40 8, tr := i.getLsbD 23, fmt := fmt }
  let pairs := (List.range kv).flatMap (fun r => (List.range nv).map (fun n => (r, n)))
  let r := CoreState.fetchWords .mx c ((pairs.map (fun p => o.word p.1 p.2)).eraseDups) cmd.epc 1
  if r.2 then
    ({ r.1 with shadow := some { fmt := fmt, kv := kv, nv := nv,
                                 el := pairs.map (fun p => widen fmt (o.bits c p.1 p.2)) } }, true)
  else r

/-- What one MXMMA computes on: the operand shapes and the source of the stationary element (step, row, column). -/
structure MmaPlan where
  steps : Nat
  kv : Nat
  nv : Nat
  bf : Nat
  sf : Nat
  words : List Nat
  b : Nat → Nat → Nat
  t : Nat → Nat → Nat → Nat

/-- WS and IS: b[s][r] against the active tile (spec/03 R63). -/
def mmaTilePlan (c : CoreState) (cmd : Cmd) : MmaPlan :=
  let i := cmd.inst
  let bo : Operand := { base := cmd.addr, pitch := ifld i 42 8, tr := i.getLsbD 25, fmt := ifld i 22 3 }
  let count := ifld i 50 7
  let tl := c.active
  { steps := count
    kv := tl.kv
    nv := tl.nv
    bf := ifld i 22 3
    sf := tl.fmt
    words := (List.range count).flatMap (fun s => ((List.range tl.kv).map (fun r => bo.word s r)).eraseDups)
    b := fun s r => bo.bits c s r
    t := fun _ r n => tl.el.getD (r * tl.nv + n) 0 }

/-- OS: b[s][r] for MV rows against the column feed f[s][c] (spec/03 R63). -/
def mmaFeedPlan (c : CoreState) (cmd : Cmd) : MmaPlan :=
  let i := cmd.inst
  let bo : Operand := { base := cmd.addr, pitch := ifld i 42 8, tr := i.getLsbD 25, fmt := ifld i 22 3 }
  let fo : Operand := { base := cmd.addr2, pitch := ifld i 86 8, tr := i.getLsbD 69, fmt := ifld i 66 3 }
  let count := ifld i 50 7
  let mv := ifld i 94 4
  let nv := ifld i 98 5
  { steps := count
    kv := mv
    nv := nv
    bf := ifld i 22 3
    sf := ifld i 66 3
    words := (List.range count).flatMap (fun s =>
      (((List.range mv).map (fun r => bo.word s r)) ++ ((List.range nv).map (fun n => fo.word s n))).eraseDups)
    b := fun s r => bo.bits c s r
    t := fun s _ n => widen fo.fmt (fo.bits c s n) }

/-- The accumulator rows an MXMMA writes: none without an enabled column (spec/03 R75). -/
def mmaRowsWritten (os : Bool) (p : MmaPlan) : Nat := if p.nv = 0 then 0 else if os then p.kv else p.steps

/-- New value of entry (row i, column n) of an MXMMA (spec/03 R63, R65 order, R67 start). -/
def mmaEntry (c : CoreState) (p : MmaPlan) (os start : Bool) (accb i n : Nat) : Xacc :=
  let init : Xacc := if start then 0 else c.accGet (accb + i) n
  let sf := widenFmt p.sf
  if os then (List.range p.steps).foldl (fun a s => macStep p.bf sf a (p.b s i) (p.t s i n)) init
  else (List.range p.kv).foldl (fun a r => macStep p.bf sf a (p.b i r) (p.t i r n)) init

/-- The accumulator rows of `d` after an MXMMA of core `c` (spec/03 R63-R67). -/
def mmaStore (c : CoreState) (p : MmaPlan) (os start : Bool) (accb rows : Nat) (fp : Bool) (d : CoreState) : CoreState :=
  (List.range rows).foldl (fun d j =>
    (List.range p.nv).foldl (fun d n => d.accSet (accb + j) n (mmaEntry c p os start accb j n))
      (if start then d.setRowFp (accb + j) fp else d)) d

/-- MXMMA (spec/03 R63-R68, R71, R75, R82); its pairing was checked as it issued (R80). -/
def mxMma (c : CoreState) (cmd : Cmd) : CoreState × Bool :=
  let i := cmd.inst
  let os := ifld i 20 2 == 2
  let start := i.getLsbD 63
  let accb := ifld i 57 6
  if i.getLsbD 64 && c.shadow.isNone then (c.fail eNoTile cmd.epc 1, false)
  else
    let c := if i.getLsbD 64 then { c with active := c.shadow.getD {}, shadow := none } else c
    let p := if os then mmaFeedPlan c cmd else mmaTilePlan c cmd
    let rows := mmaRowsWritten os p
    let fp := decide (3 ≤ p.bf)
    if !start && (List.range rows).any (fun r => c.rowFp (accb + r) != fp) then (c.fail eAccKind cmd.epc 1, false)
    else
      let r := CoreState.fetchWords .mx c p.words cmd.epc 1
      if !r.2 then r
      else
        let c2 := { r.1 with mxSteps := satAdd r.1.mxSteps p.steps }
        (mmaStore c p os start accb rows fp c2, true)

/-- Packs values of `w` bits into words from byte 0, the last word masked to the bytes used (spec/03 R83). -/
def packWords (addr w : Nat) (vals : List Nat) : List RowWord :=
  let total := vals.length * w
  let big := (vals.zipIdx.map (fun v => v.1 * 2 ^ (v.2 * w))).foldl (· + ·) 0
  (List.range ((total + 63) / 64)).map (fun j =>
    { w := (addr + j) % 8192
      data := BitVec.ofNat 64 (big / 2 ^ (64 * j))
      mask := BitVec.ofNat 8 (2 ^ (min 64 (total - 64 * j) / 8) - 1)
      poison := false })

/-- Conversion of one accumulator entry (spec/03 R83, spec/02 R48-R54). -/
def cvtEntry (d : DFmt) (ieee fp : Bool) (x : Xacc) (sab : Nat) : Rnd :=
  if d = .xacc then { bits := x.toNat, ev := 0 }
  else if fp then convFp d ieee (fpDecode fmtFP32 (x.toNat % 2 ^ 32)) sab
  else convXacc d ieee x sab

/-- MXCVT (spec/03 R83); ENT was checked at decode (R78). -/
def mxCvt (c : CoreState) (cmd : Cmd) : CoreState × Bool :=
  let i := cmd.inst
  let accb := ifld i 20 6
  let rows := ifld i 26 7
  let ent := ifld i 33 5
  let d := DFmt.ofCode (ifld i 38 3)
  let sab := mul32 cmd.sA.toNat cmd.sB.toNat
  let anyFp := (List.range rows).any (fun r => c.rowFp (accb + r))
  if anyFp && d == .xacc then (c.fail eAccKind cmd.epc 1, false)
  else
    let res := (List.range rows).map (fun r =>
      (List.range ent).map (fun e => cvtEntry d (i.getLsbD 41) (c.rowFp (accb + r)) (c.accGet (accb + r) e) sab))
    let beats := res.mapIdx (fun r l =>
      packWords (storedRow cmd.addr (ifld i 66 8) r) d.width (l.map (·.bits)))
    if beats.any (fun b => b.any (fun w => decide (6144 ≤ w.w))) then (c.fail eAddr cmd.epc 1, false)
    else
      let c := beats.foldl (CoreState.writeBeat .mx) c
      (c.noteEvs (res.flatten.map (·.ev)), true)

/-- MXLDACC (spec/03 R84; OVF ignored on load, spec/02 R41). -/
def mxLdAcc (c : CoreState) (cmd : Cmd) : CoreState × Bool :=
  let i := cmd.inst
  let accb := ifld i 20 6
  let rows := ifld i 26 7
  let fp := i.getLsbD 33
  let per := if fp then 8 else 32
  let row (r : Nat) : Nat := storedRow cmd.addr (ifld i 50 8) r
  let ws := (List.range rows).flatMap (fun r => (List.range per).map (fun j => (row r + j) % 8192))
  let res := CoreState.fetchWords .mx c ws cmd.epc 1
  if !res.2 then res
  else
    let ent (r e : Nat) : Xacc :=
      if fp then BitVec.ofNat 128 (c.elem (row r) e 32)
      else xaccNorm ((c.data ((row r + 2 * e + 1) % 8192)) ++ (c.data ((row r + 2 * e) % 8192)))
    ((List.range rows).foldl (fun d r =>
      (List.range 16).foldl (fun d e => d.accSet (accb + r) e (ent r e)) (d.setRowFp (accb + r) fp)) res.1, true)

/-- MXCLRACC (spec/03 R84). -/
def mxClrAcc (c : CoreState) (cmd : Cmd) : CoreState × Bool :=
  let i := cmd.inst
  let accb := ifld i 20 6
  ((List.range (ifld i 26 7)).foldl (fun d r =>
    (List.range 16).foldl (fun d e => d.accSet (accb + r) e 0) (d.setRowFp (accb + r) (i.getLsbD 33))) c, true)

/-- The array engine runs one command (spec/03 Table 3.8). -/
def mxArrayRun (c : CoreState) (cmd : Cmd) : CoreState × Bool :=
  match iOpc cmd.inst with
  | 0x01 => mxLds c cmd
  | 0x02 => mxMma c cmd
  | 0x03 => mxCvt c cmd
  | 0x04 => mxLdAcc c cmd
  | _ => mxClrAcc c cmd

end Sys2Proof.Machine
end

