-- ==== Sys2Proof/Machine/VxSieve.lean ====
section
/-! DEFINITION. The VX sieve: list descriptors and the sieve instructions (spec/04 R101-R107). -/

namespace Sys2Proof.Machine

def CoreState.svList (c : CoreState) (n : Nat) : SvList := c.lists.get (BitVec.ofNat 4 n)

/-- Words [base, base + K) of a list. -/
def SvList.span (l : SvList) : Nat × Nat := (l.base.toNat, l.km1.toNat + 1)

/-- SVCFG checks its descriptor before it changes anything (spec/04 R107). -/
def svCfg (c : CoreState) (cmd : Cmd) : CoreState × Bool :=
  let i := cmd.inst
  let imm := vImm i
  let n := vQl i
  let k := nfld imm 0 10 + 1
  let clash := (List.range 16).any (fun j =>
    j ≠ n && (c.svList j).valid && rowsMeet (c.svList j).span (cmd.addr, k))
  if decide (8192 < cmd.addr + k) || clash then (c.fail eSieve cmd.epc 3, false)
  else
    let l : SvList :=
      { base := BitVec.ofNat 13 cmd.addr, km1 := BitVec.ofNat 10 imm, dir := imm.testBit 10,
        ktype := imm.testBit 11, nanpol := imm.testBit 12, valid := true }
    ({ c with lists := c.lists.set (BitVec.ofNat 4 n) l }, true)

/-- Words of a list in order. -/
def SvList.words (l : SvList) : List Nat := (List.range (l.km1.toNat + 1)).map (fun j => (l.base.toNat + j) % 8192)

/-- SVCLR writes the empty pair into all K words (spec/04 R102). -/
def svClr (c : CoreState) (cmd : Cmd) : CoreState × Bool :=
  let l := c.svList (vQl cmd.inst)
  if !l.valid then (c.fail eSieve cmd.epc 3, false)
  else
    (CoreState.writeBeat .vx c (l.words.map (fun w =>
      { w := w, data := emptyPair l.dir, mask := 0xFF, poison := false })), true)

/-- Offers candidates to a list (spec/04 R103): reads the last entry, and the whole list when a candidate survives the
first pass. -/
def svOffer (c : CoreState) (cmd : Cmd) (cands : List Word) : CoreState × Bool :=
  let l := c.svList (vQl cmd.inst)
  let ws := l.words
  if cands.isEmpty then (c, true)
  else
    let old := ws.map c.data
    let st := cands.foldl (svFirst l.dir l.nanpol (old.getLastD 0)) ({ list := old }, [])
    let reads := if st.2.isEmpty then [ws.getLastD 0] else ws
    let r := CoreState.fetchWords .vx c reads cmd.epc 3
    if !r.2 then r
    else
      let res := svProcedure l.dir l.nanpol old cands
      let beat := ((ws.zip old).zip res.list).filterMap (fun e =>
        if e.1.2 = e.2 then none else some { w := e.1.1, data := e.2, mask := 0xFF, poison := false })
      let c := CoreState.writeBeat .vx r.1 beat
      ({ c with
        svRej := satAdd c.svRej res.rej
        svDup := satAdd c.svDup res.dup
        svNan := satAdd c.svNan res.nan
        svInsrt := satAdd c.svInsrt res.ins }, true)

/-- SVINS: selected lanes of the copies of VA (keys) and VB (indices), in lane order (spec/04 R103, R100). -/
def svIns (c : CoreState) (cmd : Cmd) : CoreState × Bool :=
  if !(c.svList (vQl cmd.inst)).valid then (c.fail eSieve cmd.epc 3, false)
  else
    svOffer c cmd ((List.range 32).filterMap (fun j =>
      if cmd.msk.getLsbD j then
        some ((cmd.va.extractLsb' (32 * j) 32) ++ (cmd.vb.extractLsb' (32 * j) 32))
      else none))

/-- SVINSW: N scratchpad words in word order (spec/04 R103). -/
def svInsw (c : CoreState) (cmd : Cmd) : CoreState × Bool :=
  if !(c.svList (vQl cmd.inst)).valid then (c.fail eSieve cmd.epc 3, false)
  else
    let ws := (List.range (vN cmd.inst)).map (fun j => (cmd.addr + j) % 8192)
    let r := CoreState.fetchWords .vx c ws cmd.epc 3
    if !r.2 then r else svOffer r.1 cmd (ws.map c.data)

/-- The sieve runs one command. -/
def vxSieveRun (c : CoreState) (cmd : Cmd) : CoreState × Bool :=
  match iOpc cmd.inst with
  | 0x50 => svCfg c cmd
  | 0x51 => svClr c cmd
  | 0x52 => svIns c cmd
  | _ => svInsw c cmd

end Sys2Proof.Machine
end

