-- ==== Sys2Proof/Machine/Trans.lean ====
section
/-! DEFINITION. The transcendental functions of VTR (spec/04 R96, Table 4.2): the exact value rounded once to FP32.
DEDUCED (log 7): the exact value is bracketed by fixed-point arithmetic with 320 fraction bits. -/

namespace Sys2Proof.Machine

/-- Fraction bits of the fixed-point evaluation. -/
def fxBits : Nat := 320

/-- 1.0 in fixed point. -/
def fxOne : Int := 2 ^ fxBits

/-- ln 2 in fixed point, by the series of 1 / (n 2^n). -/
def fxLn2 : Int := (List.range 400).foldl (fun a (n : Nat) => a + fxOne / (((n : Int) + 1) * 2 ^ (n + 1))) 0

/-- Taylor sum of exp for a reduced argument. -/
def fxExpTaylor (r : Int) : Int :=
  ((List.range 90).foldl
    (fun (st : Int × Int) (n : Nat) =>
      let t := st.2 * r / fxOne / ((n : Int) + 1)
      (st.1 + t, t))
    (fxOne, fxOne)).1

/-- exp of x = X / 2^fxBits: mantissa E and power K with exp x = E * 2^(K - fxBits). -/
def fxExp (x : Int) : Int × Int :=
  let k := (2 * x + fxLn2) / (2 * fxLn2)
  (fxExpTaylor (x - k * fxLn2), k)

/-- A finite value in fixed point (exact for every FP32 value). -/
def fxOf (neg : Bool) (m : Nat) (e : Int) : Int :=
  let v : Int := (m * 2 ^ (e + fxBits).toNat : Nat)
  if neg then -v else v

/-- ln of m * 2^e for a positive m, in fixed point. -/
def fxLog (m : Nat) (e : Int) : Int :=
  let l := m.log2
  let z : Int := ((m : Int) - 2 ^ l) * fxOne / ((m : Int) + 2 ^ l)
  let z2 := z * z / fxOne
  let s := ((List.range 120).foldl
    (fun (st : Int × Int) (n : Nat) =>
      let t := st.2
      (st.1 + t / (2 * (n : Int) + 1), t * z2 / fxOne))
    ((0 : Int), z)).1
  2 * s + ((l : Int) + e) * fxLn2

/-- Integer square root, bit by bit from `2^(n-1)`. -/
def isqrtBits (v : Nat) : Nat → Nat → Nat
  | 0, r => r
  | n + 1, r =>
    let c := r + 2 ^ n
    isqrtBits v n (if c * c ≤ v then c else r)

/-- EXP (Table 4.2). -/
def vtrExp (a : Fp) : Rnd :=
  match a with
  | .nan => rndNan fmtFP32
  | .inf s => if s then { bits := 0, ev := 0 } else rndInf fmtFP32 false
  | .fin s m e =>
    if m = 0 then { bits := 0x3F80_0000, ev := 0 }
    else
      let x := fxOf s m e
      if x ≥ 100 * fxOne then rndInf fmtFP32 false
      else if x ≤ -(120 * fxOne) then { bits := 0, ev := evUfl }
      else
        let r := fxExp x
        rndIeee fmtFP32 false r.1.toNat 1 (r.2 - fxBits)

/-- LOG (Table 4.2). -/
def vtrLog (a : Fp) : Rnd :=
  match a with
  | .nan => rndNan fmtFP32
  | .inf s => if s then rndNan fmtFP32 else rndInf fmtFP32 false
  | .fin s m e =>
    if m = 0 then rndInf fmtFP32 true
    else if s then rndNan fmtFP32
    else
      let v := fxLog m e
      rndIeee fmtFP32 (v < 0) v.natAbs 1 (-(fxBits : Int))

/-- RCP (Table 4.2). -/
def vtrRcp (a : Fp) : Rnd :=
  match a with
  | .nan => rndNan fmtFP32
  | .inf s => { bits := withSign fmtFP32 s 0, ev := 0 }
  | .fin s m e => if m = 0 then rndInf fmtFP32 s else rndIeee fmtFP32 s 1 m (-e)

/-- RSQRT (Table 4.2). -/
def vtrRsqrt (a : Fp) : Rnd :=
  match a with
  | .nan => rndNan fmtFP32
  | .inf s => if s then rndNan fmtFP32 else { bits := 0, ev := 0 }
  | .fin s m e =>
    if m = 0 then rndInf fmtFP32 s
    else if s then rndNan fmtFP32
    else
      let m2 := if e % 2 = 0 then m else 2 * m
      let e2 := if e % 2 = 0 then e else e - 1
      rndIeee fmtFP32 false (isqrtBits (2 ^ (2 * fxBits) / m2) (fxBits + 1) 0) 1 (-(e2 / 2) - fxBits)

/-- TANH (Table 4.2). -/
def vtrTanh (a : Fp) : Rnd :=
  match a with
  | .nan => rndNan fmtFP32
  | .inf s => { bits := withSign fmtFP32 s 0x3F80_0000, ev := 0 }
  | .fin s m e =>
    if m = 0 then { bits := withSign fmtFP32 s 0, ev := 0 }
    else
      let x := fxOf false m e
      if x < 2 ^ (fxBits - 40) then rndIeee fmtFP32 s m 1 e
      else if x ≥ 40 * fxOne then { bits := withSign fmtFP32 s 0x3F80_0000, ev := 0 }
      else
        let r := fxExp (2 * x)
        let v := r.1 * 2 ^ r.2.toNat
        rndIeee fmtFP32 s (v - fxOne).toNat (v + fxOne).toNat 0

/-- The function FN of VTR on one FP32 pattern (Table 4.2). -/
def vtrFn (fn b : Nat) : Rnd :=
  let a := fpDecode fmtFP32 b
  match fn with
  | 0 => vtrExp a
  | 1 => vtrLog a
  | 2 => vtrRcp a
  | 3 => vtrRsqrt a
  | _ => vtrTanh a

end Sys2Proof.Machine
end

