-- ==== Sys2Proof/Machine/VxVector.lean ====
section
/-! DEFINITION. The VX vector unit (spec/04 R92-R98, Tables 4.2, 4.5, 4.6). -/

namespace Sys2Proof.Machine

/-- Element `i` of width `w` bits of a vector register (spec/04 R92). -/
def vecElem (v : BitVec 1024) (w i : Nat) : Nat := nfld v.toNat (w * i) w

/-- The register whose elements of width `w` are the list. -/
def vecOf (w : Nat) (l : List Nat) : BitVec 1024 :=
  BitVec.ofNat 1024 ((l.zipIdx.map (fun e => (e.1 % 2 ^ w) * 2 ^ (w * e.2))).foldl (· + ·) 0)

/-- Element width of a TYPE (spec/04 R92). -/
def vtWidth (t : Nat) : Nat := if t = 1 ∨ t = 2 then 16 else 32

/-- Floating-point format of a TYPE; INT32 has none. -/
def vtFmt (t : Nat) : Option Fmt :=
  match t with
  | 0 => some fmtFP32
  | 1 => some fmtBF16
  | 2 => some fmtFP16
  | _ => none

def CoreState.vReg (c : CoreState) (i : Nat) : BitVec 1024 := c.v.get (BitVec.ofNat 5 i)
def CoreState.mReg (c : CoreState) (i : Nat) : BitVec 32 := c.m.get (BitVec.ofNat 2 i)
def CoreState.setV (c : CoreState) (i : Nat) (x : BitVec 1024) : CoreState := { c with v := c.v.set (BitVec.ofNat 5 i) x }
def CoreState.setM (c : CoreState) (i : Nat) (x : BitVec 32) : CoreState := { c with m := c.m.set (BitVec.ofNat 2 i) x }

/-- Lanes selected by MEN and MREG (spec/04 R94). -/
def CoreState.lanes (c : CoreState) (i : Inst128) : BitVec 32 :=
  if vMen i then c.mReg (vMreg i) else BitVec.allOnes 32

/-- NAN_OUT or INF_OUT of a delivered floating-point value. -/
def deliverEv (f : Fmt) (b : Nat) : Ev :=
  match fpDecode f b with
  | .nan => evNanOut
  | .inf _ => evInfOut
  | .fin _ _ _ => 0

/-- A delivered floating-point value that was only copied, compared or had its sign changed. -/
def delivered (f : Fmt) (b : Nat) : Rnd := { bits := b, ev := deliverEv f b }

/-- One VOP element (spec/04 R93, Table 4.6). -/
def vopElem (t fn a b : Nat) : Rnd :=
  match vtFmt t with
  | none =>
    let x := BitVec.ofNat 32 a
    let y := BitVec.ofNat 32 b
    let sh := b % 32
    let r : BitVec 32 :=
      match fn with
      | 0 => x + y
      | 1 => x - y
      | 2 => x * y
      | 3 => if x.toInt ≥ y.toInt then x else y
      | 4 => if x.toInt ≤ y.toInt then x else y
      | 5 => if x.toInt < 0 then -x else x
      | 6 => -x
      | 7 => x
      | 8 => x &&& y
      | 9 => x ||| y
      | 10 => x ^^^ y
      | 11 => x <<< sh
      | 12 => x >>> sh
      | _ => x.sshiftRight sh
    { bits := r.toNat, ev := 0 }
  | some f =>
    match fn with
    | 0 => fpAdd f (fpDecode f a) (fpDecode f b)
    | 1 => fpAdd f (fpDecode f a) (fpDecode f b).negate
    | 2 => fpMul f (fpDecode f a) (fpDecode f b)
    | 3 => delivered f (fpMaxMin f true a b)
    | 4 => delivered f (fpMaxMin f false a b)
    | _ =>
      let sb := 2 ^ (f.width - 1)
      if fpDecode f a = .nan then rndNan f
      else
        match fn with
        | 5 => delivered f (a % sb)
        | 6 => delivered f (a % sb + (if a ≥ sb then 0 else sb))
        | _ => delivered f a

/-- One VFMA element: one rounding for the product and the sum; INT32 wraps (spec/04 R93, Table 4.5). -/
def vfmaElem (t a b d : Nat) : Rnd :=
  match vtFmt t with
  | none => { bits := (BitVec.ofNat 32 a * BitVec.ofNat 32 b + BitVec.ofNat 32 d).toNat, ev := 0 }
  | some f => fpFma f (fpDecode f a) (fpDecode f b) (fpDecode f d)

/-- Writes the selected elements of VD; the others keep their value (spec/04 R94). -/
def CoreState.putLanes (c : CoreState) (i : Inst128) (w : Nat) (f : Nat → Rnd) : CoreState :=
  let old := c.vReg (vVd i)
  let sel := c.lanes i
  let idx := List.range (1024 / w)
  let on (j : Nat) : Bool := sel.getLsbD (j * w / 32)
  let rs := idx.map (fun j => if on j then f j else { bits := vecElem old w j, ev := 0 })
  (c.setV (vVd i) (vecOf w (rs.map (·.bits)))).noteEvs (rs.map (·.ev))

/-- VLD (spec/04 R92, Table 4.5). -/
def vxLd (c : CoreState) (cmd : Cmd) : CoreState × Bool :=
  let i := cmd.inst
  let fn := ifld i 45 2
  let ws := if fn = 0 then (List.range 16).map (fun j => (cmd.addr + j) % 8192) else [cmd.addr]
  let r := CoreState.fetchWords .vx c ws cmd.epc 1
  if !r.2 then r
  else
    let lane (j : Nat) : Nat :=
      if fn = 0 then c.elem cmd.addr j 32 else c.elem cmd.addr (fn - 1) 32
    (r.1.putLanes i 32 (fun j => { bits := lane j, ev := 0 }), true)

/-- VST (spec/04 R92, R94): masked lanes make partial writes (spec/05 R135). -/
def vxSt (c : CoreState) (cmd : Cmd) : CoreState × Bool :=
  let i := cmd.inst
  let v := c.vReg (vVa i)
  let sel := c.lanes i
  let beat := (List.range 16).map (fun j =>
    ({ w := (cmd.addr + j) % 8192
       data := BitVec.ofNat 64 (vecElem v 64 j)
       mask := (if sel.getLsbD (2 * j) then 0x0F else 0) ||| (if sel.getLsbD (2 * j + 1) then 0xF0 else 0)
       poison := false } : RowWord))
  (CoreState.writeBeat .vx c beat, true)

/-- VOP. -/
def vxOp (c : CoreState) (cmd : Cmd) : CoreState × Bool :=
  let i := cmd.inst
  let t := vType i
  let w := vtWidth t
  (c.putLanes i w (fun j => vopElem t (vFn i) (vecElem (c.vReg (vVa i)) w j) (vecElem (c.vReg (vVb i)) w j)), true)

/-- VFMA. -/
def vxFma (c : CoreState) (cmd : Cmd) : CoreState × Bool :=
  let i := cmd.inst
  let t := vType i
  let w := vtWidth t
  (c.putLanes i w (fun j => vfmaElem t (vecElem (c.vReg (vVa i)) w j) (vecElem (c.vReg (vVb i)) w j)
    (vecElem (c.vReg (vVc i)) w j)), true)

/-- An FP32 value in IEEE order: none for a NaN; -0 equals +0. -/
def cmpValue (t b : Nat) : Option Int :=
  if t = 3 then some (BitVec.ofNat 32 b).toInt
  else
    match fpDecode fmtFP32 b with
    | .nan => none
    | _ => some (if b ≥ 2 ^ 31 then -((b - 2 ^ 31 : Nat) : Int) else (b : Int))

/-- One comparison of VCMP (Table 4.6): a NaN makes every comparison false except NE. -/
def cmpElem (t fn a b : Nat) : Bool :=
  match cmpValue t a, cmpValue t b with
  | some x, some y =>
    match fn with
    | 0 => decide (x = y)
    | 1 => decide (x ≠ y)
    | 2 => decide (x < y)
    | _ => decide (x ≤ y)
  | _, _ => fn == 1

/-- A mask register from 32 bits. -/
def maskOf (f : Nat → Bool) : BitVec 32 :=
  BitVec.ofNat 32 (((List.range 32).map (fun j => b2n (f j) * 2 ^ j)).foldl (· + ·) 0)

/-- VCMP. -/
def vxCmp (c : CoreState) (cmd : Cmd) : CoreState × Bool :=
  let i := cmd.inst
  let sel := c.lanes i
  (c.setM (ifld i 20 2) (maskOf (fun j => sel.getLsbD j &&
    cmpElem (vType i) (vFn i) (vecElem (c.vReg (vVa i)) 32 j) (vecElem (c.vReg (vVb i)) 32 j))), true)

/-- VSEL: the mask is the selector, MEN is ignored (spec/04 R94). -/
def vxSel (c : CoreState) (cmd : Cmd) : CoreState × Bool :=
  let i := cmd.inst
  let m := c.mReg (vMreg i)
  (c.setV (vVd i) (vecOf 32 ((List.range 32).map (fun j =>
    if m.getLsbD j then vecElem (c.vReg (vVa i)) 32 j else vecElem (c.vReg (vVb i)) 32 j))), true)

/-- One level of the reduction tree (spec/04 R95): nodes by pairs, with the events of the operations made. -/
def redLevel (op : Nat → Nat → Rnd) : List (Option Nat) → List (Option Nat) × List Ev
  | a :: b :: t =>
    let r := redLevel op t
    match a, b with
    | some x, some y => (some (op x y).bits :: r.1, (op x y).ev :: r.2)
    | some x, none => (some x :: r.1, r.2)
    | none, y => (y :: r.1, r.2)
  | l => (l, [])

/-- The whole tree: six levels reach one node from 64 or 32 elements. -/
def redTree (op : Nat → Nat → Rnd) : Nat → List (Option Nat) × List Ev → List (Option Nat) × List Ev
  | 0, s => s
  | n + 1, s =>
    if s.1.length ≤ 1 then s
    else
      let r := redLevel op s.1
      redTree op n (r.1, s.2 ++ r.2)

/-- The empty value of VRED (spec/04 R95). -/
def redEmpty (t fn : Nat) : Nat :=
  match vtFmt t with
  | none => match fn with
    | 0 => 0
    | 1 => 0x8000_0000
    | _ => 0x7FFF_FFFF
  | some f => match fn with
    | 0 => 0
    | 1 => withSign f true (f.infCode.getD 0)
    | _ => f.infCode.getD 0

/-- A reduction's result where the tree made no operation, with none or one lane selected: the instruction delivers it, a NaN
as the canonical NaN (spec/02 R36, R58, spec/04 R93). -/
def redAlone (t x : Nat) : Rnd :=
  match vtFmt t with
  | none => { bits := x, ev := 0 }
  | some f => if fpDecode f x = .nan then rndNan f else delivered f x

/-- VRED (spec/04 R95): FN 0 ADD, 1 MAX, 2 MIN. -/
def vxRed (c : CoreState) (cmd : Cmd) : CoreState × Bool :=
  let i := cmd.inst
  let t := vType i
  let w := vtWidth t
  let sel := c.lanes i
  let fn := vFn i
  let nodes := (List.range (1024 / w)).map (fun j =>
    if sel.getLsbD (j * w / 32) then some (vecElem (c.vReg (vVa i)) w j) else none)
  let op (a b : Nat) : Rnd := vopElem t (if fn = 0 then 0 else fn + 2) a b
  let r := redTree op 6 (nodes, [])
  let v := match r.1 with
    | some x :: _ => x
    | _ => redEmpty t fn
  let one := redAlone t v
  if r.2.isEmpty then ((c.setV (vVd i) (vecOf w [one.bits])).noteEvs [one.ev], true)
  else ((c.setV (vVd i) (vecOf w [v])).noteEvs r.2, true)

/-- VTR (spec/04 R96). -/
def vxTr (c : CoreState) (cmd : Cmd) : CoreState × Bool :=
  let i := cmd.inst
  (c.putLanes i 32 (fun j => vtrFn (vFn i) (vecElem (c.vReg (vVa i)) 32 j)), true)

/-- sAB of VCVT and VCVTX (spec/04 R97): 1.0, the one enabled register, or the rounded product. -/
def cvtScale (i : Inst128) (cmd : Cmd) : Nat :=
  match vUen i, vUben i with
  | true, true => mul32 cmd.sA.toNat cmd.sB.toNat
  | true, false => cmd.sA.toNat
  | false, true => cmd.sB.toNat
  | false, false => 0x3F80_0000

/-- Writes converted elements of width `dw` from element position `p` of VD; other bytes keep their values. -/
def CoreState.putRun (c : CoreState) (vd dw p : Nat) (rs : List Rnd) : CoreState :=
  let old := c.vReg vd
  (c.setV vd (vecOf dw ((List.range (1024 / dw)).map (fun j =>
    if p ≤ j then match rs[j - p]? with
      | some r => r.bits
      | none => vecElem old dw j
    else vecElem old dw j)))).noteEvs (rs.map (·.ev))

/-- VCVT (spec/04 R97). -/
def vxCvt (c : CoreState) (cmd : Cmd) : CoreState × Bool :=
  let i := cmd.inst
  let sf := DFmt.ofCode (ifld i 48 3)
  let df := DFmt.ofCode (ifld i 45 3)
  let part := ifld i 35 2
  let n := cvtCount (ifld i 48 3) (ifld i 45 3)
  let sab := cvtScale i cmd
  let src := c.vReg (vVa i)
  let from_ := if sf.width < df.width then part * n else 0
  let rs := (List.range n).map (fun j => convFp df (vOvm i) (srcValue sf (vecElem src sf.width (from_ + j))) sab)
  (c.putRun (vVd i) df.width (if df.width < sf.width then part * n else 0) rs, true)

/-- VCVTX (spec/04 R97). -/
def vxCvtx (c : CoreState) (cmd : Cmd) : CoreState × Bool :=
  let i := cmd.inst
  let df := DFmt.ofCode (ifld i 45 3)
  let wd (j : Nat) : Nat := (cmd.addr + j) % 8192
  let r := CoreState.fetchWords .vx c ((List.range 64).map wd) cmd.epc 1
  if !r.2 then r
  else
    let rs := (List.range 32).map (fun j =>
      convXacc df (vOvm i) (xaccNorm ((c.data (wd (2 * j + 1))) ++ (c.data (wd (2 * j))))) (cvtScale i cmd))
    (r.1.putRun (vVd i) df.width (ifld i 35 2 * 32) rs, true)

/-- VKEY (spec/04 R98): an FP32 NaN of any encoding gives the key of the canonical NaN. -/
def vxKey (c : CoreState) (cmd : Cmd) : CoreState × Bool :=
  let i := cmd.inst
  let key (b : Nat) : Nat :=
    if vType i = 3 then (keyInt32 (BitVec.ofNat 32 b)).toNat
    else if fpDecode fmtFP32 b = .nan then 0xFFC0_0000
    else (keyFp32 (BitVec.ofNat 32 b)).toNat
  (c.putLanes i 32 (fun j => { bits := key (vecElem (c.vReg (vVa i)) 32 j), ev := 0 }), true)

/-- VIOTA (spec/04 R98). -/
def vxIota (c : CoreState) (cmd : Cmd) : CoreState × Bool :=
  (c.putLanes cmd.inst 32 (fun j => { bits := (cmd.sA + BitVec.ofNat 32 j).toNat, ev := 0 }), true)

/-- The vector unit runs one command; VXOPS counts it (Table 4.7). -/
def vxVectorRun (c : CoreState) (cmd : Cmd) : CoreState × Bool :=
  let r := match iOpc cmd.inst with
    | 0x20 => vxLd c cmd
    | 0x21 => vxSt c cmd
    | 0x30 => vxOp c cmd
    | 0x31 => vxFma c cmd
    | 0x32 => vxCmp c cmd
    | 0x33 => vxSel c cmd
    | 0x34 => vxRed c cmd
    | 0x35 => vxTr c cmd
    | 0x36 => vxCvt c cmd
    | 0x37 => vxCvtx c cmd
    | 0x38 => vxKey c cmd
    | _ => vxIota c cmd
  if r.2 then ({ r.1 with vxOps := sat1 r.1.vxOps }, true) else r

end Sys2Proof.Machine
end

