-- ==== Sys2Proof/Machine/Seq.lean ====
section
/-! DEFINITION. The MX and VX sequencers and the engines they feed: fetch, dispatch, starts, loops, waits
(spec/03 R76-R79, R86, spec/04 R99, R108, R109, spec/06 R148-R150).
DESIGN CHOICE (log 4): an instruction is fetched as it issues, or, where a write came between, ahead of it. DEDUCED (log 5): a command's address, its uniform registers and
its scales are read at dispatch. DESIGN CHOICE (log 6): an engine's whole effect falls at the command's start, and
COMMAND_COMPLETE is its completion event. -/

namespace Sys2Proof.Machine

/-- Engine of an opcode: 0 sequencer, 1 array or vector unit, 2 move, 3 sieve; none for a reserved opcode
(Tables 3.8, 4.5). -/
def engineOf (k : Kind) (opc : Nat) : Option Nat :=
  match k with
  | .mx =>
    if [0x00, 0x10, 0x11, 0x12, 0x13, 0x14, 0x1F].contains opc then some 0
    else if 1 ≤ opc ∧ opc ≤ 5 then some 1
    else if opc = 8 then some 2
    else none
  | .vx =>
    if [0x00, 0x10, 0x11, 0x12, 0x13, 0x14, 0x1F].contains opc then some 0
    else if opc = 8 then some 2
    else if [0x20, 0x21, 0x30, 0x31, 0x32, 0x33, 0x34, 0x35, 0x36, 0x37, 0x38, 0x39].contains opc then some 1
    else if 0x50 ≤ opc ∧ opc ≤ 0x53 then some 3
    else none
  | .sx => none

/-- Decode check by kind (spec/03 R78, spec/04 R109). -/
def instLegal (k : Kind) (i : Inst128) : Bool :=
  match k with
  | .mx => mxLegal i
  | .vx => vxLegal i
  | .sx => false

/-- What the sequencer accepts at decode: the fields alone, and for MXCVT the kind of its rows (spec/03 R78). -/
def CoreState.decodes (k : Kind) (c : CoreState) (i : Inst128) : Bool := instLegal k i && (k != .mx || mxEntOk c.mxAhead i)

def CoreState.engine (c : CoreState) (e : Nat) : Engine :=
  match e with
  | 1 => c.e1
  | 2 => c.e2
  | _ => c.e3

def CoreState.setEngine (c : CoreState) (e : Nat) (g : Engine) : CoreState :=
  match e with
  | 1 => { c with e1 := g }
  | 2 => { c with e2 := g }
  | _ => { c with e3 := g }

/-- Command queue sizes (Table 6.1). DEDUCED (log 6): a started command has left its queue. -/
def queueSize (k : Kind) (e : Nat) : Nat :=
  match k, e with
  | .sx, _ => 8
  | _, 1 => 8
  | _, _ => 4

/-! ### Program counter and loops (spec/03 R86) -/

/-- After a pass of a loop, A[i] advances by AS[i] for each bit of ADV. -/
def CoreState.advance (c : CoreState) (adv : BitVec 8) : CoreState :=
  (List.range 8).foldl (fun c i =>
    if adv.getLsbD i then c.setA i (c.aReg i + c.str.get (BitVec.ofNat 3 i)) else c) c

/-- First word after a loop's body. -/
def Loop.stop (l : Loop) : BitVec 13 := l.start + BitVec.ofNat 13 (2 * l.len)

/-- The end of a level-1 pass, where the program counter stands at the body's end. -/
def CoreState.endPass1 (c : CoreState) : CoreState :=
  match c.loop1 with
  | none => c
  | some l =>
    if c.pc ≠ l.stop then c
    else
      let c := c.advance l.adv
      if c.lc1.toNat ≤ 1 then { c with lc1 := 0, loop1 := none }
      else { c with lc1 := c.lc1 - 1, pc := l.start }

/-- The end of a level-0 pass. -/
def CoreState.endPass0 (c : CoreState) : CoreState :=
  match c.loop0 with
  | none => c
  | some l =>
    if c.pc ≠ l.stop then c
    else
      let c := c.advance l.adv
      if c.lc0.toNat ≤ 1 then { c with lc0 := 0, loop0 := none }
      else { c with lc0 := c.lc0 - 1, pc := l.start }

/-- Moves to a word, ending loop passes that end there. -/
def CoreState.goTo (c : CoreState) (pc : BitVec 13) : CoreState :=
  (CoreState.endPass1 { c with pc := pc }).endPass0

/-- Moves past the instruction at the program counter. -/
def CoreState.next (c : CoreState) : CoreState := c.goTo (c.pc + 2)

/-- A loop may begin here: a level-1 loop lies wholly within a level-0 body, and no other nesting is legal. -/
def CoreState.loopLegal (c : CoreState) (lvl len : Nat) : Bool :=
  if lvl = 0 then c.loop0.isNone && c.loop1.isNone
  else
    match c.loop0 with
    | none => false
    | some l => c.loop1.isNone && decide ((c.pc + 2 - l.start).toNat + 2 * len ≤ 2 * l.len)

/-- Begins a loop, or skips its body when COUNT is 0. -/
def CoreState.beginLoop (c : CoreState) (lvl count len : Nat) (adv : BitVec 8) : CoreState :=
  if count = 0 then c.goTo (c.pc + 2 + BitVec.ofNat 13 (2 * len))
  else
    let l : Loop := { start := c.pc + 2, len := len, adv := adv }
    if lvl = 0 then { c with loop0 := some l, lc0 := BitVec.ofNat 16 count, pc := c.pc + 2 }
    else { c with loop1 := some l, lc1 := BitVec.ofNat 16 count, pc := c.pc + 2 }

/-! ### Commands and their starts -/

/-- The operands a command takes at dispatch. -/
def mkCmd (k : Kind) (c : CoreState) (i : Inst128) : Cmd :=
  let base : Cmd := { inst := i, epc := c.pc.toNat }
  let move : Cmd := { base with
    addr := c.addrOf (ifld i 20 3) (ifld i 23 13)
    len := ifld i 36 12
    qdst := i.getLsbD 48
    qid := ifld i 49 4
    da := ifld i 64 48 }
  match k with
  | .mx =>
    match iOpc i with
    | 0x01 => { base with addr := c.addrOf (ifld i 24 3) (ifld i 27 13) }
    | 0x02 => { base with addr := c.addrOf (ifld i 26 3) (ifld i 29 13), addr2 := c.addrOf (ifld i 70 3) (ifld i 73 13) }
    | 0x03 => { base with
        addr := c.addrOf (ifld i 50 3) (ifld i 53 13)
        sA := if i.getLsbD 45 then c.scReg (ifld i 42 3) else 0x3F80_0000
        sB := if i.getLsbD 49 then c.scReg (ifld i 46 3) else 0x3F80_0000 }
    | 0x04 => { base with addr := c.addrOf (ifld i 34 3) (ifld i 37 13) }
    | 0x08 => move
    | _ => base
  | _ =>
    match iOpc i with
    | 0x08 => move
    | 0x39 => { base with sA := c.uReg (vUreg i) }
    | 0x52 => { base with
        va := c.vReg (vVa i)
        vb := c.vReg (vVb i)
        msk := c.lanes i }
    | _ => { base with addr := c.addrOf (vIdx i) (vOff i), sA := c.uReg (vUreg i), sB := c.uReg (vUregb i) }

/-- Vector register or mask register an instruction of the vector unit writes: (is mask, number). -/
def vxDest (i : Inst128) : Option (Bool × Nat) :=
  match iOpc i with
  | 0x21 => none
  | 0x32 => some (true, ifld i 20 2)
  | _ => some (false, vVd i)

/-- An SVINS waits for the queued vector commands that write a register it copies (spec/04 R99, R100): how many commands of
the vector unit must start first. -/
def svBehind (c : CoreState) (i : Inst128) : Nat :=
  let writes (d : Cmd) : Bool :=
    match vxDest d.inst with
    | some (true, m) => vMen i && m == vMreg i
    | some (false, v) => v == vVa i || v == vVb i
    | none => false
  ((c.e1.queue.mapIdx (fun j d => if writes d then j + 1 else 0))).foldl max 0

/-- After a vector command has started, a waiting SVINS may copy its sources. -/
def CoreState.svCopy (c : CoreState) : CoreState :=
  { c with e3 := { c.e3 with queue := c.e3.queue.map (fun d =>
      if iOpc d.inst = 0x52 ∧ d.behind ≠ 0 then
        if d.behind = 1 then
          { d with behind := 0, va := c.vReg (vVa d.inst), vb := c.vReg (vVb d.inst), msk := c.lanes d.inst }
        else { d with behind := d.behind - 1 }
      else d) } }

/-- The move engine reads a command's words and sends them (spec/03 R85, spec/04 R119). `eng`: who waits with a held
packet. A word outside the scratchpad raises ADDR; a poisoned word is sent on with its poison (spec/05 R139). -/
def State.runMove (s : State) (c : CoreId) (cmd : Cmd) (eng errEng : Nat) : State × Bool :=
  let x := s.core c
  let k := coreKind c
  let ws := (List.range cmd.len).map (fun j => (cmd.addr + j) % 8192)
  if destBad cmd.da cmd.qdst && cmd.len ≠ 0 then
    (s.setCore c (x.failQueue eQDest cmd.epc errEng cmd.qid none), false)
  else if ws.any (fun w => decide (k.words ≤ w)) then (s.setCore c (x.fail eAddr cmd.epc errEng), false)
  else
    let s := s.setCore c (x.noteReads k 0 ws)
    (s.coreSend c eng cmd.da cmd.qdst cmd.qid (ws.map (fun w => (x.data w, x.poisoned w))), true)

/-- Runs a command on its engine: the new state, and whether it goes on. -/
def State.runCmd (s : State) (c : CoreId) (e : Nat) (cmd : Cmd) : State × Bool :=
  let k := coreKind c
  let core (r : CoreState × Bool) : State × Bool := (s.setCore c r.1, r.2)
  match k, e with
  | .mx, 1 => core (mxArrayRun (s.core c) cmd)
  | .vx, 1 => core (vxVectorRun (s.core c) cmd)
  | .vx, 3 => core (vxSieveRun (s.core c) cmd)
  | .sx, _ => s.runMove c cmd 4 (cmd.thread + 4)
  | _, _ => s.runMove c cmd 2 2

/-- Whether the head command may start apart from its semaphore: the array engine's rules, one command at a time in the
move engine and the sieve, an SVINS with its copies made. -/
def CoreState.headReady (k : Kind) (c : CoreState) (e : Nat) (cmd : Cmd) : Bool :=
  match k, e with
  | .mx, 1 => mxReady c cmd.inst
  | .vx, 1 => true
  | .vx, 3 => c.e3.prog.isEmpty && cmd.behind == 0
  | _, _ => c.e2.prog.isEmpty && c.prf.requests.isEmpty

/-- Whether engine `e` could take its semaphore now: the sequencer, or an engine whose head is ready (spec/06 R150). -/
def CoreState.canTake (k : Kind) (c : CoreState) (e : Nat) : Bool :=
  e == 0 ||
    match (c.engine e).queue with
    | [] => false
    | d :: _ => CoreState.headReady k c e d

/-- Places of two threads in the cyclic order that begins after the thread that issued last (spec/04 R114). -/
def CoreState.threadPlace (c : CoreState) (t : Nat) : Nat := (t + 3 - c.sxLast.toNat) % 4

/-- Engines that wait on the same semaphore and are granted before `e`: those with a smaller number; of SX threads, those
that R114 lets issue first (spec/06 R154). -/
def CoreState.semAhead (k : Kind) (c : CoreState) (e s : Nat) : Nat :=
  ((List.range 4).filter (fun j => c.semWait k j == some s &&
    (if k = .sx then decide (c.threadPlace j < c.threadPlace e) else decide (j < e) && c.canTake k j))).length

/-- Whether a take by engine `e` is granted now (spec/06 R153, R154). -/
def CoreState.semGrant (k : Kind) (c : CoreState) (e s : Nat) : Bool :=
  decide (c.semAhead k e s < c.semCount s)

/-- Starts the head command of an engine: takes its semaphore, leaves the queue, runs. -/
def State.startHead (s : State) (c : CoreId) (e : Nat) (cmd : Cmd) (rest : List Cmd) : State :=
  let k := coreKind c
  let x := s.core c
  let x := if k != .sx && iWen cmd.inst then x.take (iWsem cmd.inst) else x
  let g := x.engine e
  let s := s.setCore c (x.setEngine e { g with queue := rest, waiting := false })
  let (s, ok) := s.runCmd c e cmd
  if !ok then s
  else
    s.modCore c (fun y =>
      let g := y.engine e
      let y := y.setEngine e { g with prog := g.prog ++ [cmd] }
      if k == .vx && e == 1 then y.svCopy else y)

/-- One attempt of an engine to start its head: it starts, begins to wait on its semaphore, or nothing happens. A head whose
semaphore is at 0 waits for it whatever else holds it (spec/06 R150). -/
def State.tryStart (s : State) (c : CoreId) (e : Nat) : Option State :=
  let k := coreKind c
  let x := s.core c
  let g := x.engine e
  match g.queue with
  | [] => none
  | cmd :: rest =>
    if x.err || g.waiting then none
    else if k != .sx && iWen cmd.inst && x.semCount (iWsem cmd.inst) == 0 then
      some (s.setCore c (x.setEngine e { g with waiting := true }))
    else if !CoreState.headReady k x e cmd then none
    else if k != .sx && iWen cmd.inst && !x.semGrant k e (iWsem cmd.inst) then
      some (s.setCore c (x.setEngine e { g with waiting := true }))
    else some (s.startHead c e cmd rest)

/-- Lets every engine start what can start, in ascending engine number (spec/06 R154). -/
def State.kick : Nat → State → CoreId → State
  | 0, s, _ => s
  | n + 1, s, c =>
    if (s.core c).stopped then s
    else
      match (s.tryStart c 1).orElse (fun _ => (s.tryStart c 2).orElse (fun _ => s.tryStart c 3)) with
      | some t => State.kick n t c
      | none => s

/-- Enough attempts for every queued command of a core. -/
def kickFuel : Nat := 48

/-- A proof run ends when its core halts (spec/15 R399). -/
def State.endRun (s : State) (c : CoreId) : State :=
  s.modCore c (fun x =>
    if x.isHalted (coreKind c) then { x with prf := { x.prf with running := none } } else x)

/-! ### Issue -/

/-- What a sequencer instruction does once its semaphore is taken (Tables 3.15, 4.5). -/
abbrev Body := State → CoreId → Inst128 → State

/-- A sequencer instruction completes: the semaphore is signalled at issue and the program counter moves on
(spec/06 R152, R156). -/
def State.finish (s : State) (c : CoreId) (i : Inst128) (f : CoreState → CoreState) : State :=
  let s := s.modCore c (fun x =>
    let epc := x.pc.toNat
    let x := f { x with hold := .none }
    if iSen i && !x.err then x.signal (iSsem i) 0 epc else x)
  s.endRun c

/-- Holds the sequencer at its instruction. -/
def State.holdSeq (s : State) (c : CoreId) (i : Inst128) (h : SeqHold) : State :=
  s.modCore c (fun x => { x with hold := h, heldInst := i })

/-- Sends an engine instruction to its command queue, or holds it while the queue is full (spec/06 R149). An MXMMA whose pairing is
outside Table 2.4 raises MX_PAIRING as it issues (spec/03 R80). -/
def State.enqueue (s : State) (c : CoreId) (i : Inst128) : State :=
  let k := coreKind c
  let x := s.core c
  match engineOf k (iOpc i) with
  | some e =>
    let g := x.engine e
    if queueSize k e ≤ g.queue.length then s.holdSeq c i .full
    else if k == .mx && !mxPairOk x.mxAhead i then s.modCore c (fun y => y.fail ePairing y.pc.toNat 0)
    else
      let cmd := mkCmd k x i
      let cmd := if k == .vx && iOpc i == 0x52 then { cmd with behind := svBehind x i } else cmd
      let x := (x.setEngine e { g with queue := g.queue ++ [cmd] }).next
      State.kick kickFuel (s.setCore c { x with hold := .none }) c
  | none => s

/-- The sequencer may issue: started, running, not halted and not held. -/
def State.seqReady (s : State) (c : CoreId) : Bool :=
  let x := s.core c
  s.coreRuns c && x.run && !x.halted && x.hold == .none

/-- A word as a fetch that came before a write delivered it. -/
def EccWord.bad (e : EccWord) : Bool := e.poison || e.outcome == .uncorrectable

/-- DESIGN CHOICE (log 4): where writes have landed on an instruction that may have been fetched ahead, a free value says which of them the
fetch missed: none, or all from one of them on; then the instruction is what its words held before (spec/03 R76, R87). -/
def State.fetchOld (s : State) (c : CoreId) (t pc : Nat) : State × Option (EccWord × EccWord) :=
  match (s.core c).earlier t pc with
  | [] => (s, none)
  | e :: l =>
    let (n, s) := s.draw
    (s.modCore c (fun x => { x with stale := x.stale.filter (fun o => !(o.thread == t && o.pc == pc)) }),
      ((e :: l)[Config.fetchAge n % (l.length + 2)]?).map (fun o => (eccDecode o.lo, eccDecode o.hi)))

/-- Word pair at the program counter, or the fetch error (spec/03 R76, Table 3.17, spec/05 R134, R139). -/
def State.fetchSeq (s : State) (c : CoreId) : State × Option Inst128 :=
  let k := coreKind c
  let x := s.core c
  let pc := x.pc.toNat
  if pc % 2 = 1 ∨ k.words ≤ pc then (s.setCore c (x.fail eAddr pc 0), none)
  else
    match s.fetchOld c 0 pc with
    | (s, some o) =>
      if o.1.bad || o.2.bad then (s.modCore c (fun y => y.fail ePoison pc 0), none)
      else (s, some (o.2.data ++ o.1.data))
    | (s, none) =>
      let x := s.core c
      let y := x.noteReads k 0 [pc, pc + 1]
      if x.poisoned pc || x.poisoned (pc + 1) then (s.setCore c (y.fail ePoison pc 0), none)
      else (s.setCore c y, some ((x.data (pc + 1)) ++ (x.data pc)))

/-- Issues the instruction at the program counter if its opcode is `opc`. A fetch error is raised by any issue; a reserved
opcode is raised as ILLEGAL by the no-op's issue (spec/03 R78). A wait on a semaphore comes first (spec/06 R150). -/
def State.issue (s : State) (c : CoreId) (k : Kind) (opc : Nat) (body : Body) : State :=
  if coreKind c != k || !s.seqReady c then s
  else
    match s.fetchSeq c with
    | (t, none) => t
    | (t, some i) =>
      let reserved := (engineOf k (iOpc i)).isNone
      if iOpc i ≠ opc ∧ !(reserved ∧ opc = 0) then s
      else if !(s.core c).decodes k i then t.modCore c (fun x => x.fail eIllegal x.pc.toNat 0)
      else if engineOf k opc == some 0 && iWen i then
        if (t.core c).semGrant k 0 (iWsem i) then body (t.modCore c (fun x => x.take (iWsem i))) c i
        else t.holdSeq c i (.sem (iWsem i))
      else body t c i

end Sys2Proof.Machine
end

