-- ==== Sys2Proof/Machine/Faults.lean ====
section
/-! DEFINITION. Fences, holds and lost parts, shared by the events that raise them (spec/01 R9, R31-R33, spec/09 R237, R244,
spec/14 R377-R382, spec/15 R402-R407). -/

namespace Sys2Proof.Machine

/-- Raises an error record with only some fields named. -/
def mkRec (cls severity source : Nat) : ErrRec := { cls := cls, severity := severity, source := source }

/-! ### Counting enabled cores (spec/01 R33, spec/00 R9, Table 0.1) -/

/-- Cores of a kind on the wafer (spec/01 Table 1.4: 8,448, 3,072 and 768 in each of 60 fields). -/
def kindTotal : Kind → Nat
  | .mx => 506880
  | .vx => 184320
  | .sx => 46080

/-- Enabled cores of a kind: positions whose effective code is 0b00. -/
def State.enabled (s : State) (k : Kind) : Nat :=
  let keys := (s.fused.map (·.1)) ++ (s.service.map (·.1)).filter (fun n => !KMap.has s.fused n)
  kindTotal k - (keys.filter (fun n => coreKind (coreOfKey n) == k && s.code (coreOfKey n) ≠ 0)).length

/-- The grade's minimums hold (Table 0.1: grade A is 0, grade B is 1). -/
def State.gradeOk (s : State) : Bool :=
  let m := if s.fw.grade = 0 then (500000, 182000, 45000, 727000) else (488000, 177000, 44000, 709000)
  decide (m.1 ≤ s.enabled .mx ∧ m.2.1 ≤ s.enabled .vx ∧ m.2.2.1 ≤ s.enabled .sx ∧
    m.2.2.2 ≤ s.enabled .mx + s.enabled .vx + s.enabled .sx)

/-- A count below its minimum is reported as a replacement advisory (spec/00 R9, spec/15 Table 15.4 GRADE). -/
def State.applyGrade (s : State) : State :=
  if s.gradeOk then s else s.errorRecord { mkRec clsGrade 4 5 with flags := 1 }

/-- Fences a core or removes a position in the in-service list, then counts again: a protective action of the field
controller (spec/01 R16, R32, spec/15 R406). -/
def State.fenceCore (s : State) (c : CoreId) (code : BitVec 2) : State :=
  let s := (s.fence c code).applyGrade
  match coreField c with
  | some f => s.modField f (fun x => x.protect 6)
  | none => s

/-- Takes a hub out of service in the in-service list. -/
def State.removeHub (s : State) (hx hy : Nat) : State :=
  let s := s.keepFlash
  { s with serviceHub := KMap.put s.serviceHub (hubKey hx hy) true }

/-- The hub is out of service (spec/01 R31). -/
def State.hubOut (s : State) (hx hy : Nat) : Bool :=
  KMap.get false s.fusedHub (hubKey hx hy) || KMap.get false s.serviceHub (hubKey hx hy)

/-! ### Fields -/

/-- The field is in service: powered ON, its switch closed, not stopped or lost. -/
def State.fieldOk (s : State) (f : Nat) : Bool :=
  let x := s.field f
  decide (f < 60) && x.power == 0 && !x.swOpen && !x.tstop && !x.lost

/-- A partition's develop point is held for FAULT, because of a field (spec/09 Table 9.3). -/
def State.faultField (s : State) (f : Nat) : State :=
  match s.fieldJob f with
  | some j => s.modJob j (fun q =>
      if q.state == .running || q.state == .paused then
        { q with holds := { q.holds with fault := true }, faultFields := if q.faultFields.contains f then q.faultFields else q.faultFields ++ [f] }
      else q)
  | none => s

/-- A dead core of a partition is a fault of its field (spec/15 Table 15.7). -/
def State.deadCore (s : State) (c : CoreId) (code : BitVec 2) : State :=
  let s := s.fenceCore c code
  match coreField c with
  | some f => s.faultField f
  | none => s

/-- Job states' codes (spec/13 JOB_STATUS). -/
def JobState.code : JobState → Nat
  | .empty => 0
  | .loaded => 1
  | .running => 2
  | .paused => 3
  | .suspended => 4
  | .stopped => 5

/-- Commands that wait on a job and end when it leaves the state they need (spec/13 Table 13.6 ABORTED; JOB_INPUT 0x020B,
WAIT_EXP 0x0302 only when the slot empties). -/
def State.abortInputs (s : State) (j : Nat) : State :=
  let s := s.completeIf (fun e => e.started && e.opcode == 0x20B && e.p 0 1 == j) stAborted (fun _ _ => [])
  s.modJob j (fun q => { q with inputs := [] })

/-- Commands that wait for a develop point that will not come any more: PAUSE, RESUME, PREEMPT, APPLY_MODE. COMMIT exchanges
at once for a stopped job (spec/09 R243). -/
def State.abortWaiting (s : State) (j : Nat) : State :=
  s.completeIf (fun e => e.started && e.p 0 1 == j && [0x203, 0x204, 0x205, 0x208].contains e.opcode) stAborted (fun _ _ => [])

/-! ### Fault overlays (spec/09 R244) -/

/-- Positions a logical field's configuration schedules. -/
def Job.scheduled (q : Job) (lf : Nat) : List Nat := (q.image.cores.filter (fun c => c.at_.lf == lf)).map (fun c => c.at_.pos)

/-- Every position scheduled for a logical field, and the hub of its group, is in service on a field. -/
def State.fits (s : State) (q : Job) (lf f : Nat) : Bool :=
  (q.scheduled lf).all (fun pos =>
    let c := coreAtPos f pos
    s.code c == 0 && !s.hubOut (c.x / 16) (c.y / 16))

/-- A fault overlay is valid (spec/09 R244). -/
def State.overlayValid (s : State) (q : Job) (o : Overlay) : Bool :=
  match o.fault with
  | none => false
  | some (lf, sp) =>
    match (q.spareFields[sp]?).getD none with
    | none => false
    | some f =>
      s.fieldOk f && s.fits q lf f &&
        o.changes.all (fun c => c.at_.lf == lf || (((q.fields[c.at_.lf]?).getD none).map s.fieldOk).getD false)

/-- The active table's overlay for a lost logical field. -/
def Job.faultOverlay (q : Job) (lf : Nat) : Option Overlay :=
  (q.ovActive.find? (fun e => (e.2.fault.map (·.1)) == some lf)).map (·.2)

/-- Bit i: the fault overlay of logical field i is invalid (Table 13.9 COMMIT, JOB_STATUS). A field whose fault
overlay is missing has no overlay to mark (DEDUCED, log 27). -/
def State.invalidMarks (s : State) (q : Job) : Nat :=
  ((List.range q.fields.length).map (fun lf =>
    if (((q.faultOverlay lf).map (s.overlayValid q)).getD true) then 0 else 2 ^ lf)).foldl (· + ·) 0

/-- A fault overlay is being applied: a fault of a working field awaits its roll-back (spec/09 R243). -/
def Job.applying (q : Job) : Bool := (!q.faultFields.isEmpty || q.inPlace) && !q.noCover

/-- Exchanges the overlay tables for a waiting COMMIT and reports the invalid marks (spec/09 R243, R244). -/
def State.commitTables (s : State) (j : Nat) : State :=
  if !(s.job j).commitReq then s
  else
    let s := s.modJob j (fun q => { q with ovActive := q.ovShadow, ovShadow := q.ovActive, commitReq := false })
    s.completeIf (fun e => e.started && e.opcode == 0x209 && e.p 0 1 == j) stOk
      (fun s _ => leBytes 8 (s.invalidMarks (s.job j)))

/-- A COMMIT of a job that reaches no develop point: at once, but once the application ends while a fault overlay is being applied
(spec/09 R243). -/
def State.commitNow (s : State) (j : Nat) : State := if (s.job j).applying then s else s.commitTables j

/-! ### Jobs that stop -/

/-- A job enters STOPPED: its waiting commands end, its tables are exchanged if COMMIT waits, and the owner is told (spec/09 Table 9.1, R243, Table 13.5). -/
def State.stopJob (s : State) (j reason : Nat) : State :=
  let s := s.modJob j (fun q => { q with state := .stopped, held := false, safelight := .idle, pauseReq := false, preemptReq := false })
  (((s.commitTables j).abortInputs j).abortWaiting j).jobEvent j 5 reason (s.job j).expNo

/-- A stack is lost (spec/15 R403): with cover its partitions roll back in place, without it they stop, and jobs that hold no
partition are reported. `own`: it failed in itself and stays lost. -/
def State.loseStack (s : State) (n : Nat) (own : Bool) : State :=
  let was := (s.stack n).lost
  let second := s.lostStacks.any (· ≠ n)
  -- a loss during a rebuild is a second loss: the rebuilding stack is lost again, its rebuild stopped where it stands (R404)
  let rebuilding := (List.range 16).filter (fun m => m ≠ n && (s.stack m).rebuild.isSome && !(s.stack m).lost)
  let cover := s.mod.memMode && !second && rebuilding.isEmpty
  -- a stack lost with cover owes a rebuild of every unit when it returns (R404)
  let s := s.modStack n (fun x => { x with
    lost := true
    failed := x.failed || own
    locked := false
    selfRefresh := true
    rebuild := if cover && !was then some 0 else x.rebuild })
  let s := rebuilding.foldl (fun s m => s.modStack m (fun x => { x with lost := true })) s
  if was && !own then s
  else
    let s := s.errorRecord { mkRec clsStackLost (if own then 4 else 2) 4 with unit := n, flags := b2n own }
    let hit := if cover || !s.mod.memMode then [n] else s.lostStacks
    let affected := (List.range 16).filter (fun j => (s.job j).regions.any (fun r => hit.contains r.stack))
    affected.foldl (fun s j =>
      let q := s.job j
      if q.state == .running || q.state == .paused then
        if cover then s.faultInPlace j else s.stopJob j 2
      else if cover || q.state == .stopped then s
      else s.jobEvent j q.state.code 2 q.expNo) s

/-- An edge field that stops or goes OFF cuts off its attachment: a stack is lost, a die takes the other die's way
(spec/14 R378, spec/15 R403, R405). -/
def State.cutEdge (s : State) (f : Nat) : State :=
  let s := if f = 22 then s.modPort .a (fun x => { x with viaPeer := true }) else s
  let s := if f = 37 then s.modPort .b (fun x => { x with viaPeer := true }) else s
  match (List.range 16).find? (fun n => (stackEdge n).1 == f) with
  | some n => s.loseStack n false
  | none => s

/-- The packet stands in a field: it comes from there and has not left, or waits there at the boundary of another (DEDUCED, log 52). -/
def Packet.inField (f : Nat) (p : Packet) : Bool :=
  match p.pos with
  | some w => w.at_.field == some f
  | none => (p.srcCore.bind coreField) == some f

/-- A field is lost: its partition's develop point is held for FAULT, and an edge field cuts off its attachment
(spec/14 R378, spec/15 R403, R405). Severity 3 when neither die's edge field serves
it any more. -/
def State.loseField (s : State) (f : Nat) : State :=
  let s := s.modField f (fun x => { x with lost := true })
  -- what its routers and hubs hold never leaves them (DEDUCED, log 52)
  let s := { s with net := s.net.filter (fun p => !(p.inField f)) }
  let s := s.faultField f
  let die : Option Port := if f = 22 then some .a else if f = 37 then some .b else none
  let cut (e : Nat) : Bool := (s.field e).lost || (s.field e).power == 2
  let both := cut 22 && cut 37 && die.isSome
  let unit : Nat := match die with
    | some p => p.num
    | none => 0xFF
  let s := s.errorRecord { mkRec clsFieldLost (if both then 3 else 2) 3 with
    field := f
    job := (s.fieldJob f).getD 0xFF
    unit := unit
    detail := leBytes 1 (s.field f).cause }
  s.cutEdge f

/-! ### Core errors and washes -/

/-- A wash that failed: WASHFAIL, the port stays closed, and the core is fenced as a dead core (spec/05 R147). -/
def State.washFailed (s : State) (c : CoreId) : State :=
  let s := s.errorRecord { mkRec clsWashFail 2 0 with
    field := (coreField c).getD 0xFF
    job := (s.coreJob c).getD 0xFF
    x := c.x
    y := c.y
    action := 5 }
  s.fenceCore c 1

/-- What a wash leaves: every word clean zero but those that fail (spec/05 R144, R145). -/
def washedCore (k : Kind) (stuck : List (Nat × Code)) : CoreState :=
  let mem := stuck.foldl (fun m e => if e.1 < k.words then KMap.set 0 m e.1 e.2 else m) ([] : KMap Code)
  let bad := !mem.isEmpty
  { mem := mem, portClosed := bad, sp := { washFail := bad } }

/-- Counts of a core's scratchpad that the field's totals take before a wash (spec/05 R142, spec/15 R394). -/
def State.sweepCore (s : State) (f : Nat) (c : CoreId) : State :=
  let r := (s.core c).sp
  let g := s.field f
  let l := KMap.get {} g.last (coreKey c)
  let inc (new old : Nat) : Nat := if new < old then new else new - old
  s.modField f (fun g => { g with
    errCe := satAdd g.errCe (inc r.ceCount.toNat l.ce)
    errUe := satAdd g.errUe (inc r.ueCount.toNat l.ue)
    pois := satAdd g.pois (inc r.poisCount.toNat l.pois)
    last := KMap.put g.last (coreKey c) { l with ce := 0, ue := 0, pois := 0 } })

/-- Washes one core (spec/05 R144-R147); a pending fence takes effect (spec/15 R394). -/
def State.washCore (s : State) (c : CoreId) (stuck : List (Nat × Code)) : State :=
  match coreField c with
  | none => s
  | some f =>
    let s := s.sweepCore f c
    let w := washedCore (coreKind c) stuck
    let s := if w = {} then { s with cores := KMap.del s.cores (coreKey c) } else s.setCore c w
    let s := if (s.field f).pendFence.contains c then
      (s.modField f (fun g => { g with pendFence := g.pendFence.erase c })).fenceCore c 1 else s
    if w.portClosed then s.washFailed c else s

/-- Washes every core of a field, with the words that fail (spec/05 R145: all cores it covers run it in parallel). Cores never
changed are as washed already. -/
def State.washField (s : State) (f : Nat) (stuck : Stuck) : State :=
  let changed := s.coresOf f
  let named := (stuck.map (·.1)).filter (fun c => coreField c == some f && !changed.contains c)
  (changed ++ named).foldl (fun s c =>
    s.washCore c (((stuck.find? (fun e => e.1 == c)).map (·.2)).getD [])) s

/-- What a job shows in its fields' exposure registers (spec/09 Table 9.11). -/
def Job.xpKept (q : Job) : XpKept :=
  { lenm1 := q.expLen - 1
    holdMax := q.holdMax
    expNo := q.expNo
    sched := q.sched
    lastDev := q.lastDev
    lastCkpt := q.lastCkpt }

/-- Takes a field out of its partition; its exposure registers keep their last values (spec/09 R259). -/
def State.releaseField (s : State) (f : Nat) : State :=
  s.modField f (fun x => { x with
    job := none
    spare := false
    logical := 0
    kept := (x.job.map (fun j => (s.job j).xpKept)).getD x.kept
    votes := []
    prfPend := [] })

/-- What becomes of a slot's packet in flight at a partition reset. DEDUCED (log 35): a packet for a core arrives while the
core is washed and is refused as WASHING (spec/05 R146): a companion die gets the NAK, and poisoned RDATA for a READ; a NAK to a
core of the partition meets its wash. Packets for stacks and dies go on, no longer counted. -/
def Packet.atReset (j : Nat) (p : Packet) : List Packet :=
  if p.slot ≠ j ∨ p.ptype = pFcmsg ∨ p.dkind = 3 then [p]
  else if p.dkind ≠ 0 then [{ p with counted := false }]
  else if 784 ≤ p.sx then
    { p.nak p.dx p.dy 0 nakWashing p.len with counted := false } ::
      (if p.ptype = pRead then [{ p.rdata p.dx p.dy 0 (List.replicate p.len (0, true)) with counted := false }] else [])
  else []

/-- A partition reset (spec/16 R418): every core of every field of the partition is washed, staged arrivals and held packets
are discarded with it, with the combined READs of the slot (spec/08 R217), and every count of the slot is 0. -/
def State.partitionReset (s : State) (j : Nat) (stuck : Stuck) : State :=
  let s := { s with
    net := s.net.flatMap (Packet.atReset j)
    hubs := KMap.mapIf (fun _ => true) (fun _ h => { h with cmb := h.cmb.filter (fun m => m.lead.slot ≠ j) }) s.hubs }
  (((s.job j).allFields).foldl (fun s f =>
    (s.washField f stuck).modField f (fun x => { x with votes := [], prfPend := [] })) s).clearDelta j

end Sys2Proof.Machine
end

