-- ==== Sys2Proof/Machine/Stacks.lean ====
section
/-! DEFINITION. Stack memory: words, parity stripes, rebuilding, zeroing, regions (spec/12 R308, spec/13 R351,
spec/15 R402-R404). A cell is a physical word of a stack; an unlisted word is the all-zero code word (log 13). -/

namespace Sys2Proof.Machine

/-- Bytes of a stack's data space (spec/12 R308). -/
def State.dataBytes (s : State) : Nat := if s.mod.memMode then 75000000000 else 80000000000

/-! ### Stripes (spec/15 R402) -/

/-- Stack that holds the parity of the stripe of data word `w` of stack `n`. -/
def parityStack (n w : Nat) : Nat := (n + 1 + (w / 8) % 15) % 16

/-- Physical word of the parity of data word `w`. -/
def parityWord (w : Nat) : Nat := 9375000000 + 8 * (w / 8 / 15) + w % 8

/-- The data word of stack `m` in the stripe of block `b` whose parity lies in stack `r`. -/
def memberWord (b r m i : Nat) : Nat := 8 * (15 * b + (r + 16 - m - 1) % 16) + i

def State.stackDec (s : State) (n w : Nat) : EccWord := eccDecode (KMap.get 0 (s.stack n).mem w)

/-- Stores a code word. -/
def State.stackPut (s : State) (n w : Nat) (d : Word) (p : Bool) : State :=
  s.modStack n (fun x => { x with mem := KMap.set 0 x.mem w (eccEncode d p) })

/-- The stack itself serves a word: it is not lost and the word lies below its rebuild point (R404). -/
def State.servesWord (s : State) (n w : Nat) : Bool :=
  let x := s.stack n
  !x.lost && (x.rebuild.map (fun u => decide (w / 8 < u))).getD true

/-- The 65 information bits of a stored word, none where it is uncorrectable or not served. -/
def State.info (s : State) (n w : Nat) : Option (Word × Bool) :=
  let e := s.stackDec n w
  if !s.servesWord n w || e.outcome == .uncorrectable then none else some (e.data, e.poison)

def xorInfo (a b : Option (Word × Bool)) : Option (Word × Bool) :=
  match a, b with
  | some x, some y => some (x.1 ^^^ y.1, x.2 != y.2)
  | _, _ => none

/-- A data word rebuilt from the other members of its stripe and the parity, each as the stack that serves it holds it. -/
def State.rebuildWord (s : State) (n w : Nat) : Option (Word × Bool) :=
  let r := parityStack n w
  let b := w / 8 / 15
  let others := (List.range 16).filter (fun m => m ≠ n && m ≠ r)
  others.foldl (fun a m => xorInfo a (s.info m (memberWord b r m (w % 8)))) (s.info r (parityWord w))

/-- An uncorrectable stack word's record (spec/15 Table 15.4); DETAIL holds its syndrome and outcome (DESIGN CHOICE, log 84: S1, S3,
parity, outcome, a byte each). -/
def State.stackUe (s : State) (n w sev : Nat) : State :=
  let r := (KMap.get 0 (s.stack n).mem w).toNat
  s.errorRecord { mkRec clsStackUe sev 4 with
    unit := n
    detail := leBytes 1 (synd1 r) ++ leBytes 1 (synd3 r) ++ leBytes 1 (b2n (parityOf 80 r)) ++ leBytes 1 EccOutcome.uncorrectable.code }

/-- A data word as a read or a merge takes it: decoded, corrected words rewritten, an uncorrectable word rebuilt in
stack-parity mode or poisoned (spec/15 R402, Table 15.2). -/
def State.stackFetch (s : State) (n w : Nat) : State × Word × Bool :=
  let e := s.stackDec n w
  if !s.servesWord n w then
    match s.rebuildWord n w with
    | some i => (s, i.1, i.2)
    | none => (s, e.data, true)
  else
    match e.outcome with
    | .clean => (s, e.data, e.poison)
    | .uncorrectable =>
      if s.mod.memMode then
        match s.rebuildWord n w with
        | some i => ((s.stackUe n w 2).stackPut n w i.1 i.2, i.1, i.2)
        | none => (s.stackUe n w 1, e.data, true)
      else ((s.stackUe n w 1).stackPut n w e.data true, e.data, true)
    | _ => (s.stackPut n w e.data e.poison, e.data, e.poison)

/-- Updates the parity word for a changed data word: old parity xor old data xor new data (R402). -/
def State.stackParity (s : State) (n w : Nat) (old new : Word × Bool) : State :=
  if !s.mod.memMode then s
  else
    let r := parityStack n w
    if !s.servesWord r (parityWord w) then s
    else
      let e := s.stackDec r (parityWord w)
      s.stackPut r (parityWord w) (e.data ^^^ old.1 ^^^ new.1)
        ((e.poison || e.outcome == .uncorrectable) != (old.2 != new.2))

/-- Writes a data word under a byte mask: in place, or by parity alone when a proxy serves it (R402, R403). Only a partial write, or the
parity, needs the old word. -/
def State.stackWrite (s : State) (n w : Nat) (mask : BitVec 8) (d : Word) (p : Bool) : State :=
  if mask = 0 then s
  else
    let (s, old, oldP) := if mask = 0xFF && !s.mod.memMode then (s, 0, false) else s.stackFetch n w
    let mb := maskBits mask
    let new := if mask = 0xFF then (d, p) else ((old &&& ~~~mb) ||| (d &&& mb), oldP || p)
    let s := s.stackParity n w (old, oldP) new
    if s.servesWord n w then s.stackPut n w new.1 new.2 else s

/-- Word `i` of the stripe of block `b` with parity in stack `r`, as stack `n` holds it. -/
def stripeWord (b r n i : Nat) : Nat := if n = r then 9375000000 + 8 * b + i else memberWord b r n i

/-- The stripe of a physical word of a stack: block, parity stack, word position. -/
def stripeOf (m w : Nat) : Nat × Nat × Nat :=
  if w < 9375000000 then (w / 8 / 15, parityStack m w, w % 8) else ((w - 9375000000) / 8, m, w % 8)

/-- Words of a stack that a rebuild must form: those of stripes in which some word is listed. -/
def State.rebuildKeys (s : State) (n : Nat) : List Nat :=
  ((List.range 16).flatMap (fun m => ((s.stack m).mem.map (·.1)).map (fun w =>
    let t := stripeOf m w
    stripeWord t.1 t.2.1 n t.2.2))).eraseDups

/-- Words of a stack that may not read as zero: those listed, and with parity those of stripes in which some word is listed. -/
def State.writtenWords (s : State) (n : Nat) : List Nat :=
  if s.mod.memMode then s.rebuildKeys n else (s.stack n).mem.map (·.1)

/-- Writes zero into every word of a range, with its parity (spec/13 R351). Words not written are zero already. -/
def State.zeroRange (s : State) (n off size : Nat) : State :=
  let ws := (s.writtenWords n).filter (fun w => decide (off ≤ 8 * w ∧ 8 * w < off + size))
  ws.foldl (fun s w => s.stackWrite n w 0xFF 0 false) s

/-! ### Regions (spec/13 R351) -/

/-- Space of a stack that regions or a snapshot's reservation hold. -/
def State.used (s : State) : List Region :=
  s.jobs.toList.flatMap (fun q => q.regions) ++
    s.snaps.toList.flatMap (fun x => match x with
      | .asked _ _ _ _ sp => sp
      | .held _ _ sp _ => sp
      | _ => [])

/-- `size` bytes at `off` are free in every named stack. -/
def State.freeAt (s : State) (sts : List Nat) (off size : Nat) : Bool :=
  decide (off + size ≤ s.dataBytes) &&
    (s.used.filter (fun r => sts.contains r.stack)).all (fun r => decide (off + size ≤ r.off ∨ r.off + r.size ≤ off))

/-- The lowest multiple of 2^20 at which `size` bytes are free in every named stack. Candidates are 0 and the ends of what is
held there. -/
def State.lowestFree (s : State) (sts : List Nat) (size : Nat) : Option Nat :=
  let ends := (s.used.filter (fun r => sts.contains r.stack)).map (fun r => (r.off + r.size + 1048575) / 1048576 * 1048576)
  let ok := (0 :: ends).filter (fun o => s.freeAt sts o size)
  match ok with
  | [] => none
  | h :: t => some (t.foldl min h)

/-- Allocates a region at one offset in every named stack and zeroes it. -/
def State.allocRegion (s : State) (j id : Nat) (sts : List Nat) (off size : Nat) : State :=
  let s := sts.foldl (fun s n => s.zeroRange n off size) s
  s.modJob j (fun q => { q with regions := q.regions ++ sts.map (fun n => { id := id, stack := n, off := off, size := size }) })

/-- Size per stack of region 0 for a configuration size (spec/13 R351). -/
def region0Size (bytes : Nat) : Nat := ((bytes + 15) / 16 + 1048575) / 1048576 * 1048576

/-- Region of a job on a stack. -/
def Job.region (q : Job) (id stack : Nat) : Option Region := q.regions.find? (fun r => r.id == id && r.stack == stack)

/-- The jobs whose regions hold a stack byte. -/
def State.ownerOf (s : State) (n off : Nat) : Option Nat :=
  (List.range 16).find? (fun j => (s.job j).regions.any (fun r => r.stack == n && decide (r.off ≤ off ∧ off < r.off + r.size)))

end Sys2Proof.Machine
end

