-- ==== Sys2Proof/Machine/JobOps.lean ====
section
/-! DEFINITION. Configurations: checks, loading onto a placement, starting cores, readiness, publication
(spec/07 R173, R174, spec/09 R225, R229-R257). -/

namespace Sys2Proof.Machine

/-! ### Descriptor checks (spec/07 R173, Table 7.2) -/

/-- A descriptor's fields leave their ranges, or its region runs past the scratchpad. -/
def descBad (k : Kind) (d : QDesc) : Bool :=
  let q : Queue := { d := d }
  decide (d.depth.toNat = 0 ∨ 4096 < d.depth.toNat) || decide (5 < d.mode.toNat) || d.state == 3 ||
  (if d.mode = 0 then decide (4 < d.esize.toNat) || d.expect ≠ 0 else d.esize ≠ 0 || d.expect == 0) ||
  (d.mode == 1 && d.base.getLsbD 0) ||
  (d.pen && (d.mode ≠ 0 || d.esize == 0)) ||
  (q.isCredit && d.cren) ||
  (d.crgrp && d.cry ≠ 0) ||
  decide (k.words < d.base.toNat + d.depth.toNat * q.width)

/-- Two descriptors' regions overlap; a credit queue has none. -/
def regionsMeet (a b : QDesc) : Bool :=
  let wa := a.depth.toNat * (Queue.width { d := a })
  let wb := b.depth.toNat * (Queue.width { d := b })
  decide (0 < wa ∧ 0 < wb ∧ a.base.toNat < b.base.toNat + wb ∧ b.base.toNat < a.base.toNat + wa)

/-- PAIR and PEN are mutual, with both queues of one epoch, in one state (R193). -/
def pairBad (l : List QImage) (q : QImage) : Bool :=
  q.d.pen && !(l.any (fun o => o.n == q.d.pair.toNat && o.n ≠ q.n && o.d.pen && o.d.pair.toNat == q.n && o.d.epoch == q.d.epoch && o.d.state == q.d.state))

/-- The first queue of a core's configuration that breaks R173; `credit` tells whether a target is a credit queue, `group` the
members of a multicast group, each of which is a target (R180). -/
def queuesBad (k : Kind) (l : List QImage) (credit : LPos → Nat → Bool) (group : Nat → List LPos) : Option Nat :=
  let open_ := l.filter (fun q => q.d.state ≠ 0)
  let pots := ((open_.filter (fun q => q.d.mode ≠ 0)).map (fun q => q.d.depth.toNat)).foldl (· + ·) 0
  let target (q : QImage) : Bool :=
    if q.d.crgrp then !(group q.d.crx.toNat).isEmpty && (group q.d.crx.toNat).all (fun t => credit t q.d.crq.toNat)
    else (q.target.map (fun t => credit t q.d.crq.toNat)).getD false
  let bad (q : QImage) : Bool :=
    descBad k q.d || open_.any (fun o => o.n ≠ q.n && regionsMeet o.d q.d) || pairBad open_ q || (q.d.cren && !target q)
  match open_.find? bad with
  | some q => some q.n
  | none => if 256 < pots then some 0xFF else none

/-- Kind at a logical position: one lattice on every field (spec/01 Table 1.4). -/
def LPos.kind (p : LPos) : Kind := coreKind (coreAtPos 0 p.pos)

/-- A core's queues after an overlay: a descriptor that it leaves replaces the one there was. -/
def mergeQueues (base add : List QImage) : List QImage := base.filter (fun q => !add.any (fun a => a.n == q.n)) ++ add

/-- A queue's descriptor in a list, RESET where it has none. -/
def descOf (l : List QImage) (n : Nat) : QDesc := ((l.find? (fun q => q.n == n)).map (fun q => q.d)).getD {}

/-- The descriptors that an overlay's actions leave on a core (Table 9.9): KEEP none, RESET in RESET, SET with the old EPOCH,
RENEW with the old EPOCH + 1. -/
def effQueues (base : List QImage) (l : List (QImage × QAction)) : List QImage :=
  l.filterMap (fun e =>
    let old := descOf base e.1.n
    match e.2 with
    | .keep => none
    | .reset => some { n := e.1.n, d := { old with state := 0 } }
    | .set => some { e.1 with d := { e.1.d with epoch := old.epoch } }
    | .renew => some { e.1 with d := { e.1.d with epoch := old.epoch + 1 } })

/-- A core's queues once the changes of overlays are made, one after the other. -/
def queuesAfter (at_ : LPos) (base : List QImage) (os : List Overlay) : List QImage :=
  os.foldl (fun l o => (o.changes.filter (fun x => x.at_ == at_)).foldl (fun l x => mergeQueues l (effQueues l x.queues)) l) base

/-- The queues of a core in a base configuration. -/
def JobImage.queuesAt (im : JobImage) (at_ : LPos) : List QImage :=
  ((im.cores.find? (fun c => c.at_ == at_)).map (fun c => c.queues)).getD []

/-- Members of a multicast group under an image and overlays: the last overlay that names it decides (R242). -/
def groupUnder (im : JobImage) (os : List Overlay) (g : Nat) : List LPos :=
  let pick (l : List (Nat × List LPos)) : Option (List LPos) := (l.find? (fun e => e.1 == g)).map (fun e => e.2)
  match os.reverse.findSome? (fun o => pick o.groups) with
  | some m => m
  | none => (pick im.groups).getD []

/-- A position that is a member of more groups than its router's 16 fork entries hold (spec/08 R214; log 11: a group needs an
entry at each member's own router under any layout). -/
def groupsBad (im : JobImage) (os : List Overlay) : Option LPos :=
  let gs := ((im.groups ++ os.flatMap (fun o => o.groups)).map (·.1)).eraseDups
  let ms := gs.flatMap (fun g => (groupUnder im os g).eraseDups)
  ms.find? (fun m => decide (16 < ms.count m))

/-- The action of an overlay on a queue of a core; KEEP where it names none (R247). -/
def actionOn (l : List (QImage × QAction)) (n : Nat) : QAction := ((l.find? (fun e => e.1.n == n)).map (·.2)).getD .keep

/-- An action that Table 9.9 does not permit: a SET that changes more than it may, EPOCH too, or a steering pair whose members carry
different actions (R247). -/
def actionBad (base : List QImage) (l : List (QImage × QAction)) (e : QImage × QAction) : Bool :=
  let d := e.1.d
  let old := descOf base e.1.n
  let split (p : QDesc) : Bool := p.pen && actionOn l p.pair.toNat != e.2
  (e.2 == .set && !(d.base == old.base && d.depth == old.depth && d.mode == old.mode && d.esize == old.esize &&
    d.expect == old.expect && d.pair == old.pair && d.pen == old.pen && d.epoch == old.epoch)) ||
  (e.2 != .keep && split old) || ((e.2 == .set || e.2 == .renew) && split d)

/-- The first core and queue whose action an overlay may not carry, after the overlays in force. -/
def actionsBad (im : JobImage) (os : List Overlay) (o : Overlay) : Option (LPos × Nat) :=
  o.changes.findSome? (fun x =>
    (x.queues.find? (actionBad (queuesAfter x.at_ (im.queuesAt x.at_) os) x.queues)).map (fun e => (x.at_, e.1.n)))

/-- A credit queue at a logical position, under an image and overlays. -/
def creditQueueAt (cores : List (LPos × List QImage)) (t : LPos) (n : Nat) : Bool :=
  cores.any (fun c => c.1 == t && c.2.any (fun q => q.n == n && q.d.mode == 0 && q.d.esize == 0))

/-- Cores that a configuration with overlays on top configures: those of the image, and others that an overlay names. -/
def configCores (im : JobImage) (os : List Overlay) : List LPos :=
  let l := im.cores.map (fun c => c.at_)
  l ++ ((os.flatMap (fun o => o.changes.map (fun x => x.at_))).filter (fun p => !l.contains p)).eraseDups

/-- The first core and queue of a configuration that break R173 or R214: a base configuration with overlays on top. -/
def configBad (im : JobImage) (os : List Overlay) : Option (LPos × Nat) :=
  let cores := (configCores im os).map (fun p => (p, queuesAfter p (im.queuesAt p) os))
  match cores.findSome? (fun c => (queuesBad c.1.kind c.2 (creditQueueAt cores) (groupUnder im os)).map (fun n => (c.1, n))) with
  | some r => some r
  | none => (groupsBad im os).map (fun m => (m, 0xFF))

/-- The CONFIG payload (Table 13.6). -/
def configPayload (p : LPos) (q : Nat) : List Byte :=
  let c := coreAtPos 0 p.pos
  leBytes 1 p.lf ++ leBytes 2 (c.x % 96) ++ leBytes 2 (c.y % 128) ++ leBytes 1 q

/-! ### Loading a configuration onto a placement (spec/09 R225, R241, R253) -/

/-- EPOCH of a queue: that of the base configuration, advanced by 1 at every roll-back and at every RENEW of the queue
(R253 step 3, Table 9.9). -/
def Job.queueEpoch (j : Job) (at_ : LPos) (n : Nat) : BitVec 2 :=
  let base := ((j.image.cores.find? (fun c => c.at_ == at_)).bind (fun c => c.queues.find? (fun q => q.n == n))).map (fun q => q.d.epoch)
  base.getD 0 + BitVec.ofNat 2 (j.epochAdd + (j.renews.filter (fun r => r == (at_, n))).length)

/-- A descriptor with its credit target placed and its epoch in force. -/
def Job.placeDesc (j : Job) (at_ : LPos) (q : QImage) : QDesc :=
  let d := { q.d with epoch := j.queueEpoch at_ q.n }
  match q.target.bind j.place with
  | some c => if d.crgrp then d else { d with crx := BitVec.ofNat 10 c.x, cry := BitVec.ofNat 10 c.y }
  | none => d

/-- A word with the position of a placed core in DA[43:24] (R225). -/
def relocate (w : Word) (c : CoreId) : Word :=
  BitVec.ofNat 64 (w.toNat - nfld w.toNat 24 20 * 2 ^ 24 + packFields [(34, c.x), (24, c.y)])

/-- A word with the number of a placed field in DA[31:24] (R225). -/
def relocateFc (w : Word) (f : Nat) : Word := BitVec.ofNat 64 (w.toNat - nfld w.toNat 24 8 * 2 ^ 24 + f * 2 ^ 24)

/-- A listed word with the placed position of its target; as it stands where the target has no place. -/
def Job.relocTo (j : Job) (t : RelocTo) (w : Word) : Word :=
  match t with
  | .core p => ((j.place p).map (relocate w)).getD w
  | .fc lf => (((j.fields[lf]?).getD none).map (relocateFc w)).getD w

/-- Writes image or patch words, relocated where the list that goes with them says so. -/
def Job.writeWords (j : Job) (k : Kind) (at_ : LPos) (rs : List Reloc) (ws : List (Nat × Word)) (c : CoreState) : CoreState :=
  ws.foldl (fun c w =>
    let v := ((rs.find? (fun r => r.at_ == at_ && r.word == w.1)).map (fun r => j.relocTo r.target w.2)).getD w.2
    CoreState.write k c w.1 0xFF v false) c

/-- Proofing registers with the proofer and the voter placed. -/
def Job.placePrf (j : Job) (ci : CoreImage) : Prf :=
  let p := match ci.proofer.bind j.place with
    | some c => { ci.prf with px := BitVec.ofNat 10 c.x, py := BitVec.ofNat 10 c.y }
    | none => ci.prf
  match ci.voter.bind j.place with
  | some c => { p with vx := BitVec.ofNat 10 c.x, vy := BitVec.ofNat 10 c.y }
  | none => p

/-- Changes an overlay makes to a core as it is loaded. -/
def Job.applyChange (j : Job) (k : Kind) (rs : List Reloc) (x : CoreChange) (c : CoreState) : CoreState :=
  let c := x.queues.foldl (fun c q =>
    match q.2 with
    | .keep => c
    | .reset => CoreState.loadQueue k (c.setQ q.1.n {}) q.1.n { (c.qu q.1.n).d with state := 0 }
    | _ => CoreState.loadQueue k (c.setQ q.1.n {}) q.1.n (j.placeDesc x.at_ q.1)) c
  let c := j.writeWords k x.at_ rs x.patch c
  { c with
    part := x.part.getD c.part
    epoch := (x.epoch.map (· + BitVec.ofNat 2 j.epochAdd)).getD c.epoch
    entry := match x.action with
      | .reenter e => e
      | .resume => c.entry }

/-- One core's configuration in its washed core. DEDUCED (log 26): XPCFG.EPOCH advances with the descriptors' EPOCH. -/
def Job.loadCore (j : Job) (ci : CoreImage) (c : CoreState) : CoreState :=
  let k := ci.at_.kind
  let c := j.writeWords k ci.at_ j.image.relocs ci.words c
  let c := ci.queues.foldl (fun c q => CoreState.loadQueue k c q.n (j.placeDesc ci.at_ q)) c
  let c := { c with
    part := ci.part
    epoch := ci.epoch + BitVec.ofNat 2 j.epochAdd
    entry := ci.entry
    prf := j.placePrf ci
    sched := true }
  j.inForce.foldl (fun c o => (o.changes.filter (fun x => x.at_ == ci.at_)).foldl (fun c x => j.applyChange k o.relocs x c) c) c

/-- Loads every scheduled core of a job; a core whose wash failed is never scheduled (spec/05 R147). -/
def State.loadConfig (s : State) (j : Nat) : State :=
  let q := s.job j
  q.image.cores.foldl (fun s ci =>
    match q.place ci.at_ with
    | some c => if (s.core c).portClosed then s else s.setCore c (q.loadCore ci (s.core c))
    | none => s) s

/-- Carried state from the checkpoint area that LASTCKPT names (spec/09 R251, R253). -/
def State.loadCarried (s : State) (j : Nat) : State :=
  let q := s.job j
  let area := (q.lastCkpt / max 1 q.image.ckptSpacing) % 2
  if q.lastCkpt = 0 then s
  else
    q.image.ckptItems.foldl (fun s it =>
      match q.place it.at_ with
      | none => s
      | some c =>
        (List.range it.len).foldl (fun s i =>
          let off := (if area = 0 then it.off0 else it.off1) + 8 * i
          match q.region it.region it.stack with
          | none => s
          | some r =>
            let (s, d, p) := s.stackFetch it.stack ((r.off + off) / 8)
            s.modCore c (fun x => CoreState.write (coreKind c) x (it.word + i) 0xFF d p)) s) s

/-- Starts a core at its entry address (spec/03 R76, spec/04 R108, R113). -/
def CoreState.start (k : Kind) (c : CoreState) : CoreState :=
  match k with
  | .sx =>
    let t : Thread := { pc := BitVec.ofNat 15 (c.entry.toNat * 4), run := true }
    { c with stale := [], run := true, th := (Vector.replicate 4 ({} : Thread) : RegFile 2 Thread).set 0 t }
  | _ => { c with stale := [], run := true, halted := false, pc := c.entry }

/-- The scheduled cores of a job, as placed. -/
def State.schedCores (s : State) (j : Nat) : List CoreId :=
  ((s.job j).image.cores.filterMap (fun ci => (s.job j).place ci.at_)).filter (fun c => (s.core c).sched)

/-- Every core of the job starts (spec/09 R253 step 4). -/
def State.startCores (s : State) (j : Nat) : State :=
  (s.schedCores j).foldl (fun s c => s.modCore c (CoreState.start (coreKind c))) s

/-- Places a shape: working fields, then spares, on fields found by translation from an anchor (spec/09 R225); none for a field
that does not exist. -/
def placeShape (anchor : Nat) (offs : List (Int × Int)) : Option (List Nat) :=
  let a := fieldPos anchor
  offs.mapM (fun o =>
    let x := (a.1 : Int) + o.1
    let y := (a.2 : Int) + o.2
    if x < 0 ∨ y < 0 then none else fieldAt x.toNat y.toNat)

/-- Joins fields to a job's partition. -/
def State.joinFields (s : State) (j : Nat) (fs : List Nat) (spare : Bool) : State :=
  (fs.zipIdx).foldl (fun s e => s.modField e.1 (fun x => { x with job := some j, spare := spare, logical := e.2 })) s

/-! ### Exposures: readiness and the tree (spec/09 R232-R235) -/

/-- A core is done for the exposure (R232). -/
def State.coreDone (s : State) (c : CoreId) : Bool :=
  let x := s.core c
  !x.sched || !x.part || !s.inService c || x.done

/-- A field's READY: every core done, no core error before XPDONE, every sampled tile has its result (R232, R234). -/
def State.fieldReady (s : State) (j f : Nat) : Bool :=
  ((s.schedCores j).filter (fun c => coreField c == some f)).all (fun c => s.coreDone c) &&
    (s.field f).prfPend.all (fun p => decide ((s.job j).expNo < p.2.2))

/-- The tree shows READY for every field and a zero sum. DESIGN CHOICE (log 28): the tree's four ticks are timing. -/
def State.treeReady (s : State) (j : Nat) : Bool :=
  (s.job j).workFields.all (fun f => s.fieldReady j f) && s.deltaSum j == 0

/-- The reasons other than LATE and PAUSE that hold a develop point (Table 9.3). -/
def State.otherHold (s : State) (j : Nat) : Bool :=
  let q := s.job j
  q.holds.fault || q.holds.coreError || q.holds.test || !s.mod.tsPresent || s.mod.supply == .warning

/-- HOLDR (Table 9.3): the first applicable reason of a held develop point. -/
def State.holdr (s : State) (j : Nat) : Nat :=
  let q := s.job j
  if !q.held && q.state != .paused then 0
  else if q.holds.fault then 2
  else if q.holds.coreError then 3
  else if !s.mod.tsPresent then 5
  else if s.mod.supply == .warning || q.warnFrom.isSome then 4
  else if q.holds.test then 6
  else if q.holds.pause || q.pauseReq then 7
  else if q.held then 1
  else 0

/-! ### Publication (spec/09 R235, R236) -/

/-- Everything staged in one queue counts, in one cycle; a credit return above DEPTH raises Q_CREDIT (Table 9.2). -/
def State.publishQueue (s : State) (c : CoreId) (n : Nat) : State :=
  let q := (s.core c).qu n
  if q.isCredit then
    if q.stgCredits = 0 then s
    else if q.depth < q.count + q.stgCredits then
      (s.modCore c (fun x => x.setQ n { x.qu n with stgCredits := 0 })).failAt c eQCredit n none
    else s.modCore c (fun x => x.setQ n { x.qu n with count := q.count + q.stgCredits, stgCredits := 0, acc := satAdd q.acc q.stgCredits })
  else
    s.modCore c (fun x => x.setQ n (Queue.recount { x.qu n with
      rsv := q.rsv.map (fun r => { r with staged := false })
      slots := q.slots.map (fun e => (e.1, { e.2 with staged := false })) }))

/-- Publishes every queue of a core; commits still waiting count as they land. -/
def State.publishCore (s : State) (c : CoreId) : State :=
  let s := (List.range 16).foldl (fun s n => s.publishQueue c n) s
  s.modCore c (fun x => { x with rows := x.rows.map (fun r => { r with staged := false }) })

/-- Publishes a job's staged counts. -/
def State.publish (s : State) (j : Nat) : State := (s.schedCores j).foldl (fun s c => s.publishCore c) s

/-- Held packets and credit returns of a core leave, and its waiting threads become ready (R235). -/
def State.releaseHeld (s : State) (c : CoreId) : State :=
  let x := s.core c
  let (n, s) := s.draw
  let y := { x with
    done := false
    held := []
    credHold := Vector.replicate 16 0
    xphWait := if x.heldAny then satAdd x.xphWait (Config.stallCycles n).toNat else x.xphWait
    th := x.th.map (fun t => if t.wait == .held then { t with wait := .none } else t) }
  let s := s.setCore c y
  let s := x.held.foldl (fun s h => s.handCore c h.1 h.2) s
  (List.range 16).foldl (fun s q => s.creditReturn c q (x.credHold.get (BitVec.ofNat 4 q))) s

/-! ### The input log (spec/09 R254) -/

/-- Bytes the log of one die takes: its packets. -/
def Job.logBytes (q : Job) (d : Port) : Nat :=
  ((q.log.filter (fun e => e.die == d)).map (fun e => 8 * (e.pkt.pay.length + 2))).foldl (· + ·) 0

/-- A die sends a counted packet into a partition and logs it with its logical destination. -/
def State.dieSend (s : State) (d : Port) (p : Packet) (dest : Option LPos) (log : Bool) : State :=
  let s := s.send (.die d) p
  if log && p.counted then
    s.modJob p.slot (fun q => { q with log := q.log ++ [{ expo := q.expNo, die := d, pkt := p, dest := dest }] })
  else s

/-- A logged packet sent again: its placement and the queue's epoch now in force (R254, R310, R313). -/
def State.replayOne (s : State) (j : Nat) (e : LogEntry) : State :=
  let p := e.pkt
  match e.dest.bind (s.job j).place with
  | some c =>
    let da := daCore c (nfld p.da 0 16)
    let h := p.h1.toNat - p.da + da
    let ep := if p.ptype = pQsend then ((s.core c).qu p.qid).d.epoch else p.epoch
    s.send (.die e.die) { p with dx := c.x, dy := c.y, h1 := BitVec.ofNat 64 h, epoch := ep, slot := j, counted := true }
  | none => s

/-- Replays the log of one exposure: WRITEs and QSENDs in log order. -/
def State.replay (s : State) (j : Nat) : State :=
  let q := s.job j
  match q.replayTo with
  | none => s
  | some last =>
    if last < q.expNo then s.modJob j (fun x => { x with replayTo := none })
    else (q.log.filter (fun e => e.expo == q.expNo && e.pkt.ptype != pRdata)).foldl (fun s e => s.replayOne j e) s

/-! ### Beginning an exposure -/

/-- Exposure `n` of a job begins at TICK now: EXPNO, schedule, per-exposure notes, kept commands that wait for it
(spec/09 R228; Tables 13.9, 13.11 RESUME, WAIT_EXP). -/
def State.beginExposure (s : State) (j n : Nat) : State :=
  let t := s.now
  let s := s.modJob j (fun q => { q with
    expNo := n
    begin_ := t
    sched := t + q.expLen
    held := false
    lateTicks := 0
    waitAll := []
    warnFrom := none
    poisonAt := if q.replayTo.isSome then q.poisonAt else [] })
  let s := (s.job j).allFields.foldl (fun s f => s.modField f (fun x => { x with nakNoted := false, gated := false })) s
  let s := (s.schedCores j).foldl (fun s c => s.modCore c (fun x => { x with xpZero := false })) s
  let s := s.completeIf (fun e => e.started && e.opcode == 0x204 && e.p 0 1 == j) stOk (fun _ _ => [])
  let s := s.completeIf (fun e => e.started && e.opcode == 0x302 && e.p 0 1 == j && decide (e.p 8 8 ≤ n)) stOk
    (fun s _ => leBytes 8 (s.job j).lastDev ++ leBytes 8 n)
  s.replay j

end Sys2Proof.Machine
end

