-- ==== Sys2Proof/Machine/FcRegs.lean ====
section
/-! DEFINITION. The field controllers' register space (spec/12 R492): what each offset reads and what a clearing read clears
(spec/08 Table 8.13, spec/09 Table 9.11, spec/13 Table 13.10, spec/14 Table 14.6, spec/15 Table 15.11). -/

namespace Sys2Proof.Machine

/-- Hub registers of a field's hub group (Table 8.13). -/
def State.readHub (s : State) (f hx hy off : Nat) : Option Nat :=
  let h := s.hub hx hy
  let x := s.field f
  let tab (t : KMap (BitVec 32)) (i : Nat) : Option Nat := some (KMap.get 0 t i).toNat
  match off with
  | 0x000 => some (packFields [(0, b2n x.rtActive), (1, b2n x.rtArmed), (2, h.xdown.toNat), (6, h.attDown.toNat),
      (10, b2n (s.hubOut hx hy)), (11, min 32 (h.cmb.filter (fun c => !c.waiters.isEmpty)).length)])
  | 0x008 => some h.cmbCount.toNat
  | 0x010 => some h.fwd.toNat
  | 0x018 => some h.rpl.toNat
  | _ =>
    if off % 8 ≠ 0 then none
    else if 0x100 ≤ off ∧ off < 0x180 then tab h.exA ((off - 0x100) / 8)
    else if 0x180 ≤ off ∧ off < 0x200 then tab h.exS ((off - 0x180) / 8)
    else if 0x200 ≤ off ∧ off < 0x400 then tab h.fkA ((off - 0x200) / 8)
    else if 0x400 ≤ off ∧ off < 0x600 then tab h.fkS ((off - 0x400) / 8)
    else none

/-- Exposure registers (Table 9.11); `latch` is the XPTICKHI latch of the reader's path: 0 port A, 1 port B, 2 on-wafer. -/
def State.readFieldXp (s : State) (f latch off : Nat) : Option Nat :=
  let x := s.field f
  let slot := x.job
  let member := slot.isSome
  let k := (slot.map (fun j => (s.job j).xpKept)).getD x.kept
  match off with
  | 0x1000 => some (x.tick.toNat % 2 ^ 32)
  | 0x1008 => some (tget 0 x.tickHi latch).toNat
  | 0x1010 => some (packFields [(0, slot.getD 0), (4, b2n member), (5, b2n x.spare), (6, x.logical)])
  | 0x1018 => some (k.lenm1 % 2 ^ 16)
  | 0x1020 => some (k.holdMax % 2 ^ 20)
  | 0x1028 => some (k.expNo % 2 ^ 32)
  | 0x1030 => some (k.expNo / 2 ^ 32 % 2 ^ 16)
  | 0x1038 => some (k.sched % 2 ^ 32)
  | 0x1040 => some (k.lastDev % 2 ^ 32)
  | 0x1048 =>
    match slot with
    | some j => some (packFields [(0, b2n (s.fieldReady j f)), (1, b2n (s.treeReady j)), (2, s.holdr j)])
    | none => some 0
  | 0x1050 => some ((slot.map (fun j => (tget 0 x.delta j).toNat)).getD 0)
  | 0x1058 => some x.xpHolds.toNat
  | 0x1060 => some x.xpHTicks.toNat
  | 0x1068 => some x.xpSafe.toNat
  | 0x1070 => some (k.lastCkpt % 2 ^ 32)
  | 0x1F00 => some 0
  | _ => none

/-- Clock, power and thermal registers (Table 14.6); FMOD reads the same in every field controller. -/
def State.readFieldPower (s : State) (f off : Nat) : Option Nat :=
  let x := s.field f
  let m := s.mod
  match off with
  | 0x2000 => some (packFields [(0, x.clkSet), (8, x.clkEff), (13, x.clkLimit), (16, b2n x.lock), (17, b2n x.run), (18, b2n x.gated)])
  | 0x2008 => some (packFields [(0, x.power), (2, b2n x.swOpen), (3, x.cause), (6, b2n x.tstop), (7, b2n x.lockout), (16, x.vcore.toNat)])
  | 0x2010 => some (packFields [(0, x.amps.toNat), (16, x.watts.toNat)])
  | 0x2018 => some (packFields [(0, x.tempMax.toNat), (8, x.tempHg), (16, x.tempPeak.toNat)])
  | 0x2020 => some (packFields [(0, x.grant.toNat), (16, x.base.toNat)])
  | 0x2028 => some x.fthr.toNat
  | 0x2030 => some x.fgate.toNat
  | 0x2038 => some (packFields [(0, m.tsrc.num), (1, b2n m.tsPresent), (2, b2n m.fallback), (3, b2n (m.supply == .warning)),
      (4, b2n m.coolantOk), (5, b2n m.capOver), (6, m.stbySrc), (16, m.cap / 100)])
  | _ => none

/-- In-service entries of a field other than 0b00 (Table 15.11 FFENCE). -/
def State.fenceCount (s : State) (f : Nat) : Nat :=
  (s.service.filter (fun e => coreField (coreOfKey e.1) == some f && e.2 ≠ 0)).length

/-- The drain of R401 is in force (spec/15 R401). -/
def State.drain (s : State) : Bool := s.mod.replace && s.mod.policy == 0

/-- Reliability registers (Table 15.11); FREL reads the same in every field controller. -/
def State.readFieldRel (s : State) (f off : Nat) : Option Nat :=
  let x := s.field f
  match off with
  | 0x3000 => some x.errCe.toNat
  | 0x3008 => some x.errUe.toNat
  | 0x3010 => some x.pois.toNat
  | 0x3018 => some x.prfS.toNat
  | 0x3020 => some x.prfM.toNat
  | 0x3028 => some (packFields [(0, x.voteX.toNat), (10, x.voteY.toNat), (20, b2n x.voteFaulty), (21, b2n x.voteValid)])
  | 0x3030 => some (packFields [(0, x.testDue.length), (6, b2n x.testDefer), (7, b2n x.testFail), (8, x.testHg)])
  | 0x3038 => some x.testTick.toNat
  | 0x3040 => some (s.fenceCount f)
  | 0x3048 => some (packFields ([(0, b2n s.mod.replace), (1, b2n s.drain), (2, s.mod.policy),
      (19, b2n (s.stk.toList.any (fun k => k.rebuild.isSome && !k.lost)))] ++ s.lostStacks.map (fun n => (3 + n, 1))))
  | _ => none

/-- A register of a field controller; none at a reserved offset (spec/12 R492). -/
def State.readFcReg (s : State) (f latch off : Nat) : Option Nat :=
  if 60 ≤ f then none
  else if off < 0x2000 then s.readFieldXp f latch off
  else if off < 0x3000 then s.readFieldPower f off
  else if off < 0x8000 then s.readFieldRel f off
  else if off < 0x20000 then
    let h := (off - 0x8000) / 0x800
    if h < 48 then s.readHub f (hubOf f h).1 (hubOf f h).2 (off % 0x800) else none
  else none

/-- A read of XPTICKLO loads its path's latch with TICK bits [63:32] (spec/09 R259). -/
def State.latchTick (s : State) (f latch : Nat) : State :=
  s.modField f (fun x => { x with tickHi := tset x.tickHi latch (x.tick.extractLsb' 32 32) })

/-- Clears the RC field at an offset of a field controller (spec/00 R13). -/
def State.clearFcReg (s : State) (f off : Nat) : State :=
  match off with
  | 0x1058 => s.modField f (fun x => { x with xpHolds := 0 })
  | 0x1060 => s.modField f (fun x => { x with xpHTicks := 0 })
  | 0x1068 => s.modField f (fun x => { x with xpSafe := 0 })
  | 0x2018 => s.modField f (fun x => { x with tempPeak := 0x80 })
  | 0x2028 => s.modField f (fun x => { x with fthr := 0 })
  | 0x2030 => s.modField f (fun x => { x with fgate := 0 })
  | 0x3000 => s.modField f (fun x => { x with errCe := 0 })
  | 0x3008 => s.modField f (fun x => { x with errUe := 0 })
  | 0x3010 => s.modField f (fun x => { x with pois := 0 })
  | 0x3018 => s.modField f (fun x => { x with prfS := 0 })
  | 0x3020 => s.modField f (fun x => { x with prfM := 0 })
  | _ =>
    let h := (off - 0x8000) / 0x800
    if off < 0x8000 ∨ 48 ≤ h then s
    else
      let p := hubOf f h
      let r := s.hub p.1 p.2
      match off % 0x800 with
      | 0x008 => s.setHub p.1 p.2 { r with cmbCount := 0 }
      | 0x010 => s.setHub p.1 p.2 { r with fwd := 0 }
      | 0x018 => s.setHub p.1 p.2 { r with rpl := 0 }
      | _ => s

/-- One register word as a read of a path takes it, with the latch it loads. -/
def State.fcRead (s : State) (f latch off : Nat) : State × Option Nat :=
  let v := s.readFcReg f latch off
  (if off = 0x1000 ∧ v.isSome then s.latchTick f latch else s, v)

end Sys2Proof.Machine
end

