-- ==== Sys2Proof/Machine/SpadEvents.lean ====
section
/-! DEFINITION. Events of the scratchpad and the pot unit: row commits, rewrites, the patrol scrub, washes and core resets
(spec/05 R133-R147, spec/07 R186, spec/16 R420). -/

namespace Sys2Proof.Machine

/-- The clock of a core's field runs and is not gated. -/
def State.clockedAt (s : State) (c : CoreId) : Bool := ((coreField c).map (fun f => (s.field f).clocked)).getD false

/-- INBOUND_COMMIT: the oldest row that waits is granted (spec/05 R133). A send to a steering or waiting queue counts by R169.
DESIGN CHOICE (log 9): the beat-cycles it was refused are a free count in SPWAIT. -/
def State.inboundCommit (s : State) (c : CoreId) : State :=
  if s.clockedAt c && (s.core c).rows.any (fun r => !r.isPot) then
    (s.countWait c).modCore c (fun x => x.commitRow (coreKind c))
  else s

def execInboundCommit (c : CoreId) (s : State) : Out := .next (s.inboundCommit c)

/-- A bank's pending rewrite lands (spec/05 R140). -/
def CoreState.landRewrite (x : CoreState) (bank : Nat) : CoreState :=
  if KMap.has x.rewrites bank then
    let e := KMap.get (0, 0) x.rewrites bank
    { x with
      mem := KMap.set 0 x.mem e.1 e.2
      rewrites := KMap.del x.rewrites bank }
  else x

/-- CORRECTION_REWRITE: the pending rewrite of a bank lands. -/
def execCorrectionRewrite (c : CoreId) (bank : Nat) (s : State) : Out :=
  .next (if s.clockedAt c then s.modCore c (fun x => x.landRewrite bank) else s)

/-- One patrol read of every bank, at the next row (spec/05 R141). -/
def CoreState.patrol (k : Kind) (x : CoreState) : CoreState :=
  let row := x.sp.scrubRow
  let x := x.noteReads k 3 ((List.range k.banks).map (fun b => row * k.banks + b))
  { x with sp := { x.sp with scrubRow := (row + 1) % k.rows } }

/-- PATROL_SCRUB: while SPSCRUB.EN = 1 and the core's clock runs. -/
def execPatrolScrub (c : CoreId) (s : State) : Out :=
  .next (if s.clockedAt c && (s.core c).sp.scrubEn then s.modCore c (fun x => x.patrol (coreKind c)) else s)

/-- A core of a running job is not washed alone; a field in no partition or a stopped partition is (spec/16 Table 16.1). -/
def State.washAllowed (s : State) (c : CoreId) : Bool :=
  match coreField c with
  | none => false
  | some f => (s.field f).run && (s.field f).power == 0 && (s.fieldJob f).isNone

/-- WASH: a core of a field in no partition is washed; `stuck` are words that fail (spec/05 R144-R147). The washes of a
partition, field or start are part of those events. -/
def execWash (c : CoreId) (stuck : List (Nat × Code)) (s : State) : Out :=
  .next (if s.washAllowed c then s.washCore c stuck else s)

/-- A core after a core reset: its words, SPSTAT.WASHFAIL with its closed port, and its being scheduled stay (R420). XPNO is 0 until
the next exposure (spec/09 R258). DESIGN CHOICE (log 75): rows that wait for their commit and pending rewrites are dropped. -/
def CoreState.resetCore (x : CoreState) : CoreState :=
  { mem := x.mem
    xpZero := true
    portClosed := x.portClosed
    sched := x.sched
    sp := { washFail := x.sp.washFail } }

/-- A core reset (spec/16 R420). -/
def State.coreReset (s : State) (c : CoreId) : State := s.modCore c CoreState.resetCore

/-- Where a core reset of its own occurs: after an in-field test outside any partition, or in a safelight interval that set
XPCFG.PART to 0 (spec/16 Table 16.1). -/
def State.resetAllowed (s : State) (c : CoreId) : Bool :=
  match coreField c with
  | none => false
  | some f =>
    match s.fieldJob f with
    | none => (s.field f).power == 0
    | some j => (s.job j).inSafelight && !(s.core c).part

/-- CORE_RESET. -/
def execCoreReset (c : CoreId) (s : State) : Out := .next (if s.resetAllowed c then s.coreReset c else s)

/-- POT_COMBINE: the pot unit takes its oldest contribution (spec/07 R186). -/
def execPotCombine (c : CoreId) (s : State) : Out := .next (if s.clockedAt c then s.potCombine c else s)

/-- POT_IDENTITY_WRITE: the oldest released slot of a pot gets its identity (spec/07 R186). -/
def execPotIdentityWrite (c : CoreId) (q : Nat) (s : State) : Out :=
  .next (if s.clockedAt c && decide (q < 16) then s.modCore c (fun x => x.identityWrite (coreKind c) q) else s)

end Sys2Proof.Machine
end

