-- ==== Sys2Proof/Machine/NetEvents.lean ====
section
/-! DEFINITION. Arrivals at cores, field controllers and companion dies, combining, links and route tables (spec/08,
spec/05 R126, R139, spec/07 R175, spec/12 R319-R322, R495, spec/13 R352). -/

namespace Sys2Proof.Machine

/-! ### JOBACK (spec/13 R352, Table 13.10) -/

/-- The kernel's answer to an input: OK for reason 0, otherwise INPUT_REFUSED with the reason. -/
def State.answerInput (s : State) (j num reason : Nat) : State :=
  match (s.job j).inputs.find? (fun x => x.num == num) with
  | none => s
  | some x =>
    let s := s.modJob j (fun q => { q with inputs := q.inputs.filter (fun y => y.num ≠ num) })
    match s.entry x.entry with
    | some e => s.complete e (if reason = 0 then stOk else stInputRefused) (leBytes 2 reason)
    | none => s

/-- A write of JOBACK in a field's controller by a core: ignored from outside the field's partition. -/
def State.joback (s : State) (f : Nat) (c : CoreId) (v : Word) : State :=
  match s.fieldJob f with
  | some j => if s.coreJob c = some j then s.answerInput j (nfld v.toNat 0 32) (nfld v.toNat 32 16) else s
  | none => s

/-! ### Writes (spec/05 R126, spec/08 R206, spec/12 R495) -/

/-- A refusal by a field controller. DESIGN CHOICE (log 29): its refusing point is that of its first hub group, and its NAK carries
the packet's epoch. -/
def State.fcRefuse (s : State) (f : Nat) (p : Packet) (reason words : Nat) : State :=
  let h := hubOf f 0
  let c := hubPoint h.1 h.2
  s.refuseAt p (.field f) c.x c.y p.epoch reason words

/-- A WRITE at a field controller: only JOBACK is applied; every other word is refused as UNMAPPED. -/
def State.fcWrite (s : State) (p : Packet) : State :=
  let f := p.dx
  if !p.wellFormed then s.fcRefuse f p nakMalformed p.len
  else if nfld p.da 44 4 = 3 ∧ nfld p.da 0 17 = 0x1F00 ∧ p.len = 1 then
    match p.srcCore, p.pay with
    | some c, w :: _ => (s.takeOff (.field f) p).joback f c w.1
    | _, _ => s.fcRefuse f p nakUnmapped p.len
  else s.fcRefuse f p nakUnmapped p.len

/-- A WRITE at a core: scratchpad words only (spec/12 R495). -/
def State.coreWrite (s : State) (p : Packet) : State :=
  let c := p.dstCore
  match s.coreRefusal c p with
  | some r => s.coreRefuse c p r p.len
  | none => if daDest p.da = some (0, c.x, c.y) ∧ nfld p.da 44 4 = 0 then s.writeIn c p else s.coreRefuse c p nakUnmapped p.len

/-- WRITE_ARRIVAL: the `k`-th packet in flight reaches a core or a field controller. -/
def execWriteArrival (k : Nat) (s : State) : Out :=
  .next (s.arrive k [pWrite] [0, 3] (fun s p => if p.dkind = 0 then s.coreWrite p else s.fcWrite p))

/-- JOBACK: a core's answer `v` reaches the field controller it was written to (spec/13 R352). -/
def State.jobackArrives (s : State) (c : CoreId) (v : Word) : State :=
  match s.net.findIdx? (fun p => p.ptype == pWrite && p.dkind == 3 && p.srcCore == some c && nfld p.da 0 17 == 0x1F00 &&
      (p.pay.head?.map (·.1)) == some v) with
  | some k => s.arrive k [pWrite] [3] (fun s p => s.fcWrite p)
  | none => s

def execJoback (c : CoreId) (v : Word) (s : State) : Out := .next (s.jobackArrives c v)

/-! ### Queue sends and credits (spec/07) -/

/-- A queue send or credit return at a core, in the order of R491. -/
def State.coreQueue (s : State) (p : Packet) (f : State → CoreId → Packet → State) : State :=
  let c := p.dstCore
  match s.coreRefusal c p with
  | some r => s.coreRefuse c p r (if p.ptype = pCredit then 0 else p.len)
  | none => if p.daBad then s.coreRefuse c p nakUnmapped p.len else f s c p

/-- QSEND_ARRIVAL. -/
def execQsendArrival (k : Nat) (s : State) : Out :=
  .next (s.arrive k [pQsend] [0] (fun s p => s.coreQueue p (fun s c p => s.queueIn c p false)))

/-- CREDIT_ARRIVAL. -/
def execCreditArrival (k : Nat) (s : State) : Out :=
  .next (s.arrive k [pCredit] [0] (fun s p => s.coreQueue p State.creditIn))

/-! ### Remote reads (spec/08 R216, spec/05 R126, R139, spec/12 R319) -/

/-- A scratchpad word as an inbound read delivers it: none outside the mapped offsets. -/
def State.peekPad (s : State) (c : CoreId) (w : Nat) : Option (Word × Bool) :=
  if (coreKind c).words ≤ w then none else some ((s.core c).data w, (s.core c).poisoned w)

/-- An inbound read of a scratchpad word, with what it records (spec/05 R139). -/
def State.readPad (s : State) (c : CoreId) (w : Nat) : State × Option (Word × Bool) :=
  if (coreKind c).words ≤ w then (s, none)
  else (s.setCore c (CoreState.noteRead (coreKind c) 1 (s.core c) w), s.peekPad c w)

/-- A word of a core's control register block as a host's read delivers it, which changes nothing (spec/07 R178, spec/12 R305). -/
def State.peekBlock (s : State) (c : CoreId) (off : Nat) : Option (Word × Bool) :=
  if isView off then
    match (s.core c).viewWord off with
    | some w => s.peekPad c w
    | none => some (0, false)
  else (s.readCoreReg c off).map (fun v => (BitVec.ofNat 64 v, false))

/-- A word of a core's control register block as an inbound read delivers it: a head view reads the scratchpad. -/
def State.readBlock (s : State) (c : CoreId) (off : Nat) : State × Option (Word × Bool) :=
  if isView off then
    match (s.core c).viewWord off with
    | some w => s.readPad c w
    | none => (s, some (0, false))
  else (s, s.peekBlock c off)

/-- Reads words one after the other. -/
def readRun (s : State) (f : State → Nat → State × Option (Word × Bool)) : List Nat → State × List (Option (Word × Bool))
  | [] => (s, [])
  | i :: t =>
    let (s, v) := f s i
    let (s, vs) := readRun s f t
    (s, v :: vs)

/-- Answers a READ: one NAK for the refused words, if any, and one RDATA with them poisoned (spec/08 R206, R208). -/
def State.answerRead (s : State) (e : NetEnd) (p : Packet) (sx sy : Nat) (epoch : BitVec 2) (vs : List (Option (Word × Bool))) : State :=
  let bad := (vs.filter (·.isNone)).length
  let s := s.takeOff e p
  let s := if bad = 0 then s else s.send e (p.nak sx sy epoch nakUnmapped bad)
  s.send e (p.rdata sx sy epoch (vs.map (fun v => v.getD (0, true))))

/-- A READ at a core: its scratchpad or its register block. A READ from a companion die waits for the commits of earlier
packets from that die (spec/12 R319). -/
def State.coreRead (s : State) (p : Packet) : State :=
  let c := p.dstCore
  match s.coreRefusal c p with
  | some r => s.coreRefuse c p r p.len
  | none =>
    let e := posEnd c
    let serve (f : State → Nat → State × Option (Word × Bool)) : State :=
      let (s, vs) := readRun s f (List.range p.len)
      let s := if vs.any (·.isNone) then s.modCore c CoreState.setUnmap else s
      s.answerRead e p c.x c.y (s.core c).epoch vs
    if daDest p.da ≠ some (0, c.x, c.y) then s.coreRefuse c p nakUnmapped p.len
    else if nfld p.da 44 4 = 2 then serve (fun s i => s.readBlock c (nfld p.da 0 13 + 8 * i))
    else serve (fun s i => s.readPad c (nfld p.da 0 16 / 8 + i))

/-- XPTICKHI latch of a reader: a port's view or CTLDATA uses the port's, a core the on-wafer one (spec/09 R259). -/
def Packet.latch (p : Packet) : Nat :=
  match p.srcEnd with
  | some (.die d) => d.num
  | _ => 2

/-- A READ at a field controller. DEDUCED (log 29): its RDATA carries the READ's epoch, as a stack controller's does. -/
def State.fcReadAll (s : State) (p : Packet) : State :=
  let f := p.dx
  let h := hubOf f 0
  let c := hubPoint h.1 h.2
  if !p.wellFormed then s.fcRefuse f p nakMalformed p.len
  else if daDest p.da ≠ some (3, f, 0) then s.fcRefuse f p nakUnmapped p.len
  else
    let (s, vs) := readRun s (fun s i =>
      let (s, v) := s.fcRead f p.latch (nfld p.da 0 17 + 8 * i)
      (s, v.map (fun n => (BitVec.ofNat 64 n, false)))) (List.range p.len)
    s.answerRead (.field f) p c.x c.y p.epoch vs

/-- Whether commits of packets from a die still wait at a core (spec/12 R319). -/
def State.dieRowsWait (s : State) (p : Packet) : Bool :=
  decide (784 ≤ p.sx) && (s.core p.dstCore).rows.any (fun r => r.src.sx == p.sx)

/-- READ_ARRIVAL: a READ is served by a core or a field controller. -/
def State.readArrival (s : State) (k : Nat) : State :=
  match s.net[k]? with
  | some p =>
    if p.dkind = 0 ∧ s.dieRowsWait p then s
    else s.arrive k [pRead] [0, 3] (fun s p => if p.dkind = 0 then s.coreRead p else s.fcReadAll p)
  | none => s

def execReadArrival (k : Nat) (s : State) : Out := .next (s.readArrival k)

/-! ### RDATA (spec/08 R216, R217, spec/12 R320-R322) -/

/-- RDATA at a core: a queue send under RQ, otherwise a write (spec/08 R216). -/
def State.coreRdata (s : State) (p : Packet) : State :=
  let c := p.dstCore
  match s.coreRefusal c p with
  | some r => s.coreRefuse c p r p.len
  | none => if p.h1.getLsbD 48 then s.queueIn c p false else s.writeIn c p

/-- Counts a NAK or a poisoned fence reply of a window (Table 12.10 WINNAK). -/
def State.winNaked (s : State) (p : Port) (w : Nat) : State :=
  s.modPort p (fun x => { x with winNak := tmod x.winNak w sat1 })

/-- An inbound read whose parts have all returned completes (spec/12 R320, R321). -/
def PortState.finishReads (x : PortState) : PortState :=
  match x.inReads.find? (fun r => r.parts.all (fun q => q.2.isSome)) with
  | none => x
  | some r =>
    PortState.send { x with inReads := x.inReads.filter (fun y => y.tag ≠ r.tag) }
      (.cpl r.tag .sc (r.parts.flatMap (fun q => q.2.getD [])))

/-- RDATA at a companion die: a fence reply, or a part of an inbound read; late RDATA is discarded (spec/12 R320, R322).
DEDUCED (log 32): a refused fence READ counts once in WINNAK, with its poisoned reply. -/
def State.dieRdata (s : State) (d : Port) (p : Packet) : State :=
  let s := s.takeOff (.die d) p
  match (s.port d).await.find? (fun a => a.1 == p.tag) with
  | some (_, .fence port w) =>
    let s := s.modPort d (fun x => { x with await := x.await.filter (fun a => a.1 ≠ p.tag) })
    if p.pay.any (·.2) then s.winNaked port w else s
  | _ =>
    s.modPort d (fun x => PortState.finishReads
      { x with inReads := x.inReads.map (fun r =>
          { r with parts := r.parts.map (fun q => if q.1 = p.tag then (q.1, some p.pay) else q) }) })

/-- RDATA_ARRIVAL. -/
def execRdataArrival (k : Nat) (s : State) : Out :=
  .next (s.arrive k [pRdata] [0, 2] (fun s p =>
    if p.dkind = 0 then s.coreRdata p else s.dieRdata (Port.ofNum p.dx) p))

/-! ### NAKs (spec/08 R207, spec/07 R175, spec/13 R352) -/

/-- QNAKCNT and QNAKLOG: the first since the last clear (spec/07 R175). -/
def CoreState.noteQnak (x : CoreState) (p : Packet) : CoreState :=
  let x := { x with qnakCnt := sat1 x.qnakCnt }
  if x.qnakValid then x
  else
    { x with
      qnakReason := p.h1.extractLsb' 0 3
      qnakQueue := p.h1.extractLsb' 4 4
      qnakX := BitVec.ofNat 10 p.sx
      qnakY := BitVec.ofNat 10 p.sy
      qnakValid := true }

/-- NETNAK and NETLOG (spec/08 R207). -/
def CoreState.noteNak (x : CoreState) (p : Packet) : CoreState :=
  let x := { x with netNak := sat1 x.netNak }
  if x.netValid then x
  else
    { x with
      netReason := p.h1.extractLsb' 0 4
      netX := BitVec.ofNat 10 p.sx
      netY := BitVec.ofNat 10 p.sy
      netValid := true }

/-- The first NAK of reasons 8-12 in a field and exposure writes a NET_NAK record (spec/08 R207). -/
def State.nakRecord (s : State) (f : Nat) (c : CoreId) (reason : Nat) : State :=
  if (s.field f).nakNoted then s
  else
    let s := s.modField f (fun x => { x with nakNoted := true })
    s.errorRecord { mkRec clsNetNak 0 3 with
      field := f
      job := (s.fieldJob f).getD 0xFF
      x := c.x
      y := c.y
      code := reason }

/-- A NAK at a core. A NAK refused by the core itself is taken off and dropped. -/
def State.coreNak (s : State) (p : Packet) : State :=
  let c := p.dstCore
  let reason := nfld p.h1.toNat 0 4
  let s := s.takeOff (posEnd c) p
  if (s.coreRefusal c p).isSome then s
  else if reason ≤ 5 then s.modCore c (fun x => x.noteQnak p)
  else (s.modCore c (fun x => x.noteNak p)).nakRecord ((coreField c).getD 0) c reason

/-- A NAK at a companion die: a window's packet, an input's QSEND, or a window's READ. Tags below 128 name the port and window
of a window write. -/
def State.dieNak (s : State) (d : Port) (p : Packet) : State :=
  let s := s.takeOff (.die d) p
  if p.tag < 128 then s.winNaked (Port.ofNum (p.tag / 64)) (p.tag % 64)
  else
    match (s.port d).await.find? (fun a => a.1 == p.tag) with
    | some (_, .input j num) =>
      let s := s.modPort d (fun x => { x with await := x.await.filter (fun a => a.1 ≠ p.tag) })
      s.answerInput j num (0xFF00 + nfld p.h1.toNat 0 4)
    | some _ => s
    | none =>
      match ((s.port d).inReads.find? (fun r => r.parts.any (fun q => q.1 == p.tag))).bind (fun r => r.win) with
      | some (port, w) => s.winNaked port w
      | none => s

/-- NAK_RECEIVE. -/
def execNakReceive (k : Nat) (s : State) : Out :=
  .next (s.arrive k [pNak] [0, 1, 2] (fun s p =>
    match p.dkind with
    | 0 => s.coreNak p
    | 1 => s.takeOff (.stack p.dx) p
    | _ => s.dieNak (Port.ofNum p.dx) p))

/-! ### NETRD (spec/08 R216) -/

/-- Who waits with a word the core's program writes to its own registers: its move engine (2, or 4 for SX). -/
def ownEngine (k : Kind) : Nat := if k = .sx then 4 else 2

/-- A core's program writes a word to its own register block (spec/12 R495). -/
def State.progWrite (s : State) (c : CoreId) (off : Nat) (v : Word) : State :=
  if s.coreRuns c && (s.core c).run then
    s.ownBlock c (ownEngine (coreKind c)) (packFields [(44, 2), (34, c.x), (24, c.y), (0, off)]) [(v, false)]
  else s

/-- NETRD1_WRITE: word 1 issues the READ. -/
def execNetrd1Write (c : CoreId) (v : Word) (s : State) : Out := .next (s.progWrite c 0xE48 v)

/-! ### Combining (spec/08 R217) -/

/-- Two READs of one address, length and partition. -/
def sameRead (a b : Packet) : Bool := a.da == b.da && a.len == b.len && a.slot == b.slot && a.dkind == b.dkind

/-- The exposure, of the hub's field, in which a READ reaches the hub (spec/09 R236). -/
def State.hubExpo (s : State) (hx hy : Nat) : Nat :=
  ((((fieldAt (hx / 6) (hy / 8)).bind s.fieldJob).map (fun j => (s.job j).expNo))).getD 0

/-- The READ and its RDATA both pass a hub. DEDUCED (log 30): only there can a READ wait for the RDATA of another. -/
def State.passes (s : State) (p : Packet) (hx hy : Nat) : Bool :=
  let back := match p.dkind with
    | 0 => p.rdata p.dx p.dy p.epoch []
    | 1 => p.rdata (768 + p.dx) 0 p.epoch []
    | _ => p.rdata (784 + p.dx) 0 p.epoch []
  (s.route p).hubs.contains (hx, hy) && (s.route back).hubs.contains (hx, hy)

/-- A READ passes a hub: it combines with an earlier one there, or takes its place as the one later READs combine with. -/
def State.hubRead (s : State) (k hx hy : Nat) : State :=
  match s.arriving k [pRead] [0, 1, 2] with
  | none => s
  | some p =>
    let h := s.hub hx hy
    if p.srcCore.isNone || !s.passes p hx hy || h.cmb.any (fun m => m.lead == p) then s
    else
      match h.cmb.find? (fun m => sameRead m.lead p && m.expo == s.hubExpo hx hy && decide (m.waiters.length < 64)) with
      | some m =>
        let used := (h.cmb.filter (fun x => !x.waiters.isEmpty)).length
        if !p.h1.getLsbD 62 || (m.waiters.isEmpty && decide (32 ≤ used)) then s
        else
          let cmb := h.cmb.map (fun x => if x = m then { x with waiters := x.waiters ++ [p] } else x)
          (s.dropNet k).setHub hx hy { h with cmb := cmb, cmbCount := sat1 h.cmbCount }
      | none => s.setHub hx hy { h with cmb := h.cmb ++ [{ lead := p, expo := s.hubExpo hx hy, waiters := [] }] }

/-- HUB_READ_COMBINE: the `k`-th packet, a READ, passes hub (hx, hy). -/
def execHubReadCombine (k hx hy : Nat) (s : State) : Out := .next (s.hubRead k hx hy)

/-! ### Links (spec/08 R198, R212, spec/15 Table 15.7) -/

/-- Marks a link down in both directions. -/
def State.markDown (s : State) (l : LinkId) : State :=
  let router (s : State) (x y d : Nat) : State :=
    let c : CoreId := { x := x, y := y }
    if (coreField c).isNone then s else s.setRouter c { s.router c with down := (s.router c).down ||| BitVec.ofNat 4 (2 ^ d) }
  let hub (s : State) (x y d : Nat) : State :=
    if (fieldAt (x / 6) (y / 8)).isNone then s else s.setHub x y { s.hub x y with xdown := (s.hub x y).xdown ||| BitVec.ofNat 4 (2 ^ d) }
  match l with
  | .fine c d =>
    let s := router s c.x c.y (d % 4)
    match stepDir c.x c.y (d % 4) with
    | some (x, y) => router s x y ((d + 2) % 4)
    | none => s
  | .attach c =>
    let hx := c.x / 16
    let hy := c.y / 16
    let s := s.setRouter c { s.router c with attDown := true }
    s.setHub hx hy { s.hub hx hy with attDown := (s.hub hx hy).attDown ||| BitVec.ofNat 4 (2 ^ attachNum c) }
  | .express hx hy d =>
    let s := hub s hx hy (d % 4)
    match stepDir hx hy (d % 4) with
    | some (x, y) => hub s x y ((d + 2) % 4)
    | none => s
  | .edge hx hy => s.setHub hx hy { s.hub hx hy with edgeDown := true }

/-- Fields at the two ends of a link. -/
def linkFields (l : LinkId) : List Nat :=
  let two (a b : Option Nat) : List Nat := match a, b with
    | some x, some y => if x = y then [x] else [x, y]
    | some x, none => [x]
    | none, some y => [y]
    | none, none => []
  match l with
  | .fine c d => two (coreField c) ((stepDir c.x c.y (d % 4)).bind (fun p => coreField { x := p.1, y := p.2 }))
  | .attach c => two (coreField c) none
  | .express hx hy d => two (fieldAt (hx / 6) (hy / 8)) ((stepDir hx hy (d % 4)).bind (fun p => fieldAt (p.1 / 6) (p.2 / 8)))
  | .edge hx hy => two (fieldAt (hx / 6) (hy / 8)) none

/-- Where a link's record points. -/
def linkPoint : LinkId → CoreId
  | .fine c _ => c
  | .attach c => c
  | .express hx hy _ => hubPoint hx hy
  | .edge hx hy => hubPoint hx hy

/-- The links a position or hub has: all down means that the router or the hub failed (Table 15.7). -/
def State.routerDead (s : State) (c : CoreId) : Bool :=
  (List.range 4).all (fun d => (s.router c).down.getLsbD d ||
    (((stepDir c.x c.y d).bind (fun p => coreField { x := p.1, y := p.2 }))).isNone)

def State.hubDead (s : State) (hx hy : Nat) : Bool :=
  (List.range 4).all (fun d => (s.hub hx hy).xdown.getLsbD d ||
    ((stepDir hx hy d).bind (fun p => fieldAt (p.1 / 6) (p.2 / 8))).isNone)

/-- A hub failed: it leaves service, and its field is at fault as for a dead core (Table 15.7). -/
def State.hubFailed (s : State) (hx hy : Nat) : State :=
  if s.hubOut hx hy then s
  else
    let s := (s.removeHub hx hy).applyGrade
    match fieldAt (hx / 6) (hy / 8) with
    | some f => (s.modField f (fun x => x.protect 6)).faultField f
    | none => s

/-- A router failed: its position is removed (Table 15.7). -/
def State.routerFailed (s : State) (c : CoreId) : State := if s.code c = 2 then s else s.deadCore c 2

/-- What a down link leads to: its partitions roll back in place; a router or hub with every link down has failed. -/
def State.linkFault (s : State) (l : LinkId) : State :=
  let s := (linkFields l).foldl (fun s f =>
    match s.fieldJob f with
    | some j => s.faultInPlace j
    | none => s) s
  match l with
  | .fine c d =>
    let s := if s.routerDead c then s.routerFailed c else s
    match (stepDir c.x c.y (d % 4)).map (fun p => (⟨p.1, p.2⟩ : CoreId)) with
    | some n => if (coreField n).isSome && s.routerDead n then s.routerFailed n else s
    | none => s
  | .express hx hy d =>
    let s := if s.hubDead hx hy then s.hubFailed hx hy else s
    match stepDir hx hy (d % 4) with
    | some (x, y) => if (fieldAt (x / 6) (y / 8)).isSome && s.hubDead x y then s.hubFailed x y else s
    | none => s
  | _ => s

/-- Hubs with an edge port: those a stack or a companion die is attached to (spec/01 R493, spec/08 R195). -/
def edgeHubs : List (Nat × Nat) :=
  (((List.range 16).map stackEdge) ++ [dieEdge .a, dieEdge .b]).map (fun e => hubOf e.1 e.2)

/-- The link exists (spec/08 R195). -/
def linkExists : LinkId → Bool
  | .fine c d => (coreField c).isSome && ((stepDir c.x c.y (d % 4)).bind (fun p => coreField { x := p.1, y := p.2 })).isSome
  | .attach c => (coreField c).isSome && centralOf c == c
  | .express hx hy d => (fieldAt (hx / 6) (hy / 8)).isSome && ((stepDir hx hy (d % 4)).bind (fun p => fieldAt (p.1 / 6) (p.2 / 8))).isSome
  | .edge hx hy => edgeHubs.contains (hx, hy)

/-- LINK_DOWN: a link fails after three replays. -/
def State.linkDown (s : State) (l : LinkId) : State :=
  if !(linkExists l) then s
  else
    let s := s.markDown l
    let f := (linkFields l).headD 0
    let s := s.errorRecord { mkRec clsLinkDown 2 3 with
      field := f
      job := (s.fieldJob f).getD 0xFF
      x := (linkPoint l).x
      y := (linkPoint l).y }
    s.linkFault l

def execLinkDown (l : LinkId) (s : State) : Out := .next (s.linkDown l)

/-- A point's count of the replays it asked for: LINKRPL or HUBRPL. -/
def State.countReplay (s : State) : At → State
  | .router c => s.setRouter c { s.router c with linkRpl := sat1 (s.router c).linkRpl }
  | .hub hx hy => s.setHub hx hy { s.hub hx hy with rpl := sat1 (s.hub hx hy).rpl }

/-- The receiver at an end of a link: the router or hub that names it, or `far`, the one at its other end. The far end of an edge
port is a stack controller or a companion die, which has no such register. -/
def linkEnd (l : LinkId) (far : Bool) : Option At :=
  match l with
  | .fine c d => if far then (stepDir c.x c.y (d % 4)).map (fun p => .router ⟨p.1, p.2⟩) else some (.router c)
  | .attach c => some (if far then .hub (c.x / 16) (c.y / 16) else .router c)
  | .express hx hy d => if far then (stepDir hx hy (d % 4)).map (fun p => .hub p.1 p.2) else some (.hub hx hy)
  | .edge hx hy => if far then none else some (.hub hx hy)

/-- FLIT_REPLAY: the receiver at an end of a link asks for a replay (spec/08 R198). -/
def State.flitReplay (s : State) (l : LinkId) (far : Bool) : State :=
  if !(linkExists l) then s
  else
    match linkEnd l far with
    | some a => s.countReplay a
    | none => s

def execFlitReplay (l : LinkId) (far : Bool) (s : State) : Out := .next (s.flitReplay l far)

/-! ### Route tables (spec/08 R204, R211) -/

/-- Table entries as a map; entries of zero are not in use. -/
def tableOf (n : Nat) (l : List (BitVec 32)) : KMap (BitVec 32) :=
  ((l.take n).zipIdx).foldl (fun m e => KMap.set 0 m e.2 e.1) []

/-- The route builder writes the shadow tables of a router or hub of a field. -/
def State.writeShadow (s : State) (f : Nat) (t : Tables) : State :=
  match t with
  | .router c ex fk =>
    if coreField c = some f then s.setRouter c { s.router c with exS := tableOf 8 ex, fkS := tableOf 16 fk } else s
  | .hub hx hy ex fk =>
    if fieldAt (hx / 6) (hy / 8) = some f then s.setHub hx hy { s.hub hx hy with exS := tableOf 16 ex, fkS := tableOf 64 fk } else s

/-- The shadow tables of a field emptied before the builder writes them. -/
def State.clearShadows (s : State) (f : Nat) : State :=
  { s with
    routers := KMap.mapIf (fun k => coreField (coreOfKey k) == some f) (fun _ r => { r with exS := [], fkS := [] }) s.routers
    hubs := KMap.mapIf (fun k => fieldAt (k % 48 / 6) (k / 48 / 8) == some f) (fun _ h => { h with exS := [], fkS := [] }) s.hubs }

/-- Fields that are stopped or gone, which the tables their neighbours build treat as missing (R213). -/
def State.stoppedFields (s : State) : List Nat := (List.range 60).filter (fun g => !s.fieldOk g)

/-- Every router and hub of a field exchanges its tables; what was held from injection enters (R211 steps 3, 4). -/
def State.swapTables (s : State) (f : Nat) : State :=
  let s := { s with
    routers := KMap.mapIf (fun k => coreField (coreOfKey k) == some f)
      (fun _ r => { r with exA := r.exS, exS := r.exA, fkA := r.fkS, fkS := r.fkA }) s.routers
    hubs := KMap.mapIf (fun k => fieldAt (k % 48 / 6) (k / 48 / 8) == some f)
      (fun _ h => { h with exA := h.exS, exS := h.exA, fkA := h.fkS, fkS := h.fkA }) s.hubs
    net := s.net.map (fun p => if s.entryField p = some f then { p with out := false } else p) }
  s.modField f (fun x => { x with rtActive := !x.rtActive, rtArmed := false, rtHeld := false, rtMissing := x.rtMissArmed })

/-- Header cycles of a hop at 600 MHz (spec/08 Table 8.8): fine 4, express 2, between a router and a hub 4, a field boundary 2. -/
def hopCycles (a b : At) : Nat :=
  (match a, b with
    | .hub _ _, .hub _ _ => 2
    | _, _ => 4) + (if a.field = b.field then 0 else 2)

/-- Header cycles of a path. -/
def pathCycles : List At → Nat
  | a :: b :: t => hopCycles a b + pathCycles (b :: t)
  | _ => 0

/-- Cycles of the route without a detour between the central routers (8, 8) of two hub groups (Table 8.8). -/
def plainCycles (a b : Nat × Nat) : Nat :=
  let dist (m n : Nat) : Nat := (m - n) + (n - m)
  8 + 2 * (dist a.1 b.1 + dist a.2 b.2) + 2 * (dist (a.1 / 6) (b.1 / 6) + dist (a.2 / 8) (b.2 / 8))

/-- A route between two hub groups needs more than the allowance of 136 cycles (spec/08 R209). -/
def State.slowPair (s : State) (a b : Nat × Nat) : Bool :=
  let c := hubPoint a.1 a.2
  let d := hubPoint b.1 b.2
  let w := State.walk s { s.target { ptype := pWrite, dx := d.x, dy := d.y, sx := c.x, sy := c.y } (some c) with express := true }
    4096 (.router c) 4 true { fin := .wait }
  w.fin == .arrive && decide (plainCycles a b + 136 < pathCycles w.path)

/-- Hub groups of the wafer. -/
def hubGroups : List (Nat × Nat) := (List.range 60).flatMap (fun f => (List.range 48).map (hubOf f))

/-- Pairs of hub groups, one of them in the field, whose routes under the armed tables need more than the allowance. -/
def State.slowPairs (s : State) (f : Nat) : List ((Nat × Nat) × (Nat × Nat)) :=
  let t := s.swapTables f
  ((List.range 48).map (hubOf f)).flatMap (fun a =>
    hubGroups.flatMap (fun b => ([(a, b), (b, a)]).filter (fun p => t.slowPair p.1 p.2)))

/-- The LATENCY record (spec/08 R209, spec/15 Table 15.4). DESIGN CHOICE (log 33): DETAIL gives hub column and row of both groups of
the first three pairs; the manual gives no layout. -/
def State.latencyRecord (s : State) (f : Nat) : List ((Nat × Nat) × (Nat × Nat)) → State
  | [] => s
  | l => s.errorRecord { mkRec clsLatency 1 3 with
      field := f
      detail := (l.take 3).flatMap (fun p => leBytes 1 p.1.1 ++ leBytes 1 p.1.2 ++ leBytes 1 p.2.1 ++ leBytes 1 p.2.2) }

/-- ROUTE_ARM: the field controller arms the swap once every shadow is written, and reports the pairs of hub groups whose detours
exceed the allowance (R209). DESIGN CHOICE (log 33): the tables are operands, those that the route builder has built and checked
(R204), since how it lays them out is open. -/
def execRouteArm (f : Nat) (tabs : List Tables) (s : State) : Out :=
  .next (if f < 60 then
    let s := (tabs.foldl (fun s t => s.writeShadow f t) (s.clearShadows f)).modField f (fun x => { x with rtArmed := true, rtMissArmed := s.stoppedFields })
    if tabs.isEmpty then s else s.latencyRecord f (s.slowPairs f)
  else s)

/-- A packet in flight entered inside a field, and a router or hub of the field may still hold it. -/
def State.enteredIn (s : State) (f : Nat) (p : Packet) : Bool :=
  s.entryField p == some f && !p.out &&
    match p.pos with
    | some q => q.at_.field == some f
    | none => true

/-- No partition runs at all. -/
def State.noneRuns (s : State) : Bool := s.jobs.toList.all (fun q => q.state != .running)

/-- ROUTE_SWAP: injection is held since a develop point, or no partition runs, and the field is drained (R211, R213). -/
def execRouteSwap (f : Nat) (s : State) : Out :=
  .next (if (s.field f).rtArmed && ((s.field f).rtHeld || s.noneRuns) && !(s.net.any (s.enteredIn f)) then s.swapTables f else s)

end Sys2Proof.Machine
end

