-- ==== Sys2Proof/Machine/SxOps.lean ====
section
/-! DEFINITION. SX threads: fetch and issue, operands, loads and stores, jumps (spec/04 R112-R121). -/

namespace Sys2Proof.Machine

/-! ### Registers and errors -/

def Thread.gReg (t : Thread) (i : Nat) : BitVec 32 := if i % 16 = 0 then 0 else t.g.get (BitVec.ofNat 4 i)

/-- G0 ignores writes (spec/04 R112). -/
def Thread.setG (t : Thread) (i : Nat) (v : BitVec 32) : Thread :=
  if i % 16 = 0 then t else { t with g := t.g.set (BitVec.ofNat 4 i) v }

def CoreState.setThread (c : CoreState) (t : Nat) (v : Thread) : CoreState := { c with th := c.th.set (BitVec.ofNat 2 t) v }

def CoreState.modThread (c : CoreState) (t : Nat) (f : Thread → Thread) : CoreState := c.setThread t (f (c.thread t))

/-- A register of a thread. -/
def CoreState.gReg (c : CoreState) (t i : Nat) : BitVec 32 := (c.thread t).gReg i

/-- The device address or 64-bit word in a register pair (spec/04 Table 4.10). -/
def CoreState.gPair (c : CoreState) (t i : Nat) : BitVec 64 := (c.gReg t (i + 1)) ++ (c.gReg t i)

/-- A core error of a thread, at its program counter. -/
def CoreState.failSx (c : CoreState) (t code : Nat) : CoreState := c.fail code (c.thread t).pc.toNat t

/-- One issue: SXISSUE counts it, and the thread is the one that issued last (spec/04 R114, Table 4.13). -/
def CoreState.countIssue (c : CoreState) (t : Nat) : CoreState := { c with sxIssue := sat1 c.sxIssue, sxLast := BitVec.ofNat 2 t }

/-- A thread moves to a byte address. DEDUCED (log 22): an address at or above 0x8000 raises SX_ADDR at the instruction
that goes there, since the program counter has 15 bits. -/
def CoreState.jump (c : CoreState) (t : Nat) (a : BitVec 32) : CoreState :=
  if a.toNat % 4 ≠ 0 then c.failSx t eAlign
  else if 0x8000 ≤ a.toNat then c.failSx t eAddr
  else c.modThread t (fun x => { x with pc := a.extractLsb' 0 15, wait := .none })

/-- A thread's instruction completes: the thread's registers change and it goes to the next instruction. -/
def CoreState.sxNext (c : CoreState) (t : Nat) (f : Thread → Thread) : CoreState :=
  let pc := (c.thread t).pc
  ((c.modThread t f).countIssue t).jump t (BitVec.ofNat 32 (pc.toNat + 4))

/-- A thread begins to wait (spec/04 R115). -/
def CoreState.sxWait (c : CoreState) (t : Nat) (w : ThreadWait) : CoreState := c.modThread t (fun x => { x with wait := w })

/-! ### Issue -/

/-- What an SX instruction does at issue. -/
abbrev SxBody := State → CoreId → Nat → Inst32 → State

/-- The word at a thread's program counter, or the fetch error (spec/04 R117, Table 4.14). -/
def State.fetchSx (s : State) (c : CoreId) (t : Nat) : State × Option Inst32 :=
  let x := s.core c
  let pc := (x.thread t).pc.toNat
  if pc % 4 ≠ 0 then (s.setCore c (x.failSx t eAlign), none)
  else
    let w := pc / 8
    match s.fetchOld c t pc with
    | (s, some o) =>
      if o.1.bad then (s.modCore c (fun y => y.failSx t ePoison), none)
      else (s, some (o.1.data.extractLsb' (8 * (pc % 8)) 32))
    | (s, none) =>
      let x := s.core c
      let y := x.noteReads .sx 0 [w]
      if x.poisoned w then (s.setCore c (y.failSx t ePoison), none)
      else (s.setCore c y, some ((x.data w).extractLsb' (8 * (pc % 8)) 32))

/-- A thread does not wait, or what it waits for has come and its instruction issues again (spec/04 R115, spec/06 R149, spec/09
R230). SEMAPHORE_TAKE and QUEUE_WAIT_END end the waits on a semaphore and a queue, the develop point those of a held word
and of XPDONE (spec/09 R230, R231). -/
def CoreState.waitOver (x : CoreState) (t : Nat) : Bool :=
  match (x.thread t).wait with
  | .none => true
  | .steer a b => (x.qu a).count != 0 && (x.qu b).count != 0
  | .mvsync => (x.thread t).moves == 0
  | .room => decide (x.e2.queue.length < 8)
  | .credit q n => x.credRoom q n
  | .sem _ => false
  | .queue _ _ => false
  | .held => false
  | .xpdone => false

/-- A thread may issue (spec/04 R114, R115). -/
def State.sxReady (s : State) (c : CoreId) (t : Nat) : Bool :=
  s.coreRuns c && (s.core c).run && ((s.core c).thread t).run && (s.core c).waitOver t

/-- Opcode numbers of Table 4.10. -/
def sxKnown (o : Nat) : Bool :=
  decide (o ≤ 8 ∨ (0x10 ≤ o ∧ o ≤ 0x16) ∨ (0x18 ≤ o ∧ o ≤ 0x1B) ∨ (0x20 ≤ o ∧ o ≤ 0x2C) ∨
    (0x30 ≤ o ∧ o ≤ 0x32) ∨ o = 0x38 ∨ o = 0x3C ∨ o = 0x3E)

/-- Issues the instruction at a thread's program counter if its opcode is `opc`; a fetch error is raised by any issue, a
reserved opcode by ALU's (spec/04 R121). -/
def State.sxIssueOp (s : State) (c : CoreId) (t : Fin 4) (opc : Nat) (body : SxBody) : State :=
  if coreKind c != .sx || !s.sxReady c t.val then s
  else
    match s.fetchSx c t.val with
    | (u, none) => u
    | (u, some i) =>
      if sOpc i ≠ opc ∧ !(!sxKnown (sOpc i) ∧ opc = 0) then s
      else if !sxLegal i then u.modCore c (fun x => x.failSx t.val eIllegal)
      else body u c t.val i

/-- A body that only changes its core. -/
def sxCore (f : CoreState → Nat → Inst32 → CoreState) : SxBody := fun s c t i => s.modCore c (fun x => f x t i)

/-! ### Integer unit (Tables 4.10, 4.11) -/

/-- Table 4.11. -/
def aluFn (fn : Nat) (a b : BitVec 32) : BitVec 32 :=
  match fn with
  | 0x00 => a + b
  | 0x01 => a - b
  | 0x02 => a &&& b
  | 0x03 => a ||| b
  | 0x04 => a ^^^ b
  | 0x05 => a <<< (b.toNat % 32)
  | 0x06 => a >>> (b.toNat % 32)
  | 0x07 => a.sshiftRight (b.toNat % 32)
  | 0x08 => if a.toInt < b.toInt then 1 else 0
  | 0x09 => if a.toNat < b.toNat then 1 else 0
  | 0x0A => if a.toInt ≤ b.toInt then a else b
  | 0x0B => if a.toInt ≤ b.toInt then b else a
  | 0x0C => if a.toNat ≤ b.toNat then a else b
  | 0x0D => if a.toNat ≤ b.toNat then b else a
  | 0x10 => a * b
  | 0x11 => BitVec.ofNat 32 (a.toNat * b.toNat / 2 ^ 32)
  | _ => BitVec.ofInt 32 (a.toInt * b.toInt / 2 ^ 32)

/-- Writes GD and goes on. -/
def CoreState.putGd (c : CoreState) (t : Nat) (i : Inst32) (v : BitVec 32) : CoreState :=
  c.sxNext t (fun x => x.setG (sGd i) v)

/-- ALU: GD = GA fn GB. -/
def aluBody : SxBody := sxCore (fun c t i => c.putGd t i (aluFn (sFn i) (c.gReg t (sGa i)) (c.gReg t (sGb i))))

/-- GD = GA fn IMM18. -/
def immBody (fn : Nat) : SxBody := sxCore (fun c t i => c.putGd t i (aluFn fn (c.gReg t (sGa i)) (sImm18 i)))

/-- SHI: IMM18[6:5] selects SLL, SRL, SRA by IMM18[4:0]. -/
def shiBody : SxBody := sxCore (fun c t i =>
  c.putGd t i (aluFn (0x05 + sfld i 19 2) (c.gReg t (sGa i)) (BitVec.ofNat 32 (sfld i 14 5))))

/-- LUI. -/
def luiBody : SxBody := sxCore (fun c t i => c.putGd t i (sLui i))

/-! ### Loads and stores (R117) -/

/-- Checks of a data access of `n` bytes. DESIGN CHOICE (log 78): alignment first, then range; the manual gives no order for an
address that fails both, nor for a jump or a TSTART target that does. -/
def memErr (a : BitVec 32) (n : Nat) : Option Nat :=
  if a.toNat % n ≠ 0 then some eAlign else if 0x8000 ≤ a.toNat then some eAddr else none

/-- `n` bytes at a byte address, zero-extended. -/
def CoreState.bytesOf (c : CoreState) (a n : Nat) : BitVec 64 :=
  BitVec.ofNat 64 (nfld (c.data (a / 8)).toNat (8 * (a % 8)) (8 * n))

/-- Sign-extends the low `n` bytes to 32 bits where `sx`. -/
def extend (n : Nat) (sx : Bool) (v : BitVec 64) : BitVec 32 :=
  if sx then ((v.extractLsb' 0 32 : BitVec 32) <<< (32 - 8 * n)).sshiftRight (32 - 8 * n)
  else v.extractLsb' 0 32

/-- A load of `n` bytes at an address; `put` writes the destination. -/
def CoreState.sxLoad (c : CoreState) (t : Nat) (a : BitVec 32) (n : Nat) (put : BitVec 64 → Thread → Thread) : CoreState :=
  match memErr a n with
  | some e => c.failSx t e
  | none =>
    let w := a.toNat / 8
    let y := c.noteReads .sx 0 [w]
    if c.poisoned w then y.failSx t ePoison else y.sxNext t (put (c.bytesOf a.toNat n))

/-- Address of formats I and S. -/
def sxAddr (c : CoreState) (t : Nat) (i : Inst32) : BitVec 32 := c.gReg t (sGa i) + sImm18 i

/-- LB, LBU, LH, LHU, LW. -/
def loadBody (n : Nat) (sx : Bool) : SxBody := sxCore (fun c t i =>
  c.sxLoad t (sxAddr c t i) n (fun v x => x.setG (sGd i) (extend n sx v)))

/-- LD: the lower-addressed half to GD, the upper to the next register. -/
def ldBody : SxBody := sxCore (fun c t i =>
  c.sxLoad t (sxAddr c t i) 8 (fun v x => (x.setG (sGd i) (v.extractLsb' 0 32)).setG (sGd i + 1) (v.extractLsb' 32 32)))

/-- LX: FN[1:0] scales GB, FN[3:2] gives the size, FN[4] zero-extends. -/
def lxBody : SxBody := sxCore (fun c t i =>
  let n := 2 ^ sfld i 20 2
  c.sxLoad t (c.gReg t (sGa i) + (c.gReg t (sGb i) <<< sfld i 18 2)) n (fun v x => x.setG (sGd i) (extend n (!i.getLsbD 22) v)))

/-- A store of `n` bytes: one masked word write (spec/05 R135); the thread has gone on to its next instruction. -/
def CoreState.sxStore (c : CoreState) (t : Nat) (a : BitVec 32) (n : Nat) (v : BitVec 64) : CoreState :=
  match memErr a n with
  | some e => c.failSx t e
  | none =>
    let b := a.toNat % 8
    CoreState.writeBeat .sx (c.sxNext t id)
      [{ w := a.toNat / 8, mask := BitVec.ofNat 8 ((2 ^ n - 1) * 2 ^ b), data := v <<< (8 * b), poison := false }]

/-- SB, SH, SW: the low bytes of GB. -/
def storeBody (n : Nat) : SxBody := sxCore (fun c t i => c.sxStore t (sxAddr c t i) n ((c.gReg t (sGd i)).setWidth 64))

/-- SD: a register pair. -/
def sdBody : SxBody := sxCore (fun c t i => c.sxStore t (sxAddr c t i) 8 (c.gPair t (sGd i)))

/-! ### Branches and jumps -/

/-- A branch on GA against GB (format B). -/
def branchBody (taken : BitVec 32 → BitVec 32 → Bool) : SxBody := sxCore (fun c t i =>
  if taken (c.gReg t (sGd i)) (c.gReg t (sGa i)) then
    (c.countIssue t).jump t (BitVec.ofNat 32 (c.thread t).pc.toNat + (sImm18 i <<< 2))
  else c.sxNext t id)

/-- JAL: GD = PC + 4, PC-relative. -/
def jalBody : SxBody := sxCore (fun c t i =>
  let pc := BitVec.ofNat 32 (c.thread t).pc.toNat
  ((c.modThread t (fun x => x.setG (sGd i) (pc + 4))).countIssue t).jump t (pc + (sOff22 i <<< 2)))

/-- JALR: GD = PC + 4, to GA + IMM18. -/
def jalrBody : SxBody := sxCore (fun c t i =>
  let pc := BitVec.ofNat 32 (c.thread t).pc.toNat
  let dst := sxAddr c t i
  let d := c.jump t dst
  if d.err then d else ((c.modThread t (fun x => x.setG (sGd i) (pc + 4))).countIssue t).jump t dst)

/-! ### Waits, queues, sends (R115, R118, R119) -/

/-- A queue error of a thread. -/
def CoreState.failSxQueue (c : CoreState) (t code q : Nat) : CoreState := c.failQueue code (c.thread t).pc.toNat t q none

/-- SEMW: takes, or uses its issue and waits (spec/06 R154). -/
def semwBody : SxBody := sxCore (fun c t i =>
  if c.semCount (sGa i) = 0 then (c.countIssue t).sxWait t (.sem (sGa i)) else (c.take (sGa i)).sxNext t id)

/-- SEMS: signals at issue. -/
def semsBody : SxBody := sxCore (fun c t i =>
  let d := c.signal (sGa i) t (c.thread t).pc.toNat
  if d.err then d else d.sxNext t id)

/-- QWAIT. -/
def qwaitSx : SxBody := sxCore (fun c t i =>
  let n := sfld i 20 12
  match c.waitErr (sGa i) n with
  | some e => c.failSxQueue t e (sGa i)
  | none => if n ≤ (c.qu (sGa i)).count then c.sxNext t id else c.sxWait t (.queue (sGa i) n))

/-- QREL (spec/07 R170, R171; spec/09 R230: it waits while the credit holds are full). -/
def qrelSx : SxBody := fun s c t i =>
  let x := s.core c
  let q := sGa i
  let n := sfld i 20 12
  match x.relErr q n with
  | some e => s.setCore c (x.failSxQueue t e q)
  | none =>
    if !x.credRoom q n then s.setCore c (x.sxWait t (.credit q n))
    else (s.release c q n).modCore c (fun y => y.sxNext t id)

/-- QT and QV form a steering pair (spec/07 R190, R191). -/
def CoreState.steerPair (c : CoreState) (a b : Nat) : Bool :=
  a ≠ b && (c.qu a).d.pen && (c.qu b).d.pen && (c.qu a).d.pair.toNat == b && (c.qu b).d.pair.toNat == a

/-- STEER (spec/04 R118, spec/07 R191). DESIGN CHOICE (log 78): of two errors Q_STATE comes before Q_PAIR, whose QERR names QA.
DESIGN CHOICE (log 78): where GE names the pair GD, the data word is written last and stays. -/
def steerBody : SxBody := fun s c t i =>
  let x := s.core c
  let qt := sGa i
  let qv := sGb i
  let ge := sfld i 18 4
  if (x.qu qt).d.state = 0 ∨ (x.qu qv).d.state = 0 then
    s.setCore c (x.failSxQueue t eQState (if (x.qu qt).d.state = 0 then qt else qv))
  else if !x.steerPair qt qv then s.setCore c (x.failSxQueue t eQPair qt)
  else if (x.qu qt).count = 0 ∨ (x.qu qv).count = 0 then s.setCore c (x.sxWait t (.steer qt qv))
  else if i.getLsbD 22 && !x.credRoom qt 1 then s.setCore c (x.sxWait t (.credit qt 1))
  else
    let wt := (x.qu qt).entryAddr (x.qu qt).head
    let wv := (x.qu qv).entryAddr (x.qu qv).head
    let y := x.noteReads .sx 0 [wt, wv]
    if x.poisoned wt || x.poisoned wv then s.setCore c (y.failSx t ePoison)
    else
      let s := s.setCore c y
      let s := if i.getLsbD 22 then s.release c qt 1 else s
      s.modCore c (fun z => z.sxNext t (fun th =>
        (((th.setG (sGd i) ((x.data wt).extractLsb' 0 32)).setG (sGd i + 1) ((x.data wt).extractLsb' 32 32)).setG ge
          ((x.data wv).extractLsb' 0 32)).setG (ge + 1) ((x.data wv).extractLsb' 32 32)))

/-- What a thread waits for after its SEND: a held packet, a waiting XPDONE write, or nothing. -/
def CoreState.afterSend (c : CoreState) (t : Nat) : CoreState :=
  if c.held.any (fun h => h.1 == t) then c.sxWait t .held
  else if c.xpdWait.contains t then c.sxWait t .xpdone
  else c

/-- SEND: one word to a device address (spec/04 R119, spec/07 R163). -/
def sendBody : SxBody := fun s c t i =>
  let x := s.core c
  let da := (x.gPair t (sGa i)).toNat % 2 ^ 48
  let qdst := i.getLsbD 22
  if destBad da qdst then s.setCore c (x.failSxQueue t eQDest (sfld i 18 4))
  else
    let w := x.gPair t (sGb i)
    let s := s.setCore c (x.sxNext t id)
    (s.coreSend c t da qdst (sfld i 18 4) [(w, false)]).modCore c (fun y => y.afterSend t)

/-- MOVE: hands a run of words to the move engine, or waits for room (spec/04 R119, spec/06 R149).
DEDUCED (log 23): the count is GB[11:0]. -/
def moveBody : SxBody := fun s c t i =>
  let x := s.core c
  let a := x.gReg t (sGa i)
  match memErr a 8 with
  | some e => s.setCore c (x.failSx t e)
  | none =>
    if 8 ≤ x.e2.queue.length then s.setCore c (x.sxWait t .room)
    else
      let cmd : Cmd := { epc := (x.thread t).pc.toNat, addr := a.toNat / 8, thread := t,
                         da := (x.gPair t (sGd i)).toNat % 2 ^ 48, len := (x.gReg t (sGb i)).toNat % 4096,
                         qdst := i.getLsbD 22, qid := sfld i 18 4 }
      let x := { x with e2 := { x.e2 with queue := x.e2.queue ++ [cmd] } }
      State.kick kickFuel (s.setCore c (x.sxNext t (fun th => { th with moves := th.moves + 1 }))) c

/-- MVSYNC: waits until every MOVE of the thread has completed. -/
def mvsyncBody : SxBody := sxCore (fun c t _ =>
  if (c.thread t).moves = 0 then c.sxNext t id else c.sxWait t .mvsync)

/-! ### CSRs and threads (R113, Table 4.12) -/

/-- CSRR. DESIGN CHOICE (log 10): CYCLE is a free value. -/
def csrrBody : SxBody := fun s c t i =>
  let x := s.core c
  let f := (coreField c).getD 0
  let tick := (s.field f).tick
  let put (s : State) (v : BitVec 32) : State := s.modCore c (fun y => y.putGd t i v)
  match sfld i 14 18 with
  | 0x000 => put s (BitVec.ofNat 32 t)
  | 0x001 => put s (BitVec.ofNat 32 (packFields [(0, c.x), (16, c.y)]))
  | 0x002 => put s (BitVec.ofNat 32 f)
  | 0x010 => put (s.modCore c (fun y => y.modThread t (fun th => { th with tickHi := tick.extractLsb' 32 32 }))) (tick.extractLsb' 0 32)
  | 0x011 => put s (x.thread t).tickHi
  | _ => let (n, s) := s.draw
         put s (Config.cycleCount n)

/-- TSTART: starts a stopped thread (spec/04 R113). -/
def tstartBody : SxBody := sxCore (fun c t i =>
  let n := (c.gReg t (sGa i)).toNat % 4
  let a := c.gReg t (sGb i)
  if (c.thread n).run then c.failSx t eIllegal
  else if a.toNat % 4 ≠ 0 then c.failSx t eAlign
  else if 0x8000 ≤ a.toNat then c.failSx t eAddr
  else
    let old := c.thread n
    let new : Thread := { pc := a.extractLsb' 0 15, run := true, tickHi := old.tickHi, moves := old.moves }
    (({ c with stale := c.stale.filter (fun e => e.thread != n) }).setThread n (new.setG 1 (c.gReg t (sGd i)))).sxNext t id)

/-- THALT: the thread stops. -/
def thaltBody : SxBody := fun s c t _ =>
  (s.modCore c (fun x => (x.countIssue t).modThread t (fun th => { th with pc := th.pc + 4, run := false, wait := .none }))).endRun c

/-- A waiting SEMW is granted: the take, and the thread goes on (spec/06 R154, spec/04 R115). -/
def CoreState.semwGrant (c : CoreState) (t : Nat) : CoreState :=
  match (c.thread t).wait with
  | .sem q => if c.semCount q = 0 then c else (c.take q).sxNext t id
  | _ => c

/-- A waiting QWAIT ends. -/
def CoreState.qwaitEnd (c : CoreState) (t : Nat) : CoreState :=
  match (c.thread t).wait with
  | .queue q n => if n ≤ (c.qu q).count then c.sxNext t id else c
  | _ => c

end Sys2Proof.Machine
end

