-- ==== Sys2Proof/Machine/Expo.lean ====
section
/-! DEFINITION. Exposures: XPDONE, the develop point and its holds, overruns, the safelight interval, roll-back
(spec/09 R227-R257). -/

namespace Sys2Proof.Machine

/-! ### XPDONE (R229, R231) -/

/-- XPDONE: a core's program writes 1 to XPDONE.DONE; `eng` waits while DONE = 1. -/
def execXpdone (c : CoreId) (eng : Nat) (s : State) : Out :=
  .next (if s.coreRuns c && (s.core c).run then s.xpdone c eng else s)

/-- A waiting write of XPDONE takes effect in the new exposure, and its writer goes on (R231). -/
def State.xpdoneDeferred (s : State) (c : CoreId) : State :=
  let x := s.core c
  match x.xpdWait with
  | [] => s
  | e :: rest =>
    if x.done || !s.coreRuns c then s
    else
      let x := { x with xpdWait := rest }
      let x := if coreKind c = .sx ∧ e < 4 ∧ (x.thread e).wait = .xpdone then x.sxWait e .none else x
      (s.setCore c x).xpdone c e

/-- XPDONE_DEFERRED. -/
def execXpdoneDeferred (c : CoreId) (s : State) : Out := .next (s.xpdoneDeferred c)

/-! ### The develop point (R235) -/

/-- The queues of a partition on which something waits now (R239). -/
def State.waitingQueues (s : State) (j : Nat) : List (CoreId × Nat) :=
  (s.schedCores j).flatMap (fun c =>
    ((List.range 16).filter (fun n => (s.core c).queueWaiting (coreKind c) n)).map (fun n => (c, n)))

/-- A hold of the develop point begins (R237, R239; spec/09 Table 9.11 XPHOLDS). -/
def State.beginHold (s : State) (j : Nat) : State :=
  let q := s.job j
  let w := s.waitingQueues j
  let s := s.modJob j (fun x => { x with held := true, waitAll := w, warnFrom := if s.mod.supply == .warning then some s.mod.ctl else none })
  q.allFields.foldl (fun s f => s.modField f (fun x => { x with xpHolds := sat1 x.xpHolds })) s

/-- DEVELOP_HOLD: a develop point that does not fall at D(n) is held (R237). -/
def State.developHold (s : State) (j : Nat) : State :=
  let q := s.job j
  if q.state == .running && !q.inSafelight && !q.held && decide (q.sched ≤ s.now) &&
      (!s.treeReady j || s.otherHold j || q.rolled || q.pauseReq) then s.beginHold j
  else s

def execDevelopHold (j : Nat) (s : State) : Out := .next (s.developHold j)

/-- What every field takes up at a develop point of partition `j`: a waiting clock change (spec/14 R367), an armed route swap
with injection held (spec/08 R211), a new firmware bank (spec/17 R446). A field in no partition takes part in a swap. -/
def State.fieldsDevelop (s : State) (j : Nat) : State :=
  { s with fields := s.fields.map (fun x =>
      let own := x.job == some j
      let x := if own || x.job.isNone then { x with rtHeld := x.rtHeld || x.rtArmed } else x
      if own then
        { x with
          clkSet := x.clkPend.getD x.clkSet
          clkPend := none
          gated := false
          bank := if x.bankNew then 1 - x.bank else x.bank
          bankNew := false }
      else x) }

/-- A die takes up its own attachment again once its edge field is back (spec/15 R405). -/
def State.reattach (s : State) : State :=
  [Port.a, Port.b].foldl (fun s p =>
    if s.fieldOk (dieField p) then s.modPort p (fun x => { x with viaPeer := false }) else s) s

/-- A staged or armed overlay is given up. -/
def State.cancelStaged (s : State) (j : Nat) : State :=
  match (s.job j).safelight with
  | .staged _ => s.modJob j (fun q => { q with safelight := .idle })
  | .armed _ =>
    (s.schedCores j).foldl (fun s c => s.modCore c (fun x => { x with stopat := false })) (s.modJob j (fun q => { q with safelight := .idle }))
  | _ => s

/-- The job stops at a held develop point (R226 PAUSED): a PAUSE is answered, a COMMIT exchanges the tables at once, and
RESUME ends ABORTED (R375). DEDUCED (log 45): a PREEMPT or APPLY_MODE that waits ends ABORTED and takes no effect. -/
def State.enterPaused (s : State) (j reason : Nat) : State :=
  let n := (s.job j).expNo
  let s := if (s.job j).held then s else s.beginHold j
  let s := s.modJob j (fun q => { q with
    state := .paused
    pauseReq := false
    preemptReq := false
    holds := { q.holds with pause := true } })
  let s := s.completeIf (fun e => e.started && e.opcode == 0x203 && e.p 0 1 == j) stOk (fun _ _ => leBytes 8 n)
  (((s.cancelStaged j).abortWaiting j).commitNow j).jobEvent j 3 reason n

/-- Exposure `n` is a checkpoint exposure (R251). -/
def Job.isCkpt (q : Job) (n : Nat) : Bool := (n + 1) % max 1 q.image.ckptSpacing == 0

/-- LASTCKPT advances, and the log entries below it are freed (R251, R254). -/
def State.recordCkpt (s : State) (j : Nat) : State :=
  s.modJob j (fun q =>
    if q.isCkpt q.expNo then { q with lastCkpt := q.expNo + 1, log := q.log.filter (fun e => decide (q.expNo + 1 ≤ e.expo)) } else q)

/-- The fields of a partition leave it. -/
def State.releaseAll (s : State) (j : Nat) : State :=
  let s := (s.job j).allFields.foldl State.releaseField s
  s.modJob j (fun q => { q with fields := q.fields.map (fun _ => none), spareFields := q.spareFields.map (fun _ => none) })

/-- Pre-emption at a checkpoint's develop point (R256): the partition is washed and released. What stays in force is what does
not name a placement (log 36). -/
def State.suspend (s : State) (j : Nat) (stuck : Stuck) : State :=
  let n := (s.job j).expNo
  let s := (s.partitionReset j stuck).releaseAll j
  let s := s.modJob j (fun q => { q with
    state := .suspended
    inForce := q.inForce.filter (fun o => o.fault.isNone)
    held := false
    holds := {}
    faultFields := []
    inPlace := false
    safelight := .idle
    pauseReq := false
    preemptReq := false
    log := []
    replayTo := none })
  let s := s.completeIf (fun e => e.started && e.opcode == 0x205 && e.p 0 1 == j) stOk
    (fun s _ => leBytes 8 (s.job j).lastCkpt)
  ((s.abortInputs j).abortWaiting j).jobEvent j 4 (if s.drain then 4 else 0) n

/-- Arms a staged overlay: STOPAT sets on every core of the partition (R245). -/
def State.armStaged (s : State) (j : Nat) : State :=
  match (s.job j).safelight with
  | .staged o =>
    let s := s.modJob j (fun q => { q with safelight := .armed o })
    (s.schedCores j).foldl (fun s c => s.modCore c (fun x => { x with stopat := true })) s
  | _ => s

/-- Exposure n + 1 begins and everything held leaves (R235). -/
def State.nextExposure (s : State) (j : Nat) : State :=
  let s := s.beginExposure j ((s.job j).expNo + 1)
  (s.schedCores j).foldl State.releaseHeld s

/-- The develop point of a partition's exposure falls: checkpoint, pre-emption, exchange of tables, publication, safelight or
the next exposure (R235, R243, R245, R246, R251, R256). -/
def State.develop (s : State) (j : Nat) (stuck : Stuck) : State :=
  let q := s.job j
  let s := (s.recordCkpt j).modJob j (fun x => { x with lastDev := s.now })
  let s := s.reattach
  if (q.preemptReq || s.drain) && q.isCkpt q.expNo then ((s.commitTables j).fieldsDevelop j).suspend j stuck
  else
    let s := ((s.commitTables j).fieldsDevelop j).publish j
    match q.safelight with
    | .armed o => s.modJob j (fun x => { x with safelight := .drain o, held := false })
    | _ => (s.armStaged j).nextExposure j

/-- The develop point may fall, but for a pause (R235, R237). -/
def State.developReady (s : State) (j : Nat) : Bool :=
  let q := s.job j
  q.state == .running && !q.inSafelight && !q.rolled && decide (q.sched ≤ s.now) && s.treeReady j && !s.otherHold j

/-- DEVELOP_POINT: the develop point falls, or a PAUSE takes effect there. `stuck` are words that fail the wash of a
pre-emption. -/
def execDevelopPoint (j : Nat) (stuck : Stuck) (s : State) : Out :=
  .next (if !s.developReady j then s else if (s.job j).pauseReq then s.enterPaused j 0 else s.develop j stuck)

/-! ### Overrun (R238, R239) -/

/-- One entry of an overrun record (Table 9.4). -/
def State.overrunEntry (s : State) (kind : Nat) (c : CoreId) (n : Nat) : BitVec 128 :=
  let q := (s.core c).qu n
  let z (v : Nat) : Nat := if kind = 0 then v else 0
  BitVec.ofNat 128 (packFields [(0, kind), (2, c.x), (12, c.y), (22, z n), (26, z q.count), (39, z q.partialCount), (52, z q.d.mode.toNat),
    (55, z q.d.state.toNat), (57, z q.stagedCount)])

/-- Insertion by (Y, X, queue). -/
def insertEntry (e : Nat × BitVec 128) : List (Nat × BitVec 128) → List (Nat × BitVec 128)
  | [] => [e]
  | h :: t => if e.1 < h.1 then e :: h :: t else h :: insertEntry e t

/-- The entries of the record in order: queues waited on throughout, cores not done, cores with a held packet (R239). -/
def State.overrunEntries (s : State) (j : Nat) : List (BitVec 128) :=
  let key (c : CoreId) (n : Nat) : Nat := (c.y * 1024 + c.x) * 16 + n
  let cs := s.schedCores j
  let l := ((s.job j).waitAll.map (fun w => (key w.1 w.2, s.overrunEntry 0 w.1 w.2))) ++
    ((cs.filter (fun c => !s.coreDone c)).map (fun c => (key c 0, s.overrunEntry 1 c 0))) ++
    ((cs.filter (fun c => !(s.core c).held.isEmpty)).map (fun c => (key c 0, s.overrunEntry 2 c 0)))
  (l.foldl (fun acc e => insertEntry e acc) []).map (·.2)

/-- The overrun record at the stop. -/
def State.overrunRecord (s : State) (j : Nat) : OverrunRec :=
  let q := s.job j
  let notDone := (s.schedCores j).any (fun c => !s.coreDone c)
  { flags := b2n (s.deltaSum j ≠ 0) + 2 * b2n notDone
    expNo := q.expNo
    sched := q.sched
    stopTick := s.now
    holdMax := q.holdMax
    sum := s.deltaSum j
    notReady := ((q.workFields.filter (fun f => !s.fieldReady j f)).map (2 ^ ·)).foldl (· + ·) 0
    entries := s.overrunEntries j }

/-- OVERRUN: the ticks of LATE in one hold exceed HOLD_MAX. -/
def execOverrun (j : Nat) (s : State) : Out :=
  .next (
    let q := s.job j
    if q.state == .running && q.held && decide (q.holdMax < q.lateTicks) then
      let rec_ := s.overrunRecord j
      let s := s.modJob j (fun x => { x with overrun := some rec_ })
      let s := s.errorRecord { mkRec clsOverrun 3 5 with job := j, action := 4 }
      s.stopJob j 1
    else s)

/-! ### The safelight interval (R246, R247) -/

/-- A flit of the partition is left in the network, other than at the boundary of a stopped field (R249). -/
def State.slotInNet (s : State) (j : Nat) : Bool := s.net.any (fun p => p.slot == j && (s.route p).pos.isNone)

/-- SAFELIGHT_DRAIN_END: no flit of the partition is left in the network (Table 9.7 phase 1, R249). -/
def execSafelightDrainEnd (j : Nat) (s : State) : Out :=
  .next (match (s.job j).safelight with
    | .drain o => if (s.job j).state != .running || s.slotInNet j then s else s.modJob j (fun q => { q with safelight := .apply o })
    | _ => s)

/-- A queue's action (Table 9.9). A SET out of RESET loads the queue, one into RESET empties it (spec/07 R174). A RENEW passes through
RESET and takes the old EPOCH + 1. -/
def CoreState.queueAction (k : Kind) (x : CoreState) (n : Nat) (d : QDesc) (a : QAction) : CoreState :=
  let old := x.qu n
  match a with
  | .keep => x
  | .set =>
    if old.d.state = 0 ∨ d.state = 0 then CoreState.loadQueue k (x.dropRows n) n { d with epoch := old.d.epoch }
    else x.setQ n { old with d := { d with epoch := old.d.epoch } }
  | .renew => CoreState.loadQueue k (x.dropRows n) n { d with epoch := old.d.epoch + 1 }
  | .reset => CoreState.loadQueue k (x.dropRows n) n { old.d with state := 0 }

/-- A core re-enters: engines stop, its semaphores and registers are as washed, and it starts at the overlay's entry address
(Table 9.8). -/
def CoreState.reenter (k : Kind) (x : CoreState) (entry : BitVec 13) : CoreState :=
  let d : CoreState := {}
  CoreState.start k
    { x with
      pc := d.pc
      a := d.a
      str := d.str
      lc0 := d.lc0
      lc1 := d.lc1
      loop0 := d.loop0
      loop1 := d.loop1
      hold := d.hold
      sc := d.sc
      active := d.active
      shadow := d.shadow
      acc := d.acc
      accFp := d.accFp
      v := d.v
      m := d.m
      u := d.u
      lists := d.lists
      vxOps := d.vxOps
      svRej := d.svRej
      svDup := d.svDup
      svNan := d.svNan
      svInsrt := d.svInsrt
      th := d.th
      e1 := d.e1
      e2 := d.e2
      e3 := d.e3
      sem := d.sem
      xpdWait := d.xpdWait
      entry := entry }

/-- Applies an overlay's change to its core. A core whose PART it sets to 0 is reset (spec/16 Table 16.1). -/
def State.applyCore (s : State) (j : Nat) (rs : List Reloc) (x : CoreChange) : State :=
  let q := s.job j
  match q.place x.at_ with
  | none => s
  | some c =>
    let k := coreKind c
    let was := (s.core c).part
    s.modCore c (fun y =>
      let y := q.writeWords k x.at_ rs x.patch y
      let y := x.queues.foldl (fun y e => y.queueAction k e.1.n (q.placeDesc x.at_ e.1) e.2) y
      let y := { y with part := x.part.getD y.part, epoch := (x.epoch.map (· + BitVec.ofNat 2 q.epochAdd)).getD y.epoch }
      if was && !y.part then y.resetCore
      else
        match x.action with
        | .resume => y
        | .reenter e => y.reenter k e)

/-- The queues an overlay renews or resets. -/
def Overlay.discards (o : Overlay) : List (LPos × Nat) :=
  o.changes.flatMap (fun x => (x.queues.filter (fun e => e.2 == .renew || e.2 == .reset)).map (fun e => (x.at_, e.1.n)))

/-- Inputs sent to a renewed or reset queue end ABORTED (spec/13 R352). -/
def State.abortRenewed (s : State) (j : Nat) (o : Overlay) : State :=
  let gone := (s.job j).inputs.filter (fun x => o.discards.contains (x.dest, x.queue))
  let s := s.modJob j (fun q => { q with inputs := q.inputs.filter (fun x => !o.discards.contains (x.dest, x.queue)) })
  gone.foldl (fun s x =>
    match s.entry x.entry with
    | some e => s.complete e stAborted []
    | none => s) s

/-- Phases 2 and 3 (Table 9.7): configuration words, queue and core actions, STOPAT and DONE cleared, the next exposure. -/
def State.safelightStart (s : State) (j : Nat) : State :=
  match (s.job j).safelight with
  | .apply o =>
    let s := o.changes.foldl (fun s x => s.applyCore j o.relocs x) s
    let renewed := o.changes.flatMap (fun x => (x.queues.filter (fun e => e.2 == .renew)).map (fun e => (x.at_, e.1.n)))
    let s := s.modJob j (fun q => { q with
      renews := q.renews ++ renewed
      inForce := q.inForce ++ [o]
      expLen := o.expLen.getD q.expLen
      holdMax := o.holdMax.getD q.holdMax
      safelight := .idle })
    let s := s.abortRenewed j o
    let s := s.completeIf (fun e => e.started && e.opcode == 0x208 && e.p 0 1 == j) stOk (fun _ _ => [])
    let s := (s.schedCores j).foldl (fun s c => s.modCore c (fun x => { x with stopat := false, stopped := false })) s
    let s := s.nextExposure j
    (s.schedCores j).foldl (fun s c => State.kick kickFuel s c) s
  | _ => s

/-- SAFELIGHT_START. -/
def execSafelightStart (j : Nat) (s : State) : Out := .next (if (s.job j).state == .running then s.safelightStart j else s)

/-! ### Roll-back (R253-R255) -/

/-- A lost spare leaves the partition; no roll-back is needed (DEDUCED, log 34). -/
def State.dropSpares (s : State) (j : Nat) : State :=
  let q := s.job j
  let gone := q.faultFields.filter (fun f => q.spareFields.contains (some f))
  let s := gone.foldl State.releaseField s
  s.modJob j (fun x => { x with
    spareFields := x.spareFields.map (fun o => if (o.map gone.contains).getD false then none else o)
    faultFields := x.faultFields.filter (fun f => !gone.contains f)
    holds := { x.holds with fault := x.holds.fault && (x.inPlace || x.faultFields.any (fun f => !gone.contains f)) } })

/-- Logical field of a working field. -/
def Job.logicalOf (q : Job) (f : Nat) : Option Nat := q.fields.findIdx? (fun o => o == some f)

/-- The fault overlay that a lost field needs, if it is valid (R244, R255). -/
def State.coverOf (s : State) (j f : Nat) : Option Overlay :=
  let q := s.job j
  ((q.logicalOf f).bind q.faultOverlay).filter (s.overlayValid q)

/-- A fault overlay's placement entry takes effect: the lost field leaves, the spare becomes the logical field (R253). A field that
leaves in service is washed, since a field in no partition holds no job data (R224). -/
def State.applyCover (s : State) (j : Nat) (stuck : Stuck) (o : Overlay) : State :=
  match o.fault with
  | none => s
  | some (lf, sp) =>
    let q := s.job j
    match (q.fields[lf]?).getD none, (q.spareFields[sp]?).getD none with
    | some lost, some new =>
      let s := if s.fieldOk lost then s.washField lost stuck else s
      let s := (s.releaseField lost).modField new (fun x => { x with spare := false, logical := lf })
      s.modJob j (fun x => { x with
        fields := x.fields.set lf (some new)
        spareFields := x.spareFields.set sp none
        inForce := x.inForce ++ [o]
        faultFields := x.faultFields.filter (· ≠ lost) })
    | _, _ => s

/-- The fault overlays of the faulty fields take effect one after the other, each as long as it is valid: a spare serves one field. -/
def State.coverAll (s : State) (j : Nat) (stuck : Stuck) : State :=
  (s.job j).faultFields.foldl (fun s f =>
    match s.coverOf j f with
    | some o => s.applyCover j stuck o
    | none => s) s

/-- Fields whose scheduled positions are no longer all in service, after the wash of a roll-back (R253). -/
def State.badFields (s : State) (j : Nat) : List Nat :=
  let q := s.job j
  q.workFields.filter (fun f => ((q.logicalOf f).map (fun lf => !s.fits q lf f)).getD false)

/-- Steps 1 to 3 of R253: wash, configuration with the epochs advanced, carried state. A fence met in the wash asks for a
further roll-back. -/
def State.restore (s : State) (j : Nat) (stuck : Stuck) : State :=
  let s := s.partitionReset j stuck
  -- the held develop point also holds injection for a swap (spec/08 R211)
  let s := (s.job j).allFields.foldl (fun s f => s.modField f (fun x => { x with rtHeld := x.rtHeld || x.rtArmed })) s
  let s := s.modJob j (fun q => { q with
    epochAdd := (q.epochAdd + 1) % 4
    rolled := true
    held := false
    safelight := match q.safelight with
      | .armed o => .staged o
      | .drain o => .staged o
      | .apply o => .staged o
      | x => x })
  let s := (s.loadConfig j).loadCarried j
  let bad := s.badFields j
  s.modJob j (fun q => { q with
    faultFields := bad
    inPlace := false
    noCover := false
    holds := { q.holds with fault := !bad.isEmpty, coreError := false } })

/-- No vote is under way in the partition (spec/15 R400 decides the fault first). -/
def State.noVote (s : State) (j : Nat) : Bool := (s.job j).workFields.all (fun f => (s.field f).votes.isEmpty)

/-- The job pauses, or stays so, for want of a valid fault overlay (R255); a COMMIT that waited takes effect (R243). -/
def State.uncovered (s : State) (j : Nat) : State :=
  let q := s.job j
  let s := s.modJob j (fun x => { x with noCover := true })
  if q.state == .paused then s.commitNow j else s.enterPaused j 2

/-- A roll-back, or the pause for want of a valid fault overlay (R253, R255). The active CP carries it out (spec/01 R15). -/
def State.rollBack (s : State) (j : Nat) (stuck : Stuck) : State :=
  let q := s.job j
  if !s.cpRuns || !(q.state == .running || q.state == .paused) || !s.noVote j then s
  else
    let s := s.dropSpares j
    let q := s.job j
    if q.noCover || (q.faultFields.isEmpty && !q.inPlace) then s
    else
      let t := s.coverAll j stuck
      if (t.job j).faultFields.isEmpty then
        let t := t.restore j stuck
        if q.state == .paused then t.commitNow j else t
      else s.uncovered j

/-- ROLL_BACK: `stuck` are words that fail the washes. -/
def execRollBack (j : Nat) (stuck : Stuck) (s : State) : Out := .next (s.rollBack j stuck)

/-- Step 4 of R253: counts 0, EXPNO = LASTCKPT, every core starts, the log is replayed up to the held exposure. -/
def State.restart (s : State) (j : Nat) : State :=
  let q := s.job j
  let last := max q.expNo (q.replayTo.getD 0)
  let s := (s.clearDelta j).startCores j
  let s := s.modJob j (fun x => { x with rolled := false, expNo := x.lastCkpt, replayTo := some last })
  s.beginExposure j q.lastCkpt

/-- ROLLBACK_RESTART: once no fault is left, exposure LASTCKPT begins. -/
def execRollbackRestart (j : Nat) (s : State) : Out :=
  .next (
    let q := s.job j
    if s.cpRuns && q.state == .running && q.rolled && q.faultFields.isEmpty && !q.inPlace then s.restart j else s)

end Sys2Proof.Machine
end

