-- ==== Sys2Proof/Machine/Proofing.lean ====
section
/-! DEFINITION. Core errors, reports of field controllers, the comparison of TICK copies, proof runs and votes (spec/15 R397-R401,
R407, spec/01 R16, spec/09 R222). -/

namespace Sys2Proof.Machine

/-! ### CORE_ERROR (spec/15 R407) -/

/-- The core's SPELOG holds an uncorrectable outcome of an engine read or a merge. -/
def CoreState.ownPoison (x : CoreState) : Bool :=
  x.sp.logValid && x.sp.logOutcome == 3 && (x.sp.logSource == 0 || x.sp.logSource == 2)

/-- The record of a core error. DEDUCED (log 78): of the severities 2, 3 and 4 (spec/15 Table 15.4) a roll-back in place has 2, a job
that stops 3, a dead core 4. -/
def State.coreErrorRecord (s : State) (j : Nat) (c : CoreId) (sev action : Nat) : State :=
  s.errorRecord { mkRec clsCoreError sev 0 with
    field := (coreField c).getD 0xFF
    job := j
    x := c.x
    y := c.y
    action := action
    code := (s.core c).errCode.toNat }

/-- An engine or a thread of the core waits on a semaphore. -/
def CoreState.anySemWait (k : Kind) (x : CoreState) : Bool := (List.range 4).any (fun e => (x.semWait k e).isSome)

/-- A wait that a core error ends has taken its cycles too (log 9). -/
def State.endWaits (s : State) (c : CoreId) : State :=
  if (s.core c).anySemWait (coreKind c) then s.countStall c true false else s

/-- The field controller takes up a core's error: a first POISON rolls back in place, a second one of the same core and
exposure is a dead core or stops the job, any other code stops it. -/
def State.coreError (s : State) (c : CoreId) : State :=
  let x := s.core c
  match s.coreJob c with
  | none => s
  | some j =>
    let q := s.job j
    if !x.err || x.errTaken || !(q.state == .running || q.state == .paused) then s
    else
      let s := (s.setCore c { x with errTaken := true }).endWaits c
      let s := s.modJob j (fun q => { q with holds := { q.holds with coreError := true } })
      let stop (s : State) : State := (s.coreErrorRecord j c 3 4).stopJob j 3
      if x.errCode.toNat ≠ ePoison then stop s
      else if !q.poisonAt.contains (c, q.expNo) then
        (s.coreErrorRecord j c 2 1).modJob j (fun q => { q with inPlace := true, poisonAt := q.poisonAt ++ [(c, q.expNo)] })
      else if x.ownPoison then (s.coreErrorRecord j c 4 2).deadCore c 1
      else stop s

/-- CORE_ERROR. -/
def execCoreError (c : CoreId) (s : State) : Out := .next (s.coreError c)

/-! ### FAULT_REPORT and TICK_COMPARE -/

/-- FAULT_REPORT: a field controller's protective actions reach the active CP (spec/01 R16). DESIGN CHOICE (log 82): the spec does not
say until when a protective action is under way (R17); here it ends with its report. -/
def execFaultReport (f : Nat) (s : State) : Out :=
  .next (if s.cpRuns then s.modField f (fun x => { x with reports := [], busy := false }) else s)

/-- A copy's difference from the active companion die's. -/
def tickDiff (copy now : BitVec 64) : Int := (copy.toNat : Int) - now.toNat

/-- A time-base fault of a field (spec/09 R222, spec/15 Table 15.7). -/
def State.timebaseFault (s : State) (f : Nat) : State :=
  let s := s.errorRecord { mkRec clsTimebase 2 3 with field := f, job := (s.fieldJob f).getD 0xFF }
  (s.faultField f).modField f (fun x => { x with lost := true })

/-- TICK_COMPARE: one copy is compared with the active die's: a difference of one is made up in the next tick, a larger one
is a fault (R222). -/
def State.tickCompare (s : State) (h : TickCopy) : State :=
  let t := (s.port s.cp.cpact).tick
  let adj (d : Int) : Int := if d = 1 then -1 else if d = -1 then 1 else 0
  match h with
  | .field f =>
    if 60 ≤ f then s
    else
      let d := tickDiff (s.field f).tick t
      if 2 ≤ d.natAbs then s.timebaseFault f else s.modField f (fun x => { x with tickAdj := adj d })
  | .stack n =>
    if 16 ≤ n then s
    else
      let d := tickDiff (s.stack n).tick t
      if 2 ≤ d.natAbs then s.errorRecord { mkRec clsTimebase 2 4 with unit := n }
      else s.modStack n (fun x => { x with tickAdj := adj d })
  | .die p =>
    let d := tickDiff (s.port p).tick t
    if 2 ≤ d.natAbs then s.errorRecord { mkRec clsTimebase 2 5 with unit := p.num }
    else s.modPort p (fun x => { x with tickAdj := adj d })

def execTickCompare (h : TickCopy) (s : State) : Out := .next (s.tickCompare h)

/-! ### Proof marks and runs (spec/15 R397-R399) -/

/-- PRFMARK_BEGIN: the core's program writes PRFMARK with END = 0. -/
def execPrfmarkBegin (c : CoreId) (d : BitVec 8) (s : State) : Out := .next (s.progWrite c 0x1408 (d.setWidth 64))

/-- PRFMARK_END: the core's program writes PRFMARK with END = 1. -/
def execPrfmarkEnd (c : CoreId) (s : State) : Out := .next (s.progWrite c 0x1408 0x100)

/-- Both cores lie in one hub group (spec/15 R412). -/
def sameGroup (a b : CoreId) : Bool := coreField a == coreField b && coreHub a == coreHub b

/-- PRFRUN: a primary's run request reaches its proofer, or its voter; while four wait there, the primary's move engine is
held (spec/15 R399, R412). The request follows the copies of the inputs on one path (spec/08 R201). -/
def State.prfRun (s : State) (c : CoreId) : State :=
  match (s.core c).prf.requests with
  | [] => s
  | (dst, req) :: rest =>
    if !sameGroup c dst then State.kick kickFuel (s.modCore c (fun x => { x with prf := { x.prf with requests := rest } })) c
    else if 4 ≤ (s.core dst).prf.runq.length || s.net.any (fun p => p.srcCore == some c && p.dkind == 0 && p.dstCore == dst && !p.isResponse) then s
    else
      let s := s.modCore c (fun x => { x with prf := { x.prf with requests := rest } })
      let s := s.modCore dst (fun x => { x with prf := { x.prf with runq := x.prf.runq ++ [req] } })
      State.kick kickFuel s c

def execPrfrun (c : CoreId) (s : State) : Out := .next (s.prfRun c)

/-- PROOF_RUN_START: the oldest request starts once the proofer is halted (spec/15 R399 step 3). -/
def State.proofStart (s : State) (c : CoreId) : State :=
  let x := s.core c
  match x.prf.runq with
  | [] => s
  | req :: rest =>
    if x.prf.held || x.prf.running.isSome || !s.coreRuns c || !(x.isHalted (coreKind c)) then s
    else
      let y := CoreState.start (coreKind c) { x with entry := req.entry }
      s.setCore c { y with
        entry := x.entry
        prf := { x.prf with
          runq := rest
          running := some req
          count := sat1 x.prf.count } }

def execProofRunStart (c : CoreId) (s : State) : Out := .next (s.proofStart c)

/-- PRFCMP: the proof program writes PRFCMP. -/
def execPrfcmp (c : CoreId) (v : Word) (s : State) : Out := .next (s.progWrite c 0x1420 v)

/-! ### The vote (spec/15 R400, R401) -/

/-- What follows a confirmed silent error (R401): the record with the replacement advisory, and FREL.REPLACE;
under policy 0 the drain is then in force, and every running job is pre-empted at its next checkpoint (`State.develop`). -/
def State.silentError (s : State) (f : Nat) (faulty : CoreId) (primary : Bool) : State :=
  let s := s.errorRecord { mkRec clsSdc 4 3 with
    field := f
    job := (s.fieldJob f).getD 0xFF
    x := faulty.x
    y := faulty.y
    action := if s.mod.policy = 0 then 7 else 5
    detail := leBytes 1 (b2n primary)
    flags := 1 }
  let s := s.keepFlash
  { s with mod := { s.mod with replace := true } }

/-- VOTE_COMPLETE (Table 15.6): the oldest vote whose voter has its result. -/
def State.voteComplete (s : State) (f : Nat) : State :=
  match (s.field f).votes.find? (fun v => v.result.isSome) with
  | none => s
  | some v =>
    let pass := v.result == some true
    let s := s.modField f (fun x => { x with
      votes := x.votes.erase v
      prfPend := dropPend v.primary v.d x.prfPend
      voteX := BitVec.ofNat 10 v.primary.x
      voteY := BitVec.ofNat 10 v.primary.y
      voteFaulty := !pass
      voteValid := true })
    let s := if pass then
        let s := s.fenceCore v.proofer 1
        match s.fieldJob f with
        | some j => s.modJob j (fun q => { q with
            holds := { q.holds with fault := q.inPlace || !q.faultFields.isEmpty || !s.noVote j } })
        | none => s
      else s.deadCore v.primary 1
    s.silentError f (if pass then v.proofer else v.primary) (!pass)

def execVoteComplete (f : Nat) (s : State) : Out := .next (s.voteComplete f)

end Sys2Proof.Machine
end

