-- ==== Sys2Proof/Machine/HostRegs.lean ====
section
/-! DEFINITION. Registers as hosts, cores and the control processor reach them: BAR0, the MSI-X table, CTLDATA and
configuration requests (spec/00 R12, R13, spec/12 R301-R306, R324, R334, R495, spec/13 R339). -/

namespace Sys2Proof.Machine

/-- The host of a port owns the module (spec/12 R326). -/
def State.ownsPort (s : State) (p : Port) : Bool := (s.cp.owner.map (fun o => o.1 == p)).getD false

/-- A port serves TLPs: its link is up, it is ready, and it is not in D3hot (spec/12 R302, R331). -/
def State.serves (s : State) (p : Port) : Bool := (s.port p).linkUp && (s.port p).ready && !(s.port p).d3

/-! ### BAR0 (Tables 12.10, 13.1) -/

/-- Inbox slot state: 0 FREE, 1 FILLING, 2 BUSY (spec/13 R335). -/
def InSlot.code (x : InSlot) : Nat := if x.busy then 2 else if x.bytes.isEmpty then 0 else 1

/-- Epoch that a KIND 2 window stamps: that of its target queue (spec/12 R313). -/
def State.winEpoch (s : State) (w : InWin) : BitVec 2 :=
  if w.kind ≠ 2 then w.epoch
  else
    match (s.job w.job).place { lf := w.lf, pos := 96 * w.ly0 + w.lx0 } with
    | some c => ((s.core c).qu w.qid).d.epoch
    | none => 0

/-- Window registers. DESIGN CHOICE (log 38): a number open in both directions shows its inbound window. -/
def State.readWin (s : State) (p : Port) (w off : Nat) : Nat :=
  let x := s.port p
  match off with
  | 0x00 =>
    match (tget none x.inWin w).filter (fun i => !i.closing), tget none x.outWin w with
    | some i, _ => packFields [(0, 1), (2, i.kind), (4, i.perm.toNat), (6, b2n i.shared), (7, i.job), (11, (s.winEpoch i).toNat)]
    | none, some o => packFields [(0, 1), (1, 1), (4, o.perm.toNat)]
    | none, none => 0
  | 0x08 =>
    match (tget none x.inWin w).filter (fun i => !i.closing), tget none x.outWin w with
    | some i, _ => packFields [(0, i.base / 4096), (32, i.size / 4096)]
    | none, some o => packFields [(0, o.base / 4096), (32, o.size / 4096)]
    | none, none => 0
  | 0x10 => (tget 0 x.winNak w).toNat
  | 0x18 => (tget 0 x.winAcc w).toNat
  | _ => 0

/-- A register of BAR0; reserved offsets read as 0 (spec/12 R334). -/
def State.readBar0 (s : State) (p : Port) (off : Nat) : Nat :=
  let x := s.port p
  let own := s.ownsPort p
  match off with
  | 0x0000 => packFields [(0, p.num), (1, s.cp.cpact.num)]
  | 0x0008 => packFields [(0, b2n own), (1, b2n (s.ownsPort p.other)), (2, b2n (x.grace.isSome || (s.port p.other).grace.isSome)),
      (3, b2n (((s.cp.claim.bind s.entry).map (fun e => e.port == p)).getD false)), (4, b2n x.degraded),
      (5, b2n (s.mod.tsPresent && s.mod.tsrc == p)), (6, b2n (s.port p.other).linkUp)]
  | 0x0010 => s.cp.ownGen.toNat
  | 0x0018 => x.evt.toNat
  | 0x0020 => x.evtEn.toNat
  | 0x0028 => x.wrDeny.toNat
  | 0x0030 => x.rdDeny.toNat
  | 0x0038 => x.rdTmo.toNat
  | 0x0040 => x.obDisc.toNat
  | 0x0100 => packFields ((List.range 8).map (fun i => (2 * i, (tget {} x.slots i).code)))
  | 0x0110 => x.inboxDisc.toNat
  | 0x0118 => packFields [(0, x.logReason.toNat), (4, x.logSlot.toNat), (16, x.logOpcode.toNat), (63, b2n x.logValid)]
  | 0x0120 => packFields ((List.range 15).map (fun i => (i + 1, b2n (tget none x.sess (i + 1)).isSome)))
  | 0x0200 => x.ctlAddr.toNat
  | _ =>
    if 0x148 ≤ off ∧ off ≤ 0x1B8 ∧ off % 8 = 0 then (tget 0 x.ringCons ((off - 0x140) / 8)).toNat
    else if 0x400 ≤ off ∧ off < 0xC00 then s.readWin p ((off - 0x400) / 0x20) ((off - 0x400) % 0x20)
    else 0

/-- Clears an RC register of BAR0 (spec/00 R13). -/
def PortState.clearBar0 (x : PortState) (off : Nat) : PortState :=
  match off with
  | 0x0028 => { x with wrDeny := 0 }
  | 0x0030 => { x with rdDeny := 0 }
  | 0x0038 => { x with rdTmo := 0 }
  | 0x0040 => { x with obDisc := 0 }
  | 0x0110 => { x with inboxDisc := 0 }
  | _ =>
    if 0x400 ≤ off ∧ off < 0xC00 then
      let w := (off - 0x400) / 0x20
      match (off - 0x400) % 0x20 with
      | 0x10 => { x with winNak := tset x.winNak w 0 }
      | 0x18 => { x with winAcc := tset x.winAcc w 0 }
      | _ => x
    else x

/-- A 64-bit write of a BAR0 register. A write of RINGCONS lets kept entries go (spec/13 R347). -/
def PortState.writeBar0 (now : Nat) (x : PortState) (off : Nat) (v : Word) : PortState :=
  match off with
  | 0x0018 => { x with evt := x.evt &&& ~~~(v.extractLsb' 0 7) }
  | 0x0020 => { x with evtEn := v.extractLsb' 0 7 }
  | 0x0118 => { x with logValid := x.logValid && !v.getLsbD 63 }
  | 0x0200 => { x with ctlAddr := v.extractLsb' 0 48 }
  | _ =>
    if 0x148 ≤ off ∧ off ≤ 0x1B8 ∧ off % 8 = 0 then
      PortState.flushAll now { x with ringCons := tset x.ringCons ((off - 0x140) / 8) (v.extractLsb' 0 16) }
    else x

/-- A 64-bit word of BAR4: the MSI-X table at 0x0000-0x03FF, the pending bits at 0x2000 (spec/12 Table 12.2, R324). -/
def PortState.readBar4 (x : PortState) (off : Nat) : Nat :=
  if off < 0x400 then
    let m := x.vec (off / 16)
    if off % 16 = 0 then m.addr else packFields [(0, m.data), (32, b2n m.masked)]
  else if off = 0x2000 then packFields ((List.range 64).map (fun v => (v, b2n (x.vec v).pend)))
  else 0

/-- A 64-bit write of the MSI-X table in BAR4: address, or data with the vector's mask (spec/12 R324). -/
def PortState.writeMsix (now : Nat) (x : PortState) (off : Nat) (v : Word) : PortState :=
  let n := off / 16
  if 0x400 ≤ off then x
  else
    let m := x.vec n
    let m' := if off % 16 = 0 then { m with addr := v.toNat } else { m with data := nfld v.toNat 0 32, masked := v.getLsbD 32 }
    PortState.flushMsix now { x with msix := tset x.msix n m' }

/-- REGISTER_WRITE (spec/12 R304, R306, R334, R495). A host writes its own port's BAR0 and BAR4. A write of a control view is
discarded and counted in WRDENY, one of CTLDATA ignored. A core writes its own block only. The configuration path writes RTCFG. -/
def State.registerWrite (s : State) (p : RegPath) (c : CoreId) (addr : Nat) (v : Word) : State :=
  match p with
  | .bar0 q =>
    if !s.serves q then s else s.modPort q (fun x => PortState.writeBar0 s.mod.ctl x addr v)
  | .bar4 q => if !s.serves q then s else s.modPort q (fun x => PortState.writeMsix s.mod.ctl x addr v)
  | .view q => if !s.serves q then s else s.modPort q (fun x => { x with wrDeny := sat1 x.wrDeny })
  | .ctlData _ => s
  | .wafer => s.progWrite c addr v
  | .cp => if addr = 0xE08 ∧ (coreField c).isSome then s.setRouter c { s.router c with xmin := v.extractLsb' 0 6 } else s

def execRegisterWrite (p : RegPath) (c : CoreId) (addr : Nat) (v : Word) (s : State) : Out := .next (s.registerWrite p c addr v)

/-! ### Reads that change state (spec/00 R13, spec/09 R259, spec/12 R334) -/

/-- Clears the RC field at a device address in space 0x2 or 0x3. -/
def State.clearDa (s : State) (da : Nat) : State :=
  match nfld da 44 4, daDest da with
  | 2, some (0, x, y) => s.clearCoreReg ⟨x, y⟩ (nfld da 0 13)
  | 3, some (3, f, _) => s.clearFcReg f (nfld da 0 17)
  | _, _ => s

/-- XPTICKHI latch of a path (spec/09 R259); BAR0, BAR4 and the control processor have none. -/
def latchOf : RegPath → Option Nat
  | .view p => some p.num
  | .ctlData p => some p.num
  | .wafer => some 2
  | .bar0 _ => none
  | .bar4 _ => none
  | .cp => none

/-- XPTICKLO_READ. -/
def execXptickloRead (p : RegPath) (f : Nat) (s : State) : Out :=
  .next (match latchOf p with
    | some l => s.latchTick f l
    | none => s)

/-- The word CTLDATA returns at a device address, with the latch its read loads; none where the address is
outside spaces 0x2 and 0x3 or at a reserved offset. -/
def State.ctlRead (s : State) (p : Port) (da : Nat) : State × Option (Word × Bool) :=
  match nfld da 44 4, daDest da with
  | 2, some (0, x, y) => (s, s.peekBlock ⟨x, y⟩ (nfld da 0 13))
  | 3, some (3, f, _) =>
    let r := s.fcRead f p.num (nfld da 0 17)
    (r.1, r.2.map (fun v => (BitVec.ofNat 64 v, false)))
  | _, _ => (s, none)

/-- A host's read of the word at a device address through CTLDATA: its completion; from the owner's port it clears an RC field (spec/12
R334). -/
def State.ctldataAt (s : State) (p : Port) (tag da : Nat) : State :=
  if !s.serves p then s
  else
    match s.ctlRead p da with
    | (s, some v) => (if s.ownsPort p then s.clearDa da else s).modPort p (fun x => x.send (.cpl tag .sc [v]))
    | (s, none) => s.modPort p (fun x => PortState.send { x with rdDeny := sat1 x.rdDeny } (.cpl tag .sc [(BitVec.allOnes 64, false)]))

/-- CTLDATA_READ (spec/12 R334). -/
def State.ctldataRead (s : State) (p : Port) (tag : Nat) : State := s.ctldataAt p tag (s.port p).ctlAddr.toNat

def execCtldataRead (p : Port) (tag : Nat) (s : State) : Out := .next (s.ctldataRead p tag)

/-- CLEARING_READ: a host's read of its own port's BAR0 or BAR4 register, of CTLDATA with CTLADDR at `addr`, or the control processor's on
the owner's behalf. The host's reads return the value; the owner's clear an RC field, every other read clears nothing (spec/00 R12,
R13). -/
def State.clearingRead (s : State) (p : RegPath) (tag addr : Nat) : State :=
  match p with
  | .bar0 q =>
    if !s.serves q then s
    else
      let v : Word := BitVec.ofNat 64 (s.readBar0 q addr)
      s.modPort q (fun x => (if s.ownsPort q then x.clearBar0 addr else x).send (.cpl tag .sc [(v, false)]))
  | .bar4 q =>
    if !s.serves q then s
    else s.modPort q (fun x => x.send (.cpl tag .sc [(BitVec.ofNat 64 (x.readBar4 addr), false)]))
  | .ctlData q => s.ctldataAt q tag addr
  | .cp => if s.cp.owner.isSome && s.cp.active.isSome then s.clearDa addr else s
  | .view _ => s
  | .wafer => s

def execClearingRead (p : RegPath) (tag addr : Nat) (s : State) : Out := .next (s.clearingRead p tag addr)

/-! ### Configuration requests (spec/12 R301, R302, spec/00 R6) -/

/-- Offset of a capability: behind the type 0 header (PRESUMED, log 19: PCI's 64 bytes), where the implementation puts it. -/
def capAt (n : Nat) : Nat := 0x40 + Config.capOff n

/-- Bits of a base address register that hold its address, and its fixed bits: 64-bit memory, BAR2 prefetchable (spec/12 Table 12.2:
64 KiB, 64 GiB, 16 KiB). PRESUMED (log 19): PCI's layout, from offset 0x10 on. -/
def barBits (off : Nat) : BitVec 32 × BitVec 32 :=
  match off with
  | 0x10 => (0xFFFF0000, 0x4)
  | 0x14 => (0xFFFFFFFF, 0)
  | 0x18 => (0, 0xC)
  | 0x1C => (0xFFFFFFF0, 0)
  | 0x20 => (0xFFFFC000, 0x4)
  | _ => (0xFFFFFFFF, 0)

/-- A register of the Device Serial Number capability (spec/00 R7): its two halves hold the number. -/
def serialWord (serial : BitVec 64) (off : Nat) : Option (BitVec 32) :=
  if off = capAt 2 + 4 then some (serial.extractLsb' 0 32)
  else if off = capAt 2 + 8 then some (serial.extractLsb' 32 32)
  else none

/-- Registers whose fixed bits the manual's options give (spec/12 Table 12.1). PRESUMED (log 19): PCI Express's layout: completion timeout
ranges A and B in Device Capabilities 2, a timeout of 50 ms as Device Control 2's reset value, ECRC generation and checking in the
capability control of AER. -/
def optionWord (x : PortState) (off : Nat) : Option (BitVec 32) :=
  if off = capAt 0 + 0x24 then some ((Config.cfgWord off &&& 0xFFFFFFE0) ||| 0x13)
  else if off = capAt 0 + 0x28 then some (KMap.get (Config.cfgWord off &&& 0xFFFFFFF0) x.cfg off)
  else if off = capAt 3 + 0x18 then some ((KMap.get (Config.cfgWord off &&& 0xFFFFFEBF) x.cfg off) ||| 0xA0)
  else none

/-- A configuration register. PRESUMED (log 19): the offsets of the type 0 header; every other offset is PCI Express's own. -/
def State.cfgRead (s : State) (p : Port) (off : Nat) : BitVec 32 :=
  let x := s.port p
  if 0x10 ≤ off ∧ off < 0x28 then (KMap.get 0 x.cfg off &&& (barBits off).1) ||| (barBits off).2
  else
  match (serialWord s.fw.serial off).or (optionWord x off) with
  | some v => v
  | none =>
  match off with
  | 0x00 => BitVec.ofNat 32 ((if s.fw.grade = 0 then 0x60 else 0x61) * 2 ^ 16 + 0x1FB7)
  | 0x04 => BitVec.ofNat 32 (2 * b2n x.memEnable + 4 * b2n x.busMaster)
  | 0x08 => 0x12000001
  | 0x2C => 0x00011FB7
  | _ => KMap.get (Config.cfgWord off) x.cfg off

/-- A write of a configuration register: the command register, device control with its payload and read request sizes, the
MSI-X message control, and registers that only hold their value. -/
def PortState.cfgWrite (now : Nat) (x : PortState) (off : Nat) (v : BitVec 32) : PortState :=
  if off = 0x04 then { x with memEnable := v.getLsbD 1, busMaster := v.getLsbD 2 }
  else if off = 0x00 ∨ off = 0x08 ∨ off = 0x2C ∨ (serialWord 0 off).isSome ∨ off = capAt 0 + 0x24 then x
  else
    let x := { x with cfg := KMap.put x.cfg off v }
    if off = capAt 0 + 8 then
      { x with maxPayload := min 512 (128 * 2 ^ nfld v.toNat 5 3), maxReadReq := min 4096 (128 * 2 ^ nfld v.toNat 12 3) }
    else if off = capAt 1 then PortState.flushMsix now { x with msixEn := v.getLsbD 31, msixMask := v.getLsbD 30 }
    else x

/-- CONFIG_REQUEST: a read (`w` none) or a write of a configuration register, or Request Retry Status until the port is
ready. -/
def State.configRequest (s : State) (p : Port) (tag off : Nat) (w : Option (BitVec 32)) : State :=
  if !(s.port p).linkUp then s
  else if !(s.port p).ready then s.modPort p (fun x => x.send (.cpl tag .rrs []))
  else
    match w with
    | none =>
      let v := s.cfgRead p off
      s.modPort p (fun x => x.send (.cpl tag .sc [(v.setWidth 64, false)]))
    | some v => s.modPort p (fun x => (PortState.cfgWrite s.mod.ctl x off v).send (.cpl tag .sc []))

def execConfigRequest (p : Port) (tag off : Nat) (w : Option (BitVec 32)) (s : State) : Out := .next (s.configRequest p tag off w)

/-! ### MSI-X (spec/12 R325) -/

/-- MSIX_HOLDOFF_END: 100 ticks after a vector's last message, a message held back goes out. -/
def execMsixHoldoffEnd (p : Port) (v : Nat) (s : State) : Out :=
  .next (
    let m := (s.port p).vec v
    if m.heldBack && ((m.last.map (fun t => decide (t + 100 ≤ s.mod.ctl))).getD true) then
      s.modPort p (fun x => PortState.sendMsix s.mod.ctl { x with msix := tset x.msix v { m with heldBack := false } } v)
    else s)

end Sys2Proof.Machine
end

