-- ==== Sys2Proof/Machine/Windows.lean ====
section
/-! DEFINITION. Window traffic: inbound writes and reads, control views, outbound memory, fences, and the closing of windows
(spec/12 R304-R322, R492, spec/15 R393, R405). A TLP carries its bytes from its address on, none for a byte whose enable is 0. -/

namespace Sys2Proof.Machine

/-! ### Which window a TLP is in (R309, R315) -/

/-- A range lies wholly in a window, and the requester is accepted. -/
def InWin.holds (w : InWin) (req : BitVec 16) (off len : Nat) : Bool :=
  decide (w.base ≤ off ∧ off + len ≤ w.base + w.size) && ((req ^^^ w.reqId) &&& w.reqMask) == 0 && !w.closing

/-- The inbound window of a port that a range lies in, with a condition on it. -/
def PortState.findWin (x : PortState) (ok : InWin → Bool) (req : BitVec 16) (off len : Nat) : Option (Nat × InWin) :=
  (List.range 64).findSome? (fun i => (tget none x.inWin i).bind (fun w => if w.holds req off len && ok w then some (i, w) else none))

/-- Where an aperture offset of a window leads (R310): destination, device address, logical position, and the bytes up to the
boundary of that destination. -/
structure WinDest where
  dkind : Nat
  dx : Nat
  dy : Nat
  da : Nat
  lpos : Option LPos
  room : Nat
  deriving DecidableEq, Repr

/-- The destination of offset `a` of a window; none where the job holds no partition and the window reaches cores (R312). -/
def State.winDest (s : State) (w : InWin) (a : Nat) : Option WinDest :=
  let q := s.job w.job
  let core (lp : LPos) (off room : Nat) : Option WinDest :=
    if !q.holdsPartition then none
    else (q.place lp).map (fun c =>
      { dkind := 0, dx := c.x, dy := c.y, da := daCore c off, lpos := some lp, room := room })
  match w.kind with
  | 0 =>
    let c := a / max 1 w.stride
    let i := c % max 1 w.nx
    let j := c / max 1 w.nx
    core { lf := w.lf, pos := 96 * (w.ly0 + j * w.sy) + w.lx0 + i * w.sx } (w.boff + a % max 1 w.stride) (w.stride - a % max 1 w.stride)
  | 1 =>
    (q.region w.region w.stack).map (fun r =>
      { dkind := 1, dx := w.stack, dy := 0, da := packFields [(44, 1), (37, w.stack), (0, r.off + w.roff + a)], lpos := none,
        room := w.size - a })
  | _ => core { lf := w.lf, pos := 96 * w.ly0 + w.lx0 } 0 (w.size - a)

/-- Splits a run of bytes at the destinations' boundaries (R310). -/
def State.splitRun {α : Type} (s : State) (w : InWin) : Nat → Nat → List α → Option (List (WinDest × List α))
  | 0, _, _ => some []
  | n + 1, a, bs =>
    if bs.isEmpty then some []
    else
      match s.winDest w a with
      | none => none
      | some d =>
        let room := max 1 d.room
        match State.splitRun s w n (a + room) (bs.drop room) with
        | none => none
        | some t => some ((d, bs.take room) :: t)

/-! ### Packets of a companion die -/

/-- A packet tag that names no window write (the model's own: tags below 128 are 64·port + window). -/
def State.newTag (s : State) (d : Port) : Nat × State :=
  (128 + (s.port d).tagNext, s.modPort d (fun x => { x with tagNext := x.tagNext + 1 }))

/-- Words and byte masks of bytes that start at a byte of a word (R311, spec/05 R135). -/
def wordsOf (start : Nat) (bs : List (Option Byte)) : List (Word × BitVec 8) :=
  let l := List.replicate (start % 8) (none : Option Byte) ++ bs
  (List.range ((l.length + 7) / 8)).map (fun i =>
    let g := (l.drop (8 * i)).take 8
    (BitVec.ofNat 64 (leNat (g.map (fun b => b.getD 0))),
     BitVec.ofNat 8 ((g.zipIdx.map (fun e => if e.1.isSome then 2 ^ e.2 else 0)).foldl (· + ·) 0)))

/-- A packet a window sends from a die (R309, R312). -/
def State.winPacket (s : State) (p : Port) (i : Nat) (w : InWin) (d : WinDest) : Packet :=
  { ptype := pWrite
    dkind := d.dkind
    dx := d.dx
    dy := d.dy
    sx := 784 + p.num
    epoch := s.winEpoch w
    counted := (s.job w.job).holdsPartition
    slot := w.job
    tag := 64 * p.num + i }

/-- The WRITE of one destination, with the TLP's byte enables in FMASK and LMASK (R311), or the QSEND of a KIND 2 window. -/
def State.winWritePacket (s : State) (p : Port) (i : Nat) (w : InWin) (d : WinDest) (bs : List (Option Byte)) (poison : Bool) : Packet :=
  let ws := wordsOf d.da bs
  let base := s.winPacket p i w d
  let pay := ws.map (fun e => (e.1, poison))
  let da := d.da - d.da % 8
  if w.kind = 2 then
    { base with ptype := pQsend, qid := w.qid, len := ws.length, pay := pay, h1 := BitVec.ofNat 64 da }
  else
    let mask (o : Option (Word × BitVec 8)) : Nat := (o.map (fun e => e.2.toNat)).getD 0
    { base with len := ws.length, pay := pay
                h1 := BitVec.ofNat 64 (packFields [(0, da), (48, mask ws.head?), (56, mask ws.getLast?)]) }

/-! ### Inbound writes (R311-R315, R322, R254) -/

/-- A discarded window write. -/
def State.wrDenied (s : State) (p : Port) : State := s.modPort p (fun x => { x with wrDeny := sat1 x.wrDeny })

/-- The READ a fence sends to a destination (R322). DESIGN CHOICE (log 39): it reads the first word the window wrote there,
and names the first window that wrote there since the last fence. -/
def fenceRead (q : Packet) : Packet :=
  { q with ptype := pRead, len := 1, pay := [], qid := 0, counted := false, h1 := BitVec.ofNat 64 q.da }

/-- The fence table after a window's packet: one entry for each destination. -/
def PortState.noteDest (x : PortState) (q : Packet) (w : Nat) : PortState :=
  if x.fenceTab.any (fun e => e.1.dkind == q.dkind && e.1.dx == q.dx && e.1.dy == q.dy) then x
  else { x with fenceTab := x.fenceTab ++ [(fenceRead q, w)] }

/-- The port withholds posted credits: a full fence table, a full input log, or a replay that the TLP waits behind (R254, R322). -/
def State.withheld (s : State) (p : Port) (w : InWin) (bytes : Nat) : Bool :=
  let q := s.job w.job
  decide (4096 ≤ (s.port p).fenceTab.length) || q.rolled || q.replayTo.isSome ||
    (w.kind ≠ 1 && q.holdsPartition && decide (134217728 < q.logBytes p + bytes + 16 * (bytes / max 1 w.stride + 2)))

/-- Sends the packets of a write TLP. -/
def State.sendWrites (s : State) (p : Port) (i : Nat) (w : InWin) (poison : Bool) : List (WinDest × List (Option Byte)) → State
  | [] => s
  | (d, bs) :: t =>
    let q := s.winWritePacket p i w d bs poison
    let s := s.dieSend p q d.lpos (w.kind ≠ 1)
    State.sendWrites (s.modPort p (fun x => x.noteDest q i)) p i w poison t

/-- Tags of the fence READs of a port that are still on their way. -/
def PortState.fenceTags (x : PortState) (p : Port) : List Nat :=
  x.await.filterMap (fun a =>
    match a.2 with
    | .fence q _ => if q = p then some a.1 else none
    | .input _ _ => none)

/-- Sends the fence's READ to every destination of the table and empties it; their tags, after those of the port's fence READs that are
still on their way: those writes came before too (R322). Nothing is sent while no attachment reaches the wafer. -/
def State.issueFence (s : State) (p : Port) : State × List Nat :=
  let tab := (s.port p).fenceTab
  let s := s.modPort p (fun x => { x with fenceTab := [] })
  if (s.dieAttach p).isNone then (s, [])
  else
    tab.foldl (fun r e =>
      let (tag, s) := r.1.newTag p
      let s := s.modPort p (fun x => { x with await := x.await ++ [(tag, .fence p e.2)] })
      (s.send (.die p) { e.1 with tag := tag }, r.2 ++ [tag])) (s, (s.port p).fenceTags p)

/-- A full table: the port begins a fence by itself, so that its table empties (DEDUCED, log 39: no command could reach an inbox whose
port withholds credits). -/
def State.fenceFull (s : State) (p : Port) : State :=
  if 4096 ≤ (s.port p).fenceTab.length then (s.issueFence p).1 else s

/-- A write TLP in a window that permits it. -/
def State.windowWriteIn (s : State) (p : Port) (i : Nat) (w : InWin) (off : Nat) (bs : List (Option Byte)) (poison : Bool) : State :=
  let a := off - w.base
  if w.kind = 2 ∧ (off % 8 ≠ 0 ∨ bs.length % 8 ≠ 0 ∨ bs.any (·.isNone)) then s.wrDenied p
  else if (s.dieAttach p).isNone then s.wrDenied p
  else if s.withheld p w bs.length then s
  else
    match s.splitRun w (bs.length + 1) a bs with
    | none => s.wrDenied p
    | some l => ((s.sendWrites p i w poison l).modPort p (fun x => { x with winAcc := tmod x.winAcc i sat1 })).fenceFull p

/-- WINDOW_WRITE_TLP: a memory write in BAR2 (R306, R311-R315). -/
def State.windowWrite (s : State) (p : Port) (req : BitVec 16) (off : Nat) (bs : List (Option Byte)) (poison : Bool) : State :=
  if !s.serves p then s
  else if !s.ownsPort p then s.wrDenied p
  else
    match (s.port p).findWin (fun w => w.perm.getLsbD 1) req off bs.length with
    | some (i, w) => s.windowWriteIn p i w off bs poison
    | none => s.wrDenied p

def execWindowWriteTlp (p : Port) (req : BitVec 16) (off : Nat) (bytes : List (Option Byte)) (poison : Bool) (s : State) : Out :=
  .next (s.windowWrite p req off bytes poison)

/-! ### Inbound reads (R305, R306, R311, R315, R320, R321, R405) -/

/-- A completion without data that a counter counts: Unsupported Request in RDDENY, Completer Abort in RDTMO. -/
def State.readDenied (s : State) (p : Port) (tag : Nat) : State :=
  s.modPort p (fun x => PortState.send { x with rdDeny := sat1 x.rdDeny } (.cpl tag .ur []))

def State.readAborted (s : State) (p : Port) (tag : Nat) : State :=
  s.modPort p (fun x => PortState.send { x with rdTmo := sat1 x.rdTmo } (.cpl tag .ca []))

/-- The READ of `n` words of one destination, with its tag (R311). -/
def State.winReadPacket (s : State) (p : Port) (i : Nat) (w : InWin) (d : WinDest) (bytes tag : Nat) : Packet :=
  let n := (d.da % 8 + bytes + 7) / 8
  { s.winPacket p i w d with
    ptype := pRead, len := n, tag := tag
    h1 := BitVec.ofNat 64 (packFields [(0, d.da - d.da % 8), (48, tag % 8192)]) }

/-- Sends the READs of a read TLP and lists their tags. -/
def State.sendReads (s : State) (p : Port) (i : Nat) (w : InWin) : List (WinDest × List Unit) → State × List Nat
  | [] => (s, [])
  | (d, bs) :: t =>
    let (tag, s) := s.newTag p
    let q := s.winReadPacket p i w d bs.length tag
    let (s, l) := State.sendReads (s.send (.die p) q) p i w t
    (s, tag :: l)

/-- The window a read is in: one of the port's own, or a SHARED one of the other port (Table 12.6). -/
def State.readWindow (s : State) (p : Port) (req : BitVec 16) (off len : Nat) : Option (Port × Nat × InWin) :=
  match (s.port p).findWin (fun w => w.perm.getLsbD 0) req off len with
  | some (i, w) => some (p, i, w)
  | none => ((s.port p.other).findWin (fun w => w.perm.getLsbD 0 && w.shared) req off len).map (fun e => (p.other, e.1, e.2))

/-- A read in a window, arrived at `at_`: READs go out, and the completion follows with their RDATA (R320). Their packets carry the tag of
the port that reads. While the job is rolled back or its log replays, the read waits behind (spec/09 R254). -/
def State.windowReadIn (s : State) (p o : Port) (i : Nat) (w : InWin) (at_ tag off len : Nat) : State :=
  if w.kind = 2 then s.readDenied p tag
  else if (s.dieAttach p).isNone then s.readAborted p tag
  else if (s.job w.job).rolled || (s.job w.job).replayTo.isSome then
    s.modPort p (fun x => { x with heldReads := x.heldReads ++ [{ tag := tag, at_ := at_, win := (o, i), off := off, len := len }] })
  else
    match s.splitRun w (len + 1) (off - w.base) (List.replicate len ()) with
    | none => s.readDenied p tag
    | some l =>
      let (s, tags) := s.sendReads p i w l
      let s := s.modPort p (fun x =>
        { x with inReads := x.inReads ++ [{ tag := tag, at_ := at_, win := some (o, i), parts := tags.map (fun t => (t, none)) }] })
      s.modPort o (fun x => { x with winAcc := tmod x.winAcc i sat1 })

/-- A read that waited behind a replay goes on; where its window has closed it is a read in no window. -/
def State.serveHeld (s : State) (p : Port) (r : HeldRead) : State :=
  match tget none (s.port r.win.1).inWin r.win.2 with
  | some w => s.windowReadIn p r.win.1 r.win.2 w r.at_ r.tag r.off r.len
  | none => s.readDenied p r.tag

/-- Every held read of a port is tried again, in order; those of a job that still replays wait on. -/
def State.serveAllHeld (s : State) (p : Port) : State :=
  let l := (s.port p).heldReads
  if l.isEmpty then s else l.foldl (fun s r => s.serveHeld p r) (s.modPort p (fun x => { x with heldReads := [] }))

/-- One word of the core control view (R306): none where it completes as Unsupported Request, poisoned where the wafer refuses. -/
def State.coreView (s : State) (off : Nat) : State × Option (Word × Bool) :=
  let n := (off - 0xC00000000) / 0x2000
  let c := coreOfKey n
  let r := off % 0x2000 - off % 8
  if (coreField c).isNone || (s.peekBlock c r).isNone then (s, none)
  else if s.code c ≠ 0 || (s.core c).portClosed || !s.forwardsAt c then (s, some (0, true))
  else (s, s.peekBlock c r)

/-- One word of the field controller view (R306); XPTICKLO loads the port's latch (R305). -/
def State.fcView (s : State) (p : Port) (off : Nat) : State × Option (Word × Bool) :=
  let (s, v) := s.fcRead ((off - 0xE00000000) / 0x20000) p.num (off % 0x20000 - off % 8)
  (s, v.map (fun n => (BitVec.ofNat 64 n, false)))

/-- A word of a control view; none at every other offset of BAR2 (Table 12.3). -/
def State.viewRead (s : State) (p : Port) (off : Nat) : State × Option (Word × Bool) :=
  if 0xC00000000 ≤ off ∧ off < 0xD80000000 then s.coreView off
  else if 0xE00000000 ≤ off ∧ off < 0xE00780000 then s.fcView p off
  else (s, none)

/-- A read of a control view. DESIGN CHOICE (log 40): it is served when it arrives, over the configuration path. -/
def State.controlView (s : State) (p : Port) (tag off len : Nat) : State :=
  let (s', vs) := readRun s (fun s i => s.viewRead p (off + 8 * i)) (List.range ((off % 8 + len + 7) / 8))
  if vs.any (·.isNone) || vs.isEmpty then s.readDenied p tag
  else s'.modPort p (fun x => x.send (.cpl tag .sc (vs.map (fun v => v.getD (0, true)))))

/-- WINDOW_READ_TLP: a memory read in BAR2. -/
def State.windowRead (s : State) (p : Port) (req : BitVec 16) (tag off len : Nat) : State :=
  if !s.serves p then s
  else if 0xC00000000 ≤ off then s.controlView p tag off len
  else
    match s.readWindow p req off len with
    | some (o, i, w) => s.windowReadIn p o i w s.mod.ctl tag off len
    | none => s.readDenied p tag

def execWindowReadTlp (p : Port) (req : BitVec 16) (tag off len : Nat) (s : State) : Out := .next (s.windowRead p req tag off len)

/-- INBOUND_READ_TIMEOUT: 100,000 ticks after its arrival a read completes as Completer Abort (R320). -/
def execInboundReadTimeout (p : Port) (tag : Nat) (s : State) : Out :=
  .next (match (s.port p).inReads.find? (fun r => r.tag == tag) with
    | some r =>
      if r.at_ + 100000 ≤ s.mod.ctl then
        (s.modPort p (fun x => { x with inReads := x.inReads.filter (fun y => y ≠ r) })).readAborted p tag
      else s
    | none =>
      match (s.port p).heldReads.find? (fun r => r.tag == tag) with
      | some r =>
        if r.at_ + 100000 ≤ s.mod.ctl then
          (s.modPort p (fun x => { x with heldReads := x.heldReads.filter (fun y => y ≠ r) })).readAborted p tag
        else s
      | none => s)

/-! ### Outbound memory (R316-R318, R323, R393, R405) -/

/-- The outbound window that holds a range of a port's outbound aperture. -/
def PortState.findOut (x : PortState) (off len : Nat) : Option OutWin :=
  (List.range 64).findSome? (fun i => (tget none x.outWin i).bind (fun w =>
    if w.base ≤ off ∧ off + len ≤ w.base + w.size then some w else none))

def State.obCount (s : State) (d : Port) : State := s.modPort d (fun x => { x with obDisc := sat1 x.obDisc })

/-- Outbound traffic of a port is discarded (R317). -/
def PortState.noOutbound (x : PortState) : Bool := !x.linkUp || x.d3 || !x.busMaster

/-- The enabled bytes of a WRITE's words with their poison, in address order. -/
def Packet.outBytes (p : Packet) : List (Option (Byte × Bool)) :=
  (p.pay.zipIdx).flatMap (fun e => (List.range 8).map (fun b =>
    if (writeMask p e.2).getLsbD b then some (e.1.1.extractLsb' (8 * b) 8, e.1.2) else none))

/-- Runs of enabled bytes, each with its offset. -/
def byteRuns : Nat → List (Option (Byte × Bool)) → List (Nat × List (Byte × Bool))
  | _, [] => []
  | o, none :: t => byteRuns (o + 1) t
  | o, some b :: t =>
    match byteRuns (o + 1) t with
    | (o', l) :: rest => if o' = o + 1 then (o, b :: l) :: rest else (o, [b]) :: (o', l) :: rest
    | [] => [(o, [b])]

/-- Memory write TLPs for bytes with poison: within the payload size, across no 4 KiB boundary, with the poison indication where
a byte is poisoned (R317, R393). -/
def outTlps (mps : Nat) : Nat → Nat → List (Byte × Bool) → List Tx
  | 0, _, _ => []
  | f + 1, addr, bs =>
    if bs.isEmpty then []
    else
      let n := min mps (4096 - addr % 4096)
      .write addr ((bs.take n).map (·.1)) ((bs.take n).any (·.2)) :: outTlps mps f (addr + n) (bs.drop n)

/-- A refusal by a companion die, counted in OBDISC (R316). -/
def State.outRefuse (s : State) (d : Port) (p : Packet) (reason : Nat) : State :=
  let s := s.refuseAt p (.die d) (784 + d.num) 0 p.epoch reason p.len
  if reason = nakUnmapped then s.obCount d else s

/-- An outbound WRITE at a companion die. -/
def State.outWriteAt (s : State) (d : Port) (p : Packet) : State :=
  if !p.wellFormed then s.outRefuse d p nakMalformed
  else
    let off := nfld p.da 0 43
    match (if nfld p.da 44 4 = 4 then (s.port d).findOut off (8 * p.len) else none) with
    | none => s.outRefuse d p nakUnmapped
    | some w =>
      let s := s.takeOff (.die d) p
      if (s.port d).noOutbound then s.obCount d
      else
        let addr := w.haddr + (off - w.base)
        s.modPort d (fun x => { x with tx := x.tx ++
          (byteRuns 0 p.outBytes).flatMap (fun r => outTlps (max 1 x.maxPayload) (r.2.length + 1) (addr + r.1) r.2) })

/-- A packet for a die that no attachment reaches is refused on its way and counted in OBDISC (R405). -/
def State.unreached (s : State) (p : Packet) : Bool := (s.dieAttach (Port.ofNum p.dx)).isNone

/-- Runs an arrival at a companion die. -/
def State.outArrive (s : State) (k ty : Nat) (f : State → Port → Packet → State) : State :=
  match s.arriving k [ty] [2] with
  | none => s
  | some p =>
    let t := s.arrive k [ty] [2] (fun s p => f s (Port.ofNum p.dx) p)
    if s.unreached p && (match (s.route p).fin with
      | .refuse _ => true
      | _ => false) then t.obCount (Port.ofNum p.dx) else t

/-- OUTBOUND_WRITE. -/
def execOutboundWrite (k : Nat) (s : State) : Out := .next (s.outArrive k pWrite State.outWriteAt)

/-- The logical position of a core of a job. -/
def Job.lposOf (q : Job) (c : CoreId) : Option LPos :=
  (coreField c).bind (fun f => (q.logicalOf f).map (fun lf => { lf := lf, pos := corePos c }))

/-- A logged RDATA answers a READ that a re-run issues again: same exposure, requester and reply place (R254). -/
def LogEntry.answers (e : LogEntry) (q : Job) (d : Port) (p r : Packet) : Bool :=
  e.pkt.ptype == pRdata && e.die == d && e.expo == q.expNo && e.dest == (p.srcCore.bind q.lposOf) && e.pkt.len == r.len &&
    e.pkt.qid == r.qid && nfld e.pkt.h1.toNat 0 16 == nfld r.h1.toNat 0 16 && nfld e.pkt.h1.toNat 48 1 == nfld r.h1.toNat 48 1

/-- The RDATA of an outbound READ, with the READ's epoch. -/
def outRdata (d : Port) (p : Packet) (ws : List (Word × Bool)) : Packet := p.rdata (784 + d.num) 0 p.epoch ws

/-- An entry of the log goes behind the others, so that the next READ of the same place takes the next RDATA. -/
def rotateLog (e : LogEntry) (l : List LogEntry) : List LogEntry := l.erase e ++ [e]

/-- Memory read requests within the max read request size (R318). A tag names the whole READ (log 41). -/
def readReqs (size tag : Nat) : Nat → Nat → Nat → List Tx
  | 0, _, _ => []
  | f + 1, addr, len =>
    if len = 0 then []
    else
      let n := min len (min size (4096 - addr % 4096))
      .readReq tag addr n :: readReqs size tag f (addr + n) (len - n)

/-- The lowest tag that no outbound READ uses. -/
def PortState.freeTag (x : PortState) : Nat :=
  ((List.range 256).find? (fun t => x.outReads.all (fun r => r.tag ≠ t))).getD 256

/-- An outbound READ at a companion die: from the log in a replay, otherwise from host memory. -/
def State.outReadAt (s : State) (d : Port) (p : Packet) : State :=
  let off := nfld p.da 0 43
  if !p.wellFormed then s.outRefuse d p nakMalformed
  else
    match (if nfld p.da 44 4 = 4 then (s.port d).findOut off (8 * p.len) else none) with
    | none => s.outRefuse d p nakUnmapped
    | some w =>
      if !w.perm.getLsbD 0 then s.outRefuse d p nakUnmapped
      else
        let q := s.job p.slot
        let r := outRdata d p []
        match (if q.replayTo.isSome then q.log.find? (fun e => e.answers q d p r) else none) with
        | some e =>
          let s := (s.takeOff (.die d) p).send (.die d) { r with pay := e.pkt.pay }
          s.modJob p.slot (fun x => { x with log := rotateLog e x.log })
        | none =>
          let tag := (s.port d).freeTag
          (s.takeOff (.die d) p).modPort d (fun x => { x with
            outReads := x.outReads ++ [{ tag := tag, pkt := p }]
            tx := x.tx ++ readReqs (max 1 x.maxReadReq) tag (8 * p.len + 1) (w.haddr + (off - w.base)) (8 * p.len) })

/-- The die takes no further outbound READ while 256 are outstanding (Table 12.1). -/
def State.outFull (s : State) (k : Nat) : Bool :=
  match s.arriving k [pRead] [2] with
  | some p => decide (256 ≤ (s.port (Port.ofNum p.dx)).outReads.length)
  | none => false

/-- OUTBOUND_READ. -/
def execOutboundRead (k : Nat) (s : State) : Out := .next (if s.outFull k then s else s.outArrive k pRead State.outReadAt)

/-- OUTBOUND_COMPLETION: the data of an outbound READ, or none for a failed completion or a timeout; poison anywhere poisons its
RDATA (R318). The RDATA is logged (R254). -/
def State.outboundCompletion (s : State) (d : Port) (tag : Nat) (data : Option (List (Word × Bool))) : State :=
  match (s.port d).outReads.find? (fun r => r.tag == tag) with
  | none => s
  | some r =>
    let s := s.modPort d (fun x => { x with outReads := x.outReads.filter (fun y => y.tag ≠ tag) })
    let ws := ((data.getD []) ++ List.replicate r.pkt.len (0, true)).take r.pkt.len
    let bad := ws.any (·.2)
    s.dieSend d (outRdata d r.pkt (ws.map (fun w => (w.1, bad)))) (r.pkt.srcCore.bind (s.job r.pkt.slot).lposOf) true

def execOutboundCompletion (p : Port) (tag : Nat) (data : Option (List (Word × Bool))) (s : State) : Out :=
  .next (s.outboundCompletion p tag data)

/-! ### Fences (R322) -/

/-- A fence READ of a port is still on its way. -/
def State.fencing (s : State) (p : Port) (tag : Nat) : Bool :=
  (s.dieAttach p).isSome && (s.port p).await.any (fun a => a.1 == tag)

/-- FENCE_COMPLETE: every reply of a fence has returned, so its command may start. -/
def State.fenceComplete (s : State) (p : Port) : State :=
  let left (l : List Nat) : List Nat := l.filter (s.fencing p)
  let s' := s.modPort p (fun x => { x with slots := x.slots.map (fun y => { y with fence := left y.fence }) })
  { s' with cp := { s'.cp with journal := s'.cp.journal.map (fun e => if e.port = p then { e with fence := left e.fence } else e) } }

def execFenceComplete (p : Port) (s : State) : Out := .next (s.fenceComplete p)

/-! ### Closing windows (R314) -/

/-- Closes the inbound windows of a port that a test selects, and notes it in PORTEVT.WINCLOSED. -/
def State.closeInbound (s : State) (p : Port) (sel : InWin → Bool) : State :=
  let hit := (s.port p).inWin.toList.any (fun w => (w.map sel).getD false)
  let s := s.modPort p (fun x => { x with inWin := x.inWin.map (fun w => w.filter (fun i => !sel i)) })
  if hit then s.portEvent p evWinClosed else s

/-- Closes the outbound windows of a port that a test selects. -/
def State.closeOutbound (s : State) (p : Port) (sel : OutWin → Bool) : State :=
  let hit := (s.port p).outWin.toList.any (fun w => (w.map sel).getD false)
  let s := s.modPort p (fun x => { x with outWin := x.outWin.map (fun w => w.filter (fun i => !sel i)) })
  if hit then s.portEvent p evWinClosed else s

/-- Closes inbound windows of both ports. -/
def State.closeBoth (s : State) (sel : InWin → Bool) : State := (s.closeInbound .a sel).closeInbound .b sel

/-- A window's packets are on the wafer: its writes by their tag, its reads by their window. -/
def State.winOnWafer (s : State) (p : Port) (i : Nat) : Bool :=
  s.net.any (fun q => q.tag == 64 * p.num + i && decide (784 ≤ q.sx) && q.ptype ≠ pRead) ||
    ((s.port .a).inReads ++ (s.port .b).inReads).any (fun r => r.win == some (p, i))

end Sys2Proof.Machine
end

