-- ==== Sys2Proof/Machine/Inbox.lean ====
section
/-! DEFINITION. The command inbox: slots, commits, the steps that take a packet, the start of a command, kept entries
(spec/13 R335-R349, R354-R357, Tables 13.1-13.3, spec/12 R322). -/

namespace Sys2Proof.Machine

/-! ### Slots (R335-R338) -/

/-- INBOXLOG reasons (Table 13.1). -/
def inbMagic : Nat := 1
def inbVersion : Nat := 2
def inbLength : Nat := 3
def inbSession : Nat := 4
def inbSlotBusy : Nat := 5
def inbAborted : Nat := 6
def inbTakeover : Nat := 7

/-- The bytes `lo` to `lo + n - 1` of a slot are all there. -/
def InSlot.covers (x : InSlot) (lo n : Nat) : Bool := (List.range n).all (fun i => KMap.has x.bytes (lo + i))

/-- A little-endian number in a slot. -/
def InSlot.num (x : InSlot) (lo n : Nat) : Nat := leNat ((List.range n).map (fun i => KMap.get 0 x.bytes (lo + i)))

/-- A packet or a write discarded without a reply: counted, and logged if it is the first since the log was cleared. -/
def PortState.discard (x : PortState) (slot reason : Nat) : PortState :=
  let y := tget {} x.slots slot
  let x := { x with inboxDisc := sat1 x.inboxDisc }
  if x.logValid then x
  else
    { x with
      logReason := BitVec.ofNat 4 reason
      logSlot := BitVec.ofNat 3 slot
      logOpcode := if y.covers 0 8 then BitVec.ofNat 16 (y.num 6 2) else 0
      logValid := true }

/-- A slot returns to FREE. -/
def PortState.freeSlot (x : PortState) (slot : Nat) : PortState :=
  { x with slots := tset x.slots slot {}, order := x.order.filter (· ≠ slot) }

/-- What the first failing check of a complete header is (R337): MAGIC, VERSION, LENGTH. -/
def InSlot.headerBad (y : InSlot) : Option Nat :=
  let len := y.num 16 2
  if y.num 0 4 ≠ 0x4E494641 then some inbMagic
  else if y.num 4 2 ≠ 1 then some inbVersion
  else if len < 32 ∨ 4096 < len ∨ len % 8 ≠ 0 then some inbLength
  else none

/-- Bytes that a write leaves in a slot: a byte written twice keeps the later value (R336). -/
def InSlot.fill (y : InSlot) : Nat → List Byte → InSlot
  | _, [] => y
  | i, b :: t => InSlot.fill { y with bytes := KMap.put y.bytes i b } (i + 1) t

/-- The part of a write that falls in one slot (R336, R337): discarded while BUSY; once the header is complete it is checked;
the write that completes bytes 0 to LENGTH - 1 commits the packet, and its fence goes out (spec/12 R322). While no CP is
active a packet is discarded and counted (spec/17 R438). -/
def State.slotWrite (s : State) (p : Port) (slot at_ : Nat) (bs : List Byte) : State :=
  let x := s.port p
  let y := tget {} x.slots slot
  if bs.isEmpty then s
  else if y.busy then s.modPort p (fun x => x.discard slot inbSlotBusy)
  else
    let y := y.fill at_ bs
    let s := s.modPort p (fun x => { x with slots := tset x.slots slot y })
    if !y.covers 0 32 then s
    else
      match y.headerBad with
      | some r => s.modPort p (fun x => (x.discard slot r).freeSlot slot)
      | none =>
        if !y.covers 0 (y.num 16 2) then s
        else if s.cp.active.isNone then s.modPort p (fun x => PortState.freeSlot { x with inboxDisc := sat1 x.inboxDisc } slot)
        else
          let (s, tags) := s.issueFence p
          s.modPort p (fun x => { x with slots := tset x.slots slot { y with busy := true, fence := tags }, order := x.order ++ [slot] })

/-- A write splits at the slots' boundaries. -/
def State.inboxParts (s : State) (p : Port) : Nat → Nat → List Byte → State
  | 0, _, _ => s
  | n + 1, off, bs =>
    if bs.isEmpty then s
    else
      let room := 4096 - off % 4096
      State.inboxParts (s.slotWrite p (off / 4096) (off % 4096) (bs.take room)) p n (off + room) (bs.drop room)

/-- INBOX_WRITE: `off` counts from the inbox's first byte, BAR0 0x8000. -/
def execInboxWrite (p : Port) (off : Nat) (bytes : List Byte) (s : State) : Out :=
  .next (if s.serves p then s.inboxParts p 9 off bytes else s)

/-- INBOXCTL_ABORT: slots that are FILLING return to FREE (R337). -/
def PortState.abortSlots (x : PortState) (mask : BitVec 8) : PortState :=
  (List.range 8).foldl (fun x i =>
    let y := tget {} x.slots i
    if mask.getLsbD i && !y.busy && !y.bytes.isEmpty then (x.discard i inbAborted).freeSlot i else x) x

def execInboxctlAbort (p : Port) (mask : BitVec 8) (s : State) : Out :=
  .next (if s.serves p then s.modPort p (fun x => x.abortSlots mask) else s)

/-! ### Opcodes (Tables 13.7, 13.9, 13.11; R349, R356) -/

/-- Who may use an opcode: every session, the owner alone, or as the "Own" of the window commands says. -/
inductive Access where
  | yes
  | no
  | own
  deriving DecidableEq, Repr

/-- An opcode's parameter bytes: fixed, rounded up to 8, or a packet of 48 or 56 to 4,096 bytes. -/
inductive ParamLen where
  | fixed (n : Nat)
  | from_ (lo : Nat)
  deriving DecidableEq, Repr

/-- The opcode tables: number, access, parameter bytes. -/
def opcodeTable : List (Nat × Access × ParamLen) :=
  [(0x0000, .yes, .fixed 16), (0x0001, .yes, .fixed 0), (0x0002, .yes, .fixed 8), (0x0003, .yes, .fixed 0),
   (0x0004, .yes, .fixed 0), (0x0005, .yes, .fixed 0), (0x0100, .own, .fixed 64), (0x0101, .own, .fixed 8),
   (0x0102, .no, .fixed 16), (0x0103, .no, .fixed 8), (0x0104, .no, .fixed 8)] ++
  [(0x0200, .no, .fixed 24), (0x0201, .no, .fixed 8), (0x0202, .no, .fixed 8), (0x0203, .no, .fixed 8),
   (0x0204, .no, .fixed 8), (0x0205, .no, .fixed 8), (0x0206, .no, .fixed 8), (0x0207, .no, .fixed 24),
   (0x0208, .no, .fixed 8), (0x0209, .no, .fixed 8), (0x020A, .yes, .fixed 8), (0x020B, .no, .from_ 48)] ++
  [(0x0300, .yes, .fixed 0), (0x0301, .no, .fixed 8), (0x0302, .yes, .fixed 16), (0x0400, .no, .fixed 16),
   (0x0401, .no, .fixed 8), (0x0402, .yes, .fixed 16), (0x0403, .yes, .fixed 24), (0x0404, .no, .fixed 24),
   (0x0405, .no, .fixed 8), (0x0500, .no, .fixed 8), (0x0501, .no, .fixed 16), (0x0502, .no, .fixed 16),
   (0x0503, .yes, .fixed 16)] ++
  [(0x0600, .no, .fixed 8), (0x0601, .no, .from_ 48), (0x0602, .no, .fixed 0), (0x0603, .no, .fixed 8),
   (0x0604, .yes, .fixed 0), (0x0700, .yes, .fixed 0), (0x0701, .yes, .from_ 56), (0x0800, .no, .fixed 8),
   (0x0801, .no, .fixed 16), (0x0802, .no, .fixed 24)]

def opcodeRow (op : Nat) : Option (Access × ParamLen) := (opcodeTable.find? (fun r => r.1 == op)).map (·.2)

/-- LENGTH fits the opcode (R349). -/
def ParamLen.fits (l : ParamLen) (len : Nat) : Bool :=
  match l with
  | .fixed n => len == 32 + (n + 7) / 8 * 8
  | .from_ lo => decide (lo ≤ len ∧ len ≤ 4096)

/-- The commands marked W: CLAIM, JOB_INPUT, WAIT_EXP (R344). -/
def opWaits (op : Nat) : Bool := op == 0x0002 || op == 0x020B || op == 0x0302

/-- A sender may use an opcode (R356): an inbound window is the owner's to open or close. -/
def mayUse (owner : Bool) (a : Access) (dir : Nat) : Bool :=
  match a with
  | .yes => true
  | .no => owner
  | .own => owner || dir == 1

/-! ### Taking a packet (R342, R343, Table 13.3) -/

/-- Commands of a session accepted and not complete. -/
def State.outstanding (s : State) (p : Port) (n : Nat) : Nat := (s.cp.journal.filter (fun e => e.port == p && e.sess == n && !e.deaf)).length

/-- The payload of a DUPLICATE reply (R343). -/
def dupPayload (q : Session) (seq : Nat) : List Byte :=
  match q.hist.find? (fun e => e.1 == seq) with
  | some (_, some st) => leBytes 2 st ++ [0]
  | some (_, none) => leBytes 2 0 ++ [1]
  | none => leBytes 2 0 ++ [2]

/-- Uses up a sequence number and keeps its status, none while in progress (R342, R343). -/
def Session.useSeq (q : Session) (st : Option Nat) : Session :=
  let h := q.hist ++ [(q.nextSeq, st)]
  { q with nextSeq := q.nextSeq + 1, hist := h.drop (h.length - 64) }

/-- What a committed packet says. -/
structure InPacket where
  slot : Nat
  y : InSlot

def InPacket.opcode (k : InPacket) : Nat := k.y.num 6 2
def InPacket.sess (k : InPacket) : Nat := k.y.num 18 2
def InPacket.seq (k : InPacket) : Nat := k.y.num 20 4
def InPacket.len (k : InPacket) : Nat := k.y.num 16 2
def InPacket.quiet (k : InPacket) : Bool := k.y.num 24 4 % 2 == 1
def InPacket.resv (k : InPacket) : Bool := k.y.num 24 4 / 2 ≠ 0 || k.y.num 28 4 ≠ 0

/-- Replies to a packet that is not journaled; its slot is FREE again. -/
def State.refusePacket (s : State) (p : Port) (k : InPacket) (st : Nat) (pay : List Byte) : State :=
  s.modPort p (fun x => PortState.put s.mod.ctl (x.freeSlot k.slot) k.sess
    { tag := k.y.num 8 8, status := st, opcode := k.opcode, quiet := k.quiet, payload := pay })

/-- Changes a session. -/
def PortState.modSess (x : PortState) (n : Nat) (f : Session → Session) : PortState :=
  { x with sess := tmod x.sess n (fun o => o.map f) }

/-- A packet that reached step 3 is refused: its number is used up. -/
def State.refuseSeq (s : State) (p : Port) (k : InPacket) (st : Nat) : State :=
  (s.modPort p (fun x => x.modSess k.sess (fun q => q.useSeq (some st)))).refusePacket p k st []

/-- A packet is journaled, and its slot is FREE again. -/
def State.journalPacket (s : State) (p : Port) (k : InPacket) : State :=
  let e : Entry :=
    { id := s.cp.nextId, port := p, sess := k.sess, seq := k.seq, tag := k.y.num 8 8, opcode := k.opcode, quiet := k.quiet
      param := (List.range (k.len - 32)).map (fun i => KMap.get 0 k.y.bytes (32 + i)), fence := k.y.fence, resv := k.resv }
  let s := s.modPort p (fun x => PortState.freeSlot (x.modSess k.sess (fun q => q.useSeq none)) k.slot)
  { s with cp := { s.cp with journal := s.cp.journal ++ [e], nextId := s.cp.nextId + 1 } }

/-- Steps 3 to 6 of Table 13.3. -/
def State.acceptPacket (s : State) (p : Port) (k : InPacket) : State :=
  match opcodeRow k.opcode with
  | none => s.refuseSeq p k stBadOpcode
  | some (a, l) =>
    if !l.fits k.len then s.refuseSeq p k stBadLength
    else if !mayUse (s.ownsPort p) a (k.y.num 32 1) then s.refuseSeq p k stNotOwner
    else if 64 ≤ s.outstanding p k.sess then s.refuseSeq p k stBusy
    else s.journalPacket p k

/-- The ring that a HELLO's parameters name: RBASE, RLOG2, ESIZE and VECTOR are in their ranges (Table 13.7). -/
def ringOk (rbase rlog2 esize vector : Nat) : Bool :=
  rbase % 64 == 0 && decide (4 ≤ rlog2 ∧ rlog2 ≤ 12) && decide (esize ≤ 6) && decide (1 ≤ vector ∧ vector ≤ 63)

/-- The reply of a HELLO that opens no session: entry 0 of the ring it names (log 43). -/
def PortState.helloReply (now : Nat) (x : PortState) (rbase vector tag st : Nat) (quiet : Bool) : PortState :=
  let x := x.send (.write rbase (leBytes 8 tag ++ leBytes 2 st ++ leBytes 2 0 ++ leBytes 2 0 ++ [0, 1]))
  if quiet then x else PortState.sendMsix now x vector

/-- A HELLO of a wrong LENGTH: BAD_LENGTH on the ring it names; one that names none has no place for a reply (log 43). -/
def State.refuseHello (s : State) (p : Port) (k : InPacket) : State :=
  let y := k.y
  if 48 ≤ k.len && ringOk (y.num 32 8) (y.num 40 1) (y.num 41 1) (y.num 42 1) then
    s.modPort p (fun x => PortState.helloReply s.mod.ctl (x.freeSlot k.slot) (y.num 32 8) (y.num 42 1) (y.num 8 8) stBadLength k.quiet)
  else s.modPort p (fun x => (x.discard k.slot inbLength).freeSlot k.slot)

/-- Takes one packet through the steps of Table 13.3. -/
def State.takePacket (s : State) (p : Port) (k : InPacket) : State :=
  if k.opcode = 0 ∧ k.sess = 0 ∧ k.seq = 0 then
    if ((opcodeRow 0).map (fun r => r.2.fits k.len)).getD false then s.journalPacket p k else s.refuseHello p k
  else
    match tget none (s.port p).sess k.sess with
    | none => s.modPort p (fun x => (x.discard k.slot inbSession).freeSlot k.slot)
    | some q =>
      if k.seq < q.nextSeq then s.refusePacket p k stDuplicate (dupPayload q k.seq)
      else if q.nextSeq < k.seq then s.refusePacket p k stSeqGap []
      else s.acceptPacket p k

/-- A committed packet of a session with 64 kept entries waits in its slot (R347). -/
def PortState.slotHeld (x : PortState) (slot : Nat) : Bool :=
  ((tget none x.sess ((tget {} x.slots slot).num 18 2)).map (fun q => decide (64 ≤ q.kept.length))).getD false

/-- PACKET_TAKE: the active CP takes the oldest committed packet of a port; one that waits in its slot holds back the port's later ones
(spec/01 R20, R338). -/
def State.packetTake (s : State) (p : Port) : State :=
  if !s.cpRuns then s
  else
    match (s.port p).order with
    | [] => s
    | i :: _ => if (s.port p).slotHeld i then s else s.takePacket p { slot := i, y := tget {} (s.port p).slots i }

def execPacketTake (p : Port) (s : State) : Out := .next (s.packetTake p)

/-! ### Starting a command (R344, R322) -/

/-- The job slot that a command names. -/
def Entry.slot (e : Entry) : Option Nat :=
  if e.opcode = 0x100 then (if e.p 0 1 = 0 then some (e.p 4 1) else none)
  else if e.opcode = 0x102 ∨ e.opcode = 0x103 ∨ (0x200 ≤ e.opcode ∧ e.opcode ≤ 0x20B) ∨ e.opcode = 0x302 ∨ e.opcode = 0x400 ∨
      e.opcode = 0x404 ∨ (0x800 ≤ e.opcode ∧ e.opcode ≤ 0x802) then some (e.p 0 1)
  else none

/-- A W command that waits holds back no later one; before it waits it does. -/
def Entry.holdsBack (e : Entry) : Bool := !(opWaits e.opcode && e.started && e.waiting)

/-- An earlier command keeps a command from starting: one of its session, or one that names its job slot. -/
def Entry.after (e d : Entry) : Bool :=
  decide (d.id < e.id) && d.holdsBack && ((d.port == e.port && d.sess == e.sess && d.deaf == e.deaf) || (e.slot.isSome && d.slot == e.slot))

/-- COMMAND_START: an accepted command starts once its fence is complete and nothing earlier holds it back. -/
def State.commandStart (s : State) (n : Nat) : State :=
  match s.entry n with
  | none => s
  | some e =>
    if s.cpRuns && !e.started && (e.fence.filter (s.fencing e.port)).isEmpty && !(s.cp.journal.any (fun d => e.after d)) then
      s.modEntry n (fun e => { e with started := true })
    else s

def execCommandStart (n : Nat) (s : State) : Out := .next (s.commandStart n)

/-- KEPT_REPLY_POST: the oldest kept entry of session `n` is posted once the ring has room (R347). -/
def execKeptReplyPost (p : Port) (n : Nat) (s : State) : Out :=
  .next (s.modPort p (fun x => PortState.flushKept s.mod.ctl 1 x n))

/-! ### What every opcode checks when it starts -/

/-- The bytes of the parameters outside the listed ranges are 0, and so are the header's reserved bytes (R349). -/
def Entry.clean (e : Entry) (used : List (Nat × Nat)) : Bool :=
  !e.resv && (e.param.zipIdx).all (fun b => b.1 == 0 || used.any (fun r => decide (r.1 ≤ b.2 ∧ b.2 < r.1 + r.2)))

/-- Runs a command that has started: its opcode is `op`; a parameter outside its range or a reserved byte that is not 0 gives
BAD_PARAM. DESIGN CHOICE (log 42): a command whose effect takes time runs again when it completes, with `waiting` set. -/
def State.cmd (s : State) (n op : Nat) (used : List (Nat × Nat)) (ok : Entry → Bool) (f : Entry → State) : State :=
  match s.entry n with
  | none => s
  | some e =>
    if !(e.started && e.opcode == op && s.cpRuns) then s
    else if !e.waiting && !(e.clean used && ok e) then s.complete e stBadParam []
    else f e

/-- A command waits for its completion. -/
def State.wait (s : State) (e : Entry) : State := s.modEntry e.id (fun x => { x with waiting := true })

/-- A resident job's slot (spec/09 R224). -/
def State.resident (s : State) (j : Nat) : Bool := (s.job j).state != .empty

/-- Writes a command's data to host memory at HADDR before its reply (R346), or gives BAD_PARAM with the length needed where
the buffer is too small. -/
def State.hostWrite (s : State) (e : Entry) (haddr hlen : Nat) (data : List Byte) (pay : List Byte) : State :=
  if hlen < data.length then s.complete e stBadParam (leBytes 8 data.length)
  else (s.modPort e.port (fun x => if x.noOutbound then x else x.sendWrite haddr data)).complete e stOk pay

end Sys2Proof.Machine
end

