-- ==== Sys2Proof/Machine/FwOps.lean ====
section
/-! DEFINITION. Firmware images, flash slots and the update state machine (spec/17 R433-R447). -/

namespace Sys2Proof.Machine

/-! ### The image (R434, R435) -/

/-- A little-endian number in an image. -/
def imgNum (im : List Byte) (lo n : Nat) : Nat := bytesAt im lo n

/-- Targets: 0 MODULE, 1 MC, 2 LOADER, with the sizes of their flash regions (Table 17.1). -/
def regionSize (target : Nat) : Nat :=
  match target with
  | 0 => 33554432
  | 1 => 4194304
  | _ => 524288

/-- A size that R434 allows: head, payload of a multiple of 8 bytes, signature block, within the region. -/
def sizeOk (target size : Nat) : Bool := decide (5744 ≤ size ∧ size ≤ regionSize target) && (size - 5744) % 8 == 0

/-- One component entry: kind, offset, length, and whether its zero fields are zero. -/
def imgComp (im : List Byte) (i : Nat) : Nat × Nat × Nat × Bool :=
  let b := 128 + 16 * i
  (imgNum im b 1, imgNum im (b + 4) 4, imgNum im (b + 8) 4, imgNum im (b + 1) 3 == 0 && imgNum im (b + 12) 4 == 0)

/-- Kinds of components a target's image holds exactly one of. -/
def targetKinds (target : Nat) : List Nat :=
  match target with
  | 0 => [1, 2, 3]
  | 1 => [4]
  | _ => [5]

/-- The components lie within the payload, do not overlap, are those of the target, and the other entries are zero. -/
def compsOk (im : List Byte) (target : Nat) : Bool :=
  let n := imgNum im 15 1
  let pay := imgNum im 16 4
  let cs := (List.range n).map (imgComp im)
  decide (1 ≤ n ∧ n ≤ 16) &&
    cs.all (fun c => 1 ≤ c.1 && c.1 ≤ 5 && c.2.1 % 8 == 0 && decide (c.2.1 + c.2.2.1 ≤ pay) && c.2.2.2) &&
    cs.zipIdx.all (fun a => cs.zipIdx.all (fun b => a.2 == b.2 || !(decide (a.1.2.1 < b.1.2.1 + b.1.2.2.1 ∧ b.1.2.1 < a.1.2.1 + a.1.2.2.1)))) &&
    (targetKinds target).all (fun k => (cs.filter (fun c => c.1 == k)).length == 1) &&
    (List.range (16 - n)).all (fun i => (List.range 16).all (fun b => imgNum im (128 + 16 * (n + i) + b) 1 == 0))

/-- Step 1 of Table 17.4; the last three bytes of the signature block are zero fields too (R435). -/
def headOk (im : List Byte) (target : Nat) : Bool :=
  sizeOk target im.length && im.length == 5744 + imgNum im 16 4 && imgNum im 0 4 == 0x46574258 && imgNum im 4 2 == 1 &&
    imgNum im 6 1 == target && decide (imgNum im 7 1 < 2) && decide (imgNum im 12 1 ≤ 96) && decide (imgNum im 13 1 < 4) &&
    decide (imgNum im 14 1 < 16) && nfld (imgNum im 14 1) (imgNum im 13 1) 1 == 0 && imgNum im 22 2 == 0x60 && imgNum im 24 8 == 0 &&
    imgNum im 80 48 == 0 && imgNum im (im.length - 3) 3 == 0 && compsOk im target

def imgSvn (im : List Byte) : Nat := imgNum im 12 1
def imgKey (im : List Byte) : Nat := imgNum im 13 1
def imgRevoke (im : List Byte) : BitVec 4 := BitVec.ofNat 4 (imgNum im 14 1)
def imgHitless (im : List Byte) : Bool := imgNum im 7 1 % 2 == 1
def imgStateVer (im : List Byte) : Nat := imgNum im 20 2

/-- The outcome of R437: OK, or the status of the first check that fails. -/
def FwState.verify (fw : FwState) (target : Nat) (im : List Byte) : Nat :=
  let n := im.length - 5360
  let sig := im.drop n
  let m := im.take 384
  if !headOk im target then stImage
  else if Config.sha384 ((im.take n).drop 384) ≠ BitVec.ofNat 384 (imgNum im 32 48) then stImage
  else if Config.sha384 (sig.take 1984) ≠ tget 0 fw.keyHash (imgKey im) ∨ fw.revoke.getLsbD (imgKey im) then stSignature
  else if imgSvn im < fw.arc then stRollback
  else if !(Config.ed25519Ok (sig.take 32) m ((sig.drop 1984).take 64)) then stSignature
  else if !(Config.mldsaOk ((sig.take 1984).drop 32) m ((sig.drop 2048).take 3309)) then stSignature
  else stOk

/-! ### Slots (R439, Table 17.5) -/

def slotEmpty : Nat := 0
def slotWritten : Nat := 1
def slotPending : Nat := 2
def slotTrial : Nat := 3
def slotGood : Nat := 4
def slotBad : Nat := 5

/-- A slot pair and the chosen slot. -/
abbrev SlotPair := Vector FlashSlot 2

/-- Rule 4: a chosen slot that fails verification becomes BAD, and the other is chosen if it is GOOD. -/
def FwState.checkSlot (fw : FwState) (target i : Nat) (v : SlotPair) (again : Bool) : SlotPair × Option Nat :=
  if fw.verify target (tget {} v i).image = stOk then (v, some i)
  else
    let v := tmod v i (fun x => { x with state := slotBad })
    let o := 1 - i
    if again && (tget {} v o).state == slotGood then
      if fw.verify target (tget {} v o).image = stOk then (v, some o) else (tmod v o (fun x => { x with state := slotBad }), none)
    else (v, none)

/-- What a chooser does at a start (R439). -/
def FwState.chooseSlot (fw : FwState) (target : Nat) (v : SlotPair) : SlotPair × Option Nat :=
  let v := v.map (fun x => if x.state = slotTrial then { x with state := slotBad } else x)
  match (List.range 2).find? (fun i => (tget {} v i).state == slotPending) with
  | some i => fw.checkSlot target i (tmod v i (fun x => { x with state := slotTrial })) true
  | none =>
    match (List.range 2).filter (fun i => (tget {} v i).state == slotGood) with
    | [i] => fw.checkSlot target i v false
    | [i, j] => fw.checkSlot target (if (tget {} v i).gen < (tget {} v j).gen then j else i) v true
    | _ => (v, none)

/-- Changes a slot of a target in both dies: for MC the slot that each die does not run. -/
def FwState.modSlots (fw : FwState) (target slot : Nat) (f : FlashSlot → FlashSlot) : FwState :=
  let one (p : Port) (d : Flash) : Flash :=
    if target = 0 then { d with mod := tmod d.mod slot f } else { d with mc := tmod d.mc (1 - fw.runMc.get p) f }
  { fw with flash := { a := one .a fw.flash.a, b := one .b fw.flash.b } }

/-! ### The update state machine (R442-R444) -/

/-- An update that is not being activated ends: its staging is discarded and its slot is EMPTY (Table 17.6). -/
def FwState.dropUpdate (fw : FwState) : FwState :=
  match fw.upd with
  | none => fw
  | some u =>
    if u.state = 4 then fw
    else
      let fw := { fw with upd := none }
      if u.state = 3 ∧ u.target ≠ 2 then fw.modSlots u.target u.slot (fun _ => {}) else fw

/-- Ends an update whose source a test selects. -/
def State.dropUpdateIf (s : State) (sel : UpdSrc → Bool) : State :=
  if (s.fw.upd.map (fun u => sel u.src)).getD false then { s with fw := s.fw.dropUpdate } else s

/-- The source is a port's session. -/
def UpdSrc.isPort (u : UpdSrc) : Bool :=
  match u with
  | .port _ _ => true
  | _ => false

/-- A begin from any source: refused while an update is in progress; one that is written and not activated is discarded. -/
def FwState.begin (fw : FwState) (src : UpdSrc) (target size : Nat) : FwState × Nat :=
  if 2 < target ∨ !sizeOk target size then (fw, stBadParam)
  else
    match fw.upd with
    | some u =>
      if u.state = 3 then ({ fw.dropUpdate with upd := some { src := src, target := target, size := size } }, stOk) else (fw, stBadState)
    | none => ({ fw with upd := some { src := src, target := target, size := size } }, stOk)

/-- A block of the source that began the update; a later block replaces earlier bytes. -/
def FwState.block (fw : FwState) (src : UpdSrc) (off : Nat) (data : List Byte) : FwState × Nat :=
  match fw.upd with
  | none => (fw, stBadState)
  | some u =>
    if u.src ≠ src ∨ u.state ≠ 1 then (fw, stBadState)
    else if u.size < off + data.length then (fw, stBadParam)
    else
      let bytes := (data.zipIdx).foldl (fun m b => KMap.put m (off + b.2) b.1) u.bytes
      ({ fw with upd := some { u with bytes := bytes } }, stOk)

/-- The staged image. -/
def Update.image (u : Update) : List Byte := (List.range u.size).map (fun i => KMap.get 0 u.bytes i)

/-- Distinct bytes received below SIZE. -/
def Update.received (u : Update) : Nat := (u.bytes.filter (fun b => decide (b.1 < u.size))).length

/-- The end of an update's blocks: verification, then the write into the slot not running in both dies; a LOADER image stays in
staging. Flash writes wait while the supply warning holds: none. DEDUCED (log 57): an image that fails ends the update. -/
def FwState.finish (fw : FwState) (warning : Bool) : FwState × Option Nat :=
  match fw.upd with
  | none => (fw, some stBadState)
  | some u =>
    if u.state ≠ 1 ∧ u.state ≠ 2 then (fw, some stBadState)
    else if u.received < u.size then (fw, some stBadState)
    else
      let st := fw.verify u.target u.image
      if st ≠ stOk then ({ fw with upd := none }, some st)
      else if u.target = 2 then ({ fw with upd := some { u with state := 3 } }, some stOk)
      else if warning then ({ fw with upd := some { u with state := 2 } }, none)
      else
        let slot := 1 - fw.runMod
        let fw := fw.modSlots u.target slot (fun _ => { state := slotWritten, gen := 0, image := u.image })
        ({ fw with upd := some { u with state := 3, slot := slot, bytes := [] } }, some stOk)

/-- The running MODULE image of a die, and its MC image. -/
def FwState.modImage (fw : FwState) (p : Port) : List Byte := (tget {} (fw.flash.get p).mod fw.runMod).image
def FwState.mcImage (fw : FwState) (p : Port) : List Byte := (tget {} (fw.flash.get p).mc (fw.runMc.get p)).image

/-- The written image of the update's target slot. -/
def FwState.written (fw : FwState) (u : Update) (p : Port) : List Byte := (tget {} (fw.flash.get p).mod u.slot).image

/-- FW_STATUS's payload (Table 17.11). -/
def FwState.status (fw : FwState) (cpact : Port) : List Byte :=
  let src : Nat × Nat := match (fw.upd.map (fun u => u.src) : Option UpdSrc) with
    | some (.port p n) => (p.num, n)
    | some .service => (2, 0)
    | some .pldm => (3, 0)
    | none => (0, 0)
  let u : Update := fw.upd.getD { src := .service, target := 0, size := 0, state := 0 }
  let slot (x : FlashSlot) (run : Bool) : List Byte :=
    leBytes 1 (x.state + 8 * b2n run) ++ leBytes 1 (imgSvn x.image) ++ leBytes 1 (imgKey x.image) ++ [0] ++ leBytes 4 (imgNum x.image 8 4)
  let die (p : Port) : List Byte :=
    let d := fw.flash.get p
    (List.range 2).flatMap (fun i => slot (tget {} d.mod i) (i == fw.runMod)) ++
      (List.range 2).flatMap (fun i => slot (tget {} d.mc i) (i == fw.runMc.get p)) ++ slot d.loader true
  let st := if u.state = 3 then 3 else u.state
  leBytes 1 (if fw.upd.isNone then 0 else st) ++ leBytes 1 u.target ++ leBytes 1 src.1 ++ leBytes 1 src.2 ++ leBytes 4 u.size ++
    leBytes 4 (if u.state = 3 ∧ u.target ≠ 2 then u.size else u.received) ++ leBytes 1 fw.arc ++ leBytes 1 fw.revoke.toNat ++
    leBytes 1 cpact.num ++ [0] ++ die .a ++ die .b

end Sys2Proof.Machine
end

