-- ==== Sys2Proof/Machine/Owner.lean ====
section
/-! DEFINITION. Ownership, and the ends of sessions and ports (spec/12 R326-R330, Table 12.8, spec/13 R341, Tables 13.11, 13.12,
spec/14 R359, spec/16 R416, R432). -/

namespace Sys2Proof.Machine

/-! ### Debug snapshots (spec/16 R432) -/

/-- Discards what a test selects of the snapshots, with their reservations. -/
def State.dropSnaps (s : State) (sel : Snap → Bool) : State :=
  { s with snaps := s.snaps.map (fun x => if sel x then Snap.none else x) }

/-- A port's session asked for the snapshot. -/
def Snap.ofPort (p : Port) (x : Snap) : Bool :=
  match x with
  | .asked q _ _ _ _ => q == p
  | .held q _ _ _ => q == p
  | _ => false

/-! ### The time source (spec/14 R359) -/

/-- A connector's REFCLK may be locked to: present and settled (R361). -/
def State.refUsable (s : State) (p : Port) : Bool := (s.port p).refPresent && (s.port p).refSettled

/-- At a change of owner the time source moves to the new owner's REFCLK. DEDUCED (log 46): only once it is settled, and then
at that event (spec/00 R2); while no time source is present, Table 14.3 decides first. -/
def State.sourceFollows (s : State) (p : Port) : State :=
  if s.refUsable p && s.mod.tsPresent then { s with mod := { s.mod with tsrc := p } } else s

/-- The time source follows the owner's REFCLK where there is an owner (spec/00 R2). -/
def State.sourceOfOwner (s : State) : State :=
  match s.cp.owner with
  | some (p, _) => s.sourceFollows p
  | none => s

/-! ### Changes of owner (spec/12 R327) -/

/-- One change of owner: OWNGEN, PORTEVT.OWNCHG, an update from an inbox (spec/17 Table 17.6), the windows of a port that loses
ownership, its snapshots, the time source. -/
def State.setOwner (s : State) (new : Option (Port × Nat)) : State :=
  let old := s.cp.owner.map (·.1)
  let s := { s with cp := { s.cp with owner := new, ownGen := s.cp.ownGen + 1 } }
  let s := (s.bothEvent evOwnChg).dropUpdateIf UpdSrc.isPort
  let s : State := match old with
    | some p => if new.map (·.1) = some p then s else (s.closeInbound p (fun _ => true)).dropSnaps (Snap.ofPort p)
    | none => s
  s.sourceOfOwner

/-- OWNGEN as a reply carries it. -/
def State.genBytes (s : State) : List Byte := leBytes 4 s.cp.ownGen.toNat

/-- The waiting claim is granted and its CLAIM answered (R327, R329). -/
def State.grantClaim (s : State) (e : Entry) : State :=
  let s := ({ s with cp := { s.cp with claim := none } }).setOwner (some (e.port, e.sess))
  s.complete e stOk s.genBytes

/-- The claim that waits. -/
def State.waitingClaim (s : State) : Option Entry := s.cp.claim.bind s.entry

/-- The owner is released: the waiting claim is granted, or there is no owner (Table 12.8). -/
def State.releaseOwner (s : State) : State :=
  match s.waitingClaim with
  | some e => s.grantClaim e
  | none => s.setOwner none

/-! ### Ends of sessions (spec/13 R341, Table 13.12) -/

/-- W commands of a session end ABORTED; `claims`: its waiting claim with them, which a BYE does not withdraw (spec/12 R329). -/
def State.abortSession (s : State) (p : Port) (n : Nat) (claims : Bool) : State :=
  let sel (e : Entry) : Bool := e.port == p && e.sess == n && !e.deaf && opWaits e.opcode && (claims || e.opcode != 2)
  let s := if (s.waitingClaim.map sel).getD false then { s with cp := { s.cp with claim := none } } else s
  let gone := (s.cp.journal.filter sel).map (·.id)
  let s := { s with jobs := s.jobs.map (fun (q : Job) => { q with inputs := q.inputs.filter (fun x => !gone.contains x.entry) }) }
  s.completeIf sel stAborted (fun s e => if e.opcode = 2 then s.genBytes else [])

/-- The inbound windows a session opened close, on both ports (spec/12 R314); its outbound windows stay (R316). -/
def State.closeSessionWindows (s : State) (p : Port) (n : Nat) : State := s.closeBoth (fun w => w.by_ == (p, n))

/-- A session number becomes free: later replies for it are discarded. -/
def State.endSession (s : State) (p : Port) (n : Nat) : State :=
  let s := s.modPort p (fun x => { x with sess := tset x.sess n none })
  { s with cp := { s.cp with journal := s.cp.journal.map (fun e => if e.port = p ∧ e.sess = n then { e with deaf := true } else e) } }

/-- Everything a port's sessions held ends (R341, R416, Table 13.12): W commands end ABORTED, commands that read the port's
host memory end as HOST_READ, an update from the port is abandoned, sessions and windows close, ownership is released. -/
def State.endPort (s : State) (p : Port) : State :=
  -- with the sessions gone, what ends now has no reply (Table 13.12)
  let s := s.modPort p (fun x => { x with sess := Vector.replicate 16 none })
  let s := (List.range 16).foldl (fun s n => s.abortSession p n true) s
  let s := s.completeIf (fun e => e.port == p && e.started && (e.opcode == 0x200 || e.opcode == 0x207)) stHostRead (fun _ _ => [])
  let s := s.dropUpdateIf (fun u =>
    match u with
    | .port q _ => q == p
    | _ => false)
  let s := (s.closeInbound p (fun _ => true)).closeOutbound p (fun _ => true)
  let s := (List.range 16).foldl (fun s n => (s.closeSessionWindows p n).endSession p n) s
  let s := s.dropSnaps (Snap.ofPort p)
  if s.ownsPort p then s.releaseOwner else s

end Sys2Proof.Machine
end

