-- ==== Sys2Proof/Machine/Sessions.lean ====
section
/-! DEFINITION. Session, window and memory commands (spec/13 Table 13.7, R341-R351), and those of the time base (Table 13.11). -/

namespace Sys2Proof.Machine

/-! ### HELLO, BYE (R341, R345) -/

/-- The lowest free session number. -/
def PortState.freeSession (x : PortState) : Option Nat :=
  ((List.range 15).map (· + 1)).find? (fun n => (tget none x.sess n).isNone)

def helloOk (e : Entry) : Bool := ringOk (e.p 0 8) (e.p 8 1) (e.p 9 1) (e.p 10 1) && decide (e.p 11 1 < 4)

/-- Opens session `k`. DEDUCED (log 47): its entries count from 0, so RINGCONS starts at 0. -/
def State.openSession (s : State) (e : Entry) (k : Nat) : State :=
  let q : Session :=
    { rbase := e.p 0 8, rlog2 := e.p 8 1, esize := e.p 9 1, vector := e.p 10 1
      subJobs := e.p 11 1 % 2 == 1, subErrs := e.p 11 1 / 2 == 1 }
  s.modPort e.port (fun x => { x with sess := tset x.sess k (some q), ringCons := tset x.ringCons k 0 })

/-- Takes a command out of the journal and keeps its status, without a reply. -/
def State.retire (s : State) (e : Entry) (status : Nat) : State :=
  let s := { s with cp := { s.cp with journal := s.cp.journal.filter (fun x => x.id ≠ e.id) } }
  s.modPort e.port (fun x => x.modSess e.sess (fun q => q.setStatus e.seq status))

/-- A HELLO that opens no session: its reply goes to the ring it names, where it names one (log 43). -/
def State.helloRefused (s : State) (e : Entry) (st : Nat) : State :=
  let s := s.retire e st
  if ringOk (e.p 0 8) (e.p 8 1) (e.p 9 1) (e.p 10 1) then
    s.modPort e.port (fun x => PortState.helloReply s.mod.ctl x (e.p 0 8) (e.p 10 1) e.tag st e.quiet)
  else s

/-- HELLO: opens the lowest free session; the reply goes to the ring it registers. -/
def State.hello (s : State) (e : Entry) : State :=
  if e.deaf then s.retire e stOk
  else
    match (s.port e.port).freeSession with
    | none => s.helloRefused e stNoResource
    | some k =>
      let s := (s.openSession e k).retire e stOk
      s.modPort e.port (fun x => PortState.put s.mod.ctl x k
        { tag := e.tag, status := stOk, opcode := e.opcode, quiet := e.quiet
          payload := leBytes 4 k ++ s.genBytes ++ leBytes 8 s.now })

/-- HELLO as every command starts (`State.cmd`), but for where its BAD_PARAM goes. -/
def State.helloCmd (s : State) (e : Entry) : State :=
  if e.deaf || (e.clean [(0, 12)] && helloOk e) then s.hello e else s.helloRefused e stBadParam

def execHello (n : Nat) (s : State) : Out :=
  .next (match s.entry n with
    | none => s
    | some e => if e.started && e.opcode == 0 && s.cpRuns then s.helloCmd e else s)

/-- BYE: the session's W commands end, but for a waiting claim (spec/12 R329), its inbound windows close, and it closes after its reply, which waits for room in the ring. -/
def State.bye (s : State) (e : Entry) : State :=
  let s := if e.waiting then s
    else (((s.abortSession e.port e.sess false).closeSessionWindows e.port e.sess).dropUpdateIf (fun u => u == .port e.port e.sess)).wait e
  match tget none (s.port e.port).sess e.sess with
  | none => s.retire e stOk
  | some q =>
    if q.kept.isEmpty && (s.port e.port).canPost e.sess q then (s.complete e stOk []).endSession e.port e.sess else s

def execBye (n : Nat) (s : State) : Out := .next (s.cmd n 0x0001 [] (fun _ => true) s.bye)

/-! ### CLAIM, YIELD (spec/12 Table 12.8, R329, R330) -/

/-- The other port is preferred for now (R330). -/
def State.otherPreferred (s : State) (p : Port) : Bool := s.mod.prefPort == some p.other

/-- CLAIM: granted with no owner, waits behind the other port's host, with WAIT or while that port is preferred (R330), refused
otherwise. -/
def State.claim (s : State) (e : Entry) : State :=
  let free := s.waitingClaim.isNone
  let wait := ({ s with cp := { s.cp with claim := some e.id } }).wait e
  if e.waiting then s
  else
    match s.cp.owner with
    | none =>
      if s.otherPreferred e.port then (if free then wait else s.complete e stClaimRefused s.genBytes)
      else
        let s := s.setOwner (some (e.port, e.sess))
        s.complete e stOk s.genBytes
    | some (o, _) =>
      if (e.p 0 1 = 1 ∨ s.otherPreferred e.port) ∧ o ≠ e.port ∧ free then wait else s.complete e stClaimRefused s.genBytes

def execClaim (n : Nat) (s : State) : Out := .next (s.cmd n 0x0002 [(0, 1)] (fun e => decide (e.p 0 1 < 2)) s.claim)

/-- YIELD: by the owner's session, or by the session whose claim waits, which is withdrawn. -/
def State.yieldOwner (s : State) (e : Entry) : State :=
  if s.cp.owner = some (e.port, e.sess) then
    let s := s.releaseOwner
    s.complete e stOk s.genBytes
  else
    match s.waitingClaim with
    | some c =>
      if c.port = e.port ∧ c.sess = e.sess then
        (({ s with cp := { s.cp with claim := none } }).complete c stAborted s.genBytes).complete e stOk s.genBytes
      else s.complete e stBadState []
    | none => s.complete e stBadState []

def execYield (n : Nat) (s : State) : Out := .next (s.cmd n 0x0003 [] (fun _ => true) s.yieldOwner)

/-! ### SESSION_STATUS, NOP -/

/-- SESSION_STATUS. DEDUCED (log 49): the commands outstanding include this one. -/
def State.sessionStatus (s : State) (e : Entry) : State :=
  match tget none (s.port e.port).sess e.sess with
  | none => s.complete e stOk []
  | some q => s.complete e stOk (leBytes 4 q.nextSeq ++ leBytes 2 (s.outstanding e.port e.sess) ++ leBytes 2 q.kept.length)

def execSessionStatus (n : Nat) (s : State) : Out := .next (s.cmd n 0x0004 [] (fun _ => true) s.sessionStatus)

/-- NOP: its fence alone (R322). -/
def execNop (n : Nat) (s : State) : Out := .next (s.cmd n 0x0005 [] (fun _ => true) (fun e => s.complete e stOk []))

/-! ### OPEN_WINDOW, CLOSE_WINDOW (R350, spec/12 R309, R314, R316) -/

/-- A job's queue in its configuration, with the overlays in force. -/
def Job.queueImage (q : Job) (at_ : LPos) (n : Nat) : Option QImage :=
  (queuesAfter at_ (q.image.queuesAt at_) q.inForce).find? (fun x => x.n == n)

/-- The window that the parameters describe (Table 13.8). -/
def Entry.inWin (e : Entry) : InWin :=
  { base := e.p 8 8, size := e.p 16 8, kind := e.p 2 1, job := e.p 4 1, perm := BitVec.ofNat 2 (e.p 3 1)
    shared := e.p 3 1 / 4 % 2 == 1, epoch := BitVec.ofNat 2 (e.p 3 1 / 16), reqId := BitVec.ofNat 16 (e.p 24 2)
    reqMask := BitVec.ofNat 16 (e.p 26 2), lf := e.p 40 1, lx0 := e.p 41 2, ly0 := e.p 43 2, nx := e.p 45 2, ny := e.p 47 2
    sx := e.p 49 1, sy := e.p 50 1, stride := e.p 56 4, boff := e.p 60 4, region := e.p 40 1, stack := e.p 41 1, roff := e.p 48 8
    qid := e.p 45 1, by_ := (e.port, e.sess) }

/-- Scratchpad bytes that every core of a KIND 0 set has. -/
def setBytesOk (w : InWin) : Bool :=
  (List.range w.ny).all (fun j => (List.range w.nx).all (fun i =>
    let k := coreKind (coreAtPos 0 (96 * (w.ly0 + j * w.sy) + w.lx0 + i * w.sx))
    decide (w.boff + w.stride ≤ 8 * k.words)))

/-- The attributes of an inbound window are in their ranges (Table 12.5). -/
def State.inWinOk (s : State) (e : Entry) : Bool :=
  let w := e.inWin
  let q := s.job w.job
  let common := decide (e.p 1 1 < 64 ∧ e.p 5 1 < 2 ∧ w.job < 16 ∧ w.kind < 3) && w.perm ≠ 0 && (e.p 3 1 / 8 % 2 == 0 && decide (e.p 3 1 < 64)) &&
    w.base % 4096 == 0 && w.size % 4096 == 0 && w.size ≠ 0 && decide (w.base + w.size ≤ 0xC00000000) && s.resident w.job
  let rest := match w.kind with
    | 0 =>
      decide (w.lf < q.image.working.length ∧ 1 ≤ w.nx ∧ 1 ≤ w.ny ∧ 1 ≤ w.sx ∧ w.sx ≤ 16 ∧ 1 ≤ w.sy ∧ w.sy ≤ 16) &&
        decide (w.lx0 + (w.nx - 1) * w.sx < 96 ∧ w.ly0 + (w.ny - 1) * w.sy < 128) &&
        ((List.range 14).map (fun i => 2 ^ (i + 3))).contains w.stride && w.boff % 8 == 0 && setBytesOk w &&
        w.nx * w.ny * w.stride == w.size && e.clean [(0, 6), (8, 16), (24, 4), (40, 11), (56, 8)]
    | 1 =>
      decide (w.stack < 16) && w.roff % 4096 == 0 && ((q.region w.region w.stack).map (fun r => decide (w.roff + w.size ≤ r.size))).getD false &&
        e.clean [(0, 6), (8, 16), (24, 4), (40, 2), (48, 8)]
    | _ =>
      decide (w.lf < q.image.working.length ∧ w.lx0 < 96 ∧ w.ly0 < 128 ∧ w.qid < 16) &&
        ((q.queueImage { lf := w.lf, pos := 96 * w.ly0 + w.lx0 } w.qid).map (fun i => i.d.mode == 0)).getD false &&
        e.clean [(0, 6), (8, 16), (24, 4), (40, 6)]
  common && rest

/-- The attributes of an outbound window are in their ranges (R316, Table 13.8). -/
def outWinOk (e : Entry) : Bool :=
  decide (e.p 1 1 < 64) && (e.p 3 1 == 2 || e.p 3 1 == 3) && e.p 5 1 == e.port.num && e.p 8 8 % 4096 == 0 && e.p 16 8 % 4096 == 0 &&
    e.p 16 8 ≠ 0 && decide (e.p 8 8 + e.p 16 8 ≤ 2 ^ 43) && e.p 32 8 % 4096 == 0 && e.clean [(0, 2), (3, 1), (5, 1), (8, 16), (32, 8)]

/-- Two ranges meet. -/
def rangesMeet (b1 s1 b2 s2 : Nat) : Bool := decide (b1 < b2 + s2 ∧ b2 < b1 + s1)

/-- OPEN_WINDOW. DEDUCED (log 50): a number that is open, like an overlap, gives NO_RESOURCE. -/
def State.openWindow (s : State) (e : Entry) : State :=
  let p := Port.ofNum (e.p 5 1)
  let x := s.port p
  let num := e.p 1 1
  if e.p 0 1 = 0 then
    let w := e.inWin
    if !s.inWinOk e then s.complete e stBadParam []
    else if (tget none x.inWin num).isSome || x.inWin.toList.any (fun o => (o.map (fun v => rangesMeet v.base v.size w.base w.size)).getD false) then
      s.complete e stNoResource []
    else (s.modPort p (fun x => { x with inWin := tset x.inWin num (some w) })).complete e stOk []
  else if e.p 0 1 = 1 then
    let w : OutWin := { base := e.p 8 8, size := e.p 16 8, haddr := e.p 32 8, perm := BitVec.ofNat 2 (e.p 3 1), by_ := (e.port, e.sess) }
    if !outWinOk e then s.complete e stBadParam []
    else if (tget none x.outWin num).isSome || x.outWin.toList.any (fun o => (o.map (fun v => rangesMeet v.base v.size w.base w.size)).getD false) then
      s.complete e stNoResource []
    else (s.modPort p (fun x => { x with outWin := tset x.outWin num (some w) })).complete e stOk []
  else s.complete e stBadParam []

def execOpenWindow (n : Nat) (s : State) : Out := .next (s.cmd n 0x0100 [(0, 64)] (fun _ => true) s.openWindow)

/-- Packets to an outbound range of a port are on the wafer. -/
def State.outOnWafer (s : State) (p : Port) (base size : Nat) : Bool :=
  s.net.any (fun q => q.dkind == 2 && q.dx == p.num && !q.isResponse &&
    rangesMeet (nfld q.da 0 43) (8 * max 1 q.len) base size)

/-- CLOSE_WINDOW: the window serves no TLP from now on; the reply follows once its packets have been taken off (R314). -/
def State.closeWindow (s : State) (e : Entry) : State :=
  let p := Port.ofNum (e.p 2 1)
  let i := e.p 1 1
  if e.p 0 1 = 0 then
    if !e.waiting && (((tget none (s.port p).inWin i).map (fun w => !w.closing)).getD false) = false then s.complete e stBadState []
    else
      let s := if e.waiting then s else s.modPort p (fun x => { x with inWin := tmod x.inWin i (fun o => o.map (fun w => { w with closing := true })) })
      if s.winOnWafer p i then s.wait e
      else (s.modPort p (fun x => { x with inWin := tmod x.inWin i (fun o => o.filter (fun w => !w.closing)) })).complete e stOk []
  else
    match tget none (s.port p).outWin i with
    | some w =>
      if e.waiting then (if s.outOnWafer p (e.aux % 2 ^ 44) (e.aux / 2 ^ 44) then s else s.complete e stOk [])
      else
        let s := s.modPort p (fun x => { x with outWin := tset x.outWin i none })
        if s.outOnWafer p w.base w.size then (s.modEntry e.id (fun x => { x with aux := w.base + w.size * 2 ^ 44 })).wait e
        else s.complete e stOk []
    | none =>
      if !e.waiting then s.complete e stBadState []
      else if s.outOnWafer p (e.aux % 2 ^ 44) (e.aux / 2 ^ 44) then s else s.complete e stOk []

def closeOk (e : Entry) : Bool := decide (e.p 0 1 < 2 ∧ e.p 1 1 < 64 ∧ e.p 2 1 < 2) && (e.p 0 1 == 0 || e.p 2 1 == e.port.num)

def execCloseWindow (n : Nat) (s : State) : Out := .next (s.cmd n 0x0101 [(0, 3)] closeOk s.closeWindow)

/-! ### Regions and memory mode (R351) -/

/-- Stacks a mask names. -/
def stacksOf (m : Nat) : List Nat := (List.range 16).filter (fun i => nfld m i 1 == 1)

/-- No companion die reaches the wafer: a command that moves words between a host or the CP and the wafer's memory ends BAD_STATE
(spec/15 R405; DEDUCED, log 83: LOAD_JOB, LOAD_OVERLAY, ALLOC_REGION, READ_SNAPSHOT). -/
def State.dataCut (s : State) : Bool := (s.dieAttach .a).isNone && (s.dieAttach .b).isNone

/-- ALLOC_REGION. -/
def State.allocCmd (s : State) (e : Entry) : State :=
  let j := e.p 0 1
  let id := e.p 1 1
  let st := stacksOf (e.p 2 2)
  if !s.resident j || (s.job j).regions.any (fun r => r.id == id) || s.dataCut then s.complete e stBadState []
  else
    match s.lowestFree st (e.p 8 8) with
    | none => s.complete e stNoResource []
    | some off => (s.allocRegion j id st off (e.p 8 8)).complete e stOk (leBytes 8 off)

def allocOk (e : Entry) : Bool :=
  decide (e.p 0 1 < 16 ∧ 1 ≤ e.p 1 1 ∧ e.p 1 1 ≤ 15) && e.p 2 2 ≠ 0 && e.p 8 8 % 1048576 == 0 && e.p 8 8 ≠ 0

def execAllocRegion (n : Nat) (s : State) : Out := .next (s.cmd n 0x0102 [(0, 4), (8, 8)] allocOk s.allocCmd)

/-- FREE_REGION. -/
def State.freeCmd (s : State) (e : Entry) : State :=
  let j := e.p 0 1
  let id := e.p 1 1
  let q := s.job j
  if !s.resident j || q.holdsPartition || !(q.regions.any (fun r => r.id == id)) then s.complete e stBadState []
  else
    let s := s.closeBoth (fun w => w.job == j && w.kind == 1 && w.region == id)
    (s.modJob j (fun q => { q with regions := q.regions.filter (fun r => r.id ≠ id) })).complete e stOk []

def execFreeRegion (n : Nat) (s : State) : Out :=
  .next (s.cmd n 0x0103 [(0, 2)] (fun e => decide (e.p 0 1 < 16 ∧ 1 ≤ e.p 1 1 ∧ e.p 1 1 ≤ 15)) s.freeCmd)

/-- SET_MEMMODE: every data and parity word becomes zero (R351, spec/15 R402). -/
def State.setMemmode (s : State) (e : Entry) : State :=
  if s.jobs.toList.any (fun q => !q.regions.isEmpty) then s.complete e stBadState []
  else
    let s := { s with
      mod := { s.mod with memMode := e.p 0 1 == 1 }
      stk := s.stk.map (fun (k : StackState) => if k.lost then k else { k with mem := [] }) }
    s.complete e stOk []

def execSetMemmode (n : Nat) (s : State) : Out := .next (s.cmd n 0x0104 [(0, 1)] (fun e => decide (e.p 0 1 < 2)) s.setMemmode)

/-! ### Time base (Table 13.11) -/

/-- GET_TICK. -/
def execGetTick (n : Nat) (s : State) : Out :=
  .next (s.cmd n 0x0300 [] (fun _ => true) (fun e => s.complete e stOk (leBytes 8 s.now ++ leBytes 1 s.mod.tsrc.num)))

/-- SET_FALLBACK (spec/14 R365). -/
def execSetFallback (n : Nat) (s : State) : Out :=
  .next (s.cmd n 0x0301 [(0, 1)] (fun e => decide (e.p 0 1 < 2))
    (fun e => ({ s with mod := { s.mod with fallback := e.p 0 1 == 1 } }).complete e stOk []))

/-- WAIT_EXP: at once where the job's EXPNO has reached the value, otherwise when it does. -/
def State.waitExp (s : State) (e : Entry) : State :=
  let q := s.job (e.p 0 1)
  if e.waiting then s
  else if !s.resident (e.p 0 1) then s.complete e stBadState []
  else if e.p 8 8 ≤ q.expNo then s.complete e stOk (leBytes 8 q.lastDev ++ leBytes 8 q.expNo)
  else s.wait e

def execWaitExp (n : Nat) (s : State) : Out := .next (s.cmd n 0x0302 [(0, 1), (8, 8)] (fun e => decide (e.p 0 1 < 16)) s.waitExp)

end Sys2Proof.Machine
end

