-- ==== Sys2Proof/Machine/Jobs.lean ====
section
/-! DEFINITION. Job and overlay commands (spec/13 Tables 13.9, 13.11, R351-R353, spec/09 R225, R226, R242-R245, R254-R257, spec/16
R427-R432). A command's parameters are those of its table; a precondition that does not hold gives BAD_STATE. -/

namespace Sys2Proof.Machine

/-- The sixteen stacks, in order. -/
def allStacks : List Nat := List.range 16

/-- A job slot's number is in range. -/
def slotOk (e : Entry) : Bool := decide (e.p 0 1 < 16)

/-! ### LOAD_JOB, UNLOAD_JOB -/

/-- Stores bytes in region 0, from its first byte on, stack by stack. -/
def State.storeMain (s : State) (off size : Nat) (bs : List Byte) : State :=
  (List.range ((bs.length + 7) / 8)).foldl (fun s i =>
    let o := 8 * i
    s.stackWrite (o / max 8 size) ((off + o % max 8 size) / 8) 0xFF (BitVec.ofNat 64 (bytesAt bs o 8)) false) s

/-- The image is taken: its region 0 is placed at `off` in every stack and filled, and the slot is LOADED. -/
def State.loadInto (s : State) (e : Entry) (im : JobImage) (off : Nat) : State :=
  let s := s.modJob (e.p 0 1) (fun _ => { state := .loaded, image := im, expLen := im.expLen, holdMax := im.holdMax })
  let s := s.allocRegion (e.p 0 1) 0 allStacks off (region0Size im.region0)
  let s := s.storeMain off (region0Size im.region0) im.mainBytes
  (s.complete e stOk (leBytes 8 off ++ leBytes 8 (region0Size im.region0))).jobEvent (e.p 0 1) 1 0 0

/-- The image's region 0 has a place, or there is none. -/
def State.loadAt (s : State) (e : Entry) (im : JobImage) (off : Option Nat) : State :=
  match off with
  | none => s.complete e stNoResource []
  | some off => s.loadInto e im off

/-- The outbound reads of HLEN bytes at HADDR go into the transmit order of the sender's port (R353); a tag names the whole read (log 41). -/
def State.hostReads (s : State) (e : Entry) (haddr hlen : Nat) : State :=
  s.modPort e.port (fun x => { x with tx := x.tx ++ readReqs (max 1 x.maxReadReq) x.freeTag (hlen + 1) haddr hlen })

/-- What the reads of an image brought: they fail where the port sends none (R317). -/
def State.brought {α : Type} (s : State) (e : Entry) (r : HostRead α) : HostRead α :=
  if (s.port e.port).noOutbound then .failed else r

/-- The outbound reads that the port does send. -/
def State.imageReads (s : State) (e : Entry) : State :=
  if (s.port e.port).noOutbound then s else s.hostReads e (e.p 8 8) (e.p 16 8)

/-- LOAD_JOB (R351, R353). -/
def State.loadJob (s : State) (e : Entry) (r : HostRead JobImage) : State :=
  if s.resident (e.p 0 1) || s.dataCut then s.complete e stBadState []
  else
    let b := s.brought e r
    let s := s.imageReads e
    match b with
    | .failed => s.complete e stHostRead []
    | .bad => s.complete e stImage []
    | .ok im => s.loadAt e im (s.lowestFree allStacks (region0Size im.region0))

def execLoadJob (n : Nat) (r : HostRead JobImage) (s : State) : Out :=
  .next (s.cmd n 0x0200 [(0, 1), (8, 16)] slotOk (fun e => s.loadJob e r))

/-- A snapshot request is withdrawn with its reservation (spec/16 R430). -/
def State.withdrawSnap (s : State) (j : Nat) : State :=
  match tget Snap.none s.snaps j with
  | .asked .. => { s with snaps := tset s.snaps j .none }
  | _ => s

/-- A slot empties: its windows close, its regions are free, commands that wait on it end ABORTED. -/
def State.emptySlot (s : State) (j : Nat) : State :=
  let n := (s.job j).expNo
  let s := (s.closeBoth (fun w => w.job == j)).withdrawSnap j
  let s := (s.abortInputs j).completeIf (fun e => e.started && e.opcode == 0x302 && e.p 0 1 == j) stAborted (fun _ _ => [])
  (s.modJob j (fun _ => {})).jobEvent j 0 0 n

/-- UNLOAD_JOB. -/
def State.unloadJob (s : State) (e : Entry) : State :=
  let j := e.p 0 1
  let st := (s.job j).state
  if st == .loaded || st == .suspended then (s.emptySlot j).complete e stOk [] else s.complete e stBadState []

def execUnloadJob (n : Nat) (s : State) : Out := .next (s.cmd n 0x0201 [(0, 1)] slotOk s.unloadJob)

/-! ### START (spec/09 R225, R257, spec/16 R418, spec/15 R401) -/

/-- Every region the image names is allocated at its stated size, in no stack lost without cover. -/
def State.regionsOk (s : State) (j : Nat) : Bool :=
  let q := s.job j
  (q.image.regions.all (fun r => r.2.1.all (fun n => ((q.region r.1 n).map (fun x => x.size == r.2.2)).getD false))) &&
    q.regions.all (fun r => !s.noCover r.stack)

/-- The first scheduled position that is not in service in a placement, or whose hub is not (R225). -/
def State.firstOut (s : State) (q : Job) (fields : List Nat) : Option LPos :=
  (q.image.cores.map (fun c => c.at_)).find? (fun p =>
    match fields[p.lf]? with
    | none => true
    | some f =>
      let c := coreAtPos f p.pos
      !s.inService c || s.hubOut (c.x / 16) (c.y / 16))

/-- The job takes its placement and begins: partition reset, configuration, carried state of a suspended job, exposure 0 or
LASTCKPT. A fence met in the wash asks for a roll-back at once. -/
def State.placeJob (s : State) (j : Nat) (work spare : List Nat) (stuck : Stuck) : State :=
  let q := s.job j
  let again := q.state == .suspended
  let n := if again then q.lastCkpt else 0
  let s := s.modJob j (fun q => { q with
    state := .running
    fields := work.map some
    spareFields := spare.map some
    inForce := if again then q.inForce else []
    renews := if again then q.renews else []
    epochAdd := if again then (q.epochAdd + 1) % 4 else 0
    holds := {}
    rolled := false
    noCover := false
    inPlace := false
    log := []
    replayTo := none
    inputs := []
    nextInput := 0
    poisonAt := [] })
  let s := ((s.joinFields j work false).joinFields j spare true).partitionReset j stuck
  let s := (s.loadConfig j).loadCarried j
  let bad := s.badFields j
  let s := s.modJob j (fun q => { q with faultFields := bad, holds := { fault := !bad.isEmpty } })
  ((s.clearDelta j).startCores j).beginExposure j n

/-- START. -/
def State.startJob (s : State) (e : Entry) (stuck : Stuck) : State :=
  let j := e.p 0 1
  let q := s.job j
  if !(q.state == .loaded || q.state == .suspended) || !s.regionsOk j || s.drain then s.complete e stBadState []
  else
    match placeShape (e.p 1 1) (q.image.working ++ q.image.spares) with
    | none => s.complete e stBadParam []
    | some fs =>
      let work := fs.take q.image.working.length
      let spare := fs.drop q.image.working.length
      if fs.any (fun f => !s.fieldOk f || (s.field f).job.isSome) then s.complete e stNoResource []
      else
        match configBad q.image q.inForce with
        | some (p, n) => s.complete e stConfig (configPayload p n)
        | none =>
          match s.firstOut q work with
          | some p => s.complete e stConfig (configPayload p 0xFF)
          | none =>
            let s := s.placeJob j work spare stuck
            (s.complete e stOk (leBytes 8 (s.job j).expNo ++ leBytes 8 (s.job j).begin_)).jobEvent j 2 0 (s.job j).expNo

def execStart (n : Nat) (stuck : Stuck) (s : State) : Out :=
  .next (s.cmd n 0x0202 [(0, 2)] (fun e => slotOk e && decide (e.p 1 1 < 60)) (fun e => s.startJob e stuck))

/-! ### PAUSE, RESUME, PREEMPT (spec/09 R226, R255, R256, spec/14 R375) -/

/-- PAUSE holds the next develop point; it completes there. -/
def State.pauseCmd (s : State) (e : Entry) : State :=
  let j := e.p 0 1
  if e.waiting then s
  else if (s.job j).state == .running then (s.modJob j (fun q => { q with pauseReq := true })).wait e
  else s.complete e stBadState []

def execPause (n : Nat) (s : State) : Out := .next (s.cmd n 0x0203 [(0, 1)] slotOk s.pauseCmd)

/-- RESUME: refused while a lost field has no valid overlay; after a roll-back made while PAUSED it starts exposure LASTCKPT;
otherwise the held develop point falls once nothing else holds it. -/
def State.resumeCmd (s : State) (e : Entry) : State :=
  let j := e.p 0 1
  let q := s.job j
  if e.waiting then s
  else if q.state != .paused || !(((s.dropSpares j).coverAll j []).job j).faultFields.isEmpty then
    s.complete e stBadState []
  else
    let s := (s.wait e).modJob j (fun q => { q with
      state := .running
      noCover := false
      pauseReq := false
      holds := { q.holds with pause := false }
      warnFrom := if s.mod.supply == .warning then some s.mod.ctl else none })
    let s := s.jobEvent j 2 0 q.expNo
    if q.rolled && q.faultFields.isEmpty && !q.inPlace then s.restart j else s

def execResume (n : Nat) (s : State) : Out := .next (s.cmd n 0x0204 [(0, 1)] slotOk s.resumeCmd)

/-- PREEMPT takes effect at the next checkpoint's develop point. -/
def State.preemptCmd (s : State) (e : Entry) : State :=
  let j := e.p 0 1
  if e.waiting then s
  else if (s.job j).state == .running then (s.modJob j (fun q => { q with preemptReq := true })).wait e
  else s.complete e stBadState []

def execPreempt (n : Nat) (s : State) : Out := .next (s.cmd n 0x0205 [(0, 1)] slotOk s.preemptCmd)

/-! ### The debug snapshot (spec/16 R430-R432, Table 16.6) -/

/-- Bytes of a snapshot word list. -/
def wordBytes (ws : List (Option (Word × Bool))) : List Byte := ws.flatMap (fun w => leBytes 8 ((w.map (fun v => v.1.toNat)).getD 0))

/-- The poison map of words: bit i mod 8 of byte i / 8. -/
def poisonMap (ws : List (Option (Word × Bool))) : List Byte :=
  (List.range ((ws.length + 7) / 8)).map (fun i =>
    BitVec.ofNat 8 ((((ws.drop (8 * i)).take 8).zipIdx.map (fun e => if (e.1.map (·.2)).getD false then 2 ^ e.2 else 0)).foldl (· + ·) 0))

/-- One core record. -/
def State.snapCore (s : State) (lf : Nat) (c : CoreId) : State × List Byte :=
  let k := coreKind c
  let out := s.code c ≠ 0
  let kn : Nat := match k with
    | .mx => 0
    | .vx => 1
    | .sx => 2
  let head := leBytes 2 c.x ++ leBytes 2 c.y ++ leBytes 1 lf ++ leBytes 1 kn ++ leBytes 1 (s.code c) ++ [0] ++
    leBytes 2 (if out then 0 else k.words) ++ List.replicate 22 0
  if out then (s, head)
  else
    let (s, regs) := readRun s (fun s i => s.readBlock c (8 * i)) (List.range 1024)
    let (s, ws) := readRun s (fun s i => s.readPad c i) (List.range k.words)
    (s, head ++ wordBytes regs ++ wordBytes ws ++ poisonMap ws)

/-- Reads that may change the state, one after the other, their bytes joined. -/
def readBytes {β : Type} (f : State → β → State × List Byte) (s : State) (l : List β) : State × List Byte :=
  l.foldl (fun r b => ((f r.1 b).1, r.2 ++ (f r.1 b).2)) (s, [])

/-- The core records of one field, by Y, then X. -/
def State.snapField (s : State) (lf f : Nat) : State × List Byte :=
  readBytes (fun s pos => s.snapCore lf (coreAtPos f pos)) s (List.range 12288)

/-- The logical fields that a snapshot of job `j` holds, in ascending order. -/
def Job.snapFields (q : Job) (mask : Nat) : List Nat :=
  (List.range q.fields.length).filter (fun i => nfld mask i 1 == 1 && ((q.fields[i]?).getD none).isSome)

/-- The header of a snapshot whose core records take `len` bytes. -/
def Job.snapHead (q : Job) (j mask killTick expires len : Nat) : List Byte :=
  leBytes 1 0x20 ++ leBytes 1 1 ++ leBytes 1 j ++ leBytes 1 (q.snapFields mask).length ++ leBytes 8 killTick ++ leBytes 6 q.expNo ++
    leBytes 8 expires ++ leBytes 8 (64 + len) ++ leBytes 8 (((q.snapFields mask).map (2 ^ ·)).foldl (· + ·) 0) ++ List.replicate 22 0

/-- The core records of logical field `lf` of a job. -/
def State.snapLogical (q : Job) (s : State) (lf : Nat) : State × List Byte := s.snapField lf (((q.fields[lf]?).getD none).getD 0)

/-- The core records of the fields that a snapshot of job `j` names. -/
def State.snapBody (s : State) (j mask : Nat) : State × List Byte :=
  readBytes (State.snapLogical (s.job j)) s ((s.job j).snapFields mask)

/-- The whole snapshot of job `j`: header, then the named logical fields in ascending order. -/
def State.snapshotOf (s : State) (j mask killTick expires : Nat) : State × List Byte :=
  ((s.snapBody j mask).1,
    (s.job j).snapHead j mask killTick expires (s.snapBody j mask).2.length ++ (s.snapBody j mask).2)

/-- Step 3 of KILL: the snapshot that was asked for is taken into its reservation. -/
def State.takeSnap (s : State) (j killTick : Nat) : State :=
  match tget Snap.none s.snaps j with
  | .asked p _ _ mask space =>
    let expires := s.now + (s.job j).holdSecs * 100000000
    let r := s.snapshotOf j mask killTick expires
    { r.1 with snaps := tset r.1.snaps j (.held p expires space r.2) }
  | _ => s

/-- Bytes to reserve for one logical field (R430), and the least multiple of 2^20 at or above a size. -/
def snapBytes (mask : Nat) : Nat :=
  let n := ((List.range 64).filter (fun i => nfld mask i 1 == 1)).length
  (752812032 * n + 1048575) / 1048576 * 1048576

/-! ### KILL (spec/16 R427) -/

/-- Step 1: the cores stop, waiting commands end, the job's inbound windows serve nothing more. -/
def State.killStop (s : State) (j : Nat) : State :=
  let s := s.modJob j (fun q => { q with state := .stopped, held := false, safelight := .idle, pauseReq := false, preemptReq := false, commitReq := false })
  let mark (s : State) (p : Port) : State :=
    s.modPort p (fun x => { x with inWin := x.inWin.map (fun o => o.map (fun w => if w.job = j then { w with closing := true } else w)) })
  (mark (mark s .a) .b).abortInputs j |>.abortWaiting j

/-- A packet of the job is on the wafer, other than in front of a stopped field (Table 9.7), or a window of the job waits for one. -/
def State.killDrains (s : State) (j : Nat) : Bool :=
  s.net.any (fun p => p.slot == j && !s.atEdge p && (p.counted || (p.srcCore.bind s.coreJob) == some j || decide (784 ≤ p.sx))) ||
    [Port.a, Port.b].any (fun p => (List.range 64).any (fun i =>
      ((tget none (s.port p).inWin i).map (fun w => w.job == j && s.winOnWafer p i)).getD false))

/-- Steps 3 to 6. -/
def State.killEnd (s : State) (e : Entry) (killTick : Nat) (stuck : Stuck) : State :=
  let j := e.p 0 1
  let s := (s.takeSnap j killTick).closeBoth (fun w => w.job == j)
  let s := ((s.partitionReset j stuck).releaseAll j).emptySlot j
  s.complete e stOk []

/-- KILL: stops at once; it ends once the job's packets have been taken off. -/
def State.killCmd (s : State) (e : Entry) (stuck : Stuck) : State :=
  let j := e.p 0 1
  if e.waiting then (if s.killDrains j then s else s.killEnd e e.aux stuck)
  else if !(s.job j).holdsPartition then s.complete e stBadState []
  else
    let t := s.now
    let s := s.killStop j
    if s.killDrains j then (s.modEntry e.id (fun x => { x with aux := t })).wait e else s.killEnd e t stuck

def execKill (n : Nat) (stuck : Stuck) (s : State) : Out := .next (s.cmd n 0x0206 [(0, 1)] slotOk (fun e => s.killCmd e stuck))

/-! ### LOAD_OVERLAY, APPLY_MODE, COMMIT (spec/09 R242-R245) -/

/-- Configuration words of an overlay for one logical field. DEDUCED (log 44): patch words, and one for each descriptor. -/
def Overlay.wordsOf (o : Overlay) (lf : Nat) : Nat :=
  ((o.changes.filter (fun c => c.at_.lf == lf)).map (fun c => c.patch.length + c.queues.length)).foldl (· + ·) 0

/-- An overlay keeps R242 and Table 9.6. -/
def Job.overlayOk (q : Job) (o : Overlay) : Bool :=
  let n := q.image.working.length
  (List.range n).all (fun lf => decide (o.wordsOf lf ≤ 65536)) && o.changes.all (fun c => decide (c.at_.lf < n)) &&
    (match o.fault with
      | some (lf, sp) => decide (lf < n ∧ sp < q.image.spares.length) && o.expLen.isNone && o.holdMax.isNone
      | none => (o.expLen.map (fun v => decide (64 ≤ v ∧ v ≤ 65536))).getD true && (o.holdMax.map (fun v => decide (v < 2 ^ 20))).getD true)

/-- LOAD_OVERLAY writes shadow entry INDEX. -/
def State.loadOverlay (s : State) (e : Entry) (r : HostRead Overlay) : State :=
  let j := e.p 0 1
  let q := s.job j
  if !s.resident j || s.dataCut then s.complete e stBadState []
  else
    let b := s.brought e r
    let s := s.imageReads e
    match b with
    | .failed => s.complete e stHostRead []
    | .bad => s.complete e stImage []
    | .ok o =>
      if !q.overlayOk o then
        s.complete e stConfig (configPayload (((o.changes.head?).map (fun c => c.at_)).getD { lf := 0, pos := 0 }) 0xFF)
      else
        match (actionsBad q.image q.inForce o).or (configBad q.image (q.inForce ++ [o])) with
        | some (p, n) => s.complete e stConfig (configPayload p n)
        | none => (s.modJob j (fun q => { q with ovShadow := KMap.put q.ovShadow (e.p 1 1) o })).complete e stOk []

def execLoadOverlay (n : Nat) (r : HostRead Overlay) (s : State) : Out :=
  .next (s.cmd n 0x0207 [(0, 2), (8, 16)] (fun e => slotOk e && decide (e.p 1 1 < 64)) (fun e => s.loadOverlay e r))

/-- The mode overlay of an entry of the active table. -/
def Job.modeAt (q : Job) (i : Nat) : Option Overlay := ((q.ovActive.find? (fun e => e.1 == i)).map (·.2)).filter (fun o => o.fault.isNone)

/-- APPLY_MODE stages the overlay; it completes at the end of the safelight interval. -/
def State.applyMode (s : State) (e : Entry) : State :=
  let j := e.p 0 1
  let q := s.job j
  if e.waiting then s
  else if q.state != .running || q.safelight != .idle then s.complete e stBadState []
  else
    match q.modeAt (e.p 1 1) with
    | none => s.complete e stBadState []
    | some o => (s.modJob j (fun q => { q with safelight := .staged o })).wait e

def execApplyMode (n : Nat) (s : State) : Out :=
  .next (s.cmd n 0x0208 [(0, 2)] (fun e => slotOk e && decide (e.p 1 1 < 64)) s.applyMode)

/-- COMMIT exchanges the tables at once where the job reaches no develop point, otherwise at the next one (R243). -/
def State.commitCmd (s : State) (e : Entry) : State :=
  let j := e.p 0 1
  if e.waiting then s
  else if !s.resident j then s.complete e stBadState []
  else
    let s := (s.wait e).modJob j (fun q => { q with commitReq := true })
    if (s.job j).state == .running then s else s.commitNow j

def execCommit (n : Nat) (s : State) : Out := .next (s.cmd n 0x0209 [(0, 1)] slotOk s.commitCmd)

/-! ### JOB_STATUS, JOB_INPUT, SET_PROOFING, READ_OVERRUN -/

/-- The proofing code that applies to an exposure (spec/15 R398). -/
def Job.proofCode (q : Job) : Nat := (((q.proof.filter (fun p => decide (p.1 ≤ q.expNo))).getLast?).map (fun p => p.2.1)).getD 0

/-- A list of field numbers as bytes, 0xFF for none. -/
def fieldBytes (n : Nat) (l : List (Option Nat)) : List Byte :=
  (List.range n).map (fun i => BitVec.ofNat 8 ((((l[i]?).getD none).map id).getD 0xFF))

/-- JOB_STATUS. -/
def State.jobStatus (s : State) (e : Entry) : State :=
  let j := e.p 0 1
  let q := s.job j
  s.complete e stOk (leBytes 1 q.state.code ++ leBytes 1 (s.holdr j) ++ leBytes 1 q.proofCode ++ List.replicate 5 0 ++ leBytes 8 q.expNo ++
    leBytes 8 q.lastCkpt ++ leBytes 8 (s.invalidMarks q) ++ fieldBytes 60 q.fields ++ fieldBytes 8 q.spareFields)

def execJobStatus (n : Nat) (s : State) : Out := .next (s.cmd n 0x020A [(0, 1)] slotOk s.jobStatus)

/-- The QSEND of an input (R352): a header word, then the data. -/
def State.inputPacket (s : State) (e : Entry) (j num qid tag : Nat) (c : CoreId) : Packet :=
  let data := (List.range ((e.param.length - 8) / 8)).map (fun i => BitVec.ofNat 64 (bytesAt e.param (8 + 8 * i) 8))
  let head : Word := BitVec.ofNat 64 (packFields [(0, num % 2 ^ 32), (32, e.p 1 1), (36, data.length)])
  { ptype := pQsend
    dx := c.x
    dy := c.y
    sx := 784 + e.port.num
    epoch := ((s.core c).qu qid).d.epoch
    len := data.length + 1
    qid := qid
    h1 := BitVec.ofNat 64 (daCore c 0)
    pay := (head :: data).map (fun w => (w, false))
    counted := true
    slot := j
    tag := tag }

/-- The die holds an input back: its log is full, or a roll-back or replay is under way (spec/09 R254). -/
def State.inputHeld (s : State) (e : Entry) : Bool :=
  let q := s.job (e.p 0 1)
  q.rolled || q.replayTo.isSome || decide (134217728 < q.logBytes e.port + e.param.length + 16)

/-- An earlier input of the job is still held back: inputs go out in journal order (R352). -/
def State.inputBehind (s : State) (e : Entry) : Bool :=
  s.cp.journal.any (fun d => decide (d.id < e.id) && d.opcode == 0x20B && d.waiting && d.aux == 1 && d.p 0 1 == e.p 0 1)

/-- JOB_INPUT: the input goes out as one QSEND from the die of the sender's port (log 51), and the command waits for the
kernel's answer. One that the die holds back waits with `aux` 1 until it can go out (log 69). -/
def State.jobInput (s : State) (e : Entry) : State :=
  let j := e.p 0 1
  let q := s.job j
  if e.waiting && e.aux != 1 then s
  else if !(q.state == .running || q.state == .paused) then s.complete e stBadState []
  else
    match q.image.kernelIn.find? (fun k => k.1 == e.p 1 1) with
    | none => s.complete e stBadParam []
    | some (_, lp, qid) =>
      if (s.dieAttach e.port).isNone then s.complete e stAborted []
      else if s.inputHeld e || s.inputBehind e then s.modEntry e.id (fun d => { d with waiting := true, aux := 1 })
      else
        match q.place lp with
        | none => s
        | some c =>
          let num := q.nextInput
          let (tag, s) := s.newTag e.port
          let s := s.modPort e.port (fun x => { x with await := x.await ++ [(tag, .input j num)] })
          let s := s.modJob j (fun q => { q with
            nextInput := num + 1
            inputs := q.inputs ++ [{ num := num, input := e.p 1 1, entry := e.id, dest := lp, queue := qid }] })
          (s.dieSend e.port (s.inputPacket e j num qid tag c) (some lp) true).modEntry e.id (fun d => { d with waiting := true, aux := 0 })

def execJobInput (n : Nat) (s : State) : Out :=
  .next (s.cmd n 0x020B [(0, 2), (8, 4056)] (fun e => slotOk e && decide (e.p 1 1 < 16)) s.jobInput)

/-- SET_PROOFING: from the exposure after the one in progress (spec/15 R398). -/
def State.setProofing (s : State) (e : Entry) : State :=
  let j := e.p 0 1
  if !s.resident j then s.complete e stBadState []
  else
    (s.modJob j (fun q =>
      let from_ := if q.holdsPartition then q.expNo + 1 else if q.state == .suspended then q.lastCkpt else 0
      { q with proof := q.proof ++ [(from_, e.p 1 1, BitVec.ofNat 64 (e.p 8 8))] })).complete e stOk []

def execSetProofing (n : Nat) (s : State) : Out :=
  .next (s.cmd n 0x0400 [(0, 2), (8, 8)] (fun e => slotOk e && decide (e.p 1 1 < 6)) s.setProofing)

/-- The overrun record as READ_OVERRUN writes it (spec/09 Table 9.4). -/
def OverrunRec.bytes (r : OverrunRec) (j : Nat) : List Byte :=
  leBytes 1 0x10 ++ leBytes 1 1 ++ leBytes 1 j ++ leBytes 1 r.flags ++ leBytes 4 r.entries.length ++ leBytes 8 r.expNo ++
    leBytes 8 r.sched ++ leBytes 8 r.stopTick ++ leBytes 4 r.holdMax ++ leBytes 4 r.sum.toNat ++ leBytes 8 r.notReady ++
    List.replicate 16 0 ++ r.entries.flatMap (fun x => leBytes 16 x.toNat)

/-- READ_OVERRUN. -/
def State.readOverrun (s : State) (e : Entry) : State :=
  let q := s.job (e.p 0 1)
  match (if q.state == .stopped then q.overrun else none) with
  | none => s.complete e stBadState []
  | some r => s.hostWrite e (e.p 8 8) (e.p 16 4) (r.bytes (e.p 0 1)) (leBytes 4 (r.bytes (e.p 0 1)).length)

def execReadOverrun (n : Nat) (s : State) : Out :=
  .next (s.cmd n 0x0404 [(0, 1), (8, 12)] (fun e => slotOk e && e.p 8 8 % 8 == 0) s.readOverrun)

/-! ### SET_DEBUG_HOLD, SNAPSHOT, READ_SNAPSHOT, SNAPSHOT_EXPIRY (spec/16 R430-R432) -/

/-- SET_DEBUG_HOLD. -/
def State.setDebugHold (s : State) (e : Entry) : State :=
  let j := e.p 0 1
  let on := e.p 1 1 = 1
  if !s.resident j then s.complete e stBadState []
  else
    let s := s.modJob j (fun q => { q with debugHold := on, holdSecs := e.p 4 4 })
    (if on then s else s.withdrawSnap j).complete e stOk []

def debugOk (e : Entry) : Bool := slotOk e && decide (e.p 1 1 < 2) && decide (1 ≤ e.p 4 4 ∧ e.p 4 4 ≤ 3600)

def execSetDebugHold (n : Nat) (s : State) : Out := .next (s.cmd n 0x0800 [(0, 2), (4, 4)] debugOk s.setDebugHold)

/-- Space for a snapshot: the stacks that are not lost are tried in order. DESIGN CHOICE (log 53): it is held in one stack. -/
def State.snapSpace (s : State) (size : Nat) : Option Region :=
  ((List.range 16).filter (fun n => !(s.stack n).lost)).findSome? (fun n =>
    (s.lowestFree [n] size).map (fun off => { id := 16, stack := n, off := off, size := size }))

/-- SNAPSHOT reserves its space; a later one replaces the request. -/
def State.askSnapshot (s : State) (e : Entry) : State :=
  let j := e.p 0 1
  let q := s.job j
  if !s.resident j || !q.debugHold then s.complete e stBadState []
  else
    let t := { s with snaps := tset s.snaps j .none }
    match t.snapSpace (snapBytes (e.p 8 8)) with
    | none => s.complete e stNoResource []
    | some r => ({ t with snaps := tset t.snaps j (.asked e.port e.sess q.holdSecs (e.p 8 8) [r]) }).complete e stOk []

def execSnapshot (n : Nat) (s : State) : Out := .next (s.cmd n 0x0801 [(0, 1), (8, 8)] slotOk s.askSnapshot)

/-- READ_SNAPSHOT: by the owner, on the port whose session asked for it. -/
def State.readSnapshot (s : State) (e : Entry) : State :=
  match tget Snap.none s.snaps (e.p 0 1) with
  | .held p _ _ data =>
    if p = e.port && !s.dataCut then s.hostWrite e (e.p 8 8) (e.p 16 8) data (leBytes 8 data.length) else s.complete e stBadState []
  | .expired => s.complete e stExpired []
  | _ => s.complete e stBadState []

def execReadSnapshot (n : Nat) (s : State) : Out :=
  .next (s.cmd n 0x0802 [(0, 1), (8, 16)] (fun e => slotOk e && e.p 8 8 % 8 == 0) s.readSnapshot)

/-- SNAPSHOT_EXPIRY: after the hold time the snapshot and its reservation are gone. -/
def execSnapshotExpiry (j : Nat) (s : State) : Out :=
  .next (match tget Snap.none s.snaps j with
    | .held _ ex _ _ => if ex ≤ s.now then { s with snaps := tset s.snaps j .expired } else s
    | _ => s)

end Sys2Proof.Machine
end

