-- ==== Sys2Proof/Machine/Clocks.lean ====
section
/-! DEFINITION. Clock domains: reference clocks, lock, loss and recovery of the time source, the effective field clock, gating
(spec/14 R358-R369). -/

namespace Sys2Proof.Machine

/-! ### The effective clock (R367, R368) -/

/-- The effective code of a field's clock, with the limit that applies: 0 none, 1 power share, 2 thermal, 3 supply warning,
4 coolant. DEDUCED (log 54): a limit applies where it is below the code set; of equal limits the supply warning, then the
coolant, then the thermal limit is shown. -/
def State.clockOf (s : State) (f : Nat) : Nat × Nat :=
  let x := s.field f
  let v := min x.clkSet (min x.powLim x.thermLim)
  if s.mod.supply = .warning ∧ 0 < x.clkSet then (0, 3)
  else if s.mod.coolantOk = false ∧ 0 < x.clkSet then (0, 4)
  else if v = x.clkSet then (v, 0)
  else if x.thermLim = v then (v, 2)
  else (v, 1)

/-- Frequency of a clock code in MHz. -/
def clockMhz (code : Nat) : Nat := 150 + 25 * code

/-- VCORE in ON, from 650 to 850 mV: a module-specific value for the field and its clock (R368, log 17). -/
def vcoreOn (f code : Nat) : BitVec 16 := BitVec.ofNat 16 (650 + (Config.vcoreMv (32 * f + code)).toNat % 201)

/-- VCORE at retention, 0.60 V (R368, R371, R382). -/
def vcorePark : BitVec 16 := 600

/-- The field's synthesiser switches to the effective clock. -/
def State.switchClock (s : State) (f : Nat) : State :=
  let c := s.clockOf f
  s.modField f (fun x => { x with
    clkEff := c.1
    clkLimit := c.2
    vcore := if x.tstop || x.power != 0 then x.vcore else vcoreOn f c.1 })

/-- CLOCK_SWITCH: the field controller of a field that runs switches to the effective clock now due. -/
def execClockSwitch (f : Nat) (s : State) : Out :=
  .next (if f < 60 ∧ (s.field f).run = true ∧ (s.field f).power = 0 then s.switchClock f else s)

/-! ### SET_CLOCK (Table 13.11) -/

/-- Fields that a mask names. -/
def fieldsOf (mask : Nat) : List Nat := (List.range 60).filter (fun f => nfld mask f 1 == 1)

/-- A mask of a list of fields. -/
def fieldMask (fs : List Nat) : Nat := (fs.map (2 ^ ·)).foldl (· + ·) 0

/-- The partition of a field runs: its develop point takes up the change. -/
def State.fieldRunning (s : State) (f : Nat) : Bool := ((s.fieldJob f).map (fun j => (s.job j).state == .running)).getD false

/-- One field takes up the code: at once, or at its partition's next develop point. -/
def State.setClockOne (s : State) (code f : Nat) : State :=
  if s.fieldRunning f then s.modField f (fun x => { x with clkPend := some code })
  else s.modField f (fun x => { x with clkSet := code, clkPend := none })

/-- The field has completed its switch; a field whose clock stands still has none to make. -/
def State.clockDone (s : State) (f : Nat) : Bool :=
  let x := s.field f
  x.clkPend.isNone && (!x.run || x.power ≠ 0 || (x.clkEff, x.clkLimit) == s.clockOf f)

/-- SET_CLOCK: `aux` keeps the fields that refused it while a protective action was under way (spec/01 R17). -/
def State.setClock (s : State) (e : Entry) : State :=
  let named := fieldsOf (e.p 0 8)
  let todo := if e.waiting then fieldsOf e.aux else named
  let (refused, now) := todo.partition (fun f => (s.field f).busy)
  let s := now.foldl (fun s f => s.setClockOne (e.p 8 1) f) s
  if refused.isEmpty && named.all s.clockDone then s.complete e stOk []
  else (s.modEntry e.id (fun x => { x with aux := fieldMask refused })).wait e

def execSetClock (n : Nat) (s : State) : Out :=
  .next (s.cmd n 0x0501 [(0, 9)] (fun e => decide (e.p 0 8 < 2 ^ 60 ∧ e.p 8 1 ≤ 20)) s.setClock)

/-! ### Gating (R369) -/

/-- A core is done for the exposure, or takes no part in it, and has nothing in progress. -/
def State.coreIdle (s : State) (c : CoreId) : Bool :=
  let x := s.core c
  s.coreDone c && x.idle && x.rows.isEmpty && x.q.toList.all (fun q => q.idWrites.isEmpty)

/-- Every core of a field is done and idle. -/
def State.fieldIdle (s : State) (f : Nat) : Bool := (s.coresOf f).all s.coreIdle

/-- A packet for a core of the field is on its way. -/
def State.packetFor (s : State) (f : Nat) : Bool := s.net.any (fun p => p.dkind == 0 && coreField p.dstCore == some f)

/-- CLOCK_GATE. -/
def execClockGate (f : Nat) (s : State) : Out :=
  .next (if f < 60 ∧ (s.field f).clocked = true ∧ s.fieldIdle f = true then
    s.modField f (fun x => { x with gated := true }) else s)

/-- CLOCK_UNGATE: a packet arrives for a core of the field (`State.ungate` does the same at the arrival itself); a develop point
ungates by itself. -/
def execClockUngate (f : Nat) (s : State) : Out :=
  .next (if (s.field f).gated && (s.packetFor f || !s.fieldIdle f) then s.modField f (fun x => { x with gated := false }) else s)

/-! ### Reference clocks (R361, R364-R366) -/

/-- Settle delays in periods of 10 ns (Table 14.2). -/
def settleDelay (sel : Nat) : Nat := [10000, 20000, 50000, 100000, 200000, 500000, 2000000, 10000000].getD sel 10000000

/-- REFCLK_PRESENT. The control domain runs again where it stood (R366). -/
def execRefclkPresent (p : Port) (s : State) : Out :=
  .next (if s.mod.standby && !(s.port p).refPresent then
    (s.modPort p (fun x => { x with refPresent := true, refSettled := false, refAt := s.mod.sby })).postMc else s)

/-- REFCLK_SETTLED: the time source moves to the owner's REFCLK, whether it had fallen back from it or the owner came before its
clock had settled (spec/00 R2, R359, R365). -/
def State.refSettle (s : State) (p : Port) : State :=
  let x := s.port p
  if x.refPresent && !x.refSettled && decide (x.refAt + settleDelay x.delaySel ≤ s.mod.sby) then
    (s.modPort p (fun x => { x with refSettled := true, settledAt := s.mod.sby })).sourceOfOwner
  else s

def execRefclkSettled (p : Port) (s : State) : Out := .next (s.refSettle p)

/-- The actions of R364: TICK, field clocks and stacks stop, and stacks refresh themselves. -/
def State.stopTime (s : State) : State :=
  { s with
    mod := { s.mod with tsPresent := false, ctlLock := false }
    fields := s.fields.map (fun (x : FieldState) => { x with lock := false, run := false })
    stk := s.stk.map (fun (k : StackState) => { k with locked := false, selfRefresh := true }) }

/-- PORTEVT.PEERLINK of the port that remains (spec/12 R332, Table 12.7). -/
def State.peerEvent (s : State) (p : Port) : State := s.portEvent p.other evPeerLink

/-- A link goes down: a grace period begins where the port is the owner's (spec/12 R328). -/
def State.loseLink (s : State) (p : Port) : State :=
  if !(s.port p).linkUp then s
  else
    let s := (s.modPort p (fun x => { x with linkUp := false, inReads := [], heldReads := [] })).peerEvent p
    if s.ownsPort p then
      (s.modPort p (fun x => { x with grace := some (s.mod.ctl + 25000000) })).bothEvent evGraceStart
    else s

/-- REFCLK_LOST: the connector's link goes down (Table 14.1). Where it was the time source, the module stops at clean points; the
loss of the last REFCLK is reported by the MCs, which then run alone (R366). -/
def State.refLost (s : State) (p : Port) : State :=
  if !(s.port p).refPresent then s
  else
    let s := (s.modPort p (fun x => { x with refPresent := false, refSettled := false })).loseLink p
    let source := s.mod.tsPresent && s.mod.tsrc == p
    let s := if source then s.stopTime else s
    if source || !(s.port p.other).refPresent then s.errorRecord { mkRec clsRefclk 2 5 with unit := p.num } else s

def execRefclkLost (p : Port) (s : State) : Out := .next (s.refLost p)

/-- A field's synthesisers may run: its controller is loaded (spec/01 R18), its switch is closed and it is ON and not stopped by heat. -/
def FieldState.mayRun (x : FieldState) : Bool := x.loaded && x.power == 0 && !x.swOpen && !x.tstop

/-- Every stopped domain resumes where it stopped. -/
def State.resumeTime (s : State) : State :=
  { s with
    mod := { s.mod with tsPresent := true, ctlLock := true }
    fields := s.fields.map (fun (x : FieldState) => if x.mayRun then { x with lock := true, run := true } else x)
    stk := s.stk.map (fun (k : StackState) => if k.lost || !k.loaded then k else { k with locked := true, selfRefresh := false }) }

/-- The source a recovery takes (Table 14.3): the lost REFCLK once it is back and settled, or with FALLBACK whichever of the two
settled first. -/
def State.recoverySource (s : State) : Option Port :=
  let p := s.mod.tsrc
  if s.mod.fallback && s.refUsable p.other && (!s.refUsable p || decide ((s.port p.other).settledAt < (s.port p).settledAt)) then some p.other
  else if s.refUsable p then some p
  else none

/-- CLOCK_RECOVERY: once time runs again the source follows a usable REFCLK of the owner (spec/00 R2). -/
def State.clockRecovery (s : State) : State :=
  if s.mod.tsPresent || s.mod.step < 5 then s
  else
    match s.recoverySource with
    | none => s
    | some p =>
      let s := s.resumeTime
      ({ s with mod := { s.mod with tsrc := p } }).sourceOfOwner

def execClockRecovery (s : State) : Out := .next s.clockRecovery

/-- The connector whose port is preferred: its OWNER_PREF is asserted and the other's is not (spec/12 R330). -/
def State.preferred (s : State) : Option Port :=
  if s.ports.a.pref && !s.ports.b.pref then some .a else if s.ports.b.pref && !s.ports.a.pref then some .b else none

/-- The time source that R359 selects at a start: the preferred port's REFCLK, A's, B's. -/
def State.startSource (s : State) : Option Port :=
  (s.preferred.toList ++ [Port.a, Port.b]).find? s.refUsable

/-- The control domain locks at step 4 of a start, and TICK is 0 in both dies (spec/16 Table 16.3). -/
def State.lockControl (s : State) : State :=
  match s.startSource with
  | none => s
  | some p =>
    let zero (x : PortState) : PortState := { x with tick := 0, tickAdj := 0 }
    { s with
      ports := { a := zero s.ports.a, b := zero s.ports.b }
      mod := { s.mod with tsrc := p, tsPresent := true, ctlLock := true, step := 5 } }

/-- CLOCK_LOCK: a domain locks to its settled reference (R362); a field's and a stack's controller run only the firmware that the
active CP has loaded (spec/01 R18). -/
def State.clockLock (s : State) (d : ClockDomain) : State :=
  match d with
  | .control => if s.mod.step = 3 then s.lockControl else s
  | .field f =>
    if f < 60 ∧ s.mod.ctlLock = true ∧ (s.field f).mayRun = true then
      s.modField f (fun x => { x with lock := true, run := true })
    else s
  | .stack n =>
    if s.mod.ctlLock && (s.stack n).loaded && !(s.stack n).lost then s.modStack n (fun x => { x with locked := true, selfRefresh := false })
    else s

def execClockLock (d : ClockDomain) (s : State) : Out := .next (s.clockLock d)

/-- STANDBY_TRIM: the MC trims against the best source present, or the last trim holds (R363). -/
def State.standbyTrim (s : State) (eth : Bool) : State :=
  let src := if s.mod.tsPresent then 1
    else if (s.port .a).refPresent || (s.port .b).refPresent then 2
    else if eth then 3
    else s.mod.stbySrc
  if s.mc.a.running || s.mc.b.running then { s with mod := { s.mod with stbySrc := src } } else s

def execStandbyTrim (eth : Bool) (s : State) : Out := .next (s.standbyTrim eth)

end Sys2Proof.Machine
end

