-- ==== Sys2Proof/Machine/Selftest.lean ====
section
/-! DEFINITION. In-field test, reset of a field, fetching of error counts (spec/15 R394, R408-R411, spec/16 R419). -/

namespace Sys2Proof.Machine

/-- Hub group of a failing part. -/
def failGroup : TestFail → Nat
  | .core c => coreHub c
  | .router c => coreHub c
  | .hub h => h

/-- The part lies in a field. -/
def failIn (f : Nat) : TestFail → Bool
  | .core c => coreField c == some f
  | .router c => coreField c == some f
  | .hub h => decide (h < 48)

/-- The TEST_FAIL record of a part (R411). -/
def State.testRecord (s : State) (f : Nat) (t : TestFail) : State :=
  let at_ : Nat × Nat := match t with
    | .core c => (c.x, c.y)
    | .router c => (c.x, c.y)
    | .hub _ => (0xFFFF, 0xFFFF)
  let action := match t with
    | .core _ => 5
    | _ => 6
  s.errorRecord { mkRec clsTestFail 2 3 with
    field := f, job := (s.fieldJob f).getD 0xFF, x := at_.1, y := at_.2, unit := failGroup t, action := action }

/-- A failing part is recorded, and fenced or removed as Table 15.7 states (R411). -/
def State.testFailed (s : State) (f : Nat) (t : TestFail) : State :=
  let s := s.testRecord f t
  match t with
  | .core c => s.deadCore c 1
  | .router c => s.routerFailed c
  | .hub h => s.hubFailed (hubOf f h).1 (hubOf f h).2

/-- The test of one hub group ends: what failed is taken out of service, FTEST and FTESTT show it. -/
def State.testGroup (s : State) (f h : Nat) (fails : List TestFail) : State :=
  let mine := fails.filter (fun t => failIn f t && failGroup t == h)
  let s := mine.foldl (fun s t => s.testFailed f t) s
  s.modField f (fun x =>
    let due := x.testDue.filter (fun d => d.1 ≠ h)
    { x with testDue := due, testDefer := !due.isEmpty, testFail := !mine.isEmpty, testHg := h, testTick := x.tick.setWidth 32 })

/-- Tests every hub group of a field, in ascending order (DESIGN CHOICE, log 59). -/
def State.testField (s : State) (f : Nat) (fails : List TestFail) : State :=
  (List.range 48).foldl (fun s h => s.testGroup f h fails) s

/-- Bit h: hub group h failed. -/
def failMask (f : Nat) (fails : List TestFail) : Nat :=
  (((List.range 48).filter (fun h => fails.any (fun t => failIn f t && failGroup t == h))).map (2 ^ ·)).foldl (· + ·) 0

/-- RUN_TEST: a field in service and in no partition. -/
def State.runTest (s : State) (e : Entry) (fails : List TestFail) : State :=
  let f := e.p 0 1
  if !s.fieldOk f || (s.fieldJob f).isSome || !(s.field f).run then s.complete e stBadState []
  else (s.testField f fails).complete e stOk (leBytes 8 (failMask f fails))

def execRunTest (n : Nat) (fails : List TestFail) (s : State) : Out :=
  .next (s.cmd n 0x0405 [(0, 1)] (fun e => decide (e.p 0 1 < 60)) (fun e => s.runTest e fails))

/-- A hold for TEST ends once no hub group of the partition is due (R410). -/
def State.endTestHold (s : State) (j : Nat) : State :=
  if (s.job j).allFields.all (fun f => (s.field f).testDue.isEmpty) then
    s.modJob j (fun q => { q with holds := { q.holds with test := false } })
  else s

/-- A hub group of a running partition may be tested now: between phases 2 and 3 of a safelight interval, or while its develop
point is held for TEST (Table 15.9). -/
def Job.testsNow (q : Job) : Bool :=
  (q.held && q.holds.test) ||
    match q.safelight with
    | .apply _ => true
    | _ => false

/-- The last due point of a hub group, at offset (48f + h)/2,880 of each TEST_PERIOD (R408). DESIGN CHOICE (log 1): periods count from
TICK 0. -/
def State.duePoint (s : State) (f h : Nat) : Option Nat :=
  let p := s.mgmt.testPeriod * 100000000
  let off := (48 * f + h) * p / 2880
  let now := (s.field f).tick.toNat
  if now < off then none else some (off + (now - off) / p * p)

/-- The group's test comes due: its last due point has passed and was not taken up yet. -/
def State.comesDue (s : State) (f h : Nat) : Bool :=
  match s.duePoint f h with
  | none => false
  | some d => decide (KMap.get 0 (s.field f).testLast h < d + 1)

/-- TEST_DUE: a hub group's test comes due, or one that is due is run (R409). Outside a running partition it runs at once. -/
def State.testDueAt (s : State) (f h : Nat) (fails : List TestFail) : State :=
  let waits := (s.field f).testDue.any (fun d => d.1 == h)
  if !s.fieldOk f || !(s.field f).run || 48 ≤ h || !(waits || s.comesDue f h) then s
  else
    let s := if waits then s
      else s.modField f (fun x => { x with testLast := KMap.put x.testLast h (((s.duePoint f h).getD 0) + 1) })
    match s.fieldJob f with
    | none => s.testGroup f h fails
    | some j =>
      let q := s.job j
      if q.state != .running then s.testGroup f h fails
      else if waits then
        if q.testsNow then (s.testGroup f h fails).endTestHold j else s
      else s.modField f (fun x => { x with testDue := x.testDue ++ [(h, s.mod.ctl)], testDefer := true })

def execTestDue (f h : Nat) (fails : List TestFail) (s : State) : Out := .next (s.testDueAt f h fails)

/-- TEST_DEFER_EXPIRY: a test due for longer than TEST_DEFER_MAX holds the next develop point for TEST. -/
def State.testExpiry (s : State) (f h : Nat) : State :=
  let x := s.field f
  let late := x.testDue.any (fun d => d.1 == h && decide (d.2 + s.mgmt.testDefer * 100000000 < s.mod.ctl))
  match s.fieldJob f with
  | some j => if late && (s.job j).state == .running then s.modJob j (fun q => { q with holds := { q.holds with test := true } }) else s
  | none => s

def execTestDeferExpiry (f h : Nat) (s : State) : Out := .next (s.testExpiry f h)

/-! ### Reset of a field (spec/16 R419) -/

/-- What a hub loses with its field's power: the READs it combined. Its registers lie in the field controller, which keeps its
power (spec/08 R220). -/
def State.dropHubs (s : State) (f : Nat) : State :=
  { s with hubs := KMap.mapIf (fun k => fieldAt (k % 48 / 6) (k / 48 / 8) == some f) (fun _ h => { h with cmb := [] }) s.hubs }

/-- The copies of state that a field keeps nothing of: its cores and routers, and what its hubs hold (spec/16 Table 16.4, OFF). -/
def State.dropField (s : State) (f : Nat) : State :=
  let s := s.dropHubs f
  { s with
    cores := KMap.delIf (fun k => coreField (coreOfKey k) == some f) s.cores
    routers := KMap.delIf (fun k => coreField (coreOfKey k) == some f) s.routers
    net := s.net.filter (fun p => !(p.inField f)) }

/-- The route tables and counters of a field's routers and hubs as a field reset leaves them: rebuilt. -/
def State.resetRoutes (s : State) (f : Nat) : State :=
  { s with
    routers := KMap.delIf (fun k => coreField (coreOfKey k) == some f) s.routers
    hubs := KMap.delIf (fun k => fieldAt (k % 48 / 6) (k / 48 / 8) == some f) s.hubs }

/-- A field controller's registers at their reset values, with what the CP writes back: clock code, power state, LOCKOUT.
The due points already taken up are not due again. -/
def FieldState.afterReset (x : FieldState) (tick : BitVec 64) (f : Nat) : FieldState :=
  { tick := tick
    clkSet := x.clkSet
    power := x.power
    swOpen := x.swOpen
    lockout := x.lockout
    closedAt := x.closedAt
    testLast := x.testLast
    lock := true
    run := x.power == 0
    loaded := true
    vcore := if x.power = 0 then vcoreOn f x.clkSet else x.vcore }

/-- A field reset: firmware and TICK again, wash, tables, test of every hub group. -/
def State.fieldReset (s : State) (f : Nat) (stuck : Stuck) (fails : List TestFail) : State :=
  let t := (s.port s.cp.cpact).tick
  let s := (s.resetRoutes f).washField f stuck
  let s := s.modField f (fun x => x.afterReset t f)
  (s.switchClock f).testField f fails

/-- FIELD_RESET: a field of no partition whose switch is closed; its cause is a time-base fault, or its controller's firmware. -/
def execFieldReset (f : Nat) (stuck : Stuck) (fails : List TestFail) (s : State) : Out :=
  .next (if f < 60 ∧ s.cpRuns = true ∧ s.mod.tsPresent = true ∧ s.fieldJob f = none ∧ (s.field f).mayRun = true then
    s.fieldReset f stuck fails else s)

/-! ### ERROR_COUNT_SWEEP (R394) -/

/-- The increase of a count since its last reading: a lower value counts whole. -/
def countRise (new old : Nat) : Nat := if new < old then new else new - old

/-- The patrol scrub found an uncorrectable word that SPELOG holds. -/
def CoreState.scrubUe (x : CoreState) : Bool := x.sp.logValid && x.sp.logOutcome == 3 && x.sp.logSource == 3

/-- A core's SPELOG, as its register shows it (spec/05 Table 5.8). -/
def State.spelog (s : State) (c : CoreId) : Nat := (readSp (coreKind c) (s.core c) 0x128).getD 0

/-- One core's counts: the totals grow, and a core above the rate is given a pending fence and has a record each time. -/
def State.sweepOne (s : State) (f : Nat) (c : CoreId) : State :=
  let x := s.core c
  let l := KMap.get {} (s.field f).last (coreKey c)
  let ce := countRise x.sp.ceCount.toNat l.ce
  let s := s.modField f (fun g => { g with
    errCe := satAdd g.errCe ce
    errUe := satAdd g.errUe (countRise x.sp.ueCount.toNat l.ue)
    pois := satAdd g.pois (countRise x.sp.poisCount.toNat l.pois)
    last := KMap.put g.last (coreKey c) { l with ce := x.sp.ceCount.toNat, ue := x.sp.ueCount.toNat, pois := x.sp.poisCount.toNat } })
  if (4096 < ce || x.scrubUe) && s.inService c then
    (s.modField f (fun g => { g with pendFence := if g.pendFence.contains c then g.pendFence else g.pendFence ++ [c] })).errorRecord
      { mkRec clsSpCeRate 1 3 with
        field := f, job := (s.fieldJob f).getD 0xFF, x := c.x, y := c.y, unit := coreHub c, code := s.spelog c }
  else s

/-- One router's link counts: a link above the rate causes a record only. DEDUCED (log 68): corrected code words count in FERRCE,
replays, which uncorrectable flits cause, in FERRUE. -/
def State.sweepLink (s : State) (f : Nat) (c : CoreId) : State :=
  let r := s.router c
  let l := KMap.get {} (s.field f).last (coreKey c)
  let ce := countRise r.linkCe.toNat l.linkCe
  let s := s.modField f (fun g => { g with
    errCe := satAdd g.errCe ce
    errUe := satAdd g.errUe (countRise r.linkRpl.toNat l.linkRpl)
    last := KMap.put g.last (coreKey c) { l with linkCe := r.linkCe.toNat, linkRpl := r.linkRpl.toNat } })
  if 65536 < ce then
    s.errorRecord { mkRec clsSpCeRate 1 1 with field := f, job := (s.fieldJob f).getD 0xFF, x := c.x, y := c.y, unit := coreHub c }
  else s

/-- ERROR_COUNT_SWEEP of one field. Cores and routers never changed have counted nothing. -/
def State.sweepField (s : State) (f : Nat) : State :=
  let s := (s.coresOf f).foldl (fun s c => s.sweepOne f c) s
  ((s.routers.map (fun e => coreOfKey e.1)).filter (fun c => coreField c == some f)).foldl (fun s c => s.sweepLink f c) s

def execErrorCountSweep (f : Nat) (s : State) : Out := .next (if f < 60 ∧ (s.field f).run = true then s.sweepField f else s)

end Sys2Proof.Machine
end

