-- ==== Sys2Proof/Machine/Power.lean ====
section
/-! DEFINITION. Supply warnings, field rails and power states, heat, the power cap (spec/14 R371-R388). -/

namespace Sys2Proof.Machine

/-! ### Supply warnings (R372-R375) -/

/-- SUPPLY_WARNING: from now on a held develop point counts its 200,000 ticks (R374), by the control domain's clock (R366). -/
def State.supplyWarning (s : State) (mv : Nat) : State :=
  if s.mod.supply = .normal ∧ mv < 49000 then
    { s with
      mod := { s.mod with supply := .warning }
      jobs := s.jobs.map (fun (q : Job) => if q.state == .running && q.held then { q with warnFrom := some s.mod.ctl } else q) }
  else s

def execSupplyWarning (mv : Nat) (s : State) : Out := .next (s.supplyWarning mv)

/-- Copies the active die's flash to the other die (spec/17 R441), unless an update is in progress; the writes wait while the
supply warning holds. -/
def State.syncFlash (s : State) : State :=
  match s.cp.active with
  | none => s
  | some p =>
    if (s.fw.upd.map (fun u => u.state != 3)).getD false then s
    else if s.mod.supply = .warning then { s with fw := { s.fw with syncDue := true } }
    else { s with fw := { s.fw with syncDue := false, flash := s.fw.flash.set p.other (s.fw.flash.get p) } }

/-- SUPPLY_WARNING_CLEAR: develop points held for POWER alone may fall, and flash writes that waited are made (R373, R375). -/
def State.supplyClear (s : State) (mv : Nat) : State :=
  if s.mod.supply = .warning ∧ 49500 ≤ mv then
    let s := { s with
      flashErrs := s.flashErrs ++ s.flashWait
      flashWait := []
      flashCopy := none
      mod := { s.mod with supply := .normal }
      jobs := s.jobs.map (fun (q : Job) => { q with warnFrom := none }) }
    if s.fw.syncDue then s.syncFlash else s
  else s

def execSupplyWarningClear (mv : Nat) (s : State) : Out := .next (s.supplyClear mv)

/-- POWER_HOLD_PAUSE: a develop point held 200,000 ticks with the warning in force throughout (R374). DESIGN CHOICE (log 55): the
JOB_STATE event carries reason 0. -/
def State.powerPause (s : State) (j : Nat) : State :=
  let q := s.job j
  let due := (q.warnFrom.map (fun t => decide (t + 200000 ≤ s.mod.ctl))).getD false
  if q.state == .running && q.held && s.mod.supply == .warning && due then
    (s.errorRecord { mkRec clsSupply 2 7 with job := j, action := 3 }).enterPaused j 0
  else s

def execPowerHoldPause (j : Nat) (s : State) : Out := .next (s.powerPause j)

/-! ### Rails (R377-R379) -/

/-- What an open switch leaves of a field: its controller's registers alone. -/
def State.openSwitch (s : State) (f cause : Nat) : State :=
  (s.dropField f).modField f (fun x => { x with
    swOpen := true
    cause := cause
    power := 2
    run := false
    lock := false
    gated := false
    vcore := 0 })

/-- The switch opened again within 1 s of closing. -/
def FieldState.reopened (x : FieldState) (now : Nat) : Bool := (x.closedAt.map (fun t => decide (now < t + 100000000))).getD false

/-- RAIL_FAULT: overcurrent, undervoltage while ON, or overvoltage opens the switch. -/
def State.railFault (s : State) (f cause : Nat) : State :=
  let x := s.field f
  if 60 ≤ f ∨ cause = 0 ∨ 3 < cause ∨ x.swOpen = true ∨ (cause = 2 ∧ (x.power ≠ 0 ∨ x.tstop = true)) then s
  else
    let again := x.reopened s.mod.ctl
    let s := (s.openSwitch f cause).modField f (fun x =>
      { x.protect cause with lockout := x.lockout || again })
    if again then s.errorRecord { mkRec clsLockout 4 3 with field := f, code := cause } else s

def execRailFault (f cause : Nat) (s : State) : Out := .next (s.railFault f cause)

/-- FIELD_LOST: a field whose switch has opened, or that is stopped at 100 °C, is a lost field (R378, R382). -/
def State.fieldLostNow (s : State) (f : Nat) : State :=
  let x := s.field f
  if f < 60 ∧ x.lost = false ∧ ((x.swOpen = true ∧ 1 ≤ x.cause ∧ x.cause ≤ 3) ∨ x.tstop = true) then s.loseField f else s

def execFieldLost (f : Nat) (s : State) : Out := .next (s.fieldLostNow f)

/-! ### SET_FIELD_POWER (R371, R379) -/

/-- ON to PARK: the clock stops with all state kept. -/
def State.parkField (s : State) (f : Nat) : State :=
  s.modField f (fun x => { x with power := 1, run := false, gated := false, vcore := vcorePark })

/-- To OFF: the switch opens on command; an edge field cuts off its attachment (R378). -/
def State.fieldOff (s : State) (f : Nat) : State := (s.openSwitch f 0).cutEdge f

/-- A field takes up its clock again. -/
def State.startClock (s : State) (f : Nat) : State :=
  (s.modField f (fun x => { x with power := 0, run := s.mod.tsPresent && !x.tstop, lock := s.mod.tsPresent && !x.tstop })).switchClock f

/-- OFF to ON: the switch closes, and every core is washed before the field is ON. -/
def State.fieldOn (s : State) (f : Nat) (stuck : Stuck) : State :=
  let s := s.modField f (fun x => { x with swOpen := false, cause := 0, lost := false, closedAt := some s.mod.ctl })
  (s.washField f stuck).startClock f

/-- One field is brought into a power state: 0 ON, 1 PARK, 2 OFF. -/
def State.setPowerOne (s : State) (v : Nat) (stuck : Stuck) (f : Nat) : State :=
  let x := s.field f
  if x.power = v then s
  else if v = 2 then s.fieldOff f
  else if v = 1 then s.parkField f
  else if x.power = 1 then s.startClock f
  else s.fieldOn f stuck

/-- A transition that is refused: ON of a locked-out field, or, DEDUCED (log 56), OFF to PARK, which R371 does not name. -/
def State.powerBad (s : State) (v f : Nat) : Bool :=
  let x := s.field f
  (s.fieldJob f).isSome || (v == 0 && x.lockout && x.power ≠ 0) || (v == 1 && x.power == 2)

/-- SET_FIELD_POWER: a field with a protective action under way refuses it for now and reports that; `aux` keeps those fields
(spec/01 R17). -/
def State.setFieldPower (s : State) (e : Entry) (stuck : Stuck) : State :=
  let named := fieldsOf (e.p 0 8)
  let v := e.p 8 1
  if named.any (s.powerBad v) then s.complete e stBadState []
  else
    let (refused, now) := named.partition (fun f => (s.field f).busy)
    let s := now.foldl (fun s f => s.setPowerOne v stuck f) s
    if named.all (fun f => (s.field f).power == v) then s.complete e stOk []
    else (s.modEntry e.id (fun x => { x with aux := fieldMask refused })).wait e

def execSetFieldPower (n : Nat) (stuck : Stuck) (s : State) : Out :=
  .next (s.cmd n 0x0502 [(0, 9)] (fun e => decide (e.p 0 8 < 2 ^ 60 ∧ e.p 8 1 ≤ 2)) (fun e => s.setFieldPower e stuck))

/-! ### Heat (R380-R384) -/

/-- The highest reading and the first hub group where it was found. -/
def hottest : List Int → Nat → Int × Nat → Int × Nat
  | [], _, m => m
  | t :: rest, h, m => hottest rest (h + 1) (if m.1 < t then (t, h) else m)

/-- A field's highest temperature. -/
def FieldState.heat (x : FieldState) : Int := x.tempMax.toInt

/-- What a field controller keeps of a sample, with the starts of the intervals of R381 and R383. -/
def FieldState.sample (x : FieldState) (now : Nat) (t0 : Int) (rest : List Int) : FieldState :=
  let m := hottest rest 1 (t0, 0)
  { x with
    temps := t0 :: rest
    tempMax := BitVec.ofInt 8 m.1
    tempHg := m.2
    tempPeak := if x.tempPeak.toInt < m.1 then BitVec.ofInt 8 m.1 else x.tempPeak
    coolSince := if m.1 ≤ 85 then some (x.coolSince.getD now) else none
    thermAt := if 90 ≤ m.1 then x.thermAt else none
    thermUp := if m.1 ≤ 87 then some (x.thermUp.getD now) else none }

/-- TEMP_SAMPLE; at 100 °C the field's clock stops (R382). -/
def State.tempSample (s : State) (f : Nat) (temps : List Int) : State :=
  match temps with
  | [] => s
  | t0 :: rest =>
    if 60 ≤ f then s
    else
      let s := s.modField f (fun x => x.sample s.mod.ctl t0 rest)
      let x := s.field f
      if 100 ≤ x.heat ∧ x.tstop = false ∧ x.power ≠ 2 ∧ x.swOpen = false then
        s.modField f (fun x => { x.protect 4 with
          tstop := true
          run := false
          lock := false
          gated := false
          vcore := vcorePark })
      else s

def execTempSample (f : Nat) (temps : List Int) (s : State) : Out := .next (s.tempSample f temps)

/-- What a first step of a limit starts from: the code set; later ones from the limit itself (DESIGN CHOICE, log 60). -/
def stepFrom (lim set : Nat) : Nat := if lim = 20 then set else lim

/-- A limit one step of 25 MHz lower. -/
def stepDown (lim set : Nat) : Nat := stepFrom lim set - 1

/-- A limit one step higher; one that no longer applies is gone. -/
def stepUp (lim set : Nat) : Nat := if set ≤ lim + 1 then 20 else lim + 1

/-- THROTTLE_STEP (R381): a step down is a protective action (spec/01 Table 1.1). Other limits that hold do not stop it (R384). -/
def State.throttleStep (s : State) (f : Nat) : State :=
  let x := s.field f
  let now := s.mod.ctl
  if 60 ≤ f ∨ x.run = false then s
  else if 90 ≤ x.heat then
    if (x.thermAt.map (fun t => decide (t + 1000 ≤ now))).getD true && decide (0 < stepFrom x.thermLim x.clkSet) then
      s.modField f (fun x => { x.protect 5 with
        thermLim := stepDown x.thermLim x.clkSet, thermAt := some now, fthr := sat1 x.fthr })
    else s
  else if x.heat ≤ 87 ∧ x.thermLim < 20 then
    if (x.thermUp.map (fun t => decide (t + 10000 ≤ now))).getD false then
      s.modField f (fun x => { x with thermLim := stepUp x.thermLim x.clkSet, thermUp := some now })
    else s
  else s

def execThrottleStep (f : Nat) (s : State) : Out := .next (s.throttleStep f)

/-- THERMAL_RESTART: 100,000 ticks at or below 85 °C, and in no partition: a field reset, the thermal limit at 150 MHz (R383). -/
def State.thermalRestart (s : State) (f : Nat) (stuck : Stuck) : State :=
  let x := s.field f
  let cool := (x.coolSince.map (fun t => decide (t + 100000 ≤ s.mod.ctl))).getD false
  if f < 60 ∧ x.tstop = true ∧ x.swOpen = false ∧ x.job = none ∧ cool = true ∧ s.cpRuns = true ∧ s.mod.tsPresent = true then
    let s := s.fieldReset f stuck []
    (s.modField f (fun x => { x with thermLim := 0 })).switchClock f
  else s

def execThermalRestart (f : Nat) (stuck : Stuck) (s : State) : Out := .next (s.thermalRestart f stuck)

/-- The record that no flow is reported, once for each time the condition arises (R384). -/
def State.coolantRecord (s : State) : State :=
  if s.mod.coolantOk || s.mod.coolantNoted then s
  else ({ s with mod := { s.mod with coolantNoted := true } }).errorRecord (mkRec clsCoolant 2 8)

/-- COOLANT_STATE_CHANGE: no flow is recorded, also where there was none from the start (R384, spec/19 R478). -/
def State.coolantChange (s : State) (flow : Bool) : State :=
  if s.mod.standby = false then s
  else ({ s with mod := { s.mod with coolantOk := flow, coolantNoted := s.mod.coolantNoted && !flow } }).coolantRecord

def execCoolantStateChange (flow : Bool) (s : State) : Out := .next (s.coolantChange flow)

/-! ### The power cap (R385-R388) -/

def execSetPowerCap (n : Nat) (s : State) : Out :=
  .next (s.cmd n 0x0500 [(0, 4)] (fun e => decide (5000 ≤ e.p 0 4 ∧ e.p 0 4 ≤ 27000))
    (fun e => ({ s with mod := { s.mod with cap := e.p 0 4 } }).complete e stOk []))

/-- Fields on or parked. -/
def State.poweredFields (s : State) : List Nat := (List.range 60).filter (fun f => (s.field f).power ≠ 2)

/-- A field's draw scaled from its effective clock to another one. DEDUCED (log 61): in proportion to the frequency. -/
def FieldState.drawAt (x : FieldState) (code : Nat) : Nat :=
  if x.run then x.watts.toNat * clockMhz code / clockMhz x.clkEff else x.watts.toNat

/-- The shares of R386: base and grant of each field. -/
def State.shares (s : State) (fixed : Nat) : Nat × List (Nat × Nat) :=
  let fs := s.poweredFields
  let base := (s.mod.cap - fixed) / max 1 fs.length
  let need (f : Nat) : Nat := (s.field f).drawAt (s.field f).clkSet
  let lend := (fs.map (fun f => base - (s.field f).watts.toNat)).foldl (· + ·) 0
  let want := fs.filter (fun f => decide (base < need f))
  let sum := (want.map (fun f => need f - base)).foldl (· + ·) 0
  let grant (f : Nat) : Nat := if base < need f then base + min ((need f - base) * lend / max 1 sum) (need f - base) else base
  (base, fs.map (fun f => (f, grant f)))

/-- The measured draws of the interval. -/
def State.takeDraws (s : State) (draws : List (Nat × Nat × Nat)) : State :=
  draws.foldl (fun s d => s.modField d.1 (fun x => { x with watts := BitVec.ofNat 16 d.2.1, amps := BitVec.ofNat 16 d.2.2 })) s

/-- POWER_SHARE: the power manager shares out the cap; a field with a protective action under way refuses its grant (spec/01 R17); a cap below every field at 150 MHz is recorded (R386, R388). -/
def State.powerShare (s : State) (fixed : Nat) (draws : List (Nat × Nat × Nat)) : State :=
  if !s.cpRuns then s
  else
    let s := s.takeDraws draws
    let (base, gs) := s.shares fixed
    let s := (gs.filter (fun g => !(s.field g.1).busy)).foldl (fun s g => s.modField g.1 (fun x => { x with grant := BitVec.ofNat 16 g.2, base := BitVec.ofNat 16 base })) s
    let low := (s.poweredFields.map (fun f => (s.field f).drawAt 0)).foldl (· + ·) 0
    let exceeds := decide (s.mod.cap < low + fixed)
    let was := s.mod.capOver
    let s := { s with mod := { s.mod with capOver := exceeds } }
    if exceeds && !was then s.errorRecord (mkRec clsCapover 1 5) else s

def execPowerShare (fixed : Nat) (draws : List (Nat × Nat × Nat)) (s : State) : Out := .next (s.powerShare fixed draws)

/-- POWER_LIMIT_STEP (R387). -/
def State.powerStep (s : State) (f : Nat) : State :=
  let x := s.field f
  let now := s.mod.ctl
  let past (n : Nat) : Bool := (x.powAt.map (fun t => decide (t + n ≤ now))).getD true
  if 60 ≤ f ∨ x.run = false then s
  else if x.grant.toNat < x.watts.toNat then
    if past 1000 && decide (0 < stepFrom x.powLim x.clkSet) then
      s.modField f (fun x => { x with powLim := stepDown x.powLim x.clkSet, powAt := some now, fthr := sat1 x.fthr })
    else s
  else if x.powLim < 20 ∧ x.drawAt (min (x.powLim + 1) x.clkSet) ≤ x.grant.toNat then
    if past 10000 then s.modField f (fun x => { x with powLim := stepUp x.powLim x.clkSet, powAt := some now }) else s
  else s

def execPowerLimitStep (f : Nat) (s : State) : Out := .next (s.powerStep f)

end Sys2Proof.Machine
end

