-- ==== Sys2Proof/Machine/Reset.lean ====
section
/-! DEFINITION. Resets of ports and of the module, links, low-power states of a port, bring-up (spec/16 R414-R426, spec/12
R327-R332, spec/14 R376, spec/19 R471-R476). DESIGN CHOICE (log 2): the steps of the start sequence are those of Table 16.3
that an event of the table begins or ends; `step` is 0 without standby power, 2 while the input is not qualified, 3 while no
settled REFCLK is locked to, 5 from then to START_SEQUENCE_END, and 10 afterwards. -/

namespace Sys2Proof.Machine

/-! ### What resets leave -/

/-- A port's connector and REFCLK detector, which a module reset leaves (spec/19 R471). -/
def PortState.connector (x : PortState) : PortState :=
  { perst := x.perst
    cprsnt := x.cprsnt
    reset := x.perst
    delaySel := x.delaySel
    pref := x.pref
    refPresent := x.refPresent
    refSettled := x.refSettled
    refAt := x.refAt
    settledAt := x.settledAt }

/-- Firmware across a module reset (spec/17 Table 17.6): a written image is kept, everything else of an update is abandoned. -/
def FwState.afterReset (fw : FwState) : FwState :=
  let kept := fw.upd.filter (fun u => decide (u.target ≠ 2 ∧ 3 ≤ u.state))
  { fw with
    trialAt := none
    upd := kept.map (fun (u : Update) => { u with state := 3, arg := 0, entry := none }) }

/-- The state of the wafer, the stacks, the ports and the CPs as a module reset leaves it (spec/16 Table 16.4, Cold and Warm):
fuses, flash, the standby domain and the MCs are kept. -/
def State.wiped (s : State) (cold : Bool) : State :=
  let m := s.mod
  -- what a supply warning still kept from being written is lost (spec/14 R373)
  let kept := s.flashCopy.getD { service := s.service, serviceHub := s.serviceHub, replace := m.replace }
  { fw := s.fw.afterReset
    ports := { a := s.ports.a.connector, b := s.ports.b.connector }
    stk := s.stk.map (fun (k : StackState) =>
      { failed := k.failed, lost := k.failed, mem := if cold then [] else k.mem, selfRefresh := !cold })
    fused := s.fused
    service := kept.service
    fusedHub := s.fusedHub
    serviceHub := kept.serviceHub
    flashErrs := s.flashErrs
    freeCtr := s.freeCtr
    mc := s.mc
    mgmt := s.mgmt
    mod := {
      sby := m.sby
      ctl := m.ctl
      standby := m.standby
      step := m.step
      supply := m.supply
      present := m.present
      presentAt := m.presentAt
      mainClosed := m.mainClosed
      stbySrc := m.stbySrc
      coolantOk := m.coolantOk
      coolantNoted := m.coolantNoted
      ringBreaks := m.ringBreaks
      expressOnly := m.expressOnly
      replace := kept.replace
      advised := m.advised && !cold }
    pending := s.pending }

/-- Every supply switch open: nothing is left but the standby domain (spec/14 R376, spec/19 R476). -/
def State.unpowered (s : State) (v : Supply) : State :=
  let s := s.wiped true
  { s with
    mod := { s.mod with supply := v, step := 2 }
    fields := s.fields.map (fun (x : FieldState) => { x with swOpen := true, cause := 4, power := 2 }) }

/-! ### Power -/

/-- Straps as a connector reads them: with no cable, all ones and OWNER_PREF not asserted (spec/19 R471). -/
def PortState.strapped (x : PortState) (t : Straps) : PortState :=
  if x.cprsnt then { x with delaySel := 7, pref := false } else { x with delaySel := t.delay.val, pref := t.pref }

/-- An MC boots: its boot code chooses a slot (spec/17 R438, R439). -/
def FwState.bootMc (fw : FwState) (now : Nat) (p : Port) : FwState × Bool :=
  let r := fw.chooseSlot 1 (fw.flash.get p).mc
  let fw := { fw with flash := fw.flash.modify p (fun d => { d with mc := r.1 }) }
  match r.2 with
  | none => ({ fw with mcTrialAt := fw.mcTrialAt.set p none }, false)
  | some i =>
    let trial := (tget {} r.1 i).state == slotTrial
    ({ fw with runMc := fw.runMc.set p i, mcTrialAt := fw.mcTrialAt.set p (if trial then some now else none) }, true)

/-- Step 1 of a cold power-on: the MCs boot, settings at their defaults, straps sampled. -/
def State.coldOn (s : State) (a b : Straps) : State :=
  if s.mod.standby then s
  else
    let s := s.unpowered .off
    let (fw, ra) := s.fw.bootMc 0 .a
    let (fw, rb) := fw.bootMc 0 .b
    let fresh (x : PortState) : PortState := { x with refPresent := false, refSettled := false }
    { s with
      fw := { fw with baud := 0, replies := [] }
      mc := { a := { running := ra }, b := { running := rb } }
      mgmt := {}
      mod := { s.mod with standby := true, sby := 0, stbySrc := 0 }
      ports := { a := (fresh s.ports.a).strapped a, b := (fresh s.ports.b).strapped b } }

def execColdPowerOn (a b : Straps) (s : State) : Out := .next (s.coldOn a b)

/-- PRESENT_MATE: the input qualifies and the bus charges; the start goes on from step 3 (spec/19 R475, R476). -/
def State.presentMate (s : State) : State :=
  if s.mod.standby = false ∨ s.mod.present = true then s
  else
    let m := { s.mod with present := true, presentAt := s.mod.sby }
    if s.mod.supply = .reset then { s with mod := m }
    else { s with mod := { m with mainClosed := true, supply := .normal, step := 3 } }

def execPresentMate (s : State) : Out := .next s.presentMate

/-- PRESENT_BREAK: the supply switches and the main path open. -/
def State.presentBreak (s : State) : State :=
  if !s.mod.present then s
  else
    let s := s.unpowered (if s.mod.supply = .reset then .reset else .off)
    { s with mod := { s.mod with present := false, mainClosed := false } }

def execPresentBreak (s : State) : Out := .next s.presentBreak

/-- SUPPLY_RESET: the MCs record the event. -/
def State.supplyReset (s : State) (mv : Nat) : State :=
  if (s.mod.supply = .normal ∨ s.mod.supply = .warning) ∧ (mv < 45000 ∨ 60000 < mv) then
    let s := ({ s with cp := { s.cp with active := none } }).errorRecord { mkRec clsSupply 3 7 with code := mv }
    s.unpowered .reset
  else s

def execSupplyReset (mv : Nat) (s : State) : Out := .next (s.supplyReset mv)

/-- SUPPLY_RETURN: the input has been within 50.0-58.0 V for 100 ms. -/
def State.supplyReturn (s : State) (mv : Nat) : State :=
  if s.mod.supply = .reset ∧ 50000 ≤ mv ∧ mv ≤ 58000 then
    if s.mod.present then { s with mod := { s.mod with supply := .normal, mainClosed := true, step := 3 } }
    else { s with mod := { s.mod with supply := .off } }
  else s

def execSupplyReturn (mv : Nat) (s : State) : Out := .next (s.supplyReturn mv)

/-- STANDBY_POWER_LOSS: the MCs stop too, and their settings are lost. -/
def State.standbyLoss (s : State) : State :=
  if !s.mod.standby then s
  else
    let s := s.unpowered .off
    { s with
      mc := { a := {}, b := {} }
      mgmt := {}
      mod := { s.mod with standby := false, present := false, mainClosed := false, step := 0 } }

def execStandbyPowerLoss (s : State) : Out := .next s.standbyLoss

/-! ### The end of the start sequence (spec/16 Table 16.3 steps 5 to 9) -/

/-- A die's LOADER verifies: its SE and CP can be brought up (spec/17 R438, R441). -/
def FwState.loaderOk (fw : FwState) (p : Port) : Bool := fw.verify 2 (fw.flash.get p).loader.image == stOk

/-- A die's loader verifies, and it chooses a MODULE slot: the flash it leaves, the slot (spec/17 R438). -/
def FwState.bootDie (fw : FwState) (p : Port) : FwState × Option Nat :=
  let d := fw.flash.get p
  if !fw.loaderOk p then (fw, none)
  else
    let r := fw.chooseSlot 0 d.mod
    ({ fw with flash := fw.flash.set p { d with mod := r.1 } }, r.2)

/-- Step 5: the CPs that are offered, and the active one (spec/01 R19): not one of `dead`, the dies that did not complete their
power-up. -/
def State.bootCps (s : State) (dead : List Port) : State :=
  let boot (fw : FwState) (p : Port) : FwState × Option Nat := if dead.contains p then (fw, none) else fw.bootDie p
  let (fw, ia) := boot s.fw .a
  let (fw, ib) := boot fw .b
  let act : Option (Port × Nat) := match ia, ib with
    | some i, _ => some (.a, i)
    | none, some i => some (.b, i)
    | none, none => none
  match act with
  | none => { s with fw := fw, cp := { s.cp with active := none, up := { a := false, b := false } } }
  | some (p, i) =>
    let trial := (tget {} (fw.flash.get p).mod i).state == slotTrial
    { s with
      fw := { fw with runMod := i, trialAt := if trial then some s.mod.ctl else none }
      cp := { s.cp with
        active := some p
        cpact := p
        up := { a := fw.loaderOk .a && !dead.contains .a, b := fw.loaderOk .b && !dead.contains .b }
        lastBeat := s.mod.ctl } }

/-- Steps 5 and 6 for one field: firmware, TICK, synthesisers, wash, in-field test. -/
def State.startField (s : State) (stuck : Stuck) (fails : List (Nat × TestFail)) (f : Nat) : State :=
  let t := (s.port s.cp.cpact).tick
  let s := (s.modField f (fun _ => { tick := t, lock := true, run := true, loaded := true })).washField f stuck
  (s.switchClock f).testField f ((fails.filter (fun e => e.1 == f)).map (·.2))

/-- Steps 5 and 7: stack controllers are loaded and lock, no parity. A stack that failed in itself stays lost. -/
def State.startStacks (s : State) : State :=
  let t := (s.port s.cp.cpact).tick
  { s with
    mod := { s.mod with memMode := false }
    stk := s.stk.map (fun (k : StackState) =>
      if k.lost then { k with tick := t, selfRefresh := true, loaded := true }
      else { k with tick := t, locked := true, selfRefresh := false, loaded := true }) }

/-- Steps 8 and 9: ports are served, the OWNER_PREF period begins, the time source is checked again, the dies' flash is
compared, and the CP posts what the MCs recorded; a coolant condition from the start on has its record (spec/14 R384). -/
def State.openPorts (s : State) (dead : List Port) : State :=
  let ready (p : Port) : PortState := { s.port p with ready := !dead.contains p }
  let s := { s with
    ports := { a := ready .a, b := ready .b }
    mod := { s.mod with
      step := 10
      prefPort := s.preferred
      prefEnd := s.preferred.map (fun _ => s.mod.ctl + 50000000)
      tsrc := s.startSource.getD s.mod.tsrc } }
  s.syncFlash.postMc.coolantRecord

/-- START_SEQUENCE_END; `dead` are the dies that did not complete their power-up (spec/01 R19). With no CP offered the ports alone are
served (spec/17 R438). DESIGN CHOICE (log 82): the active CP's report of the negative at a start (spec/00 R8, spec/01 R33) is that it
answers GET_NEGATIVE from then on. -/
def State.startEnd (s : State) (stuck : Stuck) (fails : List (Nat × TestFail)) (dead : List Port) : State :=
  if s.mod.step ≠ 5 ∨ s.mod.tsPresent = false then s
  else
    let s := s.bootCps dead
    if s.cp.active.isNone then s.openPorts dead
    else
      let s := (List.range 60).foldl (fun s f => s.startField stuck fails f) s
      (s.applyGrade.startStacks).openPorts dead

def execStartSequenceEnd (stuck : Stuck) (fails : List (Nat × TestFail)) (dead : List Port) (s : State) : Out :=
  .next (s.startEnd stuck fails dead)

/-! ### Module warm reset (spec/16 R415, R425) -/

/-- Both connectors count as PERST# asserted, or the management network has asked (R414, R415). -/
def State.warmDue (s : State) : Bool :=
  s.mod.warmReq || ((s.ports.a.perst || s.ports.a.cprsnt) && (s.ports.b.perst || s.ports.b.cprsnt))

/-- MODULE_WARM_RESET: everything but the standby domain, the MCs, fuses and flash; the start goes on from step 3. -/
def State.warmReset (s : State) : State :=
  if s.mod.step < 3 ∨ s.warmDue = false then s
  else
    let s := s.wiped false
    { s with mod := { s.mod with step := 3 } }

def execModuleWarmReset (s : State) : Out := .next s.warmReset

/-! ### Port resets (spec/16 R416, R417) -/

/-- A port's registers, configuration space and MSI-X table at their reset values; what the die keeps beside them stays. An FLR
leaves the link up and the payload sizes as they are (log 19). -/
def PortState.afterReset (x : PortState) (flr : Bool) : PortState :=
  { x.connector with
    reset := x.perst
    ready := x.ready
    linkUp := flr && x.linkUp
    degraded := flr && x.degraded
    maxPayload := if flr then x.maxPayload else 128
    maxReadReq := if flr then x.maxReadReq else 512
    fenceTab := x.fenceTab
    outReads := x.outReads
    tx := x.tx
    tick := x.tick
    tickAdj := x.tickAdj
    tagNext := x.tagNext
    await := x.await
    viaPeer := x.viaPeer }

/-- A grace period ends: PORTEVT.GRACEEND on both ports (spec/12 R328). -/
def State.endGrace (s : State) (p : Port) : State :=
  if (s.port p).grace.isSome then (s.modPort p (fun x => { x with grace := none })).bothEvent evGraceEnd else s

/-- The effects of R416 on one port; `flr` for a function-level reset. -/
def State.resetPort (s : State) (p : Port) (flr : Bool) : State :=
  let wasUp := (s.port p).linkUp
  let s := s.modPort p (fun x => { x with linkUp := flr && x.linkUp, msixEn := false })
  let s := (s.endGrace p).endPort p
  let s := s.modPort p (fun x => x.afterReset flr)
  if wasUp && !flr then s.peerEvent p else s

/-- PERST_ASSERT: an assertion is ignored while no cable is mated (spec/19 R471). -/
def execPerstAssert (p : Port) (s : State) : Out :=
  .next (if (s.port p).cprsnt then s else s.modPort p (fun x => { x with perst := true }))

/-- PORT_RESET: the assertion has lasted 40 µs with the cable mated. -/
def execPortReset (p : Port) (s : State) : Out :=
  .next (if (s.port p).perst && !(s.port p).cprsnt && !(s.port p).reset then s.resetPort p false else s)

/-- PERST_DEASSERT: the straps are sampled and the link may train. -/
def execPerstDeassert (p : Port) (t : Straps) (s : State) : Out :=
  .next (s.modPort p (fun x => ({ x with perst := false, reset := false }).strapped t))

/-- FUNCTION_LEVEL_RESET. -/
def execFunctionLevelReset (p : Port) (s : State) : Out :=
  .next (if (s.port p).linkUp && (s.port p).ready then s.resetPort p true else s)

/-- CPRSNT_CHANGE: mating samples the straps; unmating is a link loss, and makes an assertion not yet acted on void
(spec/19 R471, Table 19.6). -/
def State.cableChange (s : State) (p : Port) (mated : Bool) (t : Straps) : State :=
  if mated then s.modPort p (fun x => ({ x with cprsnt := false }).strapped t)
  else (s.modPort p (fun x => { x with cprsnt := true, perst := false })).loseLink p

def execCprsntChange (p : Port) (mated : Bool) (t : Straps) (s : State) : Out := .next (s.cableChange p mated t)

/-! ### Links (spec/12 R328, R331, R332) -/

/-- Posts what a port has kept, and sends the messages it has withheld. -/
def PortState.resume (now : Nat) (x : PortState) : PortState := PortState.flushMsix now (PortState.flushAll now x)

/-- LINK_UP: a link trains; rate in GT/s, width in lanes. -/
def State.trainLink (s : State) (p : Port) (rate width : Nat) : State :=
  let x := s.port p
  if x.linkUp || x.reset || x.perst || x.cprsnt || !s.refUsable p || x.grace.isSome || decide (s.mod.step < 3) then s
  else
    let s := s.modPort p (fun x =>
      PortState.resume s.mod.ctl { x with linkUp := true, degraded := decide (rate < 16 ∨ width < 8) })
    s.peerEvent p

def execLinkUp (p : Port) (rate width : Nat) (s : State) : Out := .next (s.trainLink p rate width)

/-- LINK_LOSS. -/
def execLinkLoss (p : Port) (s : State) : Out := .next (s.loseLink p)

/-- LINK_RETURN: within the grace period, with the cable mated and without PERST#, on a settled REFCLK (spec/14 R361): the sessions go on and kept replies are posted. -/
def State.returnLink (s : State) (p : Port) : State :=
  let x := s.port p
  match x.grace with
  | none => s
  | some t =>
    if t ≤ s.mod.ctl ∨ x.cprsnt = true ∨ x.perst = true ∨ x.reset = true ∨ s.refUsable p = false then s
    else
      let s := ((s.modPort p (fun x => { x with linkUp := true })).endGrace p).peerEvent p
      s.modPort p (fun x => PortState.resume s.mod.ctl x)

def execLinkReturn (p : Port) (s : State) : Out := .next (s.returnLink p)

/-- GRACE_EXPIRY: the port is treated as by a port reset. -/
def State.graceEnds (s : State) (p : Port) : State :=
  match (s.port p).grace with
  | some t => if t ≤ s.mod.ctl then s.resetPort p false else s
  | none => s

def execGraceExpiry (p : Port) (s : State) : Out := .next (s.graceEnds p)

/-- D3HOT_ENTRY. -/
def execD3hotEntry (p : Port) (s : State) : Out :=
  .next (if (s.port p).linkUp then s.modPort p (fun x => { x with d3 := true }) else s)

/-- D0_RETURN: kept replies and withheld messages go out (R331). -/
def execD0Return (p : Port) (s : State) : Out :=
  .next (if (s.port p).d3 then s.modPort p (fun x => PortState.resume s.mod.ctl { x with d3 := false }) else s)

/-- OWNER_PREF_EXPIRY: the waiting claim is granted unless the preferred port has claimed (R330). -/
def State.prefEnds (s : State) : State :=
  match s.mod.prefEnd with
  | none => s
  | some t =>
    if s.mod.ctl < t then s
    else
      let s := { s with mod := { s.mod with prefPort := none, prefEnd := none } }
      match s.cp.owner, s.waitingClaim with
      | none, some e => s.grantClaim e
      | _, _ => s

def execOwnerPrefExpiry (s : State) : Out := .next s.prefEnds

end Sys2Proof.Machine
end

