-- ==== Sys2Proof/Machine/Reliability.lean ====
section
/-! DEFINITION. Stack controllers' events, and the reliability commands (spec/15 R395, R401-R404, spec/12 R308, spec/01 R31-R33,
spec/13 Table 13.11). -/

namespace Sys2Proof.Machine

/-! ### Packets at a stack (spec/12 R308, spec/15 R402, R403) -/

/-- The controller that serves a stack: its own, or its proxy while it is lost with cover. -/
def State.serving (s : State) (n : Nat) : Nat := if (s.stack n).lost then (s.proxyOf n).getD n else n

/-- A stack controller runs: locked, its stack out of self-refresh. -/
def State.stackRuns (s : State) (n : Nat) : Bool := (s.stack n).locked && !(s.stack n).selfRefresh

/-- Data word that byte `8 * i` of a packet names, none outside the mapped offsets. DEDUCED (log 62): a packet that runs past
them is refused in part, as R206 states for a core. -/
def State.stackWordAt (s : State) (p : Packet) (i : Nat) : Option Nat :=
  let off := nfld p.da 0 37 + 8 * i
  if off < s.dataBytes then some (off / 8) else none

/-- A WRITE at a stack: its mapped words with their byte masks. -/
def State.stackWriteIn (s : State) (p : Packet) : State :=
  let n := p.dx
  let m := s.serving n
  let e : NetEnd := .stack m
  if !p.wellFormed then s.refuseAt p e (768 + m) 0 p.epoch nakMalformed p.len
  else
    let ws := (p.pay.zipIdx).filterMap (fun d => (s.stackWordAt p d.2).map (fun w => (w, writeMask p d.2, d.1)))
    let s := ws.foldl (fun s w => s.stackWrite n w.1 w.2.1 w.2.2.1 w.2.2.2) s
    let bad := p.pay.length - ws.length
    let s := s.takeOff e p
    if bad = 0 then s else s.send e (p.nak (768 + m) 0 p.epoch nakUnmapped bad)

/-- A READ at a stack: the RDATA carries the READ's epoch (spec/09 R248). -/
def State.stackReadIn (s : State) (p : Packet) : State :=
  let n := p.dx
  let m := s.serving n
  let e : NetEnd := .stack m
  if !p.wellFormed then s.refuseAt p e (768 + m) 0 p.epoch nakMalformed p.len
  else
    let one (s : State) (i : Nat) : State × Option (Word × Bool) :=
      match s.stackWordAt p i with
      | none => (s, none)
      | some w => ((s.stackFetch n w).1, some (s.stackFetch n w).2)
    let (s, vs) := readRun s one (List.range p.len)
    s.answerRead e p (768 + m) 0 p.epoch vs

/-- A packet reaches the controller that serves its stack, once that controller runs. -/
def State.atStack (s : State) (k ty : Nat) (f : State → Packet → State) : State :=
  match s.arriving k [ty] [1] with
  | none => s
  | some p => if s.noCover p.dx || s.stackRuns (s.serving p.dx) then s.arrive k [ty] [1] f else s

def execStackWrite (k : Nat) (s : State) : Out := .next (s.atStack k pWrite State.stackWriteIn)

def execStackRead (k : Nat) (s : State) : Out := .next (s.atStack k pRead State.stackReadIn)

/-! ### Stacks lost and returned (R403, R404) -/

/-- STACK_LOST: a channel or the controller fails; the stack stays lost until a repair. -/
def execStackLost (n : Nat) (s : State) : Out := .next (if n < 16 ∧ (s.stack n).failed = false then s.loseStack n true else s)

/-- The stack's edge field is ON and runs. -/
def State.edgeBack (s : State) (n : Nat) : Bool := s.fieldOk (stackEdge n).1 && (s.field (stackEdge n).1).run

/-- The stack serves again: it leaves self-refresh with its words as kept. -/
def State.takeBack (s : State) (n : Nat) : State :=
  s.modStack n (fun x => { x with lost := false, locked := true, selfRefresh := false })

/-- STACK_RETURN. Without parity the stack returns as it is. In stack-parity mode a stack lost with cover owes a rebuild, which
waits until no other stack is lost; one lost beside it returns as it is, and a rebuild that waited for it goes on. -/
def State.stackReturn (s : State) (n : Nat) : State :=
  let x := s.stack n
  if 16 ≤ n ∨ x.lost = false ∨ x.failed = true ∨ s.edgeBack n = false then s
  else
    let others := s.lostStacks.filter (· ≠ n)
    if x.rebuild.isSome then (if others.isEmpty then s.takeBack n else s)
    else
      let s := s.takeBack n
      match others with
      | [m] => if (s.stack m).rebuild.isSome && !(s.stack m).failed && s.edgeBack m then s.takeBack m else s
      | _ => s

def execStackReturn (n : Nat) (s : State) : Out := .next (s.stackReturn n)

/-- A word of the returning stack formed from the other 15. -/
def State.formWord (s : State) (n w : Nat) : Option (Word × Bool) :=
  if w < 9375000000 then s.rebuildWord n w
  else
    ((List.range 16).filter (· ≠ n)).foldl (fun a m => xorInfo a (s.info m (memberWord ((w - 9375000000) / 8) n m (w % 8)))) (some (0, false))

/-- Writes one rebuilt word; one that cannot be rebuilt is poisoned. -/
def State.rebuildOne (s : State) (n w : Nat) : State :=
  match s.formWord n w with
  | some v => s.stackPut n w v.1 v.2
  | none => s.stackPut n w (s.stackDec n w).data true

/-- Rebuilds the units of a stack from `u` on that a test selects. -/
def State.rebuildUnits (s : State) (n u : Nat) (upTo : Nat → Bool) : State :=
  ((s.rebuildKeys n).filter (fun w => decide (u ≤ w / 8) && upTo (w / 8))).foldl (fun s w => s.rebuildOne n w) s

/-- A rebuild makes progress: units in ascending order, as many as a tick takes (DESIGN CHOICE, log 6: a free number), the point after
them (R404). -/
def State.rebuildOn (s : State) (n : Nat) : State :=
  match (s.stack n).rebuild with
  | none => s
  | some u =>
    if (s.stack n).lost || !s.lostStacks.isEmpty then s
    else
      let (i, s) := s.draw
      let v := u + (Config.rebuiltUnits i).toNat
      (s.rebuildUnits n u (fun k => decide (k < v))).modStack n (fun x => { x with rebuild := some v })

/-- STACK_REBUILD_COMPLETE: every unit from the rebuild point on has been rebuilt. -/
def State.rebuildDone (s : State) (n : Nat) : State :=
  let x := s.stack n
  match x.rebuild with
  | none => s
  | some u =>
    if x.lost || !s.lostStacks.isEmpty then s
    else (s.rebuildUnits n u (fun _ => true)).modStack n (fun x => { x with rebuild := none })

def execStackRebuildComplete (n : Nat) (s : State) : Out := .next (if n < 16 then s.rebuildDone n else s)

/-! ### GET_NEGATIVE, READ_ERRORS, SET_SDC_POLICY -/

/-- One field's entries of a list, 4 in a byte, and its hub map (R31). -/
def negativeOf (pos : KMap (BitVec 2)) (hubs : KMap Bool) (f : Nat) : List Byte :=
  (List.range 3072).map (fun b => BitVec.ofNat 8 (packFields ((List.range 4).map (fun i =>
    (2 * i, (KMap.get 0 pos (coreKey (coreAtPos f (4 * b + i)))).toNat))))) ++
  leBytes 8 (packFields ((List.range 48).map (fun h => (h, b2n (KMap.get false hubs (hubKey (hubOf f h).1 (hubOf f h).2))))))

/-- The 369,600 bytes that GET_NEGATIVE writes. -/
def State.negative (s : State) : List Byte :=
  (List.range 60).flatMap (fun f => negativeOf s.fused s.fusedHub f ++ negativeOf s.service s.serviceHub f)

def execGetNegative (n : Nat) (s : State) : Out :=
  .next (s.cmd n 0x0402 [(0, 12)] (fun e => e.p 0 8 % 8 == 0) (fun e => s.hostWrite e (e.p 0 8) (e.p 8 4) s.negative (leBytes 4 369600)))

/-- READ_ERRORS: as many of the records numbered FROM onward as HLEN holds. -/
def State.readErrors (s : State) (e : Entry) : State :=
  let l := (s.errs.filter (fun r => decide (e.p 0 8 ≤ r.seqno))).take (e.p 16 4 / 64)
  let data := l.flatMap (fun r => r.bytes s.fw.serial.toNat)
  let next := (l.getLast?.map (fun r => r.seqno + 1)).getD (e.p 0 8)
  s.hostWrite e (e.p 8 8) (e.p 16 4) data (leBytes 4 l.length ++ leBytes 4 0 ++ leBytes 8 next)

def execReadErrors (n : Nat) (s : State) : Out := .next (s.cmd n 0x0403 [(0, 20)] (fun e => e.p 8 8 % 8 == 0) s.readErrors)

/-- SET_SDC_POLICY: FREL.DRAIN follows from the policy and REPLACE (R401). -/
def State.setPolicy (s : State) (e : Entry) : State := ({ s with mod := { s.mod with policy := e.p 0 1 } }).complete e stOk []

def execSetSdcPolicy (n : Nat) (s : State) : Out := .next (s.cmd n 0x0401 [(0, 1)] (fun e => decide (e.p 0 1 < 2)) s.setPolicy)

end Sys2Proof.Machine
end

