-- ==== Sys2Proof/Machine/Firmware.lean ====
section
/-! DEFINITION. Firmware updates from the hosts and the service port, activation, handover and takeover, identity, attestation
(spec/17 R440-R454, spec/01 R19-R25, spec/13 Table 13.11). -/

namespace Sys2Proof.Machine

/-! ### Begin, block, end (R442, R443) -/

/-- The source of an update that a journaled command stands for. -/
def Entry.src (e : Entry) : UpdSrc := .port e.port e.sess

/-- Applies an update step that answers a status. -/
def State.fwStep (s : State) (e : Entry) (r : FwState × Nat) : State := ({ s with fw := r.1 }).complete e r.2 []

def execFwBegin (n : Nat) (s : State) : Out :=
  .next (s.cmd n 0x0600 [(0, 1), (4, 4)] (fun _ => true) (fun e => s.fwStep e (s.fw.begin e.src (e.p 0 1) (e.p 4 4))))

def execFwBlock (n : Nat) (s : State) : Out :=
  .next (s.cmd n 0x0601 [(0, 4), (8, 4096)] (fun e => e.p 0 4 % 8 == 0)
    (fun e => s.fwStep e (s.fw.block e.src (e.p 0 4) (e.param.drop 8))))

/-- The supply warning holds: no flash device is written (spec/14 R373). -/
def State.warned (s : State) : Bool := s.mod.supply == .warning

/-- FW_END: by the source of the update. It waits while the supply warning holds the write. -/
def State.fwEnd (s : State) (e : Entry) : State :=
  if s.fw.upd.map (fun u => u.src) ≠ some e.src then s.complete e stBadState []
  else
    match s.fw.finish s.warned with
    | (fw, some st) => ({ s with fw := fw }).complete e st []
    | (fw, none) => ({ s with fw := fw }).wait e

def execFwEnd (n : Nat) (s : State) : Out := .next (s.cmd n 0x0602 [] (fun _ => true) s.fwEnd)

def execFwStatus (n : Nat) (s : State) : Out :=
  .next (s.cmd n 0x0604 [] (fun _ => true) (fun e => s.complete e stOk (s.fw.status s.cp.cpact)))

/-! ### Activation (R445-R447) -/

/-- A die's MC restarts on a slot as TRIAL; a trial that was running ends (R439, R440). -/
def FwState.restartMc (fw : FwState) (now : Nat) (p : Port) : FwState :=
  let i := 1 - fw.runMc.get p
  let f (d : Flash) : Flash :=
    { d with mc := tmod (d.mc.map (fun x => if x.state = slotTrial then { x with state := slotBad } else x)) i (fun x => { x with state := slotTrial }) }
  { fw with
    flash := fw.flash.modify p f
    runMc := fw.runMc.set p i
    mcTrialAt := fw.mcTrialAt.set p (some now) }

/-- MC-B restarts on the new slot, then MC-A (R445). -/
def State.restartMcs (s : State) : State :=
  { s with fw := { (s.fw.restartMc s.mod.sby .b).restartMc s.mod.sby .a with upd := none } }

/-- A hitless handover may begin (R445): HITLESS_OK, an unchanged STATEVER, a standby CP in service. -/
def State.hitlessOk (s : State) (u : Update) : Bool :=
  match s.cp.active with
  | none => false
  | some p =>
    let im := s.fw.written u p
    imgHitless im && imgStateVer im == imgStateVer (s.fw.modImage p) && s.cp.up.get p.other && s.cpRuns

/-- LOADER is overwritten in both dies from the held image (R447). -/
def FwState.writeLoader (fw : FwState) (u : Update) : FwState :=
  let one (d : Flash) : Flash := { d with loader := { state := slotGood, gen := d.loader.gen + 1, image := u.image } }
  { fw with flash := { a := one fw.flash.a, b := one fw.flash.b }, upd := none }

/-- An activation may go on: the image is written, or this very activation waits. -/
def Update.mayActivate (u : Update) (arg : Nat) (entry : Option Nat) : Bool :=
  u.state == 3 || (u.state == 4 && u.arg == arg && u.entry == entry)

/-- A hitless activation is in progress (R446). -/
def Update.handsOver (u : Update) : Bool := u.state == 4 && u.target == 0 && u.arg == 1

/-- Activates a verified image; none while it waits, for the handover, or for the supply warning to clear: it is then in progress and runs
to completion (Table 17.6). -/
def State.activate (s : State) (arg : Nat) (entry : Option Nat) : State × Option Nat :=
  match s.fw.upd with
  | none => (s, some stBadState)
  | some u =>
    let going : State := { s with fw := { s.fw with upd := some { u with state := 4, arg := arg, entry := entry } } }
    if !u.mayActivate arg entry then (s, some stBadState)
    else if 1 < arg ∨ (u.target = 2 ∧ arg = 1) then (s, some stBadParam)
    else if u.target = 0 ∧ arg = 1 then
      if u.state = 4 then (s, none) else if s.hitlessOk u then (going, none) else (s, some stBadState)
    else if s.warned then (going, none)
    else if u.target = 2 then ({ s with fw := s.fw.writeLoader u }, some stOk)
    else if arg = 0 then
      ({ s with fw := { s.fw.modSlots u.target u.slot (fun x => { x with state := slotPending }) with upd := none } }, some stOk)
    else (s.restartMcs, some stOk)

/-- FW_ACTIVATE. -/
def State.fwActivate (s : State) (e : Entry) : State :=
  match s.activate (e.p 0 1) (some e.id) with
  | (s, some st) => s.complete e st []
  | (s, none) => s.wait e

def execFwActivate (n : Nat) (s : State) : Out :=
  .next (s.cmd n 0x0603 [(0, 1)] (fun e => decide (e.p 0 1 < 2)) s.fwActivate)

/-- Each field controller switches banks: at its partition's next develop point, or at once (R446 phase 4). -/
def State.switchBanks (s : State) : State :=
  { s with
    fields := s.fields.mapIdx (fun i (x : FieldState) => if s.fieldRunning i then { x with bankNew := true } else { x with bank := 1 - x.bank })
    stk := s.stk.map (fun (k : StackState) => { k with bank := 1 - k.bank }) }

/-- The command of the activation in progress ends. -/
def State.endActivation (s : State) (u : Update) (st : Nat) : State :=
  match u.entry.bind s.entry with
  | some e => s.complete e st []
  | none => s

/-- The other CP takes the active role: PORTEVT.TAKEOVER on both ports. -/
def State.moveRole (s : State) (p : Port) : State :=
  ({ s with cp := { s.cp with active := some p, cpact := p, lastBeat := s.mod.ctl } }).bothEvent evTakeover

/-- HANDOVER: phases 3 to 5 of R446. Slot records wait while the supply warning holds. -/
def State.handover (s : State) : State :=
  match s.fw.upd, s.cp.active with
  | some u, some p =>
    if u.handsOver = false ∨ s.cpRuns = false ∨ s.cp.up.get p.other = false ∨ s.warned = true then s
    else
      let fw := s.fw.modSlots 0 u.slot (fun x => { x with state := slotTrial })
      let s := { s with fw := { fw with runMod := u.slot, trialAt := some s.mod.ctl, upd := none } }
      ((s.moveRole p.other).switchBanks).endActivation u stOk
  | _, _ => s

def execHandover (s : State) : Out := .next s.handover

/-! ### TRIAL_PASS (R440) -/

/-- The slot becomes GOOD with a generation above the highest recorded. -/
def passSlot (v : SlotPair) (i : Nat) : SlotPair :=
  let g := v.toList.foldl (fun m x => max m x.gen) 0
  tmod v i (fun x => { x with state := slotGood, gen := g + 1 })

/-- The least SVN among the images that run: MODULE, both MCs, both LOADERs. -/
def State.leastSvn (s : State) : Nat :=
  let fw := s.fw
  [imgSvn (fw.mcImage .a), imgSvn (fw.mcImage .b), imgSvn fw.flash.a.loader.image, imgSvn fw.flash.b.loader.image].foldl min
    (imgSvn (fw.modImage s.cp.cpact))

/-- The running MODULE image passes its trial: its slot is GOOD, ARC rises, its REVOKE bits burn. -/
def State.passModule (s : State) : State :=
  let fw := s.fw
  let f (d : Flash) : Flash := { d with mod := passSlot d.mod fw.runMod }
  { s with fw := { fw with
      flash := { a := f fw.flash.a, b := f fw.flash.b }
      trialAt := none
      arc := max fw.arc s.leastSvn
      revoke := fw.revoke ||| imgRevoke (fw.modImage s.cp.cpact) } }

/-- TRIAL_PASS: 300 s of running; the flash write waits while the supply warning holds. -/
def State.trialPass (s : State) (t : TrialOf) : State :=
  if s.warned then s
  else
    match t with
    | .module =>
      match s.fw.trialAt with
      | some t0 => if t0 + 30000000000 ≤ s.mod.ctl ∧ s.cpRuns = true then s.passModule else s
      | none => s
    | .mc p =>
      match s.fw.mcTrialAt.get p with
      | some t0 =>
        if t0 + 30000000000 ≤ s.mod.sby ∧ (s.mc.get p).running = true then
          { s with fw := { s.fw with
              flash := s.fw.flash.modify p (fun d => { d with mc := passSlot d.mc (s.fw.runMc.get p) })
              mcTrialAt := s.fw.mcTrialAt.set p none } }
        else s
      | none => s

def execTrialPass (t : TrialOf) (s : State) : Out := .next (s.trialPass t)

/-! ### Heartbeat and takeover (spec/01 R22-R25) -/

def execHeartbeat (s : State) : Out := .next (if s.cpRuns then { s with cp := { s.cp with lastBeat := s.mod.ctl } } else s)

/-- Packets committed and not journaled are treated as never received (spec/13 Table 13.12). -/
def PortState.forgetPackets (x : PortState) : PortState :=
  x.order.foldl (fun x i => (x.discard i inbTakeover).freeSlot i) x

/-- An update at a takeover (spec/17 Table 17.6, R446, R447): one not yet written is abandoned, a hitless activation ends
ABORTED with its image kept, any other activation goes on; the trial's count starts again. -/
def State.updTakeover (s : State) : State :=
  let s := { s with fw := { s.fw with trialAt := s.fw.trialAt.map (fun _ => s.mod.ctl) } }
  match s.fw.upd with
  | none => s
  | some u =>
    if u.handsOver then
      ({ s with fw := { s.fw with upd := some { u with state := 3, arg := 0, entry := none } } }).endActivation u stAborted
    else if 3 ≤ u.state then s
    else { s with fw := { s.fw with upd := none } }

/-- TAKEOVER: 10 heartbeats in a row are missed, and a standby CP is in service. -/
def State.takeover (s : State) : State :=
  match s.cp.active with
  | none => s
  | some p =>
    if s.cpRuns = false ∨ s.cp.up.get p.other = false ∨ s.mod.ctl < s.cp.lastBeat + 20000 then s
    else
      let s := { s with
        cp := { s.cp with up := s.cp.up.set p false }
        ports := { a := s.ports.a.forgetPackets, b := s.ports.b.forgetPackets } }
      (s.moveRole p.other).updTakeover.errorRecord { mkRec clsTakeover 2 5 with unit := p.num, action := 8 }

def execTakeover (s : State) : Out := .next s.takeover

/-- RING_BREAK: the first break is reported, a second one as a fault requiring service. `off` are the fields that neither direction of the
ring reaches any more; after one break there is none. Their controllers are then reached over the express network, so a command takes the
same effect there (log 80). -/
def execRingBreak (off : List Nat) (s : State) : Out :=
  let m := s.mod
  let only := if m.ringBreaks = 0 then m.expressOnly else (m.expressOnly ++ off.filter (fun f => decide (f < 60))).eraseDups
  .next (({ s with mod := { m with ringBreaks := m.ringBreaks + 1, expressOnly := only } }).errorRecord
    (mkRec clsRing (if m.ringBreaks = 0 then 2 else 4) 5))

/-! ### The service port (R448, R449) -/

/-- An MC serves the service port. -/
def State.svcServed (s : State) : Bool := s.mc.a.running || s.mc.b.running

/-- One byte of the CRC-16 of a frame: polynomial 0x1021, not reflected (R448). -/
def crcByte (c : BitVec 16) (b : Byte) : BitVec 16 :=
  (List.range 8).foldl (fun c i => (c <<< 1) ^^^ (if c.getLsbD 15 != b.getLsbD (7 - i) then 0x1021 else 0)) c

/-- The CRC-16 of bytes, from 0xFFFF (R448). -/
def crc16 (l : List Byte) : BitVec 16 := l.foldl crcByte 0xFFFF

/-- A frame between its flags: LEN, CMD, SEQ, payload and CRC, with 0x7E and 0x7D escaped (R448). A request whose CRC fails is
dropped without reply: it is no command. -/
def svcFrame (cmd seq : Nat) (pay : List Byte) : List Byte :=
  let body := leBytes 2 (pay.length + 2) ++ leBytes 1 cmd ++ leBytes 1 seq ++ pay
  let escaped := (body ++ leBytes 2 (crc16 body).toNat).flatMap (fun b => if b = 0x7E ∨ b = 0x7D then [0x7D, b ^^^ 0x20] else [b])
  [0x7E] ++ escaped ++ [0x7E]

/-- One reply: command with bit 7 set, sequence, status and payload. -/
def State.svcReply (s : State) (cmd seq st : Nat) (pay : List Byte) : State :=
  { s with fw := { s.fw with replies := s.fw.replies ++ [svcFrame (cmd + 0x80) seq (leBytes 1 st ++ pay)] } }

def execSvcHello (seq baud : Nat) (s : State) : Out :=
  .next (if !s.svcServed then s
    else if 1 < baud then s.svcReply 0x01 seq stBadParam []
    else
      let s := s.svcReply 0x01 seq stOk (leBytes 8 s.fw.serial.toNat ++ leBytes 1 s.fw.arc)
      { s with fw := { s.fw with baud := baud } })

def execSvcBegin (seq target size : Nat) (s : State) : Out :=
  .next (if !s.svcServed then s
    else
      let r := s.fw.begin .service target size
      ({ s with fw := r.1 }).svcReply 0x10 seq r.2 [])

def execSvcBlock (seq off : Nat) (data : List Byte) (s : State) : Out :=
  .next (if !s.svcServed then s
    else if data.length < 8 ∨ 1024 < data.length ∨ data.length % 8 ≠ 0 then s.svcReply 0x11 seq stBadLength []
    else
      let r := s.fw.block .service off data
      ({ s with fw := r.1 }).svcReply 0x11 seq r.2 [])

/-- END; the reply follows when the write is done. -/
def execSvcEnd (seq : Nat) (s : State) : Out :=
  .next (if !s.svcServed then s
    else if s.fw.upd.map (fun u => u.src) ≠ some .service then s.svcReply 0x12 seq stBadState []
    else
      match s.fw.finish s.warned with
      | (fw, some st) => ({ s with fw := fw }).svcReply 0x12 seq st []
      | (fw, none) => { s with fw := fw })

def execSvcActivate (seq arg : Nat) (s : State) : Out :=
  .next (if !s.svcServed then s
    else if arg ≠ 0 then s.svcReply 0x13 seq stBadParam []
    else
      match s.activate 0 none with
      | (s, some st) => s.svcReply 0x13 seq st []
      | (s, none) => s)

def execSvcStatus (seq : Nat) (s : State) : Out :=
  .next (if s.svcServed then s.svcReply 0x14 seq stOk (s.fw.status s.cp.cpact) else s)

/-! ### GET_IDENTITY, SPDM (R450-R453) -/

def execGetIdentity (n : Nat) (s : State) : Out :=
  .next (s.cmd n 0x0700 [] (fun _ => true) (fun e => s.complete e stOk
    (leBytes 8 s.fw.serial.toNat ++ leBytes 2 (if s.fw.grade = 0 then 0x60 else 0x61) ++ leBytes 1 s.fw.grade ++ [0] ++
      leBytes 4 (s.enabled .mx) ++ leBytes 4 (s.enabled .vx) ++ leBytes 4 (s.enabled .sx) ++ leBytes 4 s.fw.arc ++ leBytes 1 s.cp.cpact.num)))

/-- Characters of a label. -/
def labelBytes (t : List Nat) : List Byte := t.map (BitVec.ofNat 8)

/-- Measurement values 1 to 5 (Table 17.10). -/
def State.fwMeasures (s : State) : List (BitVec 384) :=
  let p := s.cp.cpact
  let fw := s.fw
  let ld := (fw.flash.get p).loader.image
  let head (im : List Byte) : BitVec 384 := Config.sha384 (im.take 384)
  [Config.romDigest 0, head ld, head (fw.modImage p), head (fw.mcImage p),
   Config.sha384 (leBytes 1 fw.arc ++ leBytes 1 fw.revoke.toNat ++ leBytes 1 (imgKey ld) ++ leBytes 1 (imgKey (fw.modImage p)) ++
     leBytes 1 (imgKey (fw.mcImage p)) ++ leBytes 1 p.num ++ [0, 0])]

/-- Every measurement: 6 is the negative as GET_NEGATIVE writes it. -/
def State.measures (s : State) : List (BitVec 384) := s.fwMeasures ++ [Config.sha384 s.negative]

/-- The bytes of a digest in order, first byte first. -/
def digestBytes (d : BitVec 384) : List Byte := leBytes 48 d.toNat

/-- Seeds of the DeviceID and Alias keys, Ed25519 and ML-DSA-65 each (R450). The labels are "W60 ID ED", "W60 ID MLDSA",
"W60 ALIAS ED" and "W60 ALIAS MLDSA". -/
def State.keySeeds (s : State) : List (BitVec 256) :=
  let w60 : List Nat := [0x57, 0x36, 0x30, 0x20]
  let idL : List Nat := [0x49, 0x44, 0x20]
  let aliasL : List Nat := [0x41, 0x4C, 0x49, 0x41, 0x53, 0x20]
  let ed : List Nat := [0x45, 0x44]
  let ml : List Nat := [0x4D, 0x4C, 0x44, 0x53, 0x41]
  let salt := digestBytes (Config.sha384 (s.fwMeasures.flatMap digestBytes))
  let key (salt : List Byte) (l : List Nat) : BitVec 256 := Config.hkdf s.fw.modSecret salt (labelBytes l)
  [key [] (w60 ++ idL ++ ed), key [] (w60 ++ idL ++ ml), key salt (w60 ++ aliasL ++ ed), key salt (w60 ++ aliasL ++ ml)]

/-- SPDM: the response goes to host memory, and the session's connection state takes up the request,
unless HLEN is too small (spec/13 R346). -/
def State.spdmCmd (s : State) (e : Entry) : State :=
  let req := e.param.drop 16
  let past := ((tget none (s.port e.port).sess e.sess).map (fun q => q.spdm)).getD []
  let resp := Config.spdmResponse past req s.measures s.keySeeds
  let s := if e.p 8 4 < resp.length then s
    else s.modPort e.port (fun x => x.modSess e.sess (fun q => { q with spdm := q.spdm ++ [req] }))
  s.hostWrite e (e.p 0 8) (e.p 8 4) resp (leBytes 4 resp.length)

def execSpdm (n : Nat) (s : State) : Out := .next (s.cmd n 0x0701 [(0, 12), (16, 4096)] (fun e => e.p 0 8 % 8 == 0) s.spdmCmd)

end Sys2Proof.Machine
end

