-- ==== Sys2Proof/Machine/Manage.lean ====
section
/-! DEFINITION. The management network: access, vendor commands, sensors, records, PLDM firmware update
(spec/18 R455-R467). -/

namespace Sys2Proof.Machine

/-! ### Access and replies (R457-R460) -/

/-- MAC address of an MC's Ethernet port: 0x02, SERIAL[38:0], and 0 for MC-A or 1 for MC-B (R458). -/
def State.macAddress (s : State) (p : Port) : BitVec 48 := (0x02 : BitVec 8) ++ s.fw.serial.extractLsb' 0 39 ++ BitVec.ofNat 1 p.num

/-- The MC that a request reaches. -/
def Mgmt.mc : Mgmt → Port
  | .smbus p => p
  | .vdm p => p
  | .udp p _ => p

/-- Number of a binding (Table 18.1). -/
def Mgmt.binding : Mgmt → Nat
  | .smbus _ => 0
  | .vdm _ => 1
  | .udp _ _ => 2

/-- An allow-list entry names a source address. An IPv6 address is given plus 2^128, so that it differs from every IPv4 one. -/
def aclNames (addr : Nat) (e : Nat × Nat) : Bool := if e.1 = 6 then addr == 2 ^ 128 + e.2 else addr == e.2

/-- State-changing requests are accepted on SMBus, from the owner's port, and from the allow list (R459). -/
def State.mayChange (s : State) (m : Mgmt) : Bool :=
  match m with
  | .smbus _ => true
  | .vdm p => s.ownsPort p
  | .udp _ addr => s.mgmt.acl.toList.any (fun e => (e.map (aclNames addr)).getD false)

/-- The MC of a request answers: it runs, and over PCIe its port's link is up. -/
def State.answers (s : State) (m : Mgmt) : Bool :=
  (s.mc.get m.mc).running &&
    match m with
    | .vdm p => (s.port p).linkUp
    | _ => true

/-- Sends a reply of bytes. -/
def State.mgmtSend (s : State) (m : Mgmt) (b : List Byte) : State := { s with mgmt := { s.mgmt with replies := s.mgmt.replies ++ [(m, b)] } }

/-- A vendor reply: command, status, payload (R460). -/
def State.vendor (s : State) (m : Mgmt) (cmd st : Nat) (pay : List Byte) : State :=
  s.mgmtSend m (leBytes 1 cmd ++ leBytes 1 st ++ pay)

/-- A vendor request that changes state: NOT_OWNER where R459 refuses it, BAD_PARAM out of range. -/
def State.vendorSet (s : State) (m : Mgmt) (cmd : Nat) (ok : Bool) (f : MgmtState → MgmtState) : State :=
  if !s.answers m then s
  else if !s.mayChange m then s.vendor m cmd stNotOwner []
  else if !ok then s.vendor m cmd stBadParam []
  else ({ s with mgmt := f s.mgmt }).vendor m cmd stOk []

/-! ### Vendor commands (Table 18.2) -/

/-- FREL bits [2:0]. -/
def State.frelBits (s : State) : Nat := packFields [(0, b2n s.mod.replace), (1, b2n s.drain), (2, s.mod.policy)]

def State.getHealth (s : State) (m : Mgmt) : State :=
  let active : Nat := match s.cp.active with
    | some p => p.num
    | none => 0xFF
  s.vendor m 0x01 stOk (leBytes 1 s.healthNow ++ leBytes 1 s.frelBits ++ leBytes 2 (s.enabled .mx / 1000) ++
    leBytes 2 (s.enabled .vx / 1000) ++ leBytes 2 (s.enabled .sx / 1000) ++ leBytes 1 active)

def execGetHealth (m : Mgmt) (s : State) : Out := .next (if s.answers m then s.getHealth m else s)

/-- GET_RECORDS: up to 15 records of the MC's store numbered FROM onward (R464). -/
def State.getRecords (s : State) (m : Mgmt) (n : Nat) : State :=
  let l := (((s.mc.get m.mc).store.map (·.1)).filter (fun r => decide (n ≤ r.seqno))).take 15
  s.vendor m 0x02 stOk (leBytes 1 l.length ++ l.flatMap (fun r => r.bytes s.fw.serial.toNat))

def execGetRecords (m : Mgmt) (n : Nat) (s : State) : Out := .next (if s.answers m then s.getRecords m n else s)

def execSetTest (m : Mgmt) (period defer_ : Nat) (s : State) : Out :=
  .next (s.vendorSet m 0x03 (decide (3600 ≤ period ∧ period ≤ 604800 ∧ 1 ≤ defer_ ∧ defer_ ≤ 600))
    (fun g => { g with testPeriod := period, testDefer := defer_ }))

/-- MODULE_RESET asks for a module warm reset; one that meets a reset in progress is absorbed (R421, R460). -/
def execModuleReset (m : Mgmt) (key : BitVec 32) (s : State) : Out :=
  .next (
    let t := s.vendorSet m 0x04 (key == 0x52455354) (fun g => g)
    if s.answers m && s.mayChange m && key == 0x52455354 && s.mod.step == 10 then { t with mod := { t.mod with warmReq := true } } else t)

def execSetAcl (m : Mgmt) (i kind addr : Nat) (s : State) : Out :=
  .next (s.vendorSet m 0x05 (decide (i < 8 ∧ (kind = 0 ∨ kind = 4 ∨ kind = 6)))
    (fun g => { g with acl := tset g.acl i (if kind = 0 then none else some (kind, addr)) }))

def execSetAddr (m : Mgmt) (mode ip pre gw : Nat) (s : State) : Out :=
  .next (s.vendorSet m 0x06 (decide (mode < 2 ∧ pre ≤ 32))
    (fun g => { g with addrStatic := if mode = 1 then some (ip, pre, gw) else none }))

def execGetJobs (m : Mgmt) (s : State) : Out :=
  .next (if s.answers m then s.vendor m 0x07 stOk (s.jobs.toList.flatMap (fun q => leBytes 1 q.state.code)) else s)

/-! ### MCTP and PLDM control (R457, R463) -/

/-- SET_ENDPOINT_ID. PRESUMED (log 65): endpoint IDs and completion codes of MCTP (0 success, 2 invalid data). -/
def State.setEid (s : State) (m : Mgmt) (eid : Nat) : State :=
  if !s.answers m then s
  else if eid < 8 ∨ 254 < eid then s.mgmtSend m [2]
  else
    let s := { s with mc := s.mc.modify m.mc (fun x => { x with eid := tset x.eid m.binding eid }) }
    s.mgmtSend m (leBytes 1 0 ++ leBytes 1 eid)

def execSetEndpointId (m : Mgmt) (eid : Nat) (s : State) : Out := .next (s.setEid m eid)

/-- PLDM completion code ERROR_NOT_READY. PRESUMED (log 58): 4. -/
def pldmNotReady : Nat := 4

/-- SET_EVENT_RECEIVER: one receiver for each MC. -/
def State.setReceiver (s : State) (m : Mgmt) (recv : Nat) : State :=
  if !s.answers m then s
  else if !s.mayChange m then s.mgmtSend m (leBytes 1 pldmNotReady)
  else
    let s := { s with mc := s.mc.modify m.mc (fun x => { x with receiver := some recv, sentAt := none }) }
    s.mgmtSend m [0]

def execSetEventReceiver (m : Mgmt) (recv : Nat) (s : State) : Out := .next (s.setReceiver m recv)

/-! ### Sensors (R461, R462, Table 18.3) -/

/-- Sensor IDs in ascending order. -/
def sensorIds : List Nat :=
  (List.range 8).map (· + 1) ++ (List.range 18).map (· + 0x10) ++ (List.range 60).map (· + 0x100) ++
    (List.range 60).map (· + 0x200) ++ (List.range 60).map (· + 0x300)

/-- A reading that the module's own state gives; none for one that is measured (log 18). -/
def State.ownReading (s : State) (id : Nat) : Option Int :=
  if id = 4 then some s.mod.cap
  else if id = 7 then some (if s.mod.coolantOk then 1 else 2)
  else if id = 8 then some s.healthNow
  else if 0x100 ≤ id ∧ id < 0x13C then some (s.field (id - 0x100)).heat
  else if 0x200 ≤ id ∧ id < 0x23C then some (s.field (id - 0x200)).watts.toNat
  else if 0x300 ≤ id ∧ id < 0x33C then some (clockMhz (s.field (id - 0x300)).clkEff)
  else none

/-- Field and stack sensors, which the active CP reads. -/
def cpSensor (id : Nat) : Bool := decide ((0x10 ≤ id ∧ id < 0x20) ∨ 0x100 ≤ id)

/-- SENSOR_POLL: every reading is taken again; with no CP running the field and stack sensors are unavailable. -/
def State.sensorPoll (s : State) (vals : List (Nat × Int)) : State :=
  if !(s.mc.a.running || s.mc.b.running) then s
  else
    let read (id : Nat) : Option (Nat × Int) :=
      if cpSensor id && !s.cpRuns then none
      else
        match s.ownReading id with
        | some v => some (id, v)
        | none => vals.find? (fun v => v.1 == id)
    { s with mgmt := { s.mgmt with sensors := sensorIds.filterMap read, sensorTick := s.now } }

def execSensorPoll (vals : List (Nat × Int)) (s : State) : Out := .next (s.sensorPoll vals)

/-- 0 normal, 1 warning, 2 critical (Table 18.3). DEDUCED (log 64): a reading at a threshold has reached it; the input voltage
has fallen below one, and the input power stands above the cap. -/
def State.level (s : State) (id : Nat) (v : Int) : Nat :=
  let up (w c : Int) : Nat := if c ≤ v then 2 else if w ≤ v then 1 else 0
  if id = 1 then (if v < 45000 then 2 else if v < 49000 then 1 else 0)
  else if id = 3 then (if (s.mod.cap : Int) < v then 2 else 0)
  else if id = 5 then up 450 480
  else if 0x10 ≤ id ∧ id < 0x20 then up 85 95
  else if id = 0x20 ∨ id = 0x21 then up 95 105
  else if 0x100 ≤ id ∧ id < 0x13C then up 90 100
  else 0

/-- One entry of the sensor list. -/
def State.sensorEntry (s : State) (id : Nat) : List Byte :=
  match s.mgmt.sensors.find? (fun e => e.1 == id) with
  | some e => leBytes 2 id ++ [0] ++ leBytes 1 (s.level id e.2) ++ leBytes 4 (BitVec.ofInt 32 e.2).toNat
  | none => leBytes 2 id ++ [1, 0] ++ leBytes 4 0

/-- The 1,664 bytes of READ_SENSORS. -/
def State.sensorBytes (s : State) : List Byte :=
  leBytes 8 s.mgmt.sensorTick ++ leBytes 2 206 ++ leBytes 6 0 ++ sensorIds.flatMap s.sensorEntry

def execReadSensors (n : Nat) (s : State) : Out :=
  .next (s.cmd n 0x0503 [(0, 12)] (fun e => e.p 0 8 % 8 == 0) (fun e => s.hostWrite e (e.p 0 8) (e.p 8 4) s.sensorBytes (leBytes 4 1664)))

/-! ### Records to the receiver (R463, R464, R466) -/

/-- The record as it is sent: FLAGS bit 1 where records before it were lost. -/
def McState.sending (m : McState) (r : ErrRec) : ErrRec := if m.lossy then { r with flags := r.flags % 2 + 2 } else r

/-- The health state's event. PRESUMED (log 65): a state-sensor event of DSP0248: sensor, class 1, offset, new and last state. -/
def healthEvent (new old : Nat) : List Byte := leBytes 2 8 ++ [1, 0] ++ leBytes 1 new ++ leBytes 1 old

/-- A change of the health state is sent. -/
def McState.tellHealth (m : McState) (h : Nat) : McState :=
  if m.health = h then m else { m with sent := m.sent ++ [healthEvent h m.health], health := h }

/-- The first record not yet acknowledged is sent, again after 1 s; an acknowledgement ends it. -/
def McState.deliver (m : McState) (now serial : Nat) (acked : Bool) : McState :=
  match m.store.findIdx? (fun e => !e.2) with
  | none => m
  | some i =>
    match m.store[i]? with
    | none => m
    | some e =>
      if (m.sentAt.map (fun t => decide (now < t + 100000000))).getD false && !acked then m
      else
        let again := (m.sentAt.map (fun t => decide (now < t + 100000000))).getD false
        let sent := if again then m.sent else m.sent ++ [(m.sending e.1).bytes serial]
        if acked then { m with store := m.store.set i (e.1, true), sent := sent, sentAt := none, lossy := false }
        else { m with sent := sent, sentAt := some now }

/-- RECORD_DELIVERY by one MC. -/
def State.recordDelivery (s : State) (p : Port) (acked : Bool) : State :=
  let m := s.mc.get p
  if m.running && m.receiver.isSome then
    { s with mc := s.mc.set p ((m.tellHealth s.healthNow).deliver s.mod.sby s.fw.serial.toNat acked) }
  else s

def execRecordDelivery (p : Port) (acked : Bool) (s : State) : Out := .next (s.recordDelivery p acked)

/-! ### Firmware over PLDM (R467) -/

/-- The MC that serves firmware updates: the active die's, or MC-A while no CP is active. -/
def State.updateMc (s : State) : Port := s.cp.active.getD .a

/-- PLDM type 5 is accepted: never over PCIe. -/
def State.mayUpdate (s : State) (m : Mgmt) : Bool :=
  s.mayChange m && m.mc == s.updateMc && m.binding != 1

/-- A PLDM reply: its completion code or the outcome. -/
def State.pldm (s : State) (m : Mgmt) (st : Nat) : State := s.mgmtSend m (leBytes 1 st)

/-- PLDM_UPDATE. -/
def State.pldmUpdate (s : State) (m : Mgmt) (u : PldmReq) : State :=
  if !s.answers m then s
  else if !s.mayUpdate m then s.pldm m pldmNotReady
  else
    match u with
    | .start target size =>
      let r := s.fw.begin .pldm target size
      ({ s with fw := r.1 }).pldm m r.2
    | .block off data =>
      if 1024 < data.length then s.pldm m stBadParam
      else
        let r := s.fw.block .pldm off data
        ({ s with fw := r.1 }).pldm m r.2
    | .verify =>
      if s.fw.upd.map (fun u => u.src) ≠ some .pldm then s.pldm m stBadState
      else
        match s.fw.finish s.warned with
        | (fw, some st) => ({ s with fw := fw }).pldm m st
        | (fw, none) => { s with fw := fw }

def execPldmUpdate (m : Mgmt) (u : PldmReq) (s : State) : Out := .next (s.pldmUpdate m u)

/-- ACTIVATE_FIRMWARE: FW_ACTIVATE with P[0] = 1 where self-contained, 0 otherwise. -/
def State.pldmActivate (s : State) (m : Mgmt) (self_ : Bool) : State :=
  if !s.answers m then s
  else if !s.mayUpdate m then s.pldm m pldmNotReady
  else if s.fw.upd.map (fun u => u.src) ≠ some .pldm then s.pldm m stBadState
  else
    match s.activate (b2n self_) none with
    | (s, some st) => s.pldm m st
    | (s, none) => s

def execActivateFirmware (m : Mgmt) (self_ : Bool) (s : State) : Out := .next (s.pldmActivate m self_)

/-- CANCEL_UPDATE: as a change of owner (spec/17 Table 17.6). -/
def State.pldmCancel (s : State) (m : Mgmt) : State :=
  if !s.answers m then s
  else if !s.mayUpdate m then s.pldm m pldmNotReady
  else (s.dropUpdateIf (fun u => u == .pldm)).pldm m stOk

def execCancelUpdate (m : Mgmt) (s : State) : Out := .next (s.pldmCancel m)

end Sys2Proof.Machine
end

