-- ==== Sys2Proof/Machine/SeqOps.lean ====
section
/-! DEFINITION. What each sequencer instruction does once its semaphore is taken (spec/03 R86, spec/04 R109), by kind and
opcode, so that a grant can resume a held instruction (spec/06 R150). -/

namespace Sys2Proof.Machine

/-- MXNOP, VNOP: only the header's semaphores (spec/06 R150). -/
def nopBody : Body := fun s c i => s.finish c i CoreState.next

/-- MXSETA and VSETA: an address or a stride register; A0 ignores writes. -/
def CoreState.setAddr (c : CoreState) (r : Nat) (str : Bool) (v : BitVec 13) : CoreState :=
  if str then { c with str := c.str.set (BitVec.ofNat 3 r) v } else c.setA r v

def mxSetaBody : Body := fun s c i =>
  s.finish c i (fun x => (x.setAddr (ifld i 20 3) (i.getLsbD 23) (i.extractLsb' 24 13)).next)

def vxSetaBody : Body := fun s c i =>
  s.finish c i (fun x => (x.setAddr (ifld i 45 3) (i.getLsbD 48) (i.extractLsb' 96 13)).next)

/-- VSETU: a uniform register. -/
def vxSetuBody : Body := fun s c i =>
  s.finish c i (fun x => CoreState.next { x with u := x.u.set (BitVec.ofNat 3 (vUreg i)) (i.extractLsb' 96 32) })

def CoreState.setSc (c : CoreState) (r : Nat) (v : BitVec 32) : CoreState := { c with sc := c.sc.set (BitVec.ofNat 3 r) v }

/-- MXSETSC: a scale register from the immediate, or from the low half of a scratchpad word. -/
def mxSetscBody : Body := fun s c i =>
  let r := ifld i 20 3
  if i.getLsbD 23 then
    let x := s.core c
    let w := x.addrOf (ifld i 24 3) (ifld i 27 13)
    match CoreState.fetchWords .mx x [w] x.pc.toNat 0 with
    | (y, false) => s.setCore c y
    | (y, true) => (s.setCore c y).finish c i (fun z => (z.setSc r ((x.data w).extractLsb' 0 32)).next)
  else s.finish c i (fun x => (x.setSc r (i.extractLsb' 24 32)).next)

/-- MXLOOP, VLOOP: begins a loop or skips its body; a nesting that is not legal is ILLEGAL. -/
def loopBody (lvl count len : Nat) (adv : BitVec 8) : Body := fun s c i =>
  if (s.core c).loopLegal lvl len then s.finish c i (fun x => x.beginLoop lvl count len adv)
  else s.modCore c (fun x => x.fail eIllegal x.pc.toNat 0)

def mxLoopBody : Body := fun s c i => loopBody (ifld i 20 1) (ifld i 21 16) (ifld i 37 8) (i.extractLsb' 45 8) s c i

def vxLoopBody : Body := fun s c i => loopBody (ifld i 45 1) (ifld i 96 16) (ifld i 112 8) (i.extractLsb' 120 8) s c i

/-- MXQWAIT, VQWAIT: holds issue until a queue holds `n` unreleased entries (spec/07 R171). -/
def qwaitBody (q n : Nat) : Body := fun s c i =>
  let x := s.core c
  match x.waitErr q n with
  | some e => s.setCore c (x.failQueue e x.pc.toNat 0 q none)
  | none => if n ≤ (x.qu q).count then s.finish c i CoreState.next else s.holdSeq c i (.queue q n)

/-- MXQREL, VQREL: waits for the engines, then releases `n` entries (spec/03 R86, spec/07 R170, R171, spec/09 R230). -/
def qrelBody (q n : Nat) : Body := fun s c i =>
  let x := s.core c
  if !x.idle then s.holdSeq c i .release
  else
    match x.relErr q n with
    | some e => s.setCore c (x.failQueue e x.pc.toNat 0 q none)
    | none =>
      if !x.credRoom q n then s.holdSeq c i (.credit q n)
      else (s.release c q n).finish c i CoreState.next

/-- MXHALT, VHALT: fetch stops. -/
def haltBody : Body := fun s c i => s.finish c i (fun x => { x.next with halted := true })

def mxQwaitBody : Body := fun s c i => qwaitBody (ifld i 20 4) (ifld i 24 12) s c i
def mxQrelBody : Body := fun s c i => qrelBody (ifld i 20 4) (ifld i 24 12) s c i
def vxQwaitBody : Body := fun s c i => qwaitBody (vQl i) (vN i) s c i
def vxQrelBody : Body := fun s c i => qrelBody (vQl i) (vN i) s c i

/-- An instruction of an engine goes to its command queue. -/
def engineBody : Body := fun s c i => s.enqueue c i

/-- What an opcode's instruction does, for a resumed instruction. -/
def bodyOf (k : Kind) (opc : Nat) : Body :=
  match opc with
  | 0x00 => nopBody
  | 0x10 => if k = .mx then mxSetaBody else vxSetaBody
  | 0x11 => if k = .mx then mxSetscBody else vxSetuBody
  | 0x12 => if k = .mx then mxLoopBody else vxLoopBody
  | 0x13 => if k = .mx then mxQwaitBody else vxQwaitBody
  | 0x14 => if k = .mx then mxQrelBody else vxQrelBody
  | 0x1F => haltBody
  | _ => engineBody

/-- A release instruction that waits for the engines or for room in the credit holds is tried again when its command is
sent again; its semaphore is already taken. -/
def State.retryRelease (s : State) (c : CoreId) (k : Kind) : Option State :=
  let x := s.core c
  if coreKind c == k && s.coreRuns c && x.run && (match x.hold with | .release => true | .credit _ _ => true | _ => false) then
    some (bodyOf k 0x14 s c x.heldInst)
  else none

end Sys2Proof.Machine
end

