-- ==== Sys2Proof/Machine/MxFamily.lean ====
section
/-! DEFINITION. The MX instructions (spec/03).
Each command is the sequencer's issue of that instruction from the core's program counter (log 4); where the word at the
program counter is another instruction, the event is not there and the state stays (log 3). -/

namespace Sys2Proof.Machine

/-- MXNOP (spec/06 R150); it also raises what a reserved opcode raises (spec/03 R78). -/
def execMxnop (c : CoreId) (s : State) : Out := .next (s.issue c .mx 0x00 nopBody)

/-- MXLDS goes to the array engine (spec/03 R71). -/
def execMxlds (c : CoreId) (s : State) : Out := .next (s.issue c .mx 0x01 engineBody)

/-- MXMMA goes to the array engine (spec/03 R63). -/
def execMxmma (c : CoreId) (s : State) : Out := .next (s.issue c .mx 0x02 engineBody)

/-- MXCVT goes to the array engine (spec/03 R83). -/
def execMxcvt (c : CoreId) (s : State) : Out := .next (s.issue c .mx 0x03 engineBody)

/-- MXLDACC goes to the array engine (spec/03 R84). -/
def execMxldacc (c : CoreId) (s : State) : Out := .next (s.issue c .mx 0x04 engineBody)

/-- MXCLRACC goes to the array engine (spec/03 R84). -/
def execMxclracc (c : CoreId) (s : State) : Out := .next (s.issue c .mx 0x05 engineBody)

/-- MXMOVE goes to the move engine (spec/03 R85). -/
def execMxmove (c : CoreId) (s : State) : Out := .next (s.issue c .mx 0x08 engineBody)

/-- MXSETA (spec/03 R86). -/
def execMxseta (c : CoreId) (s : State) : Out := .next (s.issue c .mx 0x10 mxSetaBody)

/-- MXSETSC (spec/03 R86). -/
def execMxsetsc (c : CoreId) (s : State) : Out := .next (s.issue c .mx 0x11 mxSetscBody)

/-- MXLOOP (spec/03 R86). -/
def execMxloop (c : CoreId) (s : State) : Out := .next (s.issue c .mx 0x12 mxLoopBody)

/-- MXQWAIT (spec/03 R86, spec/07 R171). -/
def execMxqwait (c : CoreId) (s : State) : Out := .next (s.issue c .mx 0x13 mxQwaitBody)

/-- MXQREL: the release instruction issues, or one that waits is tried again (spec/03 R86, spec/07 R170, R171). -/
def execMxqrel (c : CoreId) (s : State) : Out :=
  .next ((s.retryRelease c .mx).getD (s.issue c .mx 0x14 mxQrelBody))

/-- MXHALT (spec/03 R86). -/
def execMxhalt (c : CoreId) (s : State) : Out := .next (s.issue c .mx 0x1F haltBody)

end Sys2Proof.Machine
end

