-- ==== Sys2Proof/Machine/SxFamily.lean ====
section
/-! DEFINITION. The SX instructions (spec/04 R120, R121): each command is one thread's issue of that instruction. -/

namespace Sys2Proof.Machine

/-- ALU (spec/04 R121, Table 4.11; it also raises what a reserved opcode raises). -/
def execAlu (c : CoreId) (t : Fin 4) (s : State) : Out := .next (s.sxIssueOp c t 0x00 aluBody)

/-- ADDI (spec/04 R121). -/
def execAddi (c : CoreId) (t : Fin 4) (s : State) : Out := .next (s.sxIssueOp c t 0x01 (immBody 0x00))

/-- ANDI (spec/04 R121). -/
def execAndi (c : CoreId) (t : Fin 4) (s : State) : Out := .next (s.sxIssueOp c t 0x02 (immBody 0x02))

/-- ORI (spec/04 R121). -/
def execOri (c : CoreId) (t : Fin 4) (s : State) : Out := .next (s.sxIssueOp c t 0x03 (immBody 0x03))

/-- XORI (spec/04 R121). -/
def execXori (c : CoreId) (t : Fin 4) (s : State) : Out := .next (s.sxIssueOp c t 0x04 (immBody 0x04))

/-- SLTI (spec/04 R121). -/
def execSlti (c : CoreId) (t : Fin 4) (s : State) : Out := .next (s.sxIssueOp c t 0x05 (immBody 0x08))

/-- SLTIU (spec/04 R121). -/
def execSltiu (c : CoreId) (t : Fin 4) (s : State) : Out := .next (s.sxIssueOp c t 0x06 (immBody 0x09))

/-- SHI (spec/04 R121). -/
def execShi (c : CoreId) (t : Fin 4) (s : State) : Out := .next (s.sxIssueOp c t 0x07 shiBody)

/-- LUI (spec/04 R121). -/
def execLui (c : CoreId) (t : Fin 4) (s : State) : Out := .next (s.sxIssueOp c t 0x08 luiBody)

/-- LB (spec/04 R117). -/
def execLb (c : CoreId) (t : Fin 4) (s : State) : Out := .next (s.sxIssueOp c t 0x10 (loadBody 1 true))

/-- LBU (spec/04 R117). -/
def execLbu (c : CoreId) (t : Fin 4) (s : State) : Out := .next (s.sxIssueOp c t 0x11 (loadBody 1 false))

/-- LH (spec/04 R117). -/
def execLh (c : CoreId) (t : Fin 4) (s : State) : Out := .next (s.sxIssueOp c t 0x12 (loadBody 2 true))

/-- LHU (spec/04 R117). -/
def execLhu (c : CoreId) (t : Fin 4) (s : State) : Out := .next (s.sxIssueOp c t 0x13 (loadBody 2 false))

/-- LW (spec/04 R117). -/
def execLw (c : CoreId) (t : Fin 4) (s : State) : Out := .next (s.sxIssueOp c t 0x14 (loadBody 4 false))

/-- LD (spec/04 R117). -/
def execLd (c : CoreId) (t : Fin 4) (s : State) : Out := .next (s.sxIssueOp c t 0x15 ldBody)

/-- LX (spec/04 R121). -/
def execLx (c : CoreId) (t : Fin 4) (s : State) : Out := .next (s.sxIssueOp c t 0x16 lxBody)

/-- SB (spec/04 R117). -/
def execSb (c : CoreId) (t : Fin 4) (s : State) : Out := .next (s.sxIssueOp c t 0x18 (storeBody 1))

/-- SH (spec/04 R117). -/
def execSh (c : CoreId) (t : Fin 4) (s : State) : Out := .next (s.sxIssueOp c t 0x19 (storeBody 2))

/-- SW (spec/04 R117). -/
def execSw (c : CoreId) (t : Fin 4) (s : State) : Out := .next (s.sxIssueOp c t 0x1A (storeBody 4))

/-- SD (spec/04 R117). -/
def execSd (c : CoreId) (t : Fin 4) (s : State) : Out := .next (s.sxIssueOp c t 0x1B sdBody)

/-- BEQ (spec/04 R121). -/
def execBeq (c : CoreId) (t : Fin 4) (s : State) : Out := .next (s.sxIssueOp c t 0x20 (branchBody (fun a b => a == b)))

/-- BNE (spec/04 R121). -/
def execBne (c : CoreId) (t : Fin 4) (s : State) : Out := .next (s.sxIssueOp c t 0x21 (branchBody (fun a b => a != b)))

/-- BLT (spec/04 R121). -/
def execBlt (c : CoreId) (t : Fin 4) (s : State) : Out := .next (s.sxIssueOp c t 0x22 (branchBody (fun a b => decide (a.toInt < b.toInt))))

/-- BGE (spec/04 R121). -/
def execBge (c : CoreId) (t : Fin 4) (s : State) : Out := .next (s.sxIssueOp c t 0x23 (branchBody (fun a b => decide (b.toInt ≤ a.toInt))))

/-- BLTU (spec/04 R121). -/
def execBltu (c : CoreId) (t : Fin 4) (s : State) : Out := .next (s.sxIssueOp c t 0x24 (branchBody (fun a b => decide (a.toNat < b.toNat))))

/-- BGEU (spec/04 R121). -/
def execBgeu (c : CoreId) (t : Fin 4) (s : State) : Out := .next (s.sxIssueOp c t 0x25 (branchBody (fun a b => decide (b.toNat ≤ a.toNat))))

/-- JAL (spec/04 R121). -/
def execJal (c : CoreId) (t : Fin 4) (s : State) : Out := .next (s.sxIssueOp c t 0x26 jalBody)

/-- JALR (spec/04 R121). -/
def execJalr (c : CoreId) (t : Fin 4) (s : State) : Out := .next (s.sxIssueOp c t 0x27 jalrBody)

/-- SEMW (spec/06 R154). -/
def execSemw (c : CoreId) (t : Fin 4) (s : State) : Out := .next (s.sxIssueOp c t 0x28 semwBody)

/-- SEMS (spec/06 R152). -/
def execSems (c : CoreId) (t : Fin 4) (s : State) : Out := .next (s.sxIssueOp c t 0x29 semsBody)

/-- QWAIT (spec/04 R121, spec/07 R171). -/
def execSxQwait (c : CoreId) (t : Fin 4) (s : State) : Out := .next (s.sxIssueOp c t 0x2A qwaitSx)

/-- QREL (spec/07 R170). -/
def execSxQrel (c : CoreId) (t : Fin 4) (s : State) : Out := .next (s.sxIssueOp c t 0x2B qrelSx)

/-- STEER (spec/04 R118). -/
def execSteer (c : CoreId) (t : Fin 4) (s : State) : Out := .next (s.sxIssueOp c t 0x2C steerBody)

/-- SEND (spec/04 R119). -/
def execSend (c : CoreId) (t : Fin 4) (s : State) : Out := .next (s.sxIssueOp c t 0x30 sendBody)

/-- MOVE (spec/04 R119). -/
def execMove (c : CoreId) (t : Fin 4) (s : State) : Out := .next (s.sxIssueOp c t 0x31 moveBody)

/-- MVSYNC (spec/04 R119). -/
def execMvsync (c : CoreId) (t : Fin 4) (s : State) : Out := .next (s.sxIssueOp c t 0x32 mvsyncBody)

/-- CSRR (spec/04 R121, Table 4.12). -/
def execCsrr (c : CoreId) (t : Fin 4) (s : State) : Out := .next (s.sxIssueOp c t 0x38 csrrBody)

/-- TSTART (spec/04 R113). -/
def execTstart (c : CoreId) (t : Fin 4) (s : State) : Out := .next (s.sxIssueOp c t 0x3C tstartBody)

/-- THALT (spec/04 R113). -/
def execThalt (c : CoreId) (t : Fin 4) (s : State) : Out := .next (s.sxIssueOp c t 0x3E thaltBody)

end Sys2Proof.Machine
end

