-- ==== Sys2Proof/Machine/Sync.lean ====
section
/-! DEFINITION. Semaphore takes, completions, the deadlock error, and the ends of queue waits and full queues (spec/06 R148-R157,
spec/07 R171). -/

namespace Sys2Proof.Machine

/-! ### SEMAPHORE_TAKE (spec/06 R150, R152-R154) -/

/-- The waiting sequencer of an MX or VX core is granted: the held instruction runs. -/
def State.takeSeq (s : State) (c : CoreId) : State :=
  let k := coreKind c
  let x := s.core c
  match x.hold with
  | .sem q =>
    if s.coreRuns c && x.semGrant k 0 q then
      let s := s.countStall c true false
      let i := x.heldInst
      bodyOf k (iOpc i) (s.modCore c (fun y => { y.take q with hold := .none })) c i
    else s
  | _ => s

/-- The head of a waiting engine's queue is granted: it starts. -/
def State.takeEngine (s : State) (c : CoreId) (e : Nat) : State :=
  let k := coreKind c
  let x := s.core c
  match (x.engine e).queue with
  | [] => s
  | cmd :: rest =>
    if s.coreRuns c && (x.engine e).waiting && CoreState.headReady k x e cmd && x.semGrant k e (iWsem cmd.inst) then
      let s := s.countStall c true (k == .mx && e == 1)
      State.kick kickFuel (s.startHead c e cmd rest) c
    else s

/-- A waiting SEMW of an SX thread is granted. -/
def State.takeThread (s : State) (c : CoreId) (t : Nat) : State :=
  let x := s.core c
  match (x.thread t).wait with
  | .sem q =>
    if s.coreRuns c && (x.thread t).run && x.semGrant .sx t q then
      (s.countStall c true false).modCore c (fun y => y.semwGrant t)
    else s
  | _ => s

def State.semTake (s : State) (c : CoreId) (e : Nat) : State :=
  match coreKind c with
  | .sx => if e < 4 then s.takeThread c e else s
  | .mx => if e = 0 then s.takeSeq c else if e < 3 then s.takeEngine c e else s
  | .vx => if e = 0 then s.takeSeq c else if e < 4 then s.takeEngine c e else s

/-- SEMAPHORE_TAKE: a wait of engine or thread `e` is granted. -/
def execSemaphoreTake (c : CoreId) (e : Nat) (s : State) : Out := .next (s.semTake c e)

/-! ### COMMAND_COMPLETE (spec/06 R152, R156) -/

/-- A core has a numbered engine with commands. -/
def hasEngine (k : Kind) (e : Nat) : Bool :=
  match k with
  | .mx => e == 1 || e == 2
  | .vx => e == 1 || e == 2 || e == 3
  | .sx => e == 2

/-- A move engine completes a command once its last word has left and its local words are committed (Table 3.8 MXMOVE). -/
def moveHeld (k : Kind) (x : CoreState) (e : Nat) : Bool :=
  e == 2 && x.sendPending (if k = .sx then 4 else 2)

/-- What a completion does to its core: the command leaves its engine; an SX move counts for its thread; SEN signals. -/
def CoreState.completed (k : Kind) (x : CoreState) (e n : Nat) (cmd : Cmd) : CoreState :=
  let g := x.engine e
  let x := x.setEngine e { g with prog := g.prog.eraseIdx n }
  if k = .sx then x.modThread cmd.thread (fun t => { t with moves := t.moves - 1 })
  else if iSen cmd.inst then x.signal (iSsem cmd.inst) e cmd.epc
  else x

def State.cmdComplete (s : State) (c : CoreId) (e n : Nat) : State :=
  let k := coreKind c
  let x := s.core c
  match (x.engine e).prog[n]? with
  | none => s
  | some cmd =>
    if !hasEngine k e || !s.coreWorks c || moveHeld k x e then s
    else
      let s := (s.countWait c).modCore c (fun y => y.completed k e n cmd)
      let s := if k == .mx && e == 1 then s.countStall c false true else s
      (State.kick kickFuel s c).endRun c

/-- COMMAND_COMPLETE: the `k`-th command in progress of engine `e` completes. -/
def execCommandComplete (c : CoreId) (e k : Nat) (s : State) : Out := .next (s.cmdComplete c e k)

/-! ### SEM_DEADLOCK (spec/06 R157, Table 6.3) -/

/-- Engine `e` waits for a semaphore that is not there, with nothing in progress (DEDUCED, log 24). -/
def CoreState.blocked (k : Kind) (x : CoreState) (e : Nat) : Bool :=
  match x.semWait k e with
  | none => false
  | some q => x.semCount q == 0 && (if e = 0 ∨ k = .sx then true else (x.engine e).prog.isEmpty)

/-- Engine `e` has nothing queued and nothing in progress. -/
def CoreState.engineIdle (x : CoreState) (e : Nat) : Bool := !engBusy (x.engine e)

/-- The sequencer is stuck: halted, waiting, held by the full queue of a blocked engine, or in a release for commands of a
blocked engine. -/
def CoreState.seqStuck (k : Kind) (x : CoreState) : Bool :=
  x.halted ||
  match x.hold with
  | .sem q => x.semCount q == 0
  | .full => ((engineOf k (iOpc x.heldInst)).map (x.blocked k)).getD false
  | .release => [1, 2, 3].any (x.blocked k)
  | _ => false

/-- Table 6.3. -/
def CoreState.deadlocked (k : Kind) (x : CoreState) : Bool :=
  match k with
  | .sx =>
    (List.range 4).any (fun t => (x.thread t).run && x.blocked .sx t) &&
      (List.range 4).all (fun t => !(x.thread t).run || x.blocked .sx t)
  | _ =>
    let es := if k = .vx then [1, 2, 3] else [1, 2]
    (x.blocked k 0 || es.any (x.blocked k)) && x.seqStuck k && es.all (fun e => x.blocked k e || x.engineIdle e)

/-- The lowest-numbered waiting engine or thread. -/
def CoreState.lowestWaiting (k : Kind) (x : CoreState) : Nat := ((List.range 4).find? (x.blocked k)).getD 0

/-- Address of the instruction an engine waits with. DESIGN CHOICE (log 78): MXERR, VXERR and SXERR of a SEM_DEADLOCK name it and the
lowest waiting engine or thread; the manual fixes SEMERR alone (spec/06 R157). -/
def CoreState.waitEpc (k : Kind) (x : CoreState) (e : Nat) : Nat :=
  if k = .sx then (x.thread e).pc.toNat
  else if e = 0 then x.pc.toNat
  else ((x.engine e).queue.head?.map (·.epc)).getD 0

def CoreState.raiseDeadlock (k : Kind) (x : CoreState) : CoreState :=
  let e := x.lowestWaiting k
  let q := (x.semWait k e).getD 0
  CoreState.fail
    { x with
      semErrSem := BitVec.ofNat 4 q
      semErrEngine := BitVec.ofNat 2 e
      semErrCount := BitVec.ofNat 8 (x.semCount q)
      semErrKind := true
      semErrValid := true }
    eSemDeadlock (x.waitEpc k e) e

/-- SEM_DEADLOCK: the condition of Table 6.3 holds. -/
def execSemDeadlock (c : CoreId) (s : State) : Out :=
  .next (if s.coreRuns c && (s.core c).run && (s.core c).deadlocked (coreKind c) then
    s.modCore c (fun x => x.raiseDeadlock (coreKind c)) else s)

/-! ### QUEUE_WAIT_END and SEQUENCER_QUEUE_ROOM -/

/-- A queue wait of the sequencer or of a thread ends once COUNT suffices (spec/07 R171, spec/04 R115). -/
def State.queueWaitEnd (s : State) (c : CoreId) (e : Nat) : State :=
  let x := s.core c
  if !s.coreRuns c then s
  else
    match coreKind c with
    | .sx => if e < 4 && (x.thread e).run then s.modCore c (fun y => y.qwaitEnd e) else s
    | _ =>
      match x.hold with
      | .queue q n => if e = 0 ∧ n ≤ (x.qu q).count then s.finish c x.heldInst CoreState.next else s
      | _ => s

/-- QUEUE_WAIT_END: the queue a sequencer or a thread waits on holds enough. -/
def execQueueWaitEnd (c : CoreId) (e : Nat) (s : State) : Out := .next (s.queueWaitEnd c e)

/-- Room in a command queue: the held instruction enters it; an SX thread whose MOVE waits may issue it again
(spec/06 R149). -/
def State.queueRoom (s : State) (c : CoreId) (e : Nat) : State :=
  let x := s.core c
  if !s.coreRuns c then s
  else
    match coreKind c with
    | .sx =>
      if e < 4 && (x.thread e).wait == .room && decide (x.e2.queue.length < 8) then
        s.modCore c (fun y => y.sxWait e .none) else s
    | _ => if x.hold == .full && engineOf (coreKind c) (iOpc x.heldInst) == some e then s.enqueue c x.heldInst else s

/-- SEQUENCER_QUEUE_ROOM: the command queue of engine `e` has room again (for SX: thread `e`'s MOVE). -/
def execSequencerQueueRoom (c : CoreId) (e : Nat) (s : State) : Out := .next (s.queueRoom c e)

end Sys2Proof.Machine
end

