-- ==== Sys2Proof/Machine/VxFamily.lean ====
section
/-! DEFINITION. The VX instructions (spec/04).
Each command is the sequencer's issue of that instruction from the core's program counter (log 4); where the word at the
program counter is another instruction, the event is not there and the state stays (log 3). -/

namespace Sys2Proof.Machine

/-- VNOP (spec/06 R150); it also raises what a reserved opcode raises (spec/04 R109). -/
def execVnop (c : CoreId) (s : State) : Out := .next (s.issue c .vx 0x00 nopBody)

/-- VMOVE goes to the move engine (spec/04 R108). -/
def execVmove (c : CoreId) (s : State) : Out := .next (s.issue c .vx 0x08 engineBody)

/-- VSETA (spec/04 R109). -/
def execVseta (c : CoreId) (s : State) : Out := .next (s.issue c .vx 0x10 vxSetaBody)

/-- VSETU (spec/04 R109). -/
def execVsetu (c : CoreId) (s : State) : Out := .next (s.issue c .vx 0x11 vxSetuBody)

/-- VLOOP (spec/04 R109). -/
def execVloop (c : CoreId) (s : State) : Out := .next (s.issue c .vx 0x12 vxLoopBody)

/-- VQWAIT (spec/04 R109, spec/07 R171). -/
def execVqwait (c : CoreId) (s : State) : Out := .next (s.issue c .vx 0x13 vxQwaitBody)

/-- VQREL: the release instruction issues, or one that waits is tried again (spec/03 R86, spec/07 R170, R171). -/
def execVqrel (c : CoreId) (s : State) : Out :=
  .next ((s.retryRelease c .vx).getD (s.issue c .vx 0x14 vxQrelBody))

/-- VHALT (spec/04 R109). -/
def execVhalt (c : CoreId) (s : State) : Out := .next (s.issue c .vx 0x1F haltBody)

/-- VLD goes to the vector unit (spec/04 R92). -/
def execVld (c : CoreId) (s : State) : Out := .next (s.issue c .vx 0x20 engineBody)

/-- VST goes to the vector unit (spec/04 R92). -/
def execVst (c : CoreId) (s : State) : Out := .next (s.issue c .vx 0x21 engineBody)

/-- VOP goes to the vector unit (spec/04 R93). -/
def execVop (c : CoreId) (s : State) : Out := .next (s.issue c .vx 0x30 engineBody)

/-- VFMA goes to the vector unit (spec/04 R93). -/
def execVfma (c : CoreId) (s : State) : Out := .next (s.issue c .vx 0x31 engineBody)

/-- VCMP goes to the vector unit (spec/04 R109). -/
def execVcmp (c : CoreId) (s : State) : Out := .next (s.issue c .vx 0x32 engineBody)

/-- VSEL goes to the vector unit (spec/04 R109). -/
def execVsel (c : CoreId) (s : State) : Out := .next (s.issue c .vx 0x33 engineBody)

/-- VRED goes to the vector unit (spec/04 R95). -/
def execVred (c : CoreId) (s : State) : Out := .next (s.issue c .vx 0x34 engineBody)

/-- VTR goes to the vector unit (spec/04 R96). -/
def execVtr (c : CoreId) (s : State) : Out := .next (s.issue c .vx 0x35 engineBody)

/-- VCVT goes to the vector unit (spec/04 R97). -/
def execVcvt (c : CoreId) (s : State) : Out := .next (s.issue c .vx 0x36 engineBody)

/-- VCVTX goes to the vector unit (spec/04 R97). -/
def execVcvtx (c : CoreId) (s : State) : Out := .next (s.issue c .vx 0x37 engineBody)

/-- VKEY goes to the vector unit (spec/04 R98). -/
def execVkey (c : CoreId) (s : State) : Out := .next (s.issue c .vx 0x38 engineBody)

/-- VIOTA goes to the vector unit (spec/04 R98). -/
def execViota (c : CoreId) (s : State) : Out := .next (s.issue c .vx 0x39 engineBody)

/-- SVCFG goes to the sieve (spec/04 R101, R107). -/
def execSvcfg (c : CoreId) (s : State) : Out := .next (s.issue c .vx 0x50 engineBody)

/-- SVCLR goes to the sieve (spec/04 R102). -/
def execSvclr (c : CoreId) (s : State) : Out := .next (s.issue c .vx 0x51 engineBody)

/-- SVINS goes to the sieve (spec/04 R103). -/
def execSvins (c : CoreId) (s : State) : Out := .next (s.issue c .vx 0x52 engineBody)

/-- SVINSW goes to the sieve (spec/04 R103). -/
def execSvinsw (c : CoreId) (s : State) : Out := .next (s.issue c .vx 0x53 engineBody)

end Sys2Proof.Machine
end

