-- ==== Sys2Proof/Machine/Dispatch.lean ====
section
/-! DEFINITION. Dispatch: one arm per constructor of Instr. -/

namespace Sys2Proof.Machine

/-- The effect of a command on everything but the queue. -/
def exec (i : Instr) (s : State) : Host.Outcome State Fault Refusal :=
  match i with
  | .mxnop c => Sys2Proof.Machine.execMxnop c s
  | .mxlds c => Sys2Proof.Machine.execMxlds c s
  | .mxmma c => Sys2Proof.Machine.execMxmma c s
  | .mxcvt c => Sys2Proof.Machine.execMxcvt c s
  | .mxldacc c => Sys2Proof.Machine.execMxldacc c s
  | .mxclracc c => Sys2Proof.Machine.execMxclracc c s
  | .mxmove c => Sys2Proof.Machine.execMxmove c s
  | .mxseta c => Sys2Proof.Machine.execMxseta c s
  | .mxsetsc c => Sys2Proof.Machine.execMxsetsc c s
  | .mxloop c => Sys2Proof.Machine.execMxloop c s
  | .mxqwait c => Sys2Proof.Machine.execMxqwait c s
  | .mxqrel c => Sys2Proof.Machine.execMxqrel c s
  | .mxhalt c => Sys2Proof.Machine.execMxhalt c s
  | .vnop c => Sys2Proof.Machine.execVnop c s
  | .vmove c => Sys2Proof.Machine.execVmove c s
  | .vseta c => Sys2Proof.Machine.execVseta c s
  | .vsetu c => Sys2Proof.Machine.execVsetu c s
  | .vloop c => Sys2Proof.Machine.execVloop c s
  | .vqwait c => Sys2Proof.Machine.execVqwait c s
  | .vqrel c => Sys2Proof.Machine.execVqrel c s
  | .vhalt c => Sys2Proof.Machine.execVhalt c s
  | .vld c => Sys2Proof.Machine.execVld c s
  | .vst c => Sys2Proof.Machine.execVst c s
  | .vop c => Sys2Proof.Machine.execVop c s
  | .vfma c => Sys2Proof.Machine.execVfma c s
  | .vcmp c => Sys2Proof.Machine.execVcmp c s
  | .vsel c => Sys2Proof.Machine.execVsel c s
  | .vred c => Sys2Proof.Machine.execVred c s
  | .vtr c => Sys2Proof.Machine.execVtr c s
  | .vcvt c => Sys2Proof.Machine.execVcvt c s
  | .vcvtx c => Sys2Proof.Machine.execVcvtx c s
  | .vkey c => Sys2Proof.Machine.execVkey c s
  | .viota c => Sys2Proof.Machine.execViota c s
  | .svcfg c => Sys2Proof.Machine.execSvcfg c s
  | .svclr c => Sys2Proof.Machine.execSvclr c s
  | .svins c => Sys2Proof.Machine.execSvins c s
  | .svinsw c => Sys2Proof.Machine.execSvinsw c s
  | .alu c t => Sys2Proof.Machine.execAlu c t s
  | .addi c t => Sys2Proof.Machine.execAddi c t s
  | .andi c t => Sys2Proof.Machine.execAndi c t s
  | .ori c t => Sys2Proof.Machine.execOri c t s
  | .xori c t => Sys2Proof.Machine.execXori c t s
  | .slti c t => Sys2Proof.Machine.execSlti c t s
  | .sltiu c t => Sys2Proof.Machine.execSltiu c t s
  | .shi c t => Sys2Proof.Machine.execShi c t s
  | .lui c t => Sys2Proof.Machine.execLui c t s
  | .lb c t => Sys2Proof.Machine.execLb c t s
  | .lbu c t => Sys2Proof.Machine.execLbu c t s
  | .lh c t => Sys2Proof.Machine.execLh c t s
  | .lhu c t => Sys2Proof.Machine.execLhu c t s
  | .lw c t => Sys2Proof.Machine.execLw c t s
  | .ld c t => Sys2Proof.Machine.execLd c t s
  | .lx c t => Sys2Proof.Machine.execLx c t s
  | .sb c t => Sys2Proof.Machine.execSb c t s
  | .sh c t => Sys2Proof.Machine.execSh c t s
  | .sw c t => Sys2Proof.Machine.execSw c t s
  | .sd c t => Sys2Proof.Machine.execSd c t s
  | .beq c t => Sys2Proof.Machine.execBeq c t s
  | .bne c t => Sys2Proof.Machine.execBne c t s
  | .blt c t => Sys2Proof.Machine.execBlt c t s
  | .bge c t => Sys2Proof.Machine.execBge c t s
  | .bltu c t => Sys2Proof.Machine.execBltu c t s
  | .bgeu c t => Sys2Proof.Machine.execBgeu c t s
  | .jal c t => Sys2Proof.Machine.execJal c t s
  | .jalr c t => Sys2Proof.Machine.execJalr c t s
  | .semw c t => Sys2Proof.Machine.execSemw c t s
  | .sems c t => Sys2Proof.Machine.execSems c t s
  | .sxQwait c t => Sys2Proof.Machine.execSxQwait c t s
  | .sxQrel c t => Sys2Proof.Machine.execSxQrel c t s
  | .steer c t => Sys2Proof.Machine.execSteer c t s
  | .send c t => Sys2Proof.Machine.execSend c t s
  | .move c t => Sys2Proof.Machine.execMove c t s
  | .mvsync c t => Sys2Proof.Machine.execMvsync c t s
  | .csrr c t => Sys2Proof.Machine.execCsrr c t s
  | .tstart c t => Sys2Proof.Machine.execTstart c t s
  | .thalt c t => Sys2Proof.Machine.execThalt c t s
  | .semaphoreTake c e => Sys2Proof.Machine.execSemaphoreTake c e s
  | .commandComplete c e k => Sys2Proof.Machine.execCommandComplete c e k s
  | .semDeadlock c => Sys2Proof.Machine.execSemDeadlock c s
  | .queueWaitEnd c e => Sys2Proof.Machine.execQueueWaitEnd c e s
  | .sequencerQueueRoom c e => Sys2Proof.Machine.execSequencerQueueRoom c e s
  | .coreError c => Sys2Proof.Machine.execCoreError c s
  | .inboundCommit c => Sys2Proof.Machine.execInboundCommit c s
  | .correctionRewrite c bank => Sys2Proof.Machine.execCorrectionRewrite c bank s
  | .patrolScrub c => Sys2Proof.Machine.execPatrolScrub c s
  | .wash c stuck => Sys2Proof.Machine.execWash c stuck s
  | .coreReset c => Sys2Proof.Machine.execCoreReset c s
  | .writeArrival k => Sys2Proof.Machine.execWriteArrival k s
  | .qsendArrival k => Sys2Proof.Machine.execQsendArrival k s
  | .creditArrival k => Sys2Proof.Machine.execCreditArrival k s
  | .readArrival k => Sys2Proof.Machine.execReadArrival k s
  | .rdataArrival k => Sys2Proof.Machine.execRdataArrival k s
  | .nakReceive k => Sys2Proof.Machine.execNakReceive k s
  | .potCombine c => Sys2Proof.Machine.execPotCombine c s
  | .potIdentityWrite c q => Sys2Proof.Machine.execPotIdentityWrite c q s
  | .netrd1Write c v => Sys2Proof.Machine.execNetrd1Write c v s
  | .hubReadCombine k hx hy => Sys2Proof.Machine.execHubReadCombine k hx hy s
  | .linkDown l => Sys2Proof.Machine.execLinkDown l s
  | .routeArm f tabs => Sys2Proof.Machine.execRouteArm f tabs s
  | .routeSwap f => Sys2Proof.Machine.execRouteSwap f s
  | .xpdone c eng => Sys2Proof.Machine.execXpdone c eng s
  | .xpdoneDeferred c => Sys2Proof.Machine.execXpdoneDeferred c s
  | .developPoint j stuck => Sys2Proof.Machine.execDevelopPoint j stuck s
  | .overrun j => Sys2Proof.Machine.execOverrun j s
  | .safelightDrainEnd j => Sys2Proof.Machine.execSafelightDrainEnd j s
  | .safelightStart j => Sys2Proof.Machine.execSafelightStart j s
  | .rollBack j stuck => Sys2Proof.Machine.execRollBack j stuck s
  | .rollbackRestart j => Sys2Proof.Machine.execRollbackRestart j s
  | .faultReport f => Sys2Proof.Machine.execFaultReport f s
  | .tickCompare h => Sys2Proof.Machine.execTickCompare h s
  | .prfmarkBegin c d => Sys2Proof.Machine.execPrfmarkBegin c d s
  | .prfmarkEnd c => Sys2Proof.Machine.execPrfmarkEnd c s
  | .prfrun c => Sys2Proof.Machine.execPrfrun c s
  | .proofRunStart c => Sys2Proof.Machine.execProofRunStart c s
  | .prfcmp c v => Sys2Proof.Machine.execPrfcmp c v s
  | .voteComplete f => Sys2Proof.Machine.execVoteComplete f s
  | .joback c v => Sys2Proof.Machine.execJoback c v s
  | .registerWrite p c addr v => Sys2Proof.Machine.execRegisterWrite p c addr v s
  | .clearingRead p tag addr => Sys2Proof.Machine.execClearingRead p tag addr s
  | .xptickloRead p f => Sys2Proof.Machine.execXptickloRead p f s
  | .ctldataRead p tag => Sys2Proof.Machine.execCtldataRead p tag s
  | .configRequest p tag off w => Sys2Proof.Machine.execConfigRequest p tag off w s
  | .windowWriteTlp p req off bytes poison => Sys2Proof.Machine.execWindowWriteTlp p req off bytes poison s
  | .windowReadTlp p req tag off len => Sys2Proof.Machine.execWindowReadTlp p req tag off len s
  | .inboundReadTimeout p tag => Sys2Proof.Machine.execInboundReadTimeout p tag s
  | .outboundWrite k => Sys2Proof.Machine.execOutboundWrite k s
  | .outboundRead k => Sys2Proof.Machine.execOutboundRead k s
  | .outboundCompletion p tag data => Sys2Proof.Machine.execOutboundCompletion p tag data s
  | .fenceComplete p => Sys2Proof.Machine.execFenceComplete p s
  | .msixHoldoffEnd p v => Sys2Proof.Machine.execMsixHoldoffEnd p v s
  | .inboxWrite p off bytes => Sys2Proof.Machine.execInboxWrite p off bytes s
  | .inboxctlAbort p mask => Sys2Proof.Machine.execInboxctlAbort p mask s
  | .packetTake p => Sys2Proof.Machine.execPacketTake p s
  | .commandStart n => Sys2Proof.Machine.execCommandStart n s
  | .keptReplyPost p n => Sys2Proof.Machine.execKeptReplyPost p n s
  | .hello n => Sys2Proof.Machine.execHello n s
  | .bye n => Sys2Proof.Machine.execBye n s
  | .claim n => Sys2Proof.Machine.execClaim n s
  | .yield n => Sys2Proof.Machine.execYield n s
  | .sessionStatus n => Sys2Proof.Machine.execSessionStatus n s
  | .nop n => Sys2Proof.Machine.execNop n s
  | .openWindow n => Sys2Proof.Machine.execOpenWindow n s
  | .closeWindow n => Sys2Proof.Machine.execCloseWindow n s
  | .allocRegion n => Sys2Proof.Machine.execAllocRegion n s
  | .freeRegion n => Sys2Proof.Machine.execFreeRegion n s
  | .setMemmode n => Sys2Proof.Machine.execSetMemmode n s
  | .loadJob n r => Sys2Proof.Machine.execLoadJob n r s
  | .unloadJob n => Sys2Proof.Machine.execUnloadJob n s
  | .start n stuck => Sys2Proof.Machine.execStart n stuck s
  | .pause n => Sys2Proof.Machine.execPause n s
  | .resume n => Sys2Proof.Machine.execResume n s
  | .preempt n => Sys2Proof.Machine.execPreempt n s
  | .kill n stuck => Sys2Proof.Machine.execKill n stuck s
  | .loadOverlay n r => Sys2Proof.Machine.execLoadOverlay n r s
  | .applyMode n => Sys2Proof.Machine.execApplyMode n s
  | .commit n => Sys2Proof.Machine.execCommit n s
  | .jobStatus n => Sys2Proof.Machine.execJobStatus n s
  | .jobInput n => Sys2Proof.Machine.execJobInput n s
  | .getTick n => Sys2Proof.Machine.execGetTick n s
  | .setFallback n => Sys2Proof.Machine.execSetFallback n s
  | .waitExp n => Sys2Proof.Machine.execWaitExp n s
  | .setProofing n => Sys2Proof.Machine.execSetProofing n s
  | .setSdcPolicy n => Sys2Proof.Machine.execSetSdcPolicy n s
  | .getNegative n => Sys2Proof.Machine.execGetNegative n s
  | .readErrors n => Sys2Proof.Machine.execReadErrors n s
  | .readOverrun n => Sys2Proof.Machine.execReadOverrun n s
  | .runTest n fails => Sys2Proof.Machine.execRunTest n fails s
  | .setPowerCap n => Sys2Proof.Machine.execSetPowerCap n s
  | .setClock n => Sys2Proof.Machine.execSetClock n s
  | .setFieldPower n stuck => Sys2Proof.Machine.execSetFieldPower n stuck s
  | .readSensors n => Sys2Proof.Machine.execReadSensors n s
  | .fwBegin n => Sys2Proof.Machine.execFwBegin n s
  | .fwBlock n => Sys2Proof.Machine.execFwBlock n s
  | .fwEnd n => Sys2Proof.Machine.execFwEnd n s
  | .fwActivate n => Sys2Proof.Machine.execFwActivate n s
  | .fwStatus n => Sys2Proof.Machine.execFwStatus n s
  | .getIdentity n => Sys2Proof.Machine.execGetIdentity n s
  | .spdm n => Sys2Proof.Machine.execSpdm n s
  | .setDebugHold n => Sys2Proof.Machine.execSetDebugHold n s
  | .snapshot n => Sys2Proof.Machine.execSnapshot n s
  | .readSnapshot n => Sys2Proof.Machine.execReadSnapshot n s
  | .snapshotExpiry j => Sys2Proof.Machine.execSnapshotExpiry j s
  | .heartbeat => Sys2Proof.Machine.execHeartbeat s
  | .takeover => Sys2Proof.Machine.execTakeover s
  | .ringBreak off => Sys2Proof.Machine.execRingBreak off s
  | .perstAssert p => Sys2Proof.Machine.execPerstAssert p s
  | .portReset p => Sys2Proof.Machine.execPortReset p s
  | .moduleWarmReset => Sys2Proof.Machine.execModuleWarmReset s
  | .functionLevelReset p => Sys2Proof.Machine.execFunctionLevelReset p s
  | .cprsntChange p mated straps => Sys2Proof.Machine.execCprsntChange p mated straps s
  | .linkLoss p => Sys2Proof.Machine.execLinkLoss p s
  | .linkReturn p => Sys2Proof.Machine.execLinkReturn p s
  | .graceExpiry p => Sys2Proof.Machine.execGraceExpiry p s
  | .d3hotEntry p => Sys2Proof.Machine.execD3hotEntry p s
  | .d0Return p => Sys2Proof.Machine.execD0Return p s
  | .ownerPrefExpiry => Sys2Proof.Machine.execOwnerPrefExpiry s
  | .refclkPresent p => Sys2Proof.Machine.execRefclkPresent p s
  | .refclkSettled p => Sys2Proof.Machine.execRefclkSettled p s
  | .refclkLost p => Sys2Proof.Machine.execRefclkLost p s
  | .clockLock d => Sys2Proof.Machine.execClockLock d s
  | .clockRecovery => Sys2Proof.Machine.execClockRecovery s
  | .standbyTrim eth => Sys2Proof.Machine.execStandbyTrim eth s
  | .clockSwitch f => Sys2Proof.Machine.execClockSwitch f s
  | .clockGate f => Sys2Proof.Machine.execClockGate f s
  | .clockUngate f => Sys2Proof.Machine.execClockUngate f s
  | .supplyWarning mv => Sys2Proof.Machine.execSupplyWarning mv s
  | .supplyWarningClear mv => Sys2Proof.Machine.execSupplyWarningClear mv s
  | .powerHoldPause j => Sys2Proof.Machine.execPowerHoldPause j s
  | .supplyReset mv => Sys2Proof.Machine.execSupplyReset mv s
  | .supplyReturn mv => Sys2Proof.Machine.execSupplyReturn mv s
  | .railFault f cause => Sys2Proof.Machine.execRailFault f cause s
  | .fieldLost f => Sys2Proof.Machine.execFieldLost f s
  | .tempSample f temps => Sys2Proof.Machine.execTempSample f temps s
  | .throttleStep f => Sys2Proof.Machine.execThrottleStep f s
  | .thermalRestart f stuck => Sys2Proof.Machine.execThermalRestart f stuck s
  | .coolantStateChange flow => Sys2Proof.Machine.execCoolantStateChange flow s
  | .powerShare fixed draws => Sys2Proof.Machine.execPowerShare fixed draws s
  | .powerLimitStep f => Sys2Proof.Machine.execPowerLimitStep f s
  | .errorCountSweep f => Sys2Proof.Machine.execErrorCountSweep f s
  | .testDue f h fails => Sys2Proof.Machine.execTestDue f h fails s
  | .testDeferExpiry f h => Sys2Proof.Machine.execTestDeferExpiry f h s
  | .stackWrite k => Sys2Proof.Machine.execStackWrite k s
  | .stackRead k => Sys2Proof.Machine.execStackRead k s
  | .stackLost n => Sys2Proof.Machine.execStackLost n s
  | .stackReturn n => Sys2Proof.Machine.execStackReturn n s
  | .stackRebuildComplete n => Sys2Proof.Machine.execStackRebuildComplete n s
  | .fieldReset f stuck fails => Sys2Proof.Machine.execFieldReset f stuck fails s
  | .coldPowerOn a b => Sys2Proof.Machine.execColdPowerOn a b s
  | .startSequenceEnd stuck fails dead => Sys2Proof.Machine.execStartSequenceEnd stuck fails dead s
  | .presentMate => Sys2Proof.Machine.execPresentMate s
  | .presentBreak => Sys2Proof.Machine.execPresentBreak s
  | .trialPass t => Sys2Proof.Machine.execTrialPass t s
  | .svcHello seq baud => Sys2Proof.Machine.execSvcHello seq baud s
  | .svcBegin seq target size => Sys2Proof.Machine.execSvcBegin seq target size s
  | .svcBlock seq off data => Sys2Proof.Machine.execSvcBlock seq off data s
  | .svcEnd seq => Sys2Proof.Machine.execSvcEnd seq s
  | .svcActivate seq arg => Sys2Proof.Machine.execSvcActivate seq arg s
  | .svcStatus seq => Sys2Proof.Machine.execSvcStatus seq s
  | .getHealth m => Sys2Proof.Machine.execGetHealth m s
  | .getRecords m from_ => Sys2Proof.Machine.execGetRecords m from_ s
  | .setTest m period defer_ => Sys2Proof.Machine.execSetTest m period defer_ s
  | .moduleReset m key => Sys2Proof.Machine.execModuleReset m key s
  | .setAcl m ix kind addr => Sys2Proof.Machine.execSetAcl m ix kind addr s
  | .setAddr m mode ip pre gw => Sys2Proof.Machine.execSetAddr m mode ip pre gw s
  | .getJobs m => Sys2Proof.Machine.execGetJobs m s
  | .setEndpointId m eid => Sys2Proof.Machine.execSetEndpointId m eid s
  | .setEventReceiver m recv => Sys2Proof.Machine.execSetEventReceiver m recv s
  | .sensorPoll vals => Sys2Proof.Machine.execSensorPoll vals s
  | .recordDelivery p acked => Sys2Proof.Machine.execRecordDelivery p acked s
  | .pldmUpdate m u => Sys2Proof.Machine.execPldmUpdate m u s
  | .activateFirmware m self_ => Sys2Proof.Machine.execActivateFirmware m self_ s
  | .cancelUpdate m => Sys2Proof.Machine.execCancelUpdate m s
  | .perstDeassert p straps => Sys2Proof.Machine.execPerstDeassert p straps s
  | .linkUp p rate width => Sys2Proof.Machine.execLinkUp p rate width s
  | .standbyPowerLoss => Sys2Proof.Machine.execStandbyPowerLoss s
  | .flitReplay l far => Sys2Proof.Machine.execFlitReplay l far s
  | .developHold j => Sys2Proof.Machine.execDevelopHold j s
  | .handover => Sys2Proof.Machine.execHandover s

end Sys2Proof.Machine
end

