-- ==== Sys2Proof/Machine/Tick.lean ====
section
/-! DEFINITION. One tick of 10 ns (spec/09 R221, R222, R237, Table 9.11, spec/14 R364, R366, R389). DESIGN CHOICE (log 1): the
table of commands has no row for a tick, so a step on an empty queue is one. -/

namespace Sys2Proof.Machine

/-- A copy of TICK after one tick: a correction of the comparison makes it hold, or advance by 2 (R222). -/
def tickOn (t : BitVec 64) (adj : Int) : BitVec 64 := t + BitVec.ofInt 64 (1 + adj)

/-- The copies of TICK advance while a time source is present. -/
def State.advance (s : State) : State :=
  let die (x : PortState) : PortState := { x with tick := tickOn x.tick x.tickAdj, tickAdj := 0 }
  { s with
    fields := s.fields.map (fun (x : FieldState) =>
      { x with tick := tickOn x.tick x.tickAdj, tickAdj := 0, fgate := if x.gated then sat1 x.fgate else x.fgate })
    stk := s.stk.map (fun (k : StackState) => { k with tick := tickOn k.tick k.tickAdj, tickAdj := 0 })
    ports := { a := die s.ports.a, b := die s.ports.b } }

/-- LATE is the only reason that holds a develop point (Table 9.3, R237). -/
def State.lateOnly (s : State) (j : Nat) : Bool :=
  let q := s.job j
  !s.treeReady j && !s.otherHold j && !q.holds.pause && !q.pauseReq && !q.rolled

/-- What one tick adds to a partition: the counts of a develop point held by a RUNNING or a PAUSED job, and XPSAFE in a safelight interval. -/
def State.tickJob (s : State) (j : Nat) : State :=
  let q := s.job j
  if !(q.state == .running || q.state == .paused) then s
  else if q.held then
    let still := s.waitingQueues j
    let late := s.lateOnly j
    let s := s.modJob j (fun x => { x with
      lateTicks := x.lateTicks + b2n late
      waitAll := x.waitAll.filter still.contains })
    q.allFields.foldl (fun s f => s.modField f (fun x => { x with xpHTicks := sat1 x.xpHTicks })) s
  else if q.inSafelight then q.allFields.foldl (fun s f => s.modField f (fun x => { x with xpSafe := sat1 x.xpSafe })) s
  else s

/-- One tick: the standby domain, the control domain, what counts TICK, and a rebuild in progress. -/
def State.tick (s : State) : State :=
  let s := { s with mod := { s.mod with
    sby := s.mod.sby + b2n s.mod.standby
    ctl := s.mod.ctl + b2n (s.ports.a.refPresent || s.ports.b.refPresent) } }
  let s := (s.serveAllHeld .a).serveAllHeld .b
  if s.mod.tsPresent then (List.range 16).foldl State.rebuildOn ((List.range 16).foldl State.tickJob s.advance) else s

end Sys2Proof.Machine
end

