-- ==== Sys2Proof/Laws/Mem.lean ====
section
/-! SUPPORT. Laws of sparse maps, register files and fixed tables: a read after a write, and the canonical form. -/

namespace Sys2Proof

/-! ### Reads after writes -/

@[simp] theorem KMap.get_put_same {α : Type} (d : α) (m : KMap α) (k : Nat) (v : α) : KMap.get d (m.put k v) k = v := by
  induction m with
  | nil => simp [KMap.put, KMap.get]
  | cons e t ih =>
    obtain ⟨k', v'⟩ := e
    simp only [KMap.put]
    split
    · simp [KMap.get]
    · split
      · simp [KMap.get]
      · rename_i h
        have : k' ≠ k := fun e => h e.symm
        simp [KMap.get, this, ih]

@[simp] theorem KMap.get_cons_same {α : Type} (d : α) (t : KMap α) (k : Nat) (v : α) : KMap.get d ((k, v) :: t) k = v := by
  simp [KMap.get]

theorem KMap.get_put_ne {α : Type} (d : α) (m : KMap α) (k j : Nat) (v : α) (h : j ≠ k) :
    KMap.get d (m.put k v) j = KMap.get d m j := by
  have h' : k ≠ j := fun e => h e.symm
  induction m with
  | nil => simp [KMap.put, KMap.get, h']
  | cons e t ih =>
    obtain ⟨k', v'⟩ := e
    simp only [KMap.put]
    split
    · simp [KMap.get, h']
    · split
      · subst k'; simp [KMap.get, h']
      · simp [KMap.get, ih]

theorem KMap.get_put {α : Type} (d : α) (m : KMap α) (k j : Nat) (v : α) :
    KMap.get d (m.put k v) j = if j = k then v else KMap.get d m j := by
  by_cases h : j = k
  · subst h; simp
  · simp [h, KMap.get_put_ne]

@[simp] theorem RegFile.get_set_same {n : Nat} {α : Type} (r : RegFile n α) (i : BitVec n) (v : α) : (r.set i v).get i = v := by
  simp [RegFile.get, RegFile.set]

theorem RegFile.get_set_ne {n : Nat} {α : Type} (r : RegFile n α) (i j : BitVec n) (v : α) (h : i ≠ j) :
    (r.set i v).get j = r.get j := by
  have : i.toNat ≠ j.toNat := fun e => h (BitVec.eq_of_toNat_eq e)
  simp [RegFile.get, RegFile.set, this]

theorem RegFile.get_set {n : Nat} {α : Type} (r : RegFile n α) (i j : BitVec n) (v : α) :
    (r.set i v).get j = if i = j then v else r.get j := by
  by_cases h : i = j
  · subst h; simp
  · simp [h, RegFile.get_set_ne]

theorem tget_tset {α : Type} {n : Nat} (d : α) (v : Vector α n) (i j : Nat) (x : α) :
    tget d (tset v i x) j = if i = j ∧ j < n then x else tget d v j := by
  simp only [tget, tset]
  by_cases hi : i < n <;> by_cases hj : j < n <;> simp [hi, hj, Vector.getElem_set]
  omega

theorem tget_tmod {α : Type} {n : Nat} (d : α) (v : Vector α n) (i j : Nat) (f : α → α) :
    tget d (tmod v i f) j = if i = j ∧ j < n then f (tget d v j) else tget d v j := by
  simp only [tget, tmod]
  by_cases hi : i < n <;> by_cases hj : j < n <;> simp [hi, hj, Vector.getElem_set]
  · by_cases h : i = j
    · subst h; simp
    · simp [h]
  · omega

/-! ### The canonical form -/

theorem KMap.rising_cons {α : Type} (k : Nat) (v : α) (t : KMap α) :
    KMap.rising ((k, v) :: t) = true ↔ (∀ e ∈ t, k < e.1) ∧ KMap.rising t = true := by
  induction t generalizing k v with
  | nil => simp [KMap.rising]
  | cons e t ih =>
    obtain ⟨k', v'⟩ := e
    simp only [KMap.rising, Bool.and_eq_true, decide_eq_true_eq, List.mem_cons, forall_eq_or_imp]
    constructor
    · rintro ⟨h1, h2⟩
      exact ⟨⟨h1, fun e he => Nat.lt_trans h1 (((ih k' v').1 h2).1 e he)⟩, h2⟩
    · rintro ⟨⟨h1, _⟩, h2⟩
      exact ⟨h1, h2⟩

theorem KMap.mem_put {α : Type} (m : KMap α) (k : Nat) (v : α) (e : Nat × α) (h : e ∈ m.put k v) : e = (k, v) ∨ e ∈ m := by
  induction m with
  | nil => simpa [KMap.put] using h
  | cons f t ih =>
    obtain ⟨k', v'⟩ := f
    simp only [KMap.put] at h
    split at h
    · simpa using h
    · split at h
      · simp only [List.mem_cons] at h ⊢; tauto
      · simp only [List.mem_cons] at h ⊢
        rcases h with h | h
        · tauto
        · rcases ih h with h | h <;> tauto

theorem KMap.rising_put {α : Type} (m : KMap α) (k : Nat) (v : α) (h : KMap.rising m = true) : KMap.rising (m.put k v) = true := by
  induction m with
  | nil => simp [KMap.put, KMap.rising]
  | cons e t ih =>
    obtain ⟨k', v'⟩ := e
    simp only [KMap.put]
    rw [KMap.rising_cons] at h
    split
    · rename_i hk
      rw [KMap.rising_cons, KMap.rising_cons]
      refine ⟨?_, h⟩
      intro e he
      rcases List.mem_cons.1 he with rfl | he
      · exact hk
      · exact Nat.lt_trans hk (h.1 e he)
    · split
      · rename_i hk; subst hk; exact (KMap.rising_cons _ _ _).2 h
      · rw [KMap.rising_cons]
        refine ⟨?_, ih h.2⟩
        intro e he
        rcases KMap.mem_put t k v e he with rfl | he
        · simp only; omega
        · exact h.1 e he

theorem KMap.mem_del {α : Type} (m : KMap α) (k : Nat) (e : Nat × α) (h : e ∈ m.del k) : e ∈ m := by
  induction m with
  | nil => simp [KMap.del] at h
  | cons f t ih =>
    obtain ⟨k', v'⟩ := f
    simp only [KMap.del] at h
    split at h
    · exact List.mem_cons_of_mem _ h
    · rcases List.mem_cons.1 h with rfl | h
      · exact List.mem_cons_self
      · exact List.mem_cons_of_mem _ (ih h)

theorem KMap.rising_del {α : Type} (m : KMap α) (k : Nat) (h : KMap.rising m = true) : KMap.rising (m.del k) = true := by
  induction m with
  | nil => simp [KMap.del, KMap.rising]
  | cons e t ih =>
    obtain ⟨k', v'⟩ := e
    rw [KMap.rising_cons] at h
    simp only [KMap.del]
    split
    · exact h.2
    · rw [KMap.rising_cons]
      exact ⟨fun e he => h.1 e (KMap.mem_del t k e he), ih h.2⟩

theorem KMap.rising_filter {α : Type} (m : KMap α) (p : Nat × α → Bool) (h : KMap.rising m = true) :
    KMap.rising (m.filter p) = true := by
  induction m with
  | nil => simpa using h
  | cons e t ih =>
    obtain ⟨k', v'⟩ := e
    rw [KMap.rising_cons] at h
    simp only [List.filter_cons]
    split
    · rw [KMap.rising_cons]
      exact ⟨fun e he => h.1 e (List.mem_filter.1 he |>.1), ih h.2⟩
    · exact ih h.2

theorem KMap.rising_delIf {α : Type} (m : KMap α) (p : Nat → Bool) (h : KMap.rising m = true) : KMap.rising (m.delIf p) = true :=
  KMap.rising_filter m _ h

/-- A write keeps the canonical form: writing the default removes the entry. -/
theorem KMap.wf_set {α : Type} [DecidableEq α] (d : α) (m : KMap α) (k : Nat) (v : α) (h : KMap.wf d m = true) :
    KMap.wf d (m.set d k v) = true := by
  simp only [KMap.wf, Bool.and_eq_true, List.all_eq_true, decide_eq_true_eq] at h ⊢
  unfold KMap.set
  split
  · exact ⟨KMap.rising_del m k h.1, fun e he => h.2 e (KMap.mem_del m k e he)⟩
  · rename_i hv
    refine ⟨KMap.rising_put m k v h.1, fun e he => ?_⟩
    rcases KMap.mem_put m k v e he with rfl | he
    · exact hv
    · exact h.2 e he

@[simp] theorem KMap.wf_nil {α : Type} [DecidableEq α] (d : α) : KMap.wf d ([] : KMap α) = true := by
  simp [KMap.wf, KMap.rising]

theorem KMap.get_of_lt {α : Type} (d : α) (m : KMap α) (k : Nat) (h : ∀ e ∈ m, k < e.1) : KMap.get d m k = d := by
  induction m with
  | nil => rfl
  | cons e t ih =>
    obtain ⟨k', v'⟩ := e
    have h1 : k < k' := h (k', v') List.mem_cons_self
    have : k' ≠ k := by omega
    simp only [KMap.get, this, if_false]
    exact ih (fun e he => h e (List.mem_cons_of_mem _ he))

theorem KMap.get_del {α : Type} (d : α) (m : KMap α) (k j : Nat) (h : KMap.rising m = true) :
    KMap.get d (m.del k) j = if j = k then d else KMap.get d m j := by
  induction m with
  | nil => simp [KMap.del, KMap.get]
  | cons e t ih =>
    obtain ⟨k', v'⟩ := e
    rw [KMap.rising_cons] at h
    simp only [KMap.del]
    split
    · rename_i hk
      subst hk
      by_cases hj : j = k'
      · subst hj; simpa using KMap.get_of_lt d t j h.1
      · have : k' ≠ j := fun e => hj e.symm
        simp [KMap.get, hj, this]
    · rename_i hk
      simp only [KMap.get]
      split
      · rename_i hj; subst hj; simp [hk]
      · exact ih h.2

/-- A canonical memory reads what was written, and every other place as before. -/
theorem KMap.get_set {α : Type} [DecidableEq α] (d : α) (m : KMap α) (k j : Nat) (v : α) (h : KMap.rising m = true) :
    KMap.get d (m.set d k v) j = if j = k then v else KMap.get d m j := by
  unfold KMap.set
  split
  · rename_i hv; subst hv; exact KMap.get_del v m k j h
  · exact KMap.get_put d m k j v

theorem KMap.get_mem {α : Type} (d : α) (m : KMap α) (k : Nat) : KMap.get d m k = d ∨ (k, KMap.get d m k) ∈ m := by
  induction m with
  | nil => exact .inl rfl
  | cons e t ih =>
    obtain ⟨k', v'⟩ := e
    simp only [KMap.get]
    split
    · rename_i hk; subst hk; exact .inr List.mem_cons_self
    · rcases ih with h | h
      · exact .inl h
      · exact .inr (List.mem_cons_of_mem _ h)

/-- Two canonical memories that read alike everywhere are equal data. -/
theorem KMap.ext_wf {α : Type} [DecidableEq α] (d : α) (m n : KMap α) (hm : KMap.wf d m = true) (hn : KMap.wf d n = true)
    (h : ∀ k, KMap.get d m k = KMap.get d n k) : m = n := by
  simp only [KMap.wf, Bool.and_eq_true, List.all_eq_true, decide_eq_true_eq] at hm hn
  induction m generalizing n with
  | nil =>
    cases n with
    | nil => rfl
    | cons e t =>
      obtain ⟨k, v⟩ := e
      exact absurd (h k).symm (by simpa [KMap.get] using hn.2 (k, v) List.mem_cons_self)
  | cons e t ih =>
    obtain ⟨k, v⟩ := e
    have hr := (KMap.rising_cons k v t).1 hm.1
    cases n with
    | nil => exact absurd (h k) (by simpa [KMap.get] using hm.2 (k, v) List.mem_cons_self)
    | cons f u =>
      obtain ⟨k', v'⟩ := f
      have hs := (KMap.rising_cons k' v' u).1 hn.1
      have hk : k = k' := by
        rcases Nat.lt_trichotomy k k' with hlt | he | hlt
        · refine absurd (h k) ?_
          have h1 : KMap.get d ((k', v') :: u) k = d := KMap.get_of_lt d _ k (fun e he => by
            rcases List.mem_cons.1 he with rfl | he
            · exact hlt
            · exact Nat.lt_trans hlt (hs.1 e he))
          simpa [h1, KMap.get_cons_same] using hm.2 (k, v) List.mem_cons_self
        · exact he
        · refine absurd (h k').symm ?_
          have h1 : KMap.get d ((k, v) :: t) k' = d := KMap.get_of_lt d _ k' (fun e he => by
            rcases List.mem_cons.1 he with rfl | he
            · exact hlt
            · exact Nat.lt_trans hlt (hr.1 e he))
          simpa [h1, KMap.get_cons_same] using hn.2 (k', v') List.mem_cons_self
      subst hk
      have hv : v = v' := by simpa [KMap.get] using h k
      subst hv
      refine congrArg _ (ih u (fun j => ?_) ⟨hr.2, fun e he => hm.2 e (List.mem_cons_of_mem _ he)⟩
        ⟨hs.2, fun e he => hn.2 e (List.mem_cons_of_mem _ he)⟩)
      by_cases hj : k = j
      · subst hj
        rw [KMap.get_of_lt d t k hr.1, KMap.get_of_lt d u k hs.1]
      · simpa [KMap.get, hj] using h j

end Sys2Proof
end

