-- ==== Sys2Proof/Laws/State.lean ====
section
/-! SUPPORT. Laws of State: what each update of one part leaves of the others, and reads after updates. -/

namespace Sys2Proof.Machine

variable (s : State)

/-! ### One update, every other field -/

@[simp] theorem State.setCore_routers (c : CoreId) (v : CoreState) : (s.setCore c v).routers = s.routers := rfl
@[simp] theorem State.setCore_hubs (c : CoreId) (v : CoreState) : (s.setCore c v).hubs = s.hubs := rfl
@[simp] theorem State.setCore_net (c : CoreId) (v : CoreState) : (s.setCore c v).net = s.net := rfl
@[simp] theorem State.setCore_fields (c : CoreId) (v : CoreState) : (s.setCore c v).fields = s.fields := rfl
@[simp] theorem State.setCore_stk (c : CoreId) (v : CoreState) : (s.setCore c v).stk = s.stk := rfl
@[simp] theorem State.setCore_jobs (c : CoreId) (v : CoreState) : (s.setCore c v).jobs = s.jobs := rfl
@[simp] theorem State.setCore_dieDelta (c : CoreId) (v : CoreState) : (s.setCore c v).dieDelta = s.dieDelta := rfl
@[simp] theorem State.setCore_fused (c : CoreId) (v : CoreState) : (s.setCore c v).fused = s.fused := rfl
@[simp] theorem State.setCore_service (c : CoreId) (v : CoreState) : (s.setCore c v).service = s.service := rfl
@[simp] theorem State.setCore_fusedHub (c : CoreId) (v : CoreState) : (s.setCore c v).fusedHub = s.fusedHub := rfl
@[simp] theorem State.setCore_serviceHub (c : CoreId) (v : CoreState) : (s.setCore c v).serviceHub = s.serviceHub := rfl
@[simp] theorem State.setCore_errs (c : CoreId) (v : CoreState) : (s.setCore c v).errs = s.errs := rfl
@[simp] theorem State.setCore_errNext (c : CoreId) (v : CoreState) : (s.setCore c v).errNext = s.errNext := rfl
@[simp] theorem State.setCore_flashErrs (c : CoreId) (v : CoreState) : (s.setCore c v).flashErrs = s.flashErrs := rfl
@[simp] theorem State.setCore_flashWait (c : CoreId) (v : CoreState) : (s.setCore c v).flashWait = s.flashWait := rfl
@[simp] theorem State.setCore_flashCopy (c : CoreId) (v : CoreState) : (s.setCore c v).flashCopy = s.flashCopy := rfl
@[simp] theorem State.setCore_ports (c : CoreId) (v : CoreState) : (s.setCore c v).ports = s.ports := rfl
@[simp] theorem State.setCore_cp (c : CoreId) (v : CoreState) : (s.setCore c v).cp = s.cp := rfl
@[simp] theorem State.setCore_fw (c : CoreId) (v : CoreState) : (s.setCore c v).fw = s.fw := rfl
@[simp] theorem State.setCore_mc (c : CoreId) (v : CoreState) : (s.setCore c v).mc = s.mc := rfl
@[simp] theorem State.setCore_mgmt (c : CoreId) (v : CoreState) : (s.setCore c v).mgmt = s.mgmt := rfl
@[simp] theorem State.setCore_mod (c : CoreId) (v : CoreState) : (s.setCore c v).mod = s.mod := rfl
@[simp] theorem State.setCore_snaps (c : CoreId) (v : CoreState) : (s.setCore c v).snaps = s.snaps := rfl
@[simp] theorem State.setCore_freeCtr (c : CoreId) (v : CoreState) : (s.setCore c v).freeCtr = s.freeCtr := rfl
@[simp] theorem State.setCore_pending (c : CoreId) (v : CoreState) : (s.setCore c v).pending = s.pending := rfl
@[simp] theorem State.modCore_routers (c : CoreId) (f : CoreState → CoreState) : (s.modCore c f).routers = s.routers := rfl
@[simp] theorem State.modCore_hubs (c : CoreId) (f : CoreState → CoreState) : (s.modCore c f).hubs = s.hubs := rfl
@[simp] theorem State.modCore_net (c : CoreId) (f : CoreState → CoreState) : (s.modCore c f).net = s.net := rfl
@[simp] theorem State.modCore_fields (c : CoreId) (f : CoreState → CoreState) : (s.modCore c f).fields = s.fields := rfl
@[simp] theorem State.modCore_stk (c : CoreId) (f : CoreState → CoreState) : (s.modCore c f).stk = s.stk := rfl
@[simp] theorem State.modCore_jobs (c : CoreId) (f : CoreState → CoreState) : (s.modCore c f).jobs = s.jobs := rfl
@[simp] theorem State.modCore_dieDelta (c : CoreId) (f : CoreState → CoreState) : (s.modCore c f).dieDelta = s.dieDelta := rfl
@[simp] theorem State.modCore_fused (c : CoreId) (f : CoreState → CoreState) : (s.modCore c f).fused = s.fused := rfl
@[simp] theorem State.modCore_service (c : CoreId) (f : CoreState → CoreState) : (s.modCore c f).service = s.service := rfl
@[simp] theorem State.modCore_fusedHub (c : CoreId) (f : CoreState → CoreState) : (s.modCore c f).fusedHub = s.fusedHub := rfl
@[simp] theorem State.modCore_serviceHub (c : CoreId) (f : CoreState → CoreState) : (s.modCore c f).serviceHub = s.serviceHub := rfl
@[simp] theorem State.modCore_errs (c : CoreId) (f : CoreState → CoreState) : (s.modCore c f).errs = s.errs := rfl
@[simp] theorem State.modCore_errNext (c : CoreId) (f : CoreState → CoreState) : (s.modCore c f).errNext = s.errNext := rfl
@[simp] theorem State.modCore_flashErrs (c : CoreId) (f : CoreState → CoreState) : (s.modCore c f).flashErrs = s.flashErrs := rfl
@[simp] theorem State.modCore_flashWait (c : CoreId) (f : CoreState → CoreState) : (s.modCore c f).flashWait = s.flashWait := rfl
@[simp] theorem State.modCore_flashCopy (c : CoreId) (f : CoreState → CoreState) : (s.modCore c f).flashCopy = s.flashCopy := rfl
@[simp] theorem State.modCore_ports (c : CoreId) (f : CoreState → CoreState) : (s.modCore c f).ports = s.ports := rfl
@[simp] theorem State.modCore_cp (c : CoreId) (f : CoreState → CoreState) : (s.modCore c f).cp = s.cp := rfl
@[simp] theorem State.modCore_fw (c : CoreId) (f : CoreState → CoreState) : (s.modCore c f).fw = s.fw := rfl
@[simp] theorem State.modCore_mc (c : CoreId) (f : CoreState → CoreState) : (s.modCore c f).mc = s.mc := rfl
@[simp] theorem State.modCore_mgmt (c : CoreId) (f : CoreState → CoreState) : (s.modCore c f).mgmt = s.mgmt := rfl
@[simp] theorem State.modCore_mod (c : CoreId) (f : CoreState → CoreState) : (s.modCore c f).mod = s.mod := rfl
@[simp] theorem State.modCore_snaps (c : CoreId) (f : CoreState → CoreState) : (s.modCore c f).snaps = s.snaps := rfl
@[simp] theorem State.modCore_freeCtr (c : CoreId) (f : CoreState → CoreState) : (s.modCore c f).freeCtr = s.freeCtr := rfl
@[simp] theorem State.modCore_pending (c : CoreId) (f : CoreState → CoreState) : (s.modCore c f).pending = s.pending := rfl
@[simp] theorem State.setRouter_cores (c : CoreId) (v : Router) : (s.setRouter c v).cores = s.cores := rfl
@[simp] theorem State.setRouter_hubs (c : CoreId) (v : Router) : (s.setRouter c v).hubs = s.hubs := rfl
@[simp] theorem State.setRouter_net (c : CoreId) (v : Router) : (s.setRouter c v).net = s.net := rfl
@[simp] theorem State.setRouter_fields (c : CoreId) (v : Router) : (s.setRouter c v).fields = s.fields := rfl
@[simp] theorem State.setRouter_stk (c : CoreId) (v : Router) : (s.setRouter c v).stk = s.stk := rfl
@[simp] theorem State.setRouter_jobs (c : CoreId) (v : Router) : (s.setRouter c v).jobs = s.jobs := rfl
@[simp] theorem State.setRouter_dieDelta (c : CoreId) (v : Router) : (s.setRouter c v).dieDelta = s.dieDelta := rfl
@[simp] theorem State.setRouter_fused (c : CoreId) (v : Router) : (s.setRouter c v).fused = s.fused := rfl
@[simp] theorem State.setRouter_service (c : CoreId) (v : Router) : (s.setRouter c v).service = s.service := rfl
@[simp] theorem State.setRouter_fusedHub (c : CoreId) (v : Router) : (s.setRouter c v).fusedHub = s.fusedHub := rfl
@[simp] theorem State.setRouter_serviceHub (c : CoreId) (v : Router) : (s.setRouter c v).serviceHub = s.serviceHub := rfl
@[simp] theorem State.setRouter_errs (c : CoreId) (v : Router) : (s.setRouter c v).errs = s.errs := rfl
@[simp] theorem State.setRouter_errNext (c : CoreId) (v : Router) : (s.setRouter c v).errNext = s.errNext := rfl
@[simp] theorem State.setRouter_flashErrs (c : CoreId) (v : Router) : (s.setRouter c v).flashErrs = s.flashErrs := rfl
@[simp] theorem State.setRouter_flashWait (c : CoreId) (v : Router) : (s.setRouter c v).flashWait = s.flashWait := rfl
@[simp] theorem State.setRouter_flashCopy (c : CoreId) (v : Router) : (s.setRouter c v).flashCopy = s.flashCopy := rfl
@[simp] theorem State.setRouter_ports (c : CoreId) (v : Router) : (s.setRouter c v).ports = s.ports := rfl
@[simp] theorem State.setRouter_cp (c : CoreId) (v : Router) : (s.setRouter c v).cp = s.cp := rfl
@[simp] theorem State.setRouter_fw (c : CoreId) (v : Router) : (s.setRouter c v).fw = s.fw := rfl
@[simp] theorem State.setRouter_mc (c : CoreId) (v : Router) : (s.setRouter c v).mc = s.mc := rfl
@[simp] theorem State.setRouter_mgmt (c : CoreId) (v : Router) : (s.setRouter c v).mgmt = s.mgmt := rfl
@[simp] theorem State.setRouter_mod (c : CoreId) (v : Router) : (s.setRouter c v).mod = s.mod := rfl
@[simp] theorem State.setRouter_snaps (c : CoreId) (v : Router) : (s.setRouter c v).snaps = s.snaps := rfl
@[simp] theorem State.setRouter_freeCtr (c : CoreId) (v : Router) : (s.setRouter c v).freeCtr = s.freeCtr := rfl
@[simp] theorem State.setRouter_pending (c : CoreId) (v : Router) : (s.setRouter c v).pending = s.pending := rfl
@[simp] theorem State.setHub_cores (hx hy : Nat) (v : Hub) : (s.setHub hx hy v).cores = s.cores := rfl
@[simp] theorem State.setHub_routers (hx hy : Nat) (v : Hub) : (s.setHub hx hy v).routers = s.routers := rfl
@[simp] theorem State.setHub_net (hx hy : Nat) (v : Hub) : (s.setHub hx hy v).net = s.net := rfl
@[simp] theorem State.setHub_fields (hx hy : Nat) (v : Hub) : (s.setHub hx hy v).fields = s.fields := rfl
@[simp] theorem State.setHub_stk (hx hy : Nat) (v : Hub) : (s.setHub hx hy v).stk = s.stk := rfl
@[simp] theorem State.setHub_jobs (hx hy : Nat) (v : Hub) : (s.setHub hx hy v).jobs = s.jobs := rfl
@[simp] theorem State.setHub_dieDelta (hx hy : Nat) (v : Hub) : (s.setHub hx hy v).dieDelta = s.dieDelta := rfl
@[simp] theorem State.setHub_fused (hx hy : Nat) (v : Hub) : (s.setHub hx hy v).fused = s.fused := rfl
@[simp] theorem State.setHub_service (hx hy : Nat) (v : Hub) : (s.setHub hx hy v).service = s.service := rfl
@[simp] theorem State.setHub_fusedHub (hx hy : Nat) (v : Hub) : (s.setHub hx hy v).fusedHub = s.fusedHub := rfl
@[simp] theorem State.setHub_serviceHub (hx hy : Nat) (v : Hub) : (s.setHub hx hy v).serviceHub = s.serviceHub := rfl
@[simp] theorem State.setHub_errs (hx hy : Nat) (v : Hub) : (s.setHub hx hy v).errs = s.errs := rfl
@[simp] theorem State.setHub_errNext (hx hy : Nat) (v : Hub) : (s.setHub hx hy v).errNext = s.errNext := rfl
@[simp] theorem State.setHub_flashErrs (hx hy : Nat) (v : Hub) : (s.setHub hx hy v).flashErrs = s.flashErrs := rfl
@[simp] theorem State.setHub_flashWait (hx hy : Nat) (v : Hub) : (s.setHub hx hy v).flashWait = s.flashWait := rfl
@[simp] theorem State.setHub_flashCopy (hx hy : Nat) (v : Hub) : (s.setHub hx hy v).flashCopy = s.flashCopy := rfl
@[simp] theorem State.setHub_ports (hx hy : Nat) (v : Hub) : (s.setHub hx hy v).ports = s.ports := rfl
@[simp] theorem State.setHub_cp (hx hy : Nat) (v : Hub) : (s.setHub hx hy v).cp = s.cp := rfl
@[simp] theorem State.setHub_fw (hx hy : Nat) (v : Hub) : (s.setHub hx hy v).fw = s.fw := rfl
@[simp] theorem State.setHub_mc (hx hy : Nat) (v : Hub) : (s.setHub hx hy v).mc = s.mc := rfl
@[simp] theorem State.setHub_mgmt (hx hy : Nat) (v : Hub) : (s.setHub hx hy v).mgmt = s.mgmt := rfl
@[simp] theorem State.setHub_mod (hx hy : Nat) (v : Hub) : (s.setHub hx hy v).mod = s.mod := rfl
@[simp] theorem State.setHub_snaps (hx hy : Nat) (v : Hub) : (s.setHub hx hy v).snaps = s.snaps := rfl
@[simp] theorem State.setHub_freeCtr (hx hy : Nat) (v : Hub) : (s.setHub hx hy v).freeCtr = s.freeCtr := rfl
@[simp] theorem State.setHub_pending (hx hy : Nat) (v : Hub) : (s.setHub hx hy v).pending = s.pending := rfl
@[simp] theorem State.modField_cores (n : Nat) (g : FieldState → FieldState) : (s.modField n g).cores = s.cores := rfl
@[simp] theorem State.modField_routers (n : Nat) (g : FieldState → FieldState) : (s.modField n g).routers = s.routers := rfl
@[simp] theorem State.modField_hubs (n : Nat) (g : FieldState → FieldState) : (s.modField n g).hubs = s.hubs := rfl
@[simp] theorem State.modField_net (n : Nat) (g : FieldState → FieldState) : (s.modField n g).net = s.net := rfl
@[simp] theorem State.modField_stk (n : Nat) (g : FieldState → FieldState) : (s.modField n g).stk = s.stk := rfl
@[simp] theorem State.modField_jobs (n : Nat) (g : FieldState → FieldState) : (s.modField n g).jobs = s.jobs := rfl
@[simp] theorem State.modField_dieDelta (n : Nat) (g : FieldState → FieldState) : (s.modField n g).dieDelta = s.dieDelta := rfl
@[simp] theorem State.modField_fused (n : Nat) (g : FieldState → FieldState) : (s.modField n g).fused = s.fused := rfl
@[simp] theorem State.modField_service (n : Nat) (g : FieldState → FieldState) : (s.modField n g).service = s.service := rfl
@[simp] theorem State.modField_fusedHub (n : Nat) (g : FieldState → FieldState) : (s.modField n g).fusedHub = s.fusedHub := rfl
@[simp] theorem State.modField_serviceHub (n : Nat) (g : FieldState → FieldState) : (s.modField n g).serviceHub = s.serviceHub := rfl
@[simp] theorem State.modField_errs (n : Nat) (g : FieldState → FieldState) : (s.modField n g).errs = s.errs := rfl
@[simp] theorem State.modField_errNext (n : Nat) (g : FieldState → FieldState) : (s.modField n g).errNext = s.errNext := rfl
@[simp] theorem State.modField_flashErrs (n : Nat) (g : FieldState → FieldState) : (s.modField n g).flashErrs = s.flashErrs := rfl
@[simp] theorem State.modField_flashWait (n : Nat) (g : FieldState → FieldState) : (s.modField n g).flashWait = s.flashWait := rfl
@[simp] theorem State.modField_flashCopy (n : Nat) (g : FieldState → FieldState) : (s.modField n g).flashCopy = s.flashCopy := rfl
@[simp] theorem State.modField_ports (n : Nat) (g : FieldState → FieldState) : (s.modField n g).ports = s.ports := rfl
@[simp] theorem State.modField_cp (n : Nat) (g : FieldState → FieldState) : (s.modField n g).cp = s.cp := rfl
@[simp] theorem State.modField_fw (n : Nat) (g : FieldState → FieldState) : (s.modField n g).fw = s.fw := rfl
@[simp] theorem State.modField_mc (n : Nat) (g : FieldState → FieldState) : (s.modField n g).mc = s.mc := rfl
@[simp] theorem State.modField_mgmt (n : Nat) (g : FieldState → FieldState) : (s.modField n g).mgmt = s.mgmt := rfl
@[simp] theorem State.modField_mod (n : Nat) (g : FieldState → FieldState) : (s.modField n g).mod = s.mod := rfl
@[simp] theorem State.modField_snaps (n : Nat) (g : FieldState → FieldState) : (s.modField n g).snaps = s.snaps := rfl
@[simp] theorem State.modField_freeCtr (n : Nat) (g : FieldState → FieldState) : (s.modField n g).freeCtr = s.freeCtr := rfl
@[simp] theorem State.modField_pending (n : Nat) (g : FieldState → FieldState) : (s.modField n g).pending = s.pending := rfl
@[simp] theorem State.modJob_cores (n : Nat) (g : Job → Job) : (s.modJob n g).cores = s.cores := rfl
@[simp] theorem State.modJob_routers (n : Nat) (g : Job → Job) : (s.modJob n g).routers = s.routers := rfl
@[simp] theorem State.modJob_hubs (n : Nat) (g : Job → Job) : (s.modJob n g).hubs = s.hubs := rfl
@[simp] theorem State.modJob_net (n : Nat) (g : Job → Job) : (s.modJob n g).net = s.net := rfl
@[simp] theorem State.modJob_fields (n : Nat) (g : Job → Job) : (s.modJob n g).fields = s.fields := rfl
@[simp] theorem State.modJob_stk (n : Nat) (g : Job → Job) : (s.modJob n g).stk = s.stk := rfl
@[simp] theorem State.modJob_dieDelta (n : Nat) (g : Job → Job) : (s.modJob n g).dieDelta = s.dieDelta := rfl
@[simp] theorem State.modJob_fused (n : Nat) (g : Job → Job) : (s.modJob n g).fused = s.fused := rfl
@[simp] theorem State.modJob_service (n : Nat) (g : Job → Job) : (s.modJob n g).service = s.service := rfl
@[simp] theorem State.modJob_fusedHub (n : Nat) (g : Job → Job) : (s.modJob n g).fusedHub = s.fusedHub := rfl
@[simp] theorem State.modJob_serviceHub (n : Nat) (g : Job → Job) : (s.modJob n g).serviceHub = s.serviceHub := rfl
@[simp] theorem State.modJob_errs (n : Nat) (g : Job → Job) : (s.modJob n g).errs = s.errs := rfl
@[simp] theorem State.modJob_errNext (n : Nat) (g : Job → Job) : (s.modJob n g).errNext = s.errNext := rfl
@[simp] theorem State.modJob_flashErrs (n : Nat) (g : Job → Job) : (s.modJob n g).flashErrs = s.flashErrs := rfl
@[simp] theorem State.modJob_flashWait (n : Nat) (g : Job → Job) : (s.modJob n g).flashWait = s.flashWait := rfl
@[simp] theorem State.modJob_flashCopy (n : Nat) (g : Job → Job) : (s.modJob n g).flashCopy = s.flashCopy := rfl
@[simp] theorem State.modJob_ports (n : Nat) (g : Job → Job) : (s.modJob n g).ports = s.ports := rfl
@[simp] theorem State.modJob_cp (n : Nat) (g : Job → Job) : (s.modJob n g).cp = s.cp := rfl
@[simp] theorem State.modJob_fw (n : Nat) (g : Job → Job) : (s.modJob n g).fw = s.fw := rfl
@[simp] theorem State.modJob_mc (n : Nat) (g : Job → Job) : (s.modJob n g).mc = s.mc := rfl
@[simp] theorem State.modJob_mgmt (n : Nat) (g : Job → Job) : (s.modJob n g).mgmt = s.mgmt := rfl
@[simp] theorem State.modJob_mod (n : Nat) (g : Job → Job) : (s.modJob n g).mod = s.mod := rfl
@[simp] theorem State.modJob_snaps (n : Nat) (g : Job → Job) : (s.modJob n g).snaps = s.snaps := rfl
@[simp] theorem State.modJob_freeCtr (n : Nat) (g : Job → Job) : (s.modJob n g).freeCtr = s.freeCtr := rfl
@[simp] theorem State.modJob_pending (n : Nat) (g : Job → Job) : (s.modJob n g).pending = s.pending := rfl
@[simp] theorem State.modStack_cores (n : Nat) (g : StackState → StackState) : (s.modStack n g).cores = s.cores := rfl
@[simp] theorem State.modStack_routers (n : Nat) (g : StackState → StackState) : (s.modStack n g).routers = s.routers := rfl
@[simp] theorem State.modStack_hubs (n : Nat) (g : StackState → StackState) : (s.modStack n g).hubs = s.hubs := rfl
@[simp] theorem State.modStack_net (n : Nat) (g : StackState → StackState) : (s.modStack n g).net = s.net := rfl
@[simp] theorem State.modStack_fields (n : Nat) (g : StackState → StackState) : (s.modStack n g).fields = s.fields := rfl
@[simp] theorem State.modStack_jobs (n : Nat) (g : StackState → StackState) : (s.modStack n g).jobs = s.jobs := rfl
@[simp] theorem State.modStack_dieDelta (n : Nat) (g : StackState → StackState) : (s.modStack n g).dieDelta = s.dieDelta := rfl
@[simp] theorem State.modStack_fused (n : Nat) (g : StackState → StackState) : (s.modStack n g).fused = s.fused := rfl
@[simp] theorem State.modStack_service (n : Nat) (g : StackState → StackState) : (s.modStack n g).service = s.service := rfl
@[simp] theorem State.modStack_fusedHub (n : Nat) (g : StackState → StackState) : (s.modStack n g).fusedHub = s.fusedHub := rfl
@[simp] theorem State.modStack_serviceHub (n : Nat) (g : StackState → StackState) : (s.modStack n g).serviceHub = s.serviceHub := rfl
@[simp] theorem State.modStack_errs (n : Nat) (g : StackState → StackState) : (s.modStack n g).errs = s.errs := rfl
@[simp] theorem State.modStack_errNext (n : Nat) (g : StackState → StackState) : (s.modStack n g).errNext = s.errNext := rfl
@[simp] theorem State.modStack_flashErrs (n : Nat) (g : StackState → StackState) : (s.modStack n g).flashErrs = s.flashErrs := rfl
@[simp] theorem State.modStack_flashWait (n : Nat) (g : StackState → StackState) : (s.modStack n g).flashWait = s.flashWait := rfl
@[simp] theorem State.modStack_flashCopy (n : Nat) (g : StackState → StackState) : (s.modStack n g).flashCopy = s.flashCopy := rfl
@[simp] theorem State.modStack_ports (n : Nat) (g : StackState → StackState) : (s.modStack n g).ports = s.ports := rfl
@[simp] theorem State.modStack_cp (n : Nat) (g : StackState → StackState) : (s.modStack n g).cp = s.cp := rfl
@[simp] theorem State.modStack_fw (n : Nat) (g : StackState → StackState) : (s.modStack n g).fw = s.fw := rfl
@[simp] theorem State.modStack_mc (n : Nat) (g : StackState → StackState) : (s.modStack n g).mc = s.mc := rfl
@[simp] theorem State.modStack_mgmt (n : Nat) (g : StackState → StackState) : (s.modStack n g).mgmt = s.mgmt := rfl
@[simp] theorem State.modStack_mod (n : Nat) (g : StackState → StackState) : (s.modStack n g).mod = s.mod := rfl
@[simp] theorem State.modStack_snaps (n : Nat) (g : StackState → StackState) : (s.modStack n g).snaps = s.snaps := rfl
@[simp] theorem State.modStack_freeCtr (n : Nat) (g : StackState → StackState) : (s.modStack n g).freeCtr = s.freeCtr := rfl
@[simp] theorem State.modStack_pending (n : Nat) (g : StackState → StackState) : (s.modStack n g).pending = s.pending := rfl
@[simp] theorem State.modPort_cores (p : Port) (f : PortState → PortState) : (s.modPort p f).cores = s.cores := rfl
@[simp] theorem State.modPort_routers (p : Port) (f : PortState → PortState) : (s.modPort p f).routers = s.routers := rfl
@[simp] theorem State.modPort_hubs (p : Port) (f : PortState → PortState) : (s.modPort p f).hubs = s.hubs := rfl
@[simp] theorem State.modPort_net (p : Port) (f : PortState → PortState) : (s.modPort p f).net = s.net := rfl
@[simp] theorem State.modPort_fields (p : Port) (f : PortState → PortState) : (s.modPort p f).fields = s.fields := rfl
@[simp] theorem State.modPort_stk (p : Port) (f : PortState → PortState) : (s.modPort p f).stk = s.stk := rfl
@[simp] theorem State.modPort_jobs (p : Port) (f : PortState → PortState) : (s.modPort p f).jobs = s.jobs := rfl
@[simp] theorem State.modPort_dieDelta (p : Port) (f : PortState → PortState) : (s.modPort p f).dieDelta = s.dieDelta := rfl
@[simp] theorem State.modPort_fused (p : Port) (f : PortState → PortState) : (s.modPort p f).fused = s.fused := rfl
@[simp] theorem State.modPort_service (p : Port) (f : PortState → PortState) : (s.modPort p f).service = s.service := rfl
@[simp] theorem State.modPort_fusedHub (p : Port) (f : PortState → PortState) : (s.modPort p f).fusedHub = s.fusedHub := rfl
@[simp] theorem State.modPort_serviceHub (p : Port) (f : PortState → PortState) : (s.modPort p f).serviceHub = s.serviceHub := rfl
@[simp] theorem State.modPort_errs (p : Port) (f : PortState → PortState) : (s.modPort p f).errs = s.errs := rfl
@[simp] theorem State.modPort_errNext (p : Port) (f : PortState → PortState) : (s.modPort p f).errNext = s.errNext := rfl
@[simp] theorem State.modPort_flashErrs (p : Port) (f : PortState → PortState) : (s.modPort p f).flashErrs = s.flashErrs := rfl
@[simp] theorem State.modPort_flashWait (p : Port) (f : PortState → PortState) : (s.modPort p f).flashWait = s.flashWait := rfl
@[simp] theorem State.modPort_flashCopy (p : Port) (f : PortState → PortState) : (s.modPort p f).flashCopy = s.flashCopy := rfl
@[simp] theorem State.modPort_cp (p : Port) (f : PortState → PortState) : (s.modPort p f).cp = s.cp := rfl
@[simp] theorem State.modPort_fw (p : Port) (f : PortState → PortState) : (s.modPort p f).fw = s.fw := rfl
@[simp] theorem State.modPort_mc (p : Port) (f : PortState → PortState) : (s.modPort p f).mc = s.mc := rfl
@[simp] theorem State.modPort_mgmt (p : Port) (f : PortState → PortState) : (s.modPort p f).mgmt = s.mgmt := rfl
@[simp] theorem State.modPort_mod (p : Port) (f : PortState → PortState) : (s.modPort p f).mod = s.mod := rfl
@[simp] theorem State.modPort_snaps (p : Port) (f : PortState → PortState) : (s.modPort p f).snaps = s.snaps := rfl
@[simp] theorem State.modPort_freeCtr (p : Port) (f : PortState → PortState) : (s.modPort p f).freeCtr = s.freeCtr := rfl
@[simp] theorem State.modPort_pending (p : Port) (f : PortState → PortState) : (s.modPort p f).pending = s.pending := rfl

/-! ### One update, every other part's reads -/

@[simp] theorem State.router_setCore (c : CoreId) (v : CoreState) (d : CoreId) : (s.setCore c v).router d = s.router d := rfl
@[simp] theorem State.hub_setCore (c : CoreId) (v : CoreState) (x y : Nat) : (s.setCore c v).hub x y = s.hub x y := rfl
@[simp] theorem State.field_setCore (c : CoreId) (v : CoreState) (m : Nat) : (s.setCore c v).field m = s.field m := rfl
@[simp] theorem State.job_setCore (c : CoreId) (v : CoreState) (m : Nat) : (s.setCore c v).job m = s.job m := rfl
@[simp] theorem State.stack_setCore (c : CoreId) (v : CoreState) (m : Nat) : (s.setCore c v).stack m = s.stack m := rfl
@[simp] theorem State.port_setCore (c : CoreId) (v : CoreState) (q : Port) : (s.setCore c v).port q = s.port q := rfl
@[simp] theorem State.router_modCore (c : CoreId) (f : CoreState → CoreState) (d : CoreId) : (s.modCore c f).router d = s.router d := rfl
@[simp] theorem State.hub_modCore (c : CoreId) (f : CoreState → CoreState) (x y : Nat) : (s.modCore c f).hub x y = s.hub x y := rfl
@[simp] theorem State.field_modCore (c : CoreId) (f : CoreState → CoreState) (m : Nat) : (s.modCore c f).field m = s.field m := rfl
@[simp] theorem State.job_modCore (c : CoreId) (f : CoreState → CoreState) (m : Nat) : (s.modCore c f).job m = s.job m := rfl
@[simp] theorem State.stack_modCore (c : CoreId) (f : CoreState → CoreState) (m : Nat) : (s.modCore c f).stack m = s.stack m := rfl
@[simp] theorem State.port_modCore (c : CoreId) (f : CoreState → CoreState) (q : Port) : (s.modCore c f).port q = s.port q := rfl
@[simp] theorem State.core_setRouter (c : CoreId) (v : Router) (d : CoreId) : (s.setRouter c v).core d = s.core d := rfl
@[simp] theorem State.hub_setRouter (c : CoreId) (v : Router) (x y : Nat) : (s.setRouter c v).hub x y = s.hub x y := rfl
@[simp] theorem State.field_setRouter (c : CoreId) (v : Router) (m : Nat) : (s.setRouter c v).field m = s.field m := rfl
@[simp] theorem State.job_setRouter (c : CoreId) (v : Router) (m : Nat) : (s.setRouter c v).job m = s.job m := rfl
@[simp] theorem State.stack_setRouter (c : CoreId) (v : Router) (m : Nat) : (s.setRouter c v).stack m = s.stack m := rfl
@[simp] theorem State.port_setRouter (c : CoreId) (v : Router) (q : Port) : (s.setRouter c v).port q = s.port q := rfl
@[simp] theorem State.core_setHub (hx hy : Nat) (v : Hub) (d : CoreId) : (s.setHub hx hy v).core d = s.core d := rfl
@[simp] theorem State.router_setHub (hx hy : Nat) (v : Hub) (d : CoreId) : (s.setHub hx hy v).router d = s.router d := rfl
@[simp] theorem State.field_setHub (hx hy : Nat) (v : Hub) (m : Nat) : (s.setHub hx hy v).field m = s.field m := rfl
@[simp] theorem State.job_setHub (hx hy : Nat) (v : Hub) (m : Nat) : (s.setHub hx hy v).job m = s.job m := rfl
@[simp] theorem State.stack_setHub (hx hy : Nat) (v : Hub) (m : Nat) : (s.setHub hx hy v).stack m = s.stack m := rfl
@[simp] theorem State.port_setHub (hx hy : Nat) (v : Hub) (q : Port) : (s.setHub hx hy v).port q = s.port q := rfl
@[simp] theorem State.core_modField (n : Nat) (g : FieldState → FieldState) (d : CoreId) : (s.modField n g).core d = s.core d := rfl
@[simp] theorem State.router_modField (n : Nat) (g : FieldState → FieldState) (d : CoreId) : (s.modField n g).router d = s.router d := rfl
@[simp] theorem State.hub_modField (n : Nat) (g : FieldState → FieldState) (x y : Nat) : (s.modField n g).hub x y = s.hub x y := rfl
@[simp] theorem State.job_modField (n : Nat) (g : FieldState → FieldState) (m : Nat) : (s.modField n g).job m = s.job m := rfl
@[simp] theorem State.stack_modField (n : Nat) (g : FieldState → FieldState) (m : Nat) : (s.modField n g).stack m = s.stack m := rfl
@[simp] theorem State.port_modField (n : Nat) (g : FieldState → FieldState) (q : Port) : (s.modField n g).port q = s.port q := rfl
@[simp] theorem State.core_modJob (n : Nat) (g : Job → Job) (d : CoreId) : (s.modJob n g).core d = s.core d := rfl
@[simp] theorem State.router_modJob (n : Nat) (g : Job → Job) (d : CoreId) : (s.modJob n g).router d = s.router d := rfl
@[simp] theorem State.hub_modJob (n : Nat) (g : Job → Job) (x y : Nat) : (s.modJob n g).hub x y = s.hub x y := rfl
@[simp] theorem State.field_modJob (n : Nat) (g : Job → Job) (m : Nat) : (s.modJob n g).field m = s.field m := rfl
@[simp] theorem State.stack_modJob (n : Nat) (g : Job → Job) (m : Nat) : (s.modJob n g).stack m = s.stack m := rfl
@[simp] theorem State.port_modJob (n : Nat) (g : Job → Job) (q : Port) : (s.modJob n g).port q = s.port q := rfl
@[simp] theorem State.core_modStack (n : Nat) (g : StackState → StackState) (d : CoreId) : (s.modStack n g).core d = s.core d := rfl
@[simp] theorem State.router_modStack (n : Nat) (g : StackState → StackState) (d : CoreId) : (s.modStack n g).router d = s.router d := rfl
@[simp] theorem State.hub_modStack (n : Nat) (g : StackState → StackState) (x y : Nat) : (s.modStack n g).hub x y = s.hub x y := rfl
@[simp] theorem State.field_modStack (n : Nat) (g : StackState → StackState) (m : Nat) : (s.modStack n g).field m = s.field m := rfl
@[simp] theorem State.job_modStack (n : Nat) (g : StackState → StackState) (m : Nat) : (s.modStack n g).job m = s.job m := rfl
@[simp] theorem State.port_modStack (n : Nat) (g : StackState → StackState) (q : Port) : (s.modStack n g).port q = s.port q := rfl
@[simp] theorem State.core_modPort (p : Port) (f : PortState → PortState) (d : CoreId) : (s.modPort p f).core d = s.core d := rfl
@[simp] theorem State.router_modPort (p : Port) (f : PortState → PortState) (d : CoreId) : (s.modPort p f).router d = s.router d := rfl
@[simp] theorem State.hub_modPort (p : Port) (f : PortState → PortState) (x y : Nat) : (s.modPort p f).hub x y = s.hub x y := rfl
@[simp] theorem State.field_modPort (p : Port) (f : PortState → PortState) (m : Nat) : (s.modPort p f).field m = s.field m := rfl
@[simp] theorem State.job_modPort (p : Port) (f : PortState → PortState) (m : Nat) : (s.modPort p f).job m = s.job m := rfl
@[simp] theorem State.stack_modPort (p : Port) (f : PortState → PortState) (m : Nat) : (s.modPort p f).stack m = s.stack m := rfl

/-! ### Reads after updates -/

/-- Cores that exist have keys of their own (spec/01 R27). -/
theorem coreKey_inj {c d : CoreId} (hc : c.x < 768) (hd : d.x < 768) (h : coreKey c = coreKey d) : c = d := by
  obtain ⟨x, y⟩ := c; obtain ⟨x', y'⟩ := d
  simp only [coreKey] at *
  have h1 : x = x' := by omega
  have h2 : y = y' := by omega
  rw [h1, h2]

theorem lt_of_coreField {c : CoreId} (h : (coreField c).isSome = true) : c.x < 768 := by
  unfold coreField fieldAt at h
  split at h
  · simp at h
  · omega

@[simp] theorem State.core_setCore_same (c : CoreId) (v : CoreState) : (s.setCore c v).core c = v := by
  simp [State.core, State.setCore]

theorem State.core_setCore (c d : CoreId) (v : CoreState) :
    (s.setCore c v).core d = if coreKey d = coreKey c then v else s.core d := by
  simp [State.core, State.setCore, KMap.get_put]

theorem State.core_setCore_ne {c d : CoreId} (v : CoreState) (h : coreKey d ≠ coreKey c) : (s.setCore c v).core d = s.core d := by
  simp [State.core_setCore, h]

@[simp] theorem State.core_modCore_same (c : CoreId) (f : CoreState → CoreState) : (s.modCore c f).core c = f (s.core c) := by
  simp [State.modCore]

theorem State.core_modCore (c d : CoreId) (f : CoreState → CoreState) :
    (s.modCore c f).core d = if coreKey d = coreKey c then f (s.core c) else s.core d := by
  simp [State.modCore, State.core_setCore]

@[simp] theorem State.router_setRouter_same (c : CoreId) (v : Router) : (s.setRouter c v).router c = v := by
  simp [State.router, State.setRouter]

@[simp] theorem State.hub_setHub_same (hx hy : Nat) (v : Hub) : (s.setHub hx hy v).hub hx hy = v := by
  simp [State.hub, State.setHub]

theorem State.field_modField (n m : Nat) (g : FieldState → FieldState) :
    (s.modField n g).field m = if n = m ∧ m < 60 then g (s.field m) else s.field m := by
  simp [State.field, State.modField, tget_tmod]

theorem State.job_modJob (n m : Nat) (g : Job → Job) :
    (s.modJob n g).job m = if n = m ∧ m < 16 then g (s.job m) else s.job m := by
  simp [State.job, State.modJob, tget_tmod]

theorem State.stack_modStack (n m : Nat) (g : StackState → StackState) :
    (s.modStack n g).stack m = if n = m ∧ m < 16 then g (s.stack m) else s.stack m := by
  simp [State.stack, State.modStack, tget_tmod]

@[simp] theorem Pair.get_set_same {α : Type} (x : Pair α) (p : Port) (v : α) : (x.set p v).get p = v := by cases p <;> rfl

@[simp] theorem Pair.get_set_other {α : Type} (x : Pair α) (p : Port) (v : α) : (x.set p v).get p.other = x.get p.other := by
  cases p <;> rfl

theorem Pair.get_set {α : Type} (x : Pair α) (p q : Port) (v : α) : (x.set p v).get q = if q = p then v else x.get q := by
  cases p <;> cases q <;> rfl

theorem State.port_modPort (p q : Port) (f : PortState → PortState) :
    (s.modPort p f).port q = if q = p then f (s.port p) else s.port q := by
  simp [State.port, State.modPort, Pair.modify, Pair.get_set]

@[simp] theorem State.port_modPort_same (p : Port) (f : PortState → PortState) : (s.modPort p f).port p = f (s.port p) := by
  simp [State.port_modPort]

/-! ### Registers of a core and a thread -/

theorem CoreState.thread_setThread (c : CoreState) (t u : Nat) (v : Thread) :
    (c.setThread t v).thread u = if t % 4 = u % 4 then v else c.thread u := by
  have e : BitVec.ofNat 2 t = BitVec.ofNat 2 u ↔ t % 4 = u % 4 := by
    rw [← BitVec.toNat_inj]; simp [BitVec.toNat_ofNat]
  simp [CoreState.thread, CoreState.setThread, RegFile.get_set, e]

@[simp] theorem CoreState.thread_setThread_same (c : CoreState) (t : Nat) (v : Thread) : (c.setThread t v).thread t = v := by
  simp [CoreState.thread_setThread]

theorem Thread.gReg_setG (x : Thread) (i j : Nat) (v : BitVec 32) :
    (x.setG i v).gReg j = if i % 16 = j % 16 ∧ j % 16 ≠ 0 then v else x.gReg j := by
  have e : BitVec.ofNat 4 i = BitVec.ofNat 4 j ↔ i % 16 = j % 16 := by
    rw [← BitVec.toNat_inj]; simp [BitVec.toNat_ofNat]
  unfold Thread.gReg Thread.setG
  by_cases hj : j % 16 = 0
  · simp [hj]
  · by_cases hi : i % 16 = 0
    · have : ¬ (0 = j % 16) := fun h => hj h.symm
      simp [hi, hj, this]
    · simp [hi, hj, RegFile.get_set, e]

end Sys2Proof.Machine
end

