-- ==== Sys2Proof/Laws/Core.lean ====
section
/-! SUPPORT. Laws of one core: replaced states, reads that find clean words, and what the stored code gives back. -/

namespace Sys2Proof

/-! ### Maps -/

@[simp] theorem KMap.put_put {α : Type} (m : KMap α) (k : Nat) (u v : α) : (m.put k u).put k v = m.put k v := by
  induction m with
  | nil => simp [KMap.put]
  | cons e t ih =>
    obtain ⟨k', v'⟩ := e
    simp only [KMap.put]
    split
    · simp [KMap.put]
    · split
      · simp [KMap.put]
      · rename_i h1 h2
        simp [KMap.put, h1, h2, ih]

namespace Machine

@[simp] theorem State.setCore_setCore (s : State) (c : CoreId) (u v : CoreState) : (s.setCore c u).setCore c v = s.setCore c v := by
  simp [State.setCore]

@[simp] theorem State.modCore_setCore (s : State) (c : CoreId) (u : CoreState) (f : CoreState → CoreState) :
    (s.setCore c u).modCore c f = s.setCore c (f u) := by
  simp [State.modCore]

theorem CoreState.clean_iff (x : CoreState) (w : Nat) :
    x.clean w = true ↔ (x.dec w).outcome = .clean ∧ (x.dec w).poison = false := by
  simp [CoreState.clean]

theorem CoreState.noteRead_clean (k : Kind) (src : Nat) (x : CoreState) (w : Nat) (h : x.clean w = true) :
    x.noteRead k src w = x := by
  rw [CoreState.clean_iff] at h
  simp [CoreState.noteRead, CoreState.addRewrite, SpRegs.note, SpRegs.notePoison, h.1, h.2]

theorem CoreState.noteReads_clean (k : Kind) (src : Nat) (x : CoreState) (ws : List Nat) (h : ∀ w ∈ ws, x.clean w = true) :
    x.noteReads k src ws = x := by
  induction ws with
  | nil => rfl
  | cons w t ih =>
    have h1 := CoreState.noteRead_clean k src x w (h w (by simp))
    simp only [CoreState.noteReads, List.foldl_cons]
    rw [h1]
    exact ih (fun v hv => h v (by simp [hv]))

theorem CoreState.poisoned_clean (x : CoreState) (w : Nat) (h : x.clean w = true) : x.poisoned w = false := by
  rw [CoreState.clean_iff] at h
  simp [CoreState.poisoned, h.1, h.2]

/-! ### The 80/64 code -/

theorem b2n_le (b : Bool) : b2n b ≤ 1 := by cases b <;> simp [b2n]

theorem eccEncode_toNat (d : Word) (p : Bool) : ∃ r b, r < 2 ^ 14 ∧ b ≤ 1 ∧
    (eccEncode d p).toNat = (d.toNat + b2n p * 2 ^ 64) * 2 ^ 14 + r + b * 2 ^ 79 := by
  refine ⟨genRem ((d.toNat + b2n p * 2 ^ 64) * 2 ^ 14) % 2 ^ 14, b2n (parityOf 79 ((d.toNat + b2n p * 2 ^ 64) * 2 ^ 14 +
    genRem ((d.toNat + b2n p * 2 ^ 64) * 2 ^ 14) % 2 ^ 14)), Nat.mod_lt _ (by decide), ?_, ?_⟩
  · exact b2n_le _
  · have hd := d.isLt
    have hp : b2n p ≤ 1 := b2n_le _
    have hb : b2n (parityOf 79 ((d.toNat + b2n p * 2 ^ 64) * 2 ^ 14 +
      genRem ((d.toNat + b2n p * 2 ^ 64) * 2 ^ 14) % 2 ^ 14)) ≤ 1 := b2n_le _
    have hr : genRem ((d.toNat + b2n p * 2 ^ 64) * 2 ^ 14) % 2 ^ 14 < 2 ^ 14 := Nat.mod_lt _ (by decide)
    simp only [eccEncode, BitVec.toNat_ofNat]
    rw [Nat.mod_eq_of_lt]
    generalize b2n (parityOf _ _) = x at *
    generalize genRem _ % _ = y at *
    generalize b2n p = z at *
    omega

/-- A stored word decodes clean to what was stored (spec/15 R391, R392). -/
@[simp] theorem eccDecode_encode (d : Word) (p : Bool) : eccDecode (eccEncode d p) = { outcome := .clean, data := d, poison := p } := by
  obtain ⟨r, b, hr, hb, h⟩ := eccEncode_toNat d p
  have hd := d.isLt
  have h1 : codeData (eccEncode d p).toNat = d := by
    rw [h]; unfold codeData
    apply BitVec.eq_of_toNat_eq
    rw [BitVec.toNat_ofNat]
    cases p <;> simp only [b2n] <;> omega
  have h2 : codePoison (eccEncode d p).toNat = p := by
    rw [h]; unfold codePoison
    rw [Nat.testBit_eq_decide_div_mod_eq]
    cases p <;> simp only [b2n] <;> simp <;> omega
  unfold eccDecode
  simp only [h1, h2, if_true]


end Machine
end Sys2Proof
end

