-- ==== Sys2Proof/Safety.lean ====
section
/-! DEFINITION. What a safe state is: every memory in its canonical form. -/

namespace Sys2Proof.Machine

/-- A core's scratchpad is in the canonical form: addresses rise, and no entry equals what an unlisted word reads as. -/
def CoreState.memWf (c : CoreState) : Bool := KMap.wf 0 c.mem

/-- A stack's memory is in the canonical form. -/
def StackState.memWf (k : StackState) : Bool := KMap.wf 0 k.mem

/-- Memory.wf of the module: the map of cores rises, and every scratchpad and every stack is in the canonical form. -/
def State.memWf (s : State) : Bool :=
  KMap.rising s.cores && s.cores.all (fun e => e.2.memWf) && s.stk.toList.all StackState.memWf

/-- The negative rises: one entry for each position (spec/01 R31). -/
def State.negWf (s : State) : Bool := KMap.rising s.fused && KMap.rising s.service

/-- A run of `n` steps ends in no fault and no refusal. -/
def State.safe : Nat → State → Bool
  | 0, s => s.memWf
  | n + 1, s =>
    s.memWf &&
      match step s with
      | .next t => State.safe n t
      | _ => false

end Sys2Proof.Machine
end

