-- ==== Sys2Proof/Certificates/Slice0/Obligations.lean ====
section
/-! DEFINITION. The statements for the provers, with the small vocabulary they are written in. -/

namespace Sys2Proof.Claims

open Sys2Proof.Machine

/-! ### SX threads (spec/04) -/

/-- Thread `t` of the SX core `c` stands, ready, at a clean word that holds the legal instruction `i` of opcode `op`; no write that its
fetch may have missed has landed there (spec/04 R117). -/
def SxAt (s : State) (c : CoreId) (t : Fin 4) (op : Nat) (i : Inst32) : Prop :=
  coreKind c = .sx ∧ s.sxReady c t.val = true ∧ ((s.core c).thread t.val).pc.toNat % 4 = 0 ∧
    (s.core c).earlier t.val ((s.core c).thread t.val).pc.toNat = [] ∧
    (s.core c).clean (((s.core c).thread t.val).pc.toNat / 8) = true ∧
    ((s.core c).data (((s.core c).thread t.val).pc.toNat / 8)).extractLsb' (8 * (((s.core c).thread t.val).pc.toNat % 8)) 32 = i ∧
    sOpc i = op ∧ sxLegal i = true

/-- Program counter of a thread. -/
def sxPc (s : State) (c : CoreId) (t : Fin 4) : BitVec 15 := ((s.core c).thread t.val).pc

/-- The thread is not at the last instruction slot of the 32 KiB. -/
def SxRoom (s : State) (c : CoreId) (t : Fin 4) : Prop := (sxPc s c t).toNat + 4 < 0x8000

/-- The core after one issue of thread `t`: that thread, changed by `f`, stands at `pc`; SXISSUE counts; the thread is the last
that issued (spec/04 R114); all else is kept. -/
def sxDone (x : CoreState) (t : Fin 4) (pc : BitVec 15) (f : Thread → Thread) : CoreState :=
  { x with
    th := x.th.set (BitVec.ofNat 2 t.val) { f (x.thread t.val) with pc := pc, wait := .none }
    sxIssue := sat1 x.sxIssue
    sxLast := BitVec.ofNat 2 t.val }

/-- The state after an instruction that writes one register and goes on. -/
def sxPut (s : State) (c : CoreId) (t : Fin 4) (r : Nat) (v : BitVec 32) : State :=
  s.setCore c (sxDone (s.core c) t (sxPc s c t + 4) (fun x => x.setG r v))

/-- GA, GB of an instruction. -/
def sxA (s : State) (c : CoreId) (t : Fin 4) (i : Inst32) : BitVec 32 := (s.core c).gReg t.val (sGa i)
def sxB (s : State) (c : CoreId) (t : Fin 4) (i : Inst32) : BitVec 32 := (s.core c).gReg t.val (sGb i)

/-- Table 4.11. -/
def aluTable (fn : Nat) (a b : BitVec 32) : BitVec 32 :=
  if fn = 0x00 then a + b
  else if fn = 0x01 then a - b
  else if fn = 0x02 then a &&& b
  else if fn = 0x03 then a ||| b
  else if fn = 0x04 then a ^^^ b
  else if fn = 0x05 then a <<< (b % 32)
  else if fn = 0x06 then a >>> (b % 32)
  else if fn = 0x07 then a.sshiftRight (b % 32).toNat
  else if fn = 0x08 then (if a.slt b then 1 else 0)
  else if fn = 0x09 then (if a.ult b then 1 else 0)
  else if fn = 0x0A then (if b.slt a then b else a)
  else if fn = 0x0B then (if b.slt a then a else b)
  else if fn = 0x0C then (if b.ult a then b else a)
  else if fn = 0x0D then (if b.ult a then a else b)
  else if fn = 0x10 then a * b
  else if fn = 0x11 then (a.setWidth 64 * b.setWidth 64).extractLsb' 32 32
  else (a.signExtend 64 * b.signExtend 64).extractLsb' 32 32

/-- The byte of a scratchpad at a byte address (little-endian within its word). -/
def byteAt (x : CoreState) (a : Nat) : Byte := (x.data (a / 8) >>> (8 * (a % 8))).setWidth 8

/-- Two and four bytes from a byte address on, the lowest address least significant. -/
def halfAt (x : CoreState) (a : Nat) : BitVec 16 := byteAt x (a + 1) ++ byteAt x a
def wordAt (x : CoreState) (a : Nat) : BitVec 32 := halfAt x (a + 2) ++ halfAt x a

/-- A data access of `n` bytes at `a` is aligned, inside the scratchpad, and finds a clean word. -/
def SxMem (x : CoreState) (a : BitVec 32) (n : Nat) : Prop := a.toNat % n = 0 ∧ a.toNat < 0x8000 ∧ x.clean (a.toNat / 8) = true

/-- Address of a load or store of formats I and S. -/
def sxEa (s : State) (c : CoreId) (t : Fin 4) (i : Inst32) : BitVec 32 := sxA s c t i + (i.extractLsb' 14 18).signExtend 32

/-- `y` is `x` but for its scratchpad, whose bytes from `a` on are now those of `v`, `n` of them, and every other byte is
kept. -/
def SxStored (x y : CoreState) (a n : Nat) (v : BitVec 64) : Prop :=
  y = { x with mem := y.mem, stale := y.stale, rewrites := y.rewrites } ∧
    ∀ b, b < 0x8000 → byteAt y b = if a ≤ b ∧ b < a + n then (v >>> (8 * (b - a))).setWidth 8 else byteAt x b

/-- The core after a core error of thread `t`, the first there is: RUN ends for the core and its four threads, and SXERR holds the
code, the thread and its program counter (spec/04 R123); all else is kept. -/
def sxStopped (x : CoreState) (t : Fin 4) (code : BitVec 8) : CoreState :=
  { x with
    err := true
    run := false
    errCode := code
    errEpc := (x.thread t.val).pc
    errEngine := BitVec.ofNat 3 t.val
    th := x.th.map (fun y => { y with run := false }) }

/-- An address that breaks one of R117's two conditions on an access of `n` bytes, and the code of Table 4.14 that it raises; of one
that breaks both nothing is said (log 78). -/
def SxBadAddr (a : BitVec 32) (n : Nat) (code : BitVec 8) : Prop :=
  (a.toNat % n ≠ 0 ∧ a.toNat < 0x8000 ∧ code = 0x08) ∨ (a.toNat % n = 0 ∧ 0x8000 ≤ a.toNat ∧ code = 0x02)

end Sys2Proof.Claims

open Sys2Proof Sys2Proof.Machine Sys2Proof.Claims

/-- spec/04 R117: loads read little-endian bytes of the scratchpad and sign- or zero-extend them.
And spec/04 R117, spec/05 R135: stores change the bytes they name and no other byte.
And spec/04 R117, R123, Table 4.14: a misaligned load, store or jump target raises SX_ALIGN, a load or store at or above 0x8000
SX_ADDR, and the instruction has no other effect than to stop the core. -/
def Obligations.SxMemoryResults : Prop :=
  (
  ∀ (s : State) (c : CoreId) (t : Fin 4) (i : Inst32), SxRoom s c t →
    let a := (sxEa s c t i)
    let x := s.core c
    (SxAt s c t 0x10 i → SxMem x a 1 → exec (.lb c t) s = .next (sxPut s c t (sGd i) ((byteAt x a.toNat).signExtend 32))) ∧
    (SxAt s c t 0x11 i → SxMem x a 1 → exec (.lbu c t) s = .next (sxPut s c t (sGd i) ((byteAt x a.toNat).setWidth 32))) ∧
    (SxAt s c t 0x12 i → SxMem x a 2 → exec (.lh c t) s = .next (sxPut s c t (sGd i) ((halfAt x a.toNat).signExtend 32))) ∧
    (SxAt s c t 0x13 i → SxMem x a 2 → exec (.lhu c t) s = .next (sxPut s c t (sGd i) ((halfAt x a.toNat).setWidth 32))) ∧
    (SxAt s c t 0x14 i → SxMem x a 4 → exec (.lw c t) s = .next (sxPut s c t (sGd i) (wordAt x a.toNat))) ∧
    (SxAt s c t 0x15 i → SxMem x a 8 → exec (.ld c t) s =
      .next (s.setCore c (sxDone x t (sxPc s c t + 4)
        (fun y => (y.setG (sGd i) (wordAt x a.toNat)).setG (sGd i + 1) (wordAt x (a.toNat + 4)))))) ∧
    (SxAt s c t 0x16 i →
      let b := sxA s c t i + (sxB s c t i <<< sfld i 18 2)
      SxMem x b (2 ^ sfld i 20 2) → exec (.lx c t) s = .next (sxPut s c t (sGd i)
        (if sfld i 20 2 = 0 then (if i.getLsbD 22 then (byteAt x b.toNat).setWidth 32 else (byteAt x b.toNat).signExtend 32)
         else if sfld i 20 2 = 1 then (if i.getLsbD 22 then (halfAt x b.toNat).setWidth 32 else (halfAt x b.toNat).signExtend 32)
         else wordAt x b.toNat)))) ∧
  (
  ∀ (s : State) (c : CoreId) (t : Fin 4) (i : Inst32), SxRoom s c t → s.memWf = true →
    let a := (sxEa s c t i)
    let x := s.core c
    (SxAt s c t 0x18 i → SxMem x a 1 → ∃ y, exec (.sb c t) s = .next (s.setCore c (sxDone y t (sxPc s c t + 4) id)) ∧
      SxStored x y a.toNat 1 ((x.gReg t.val (sGd i)).setWidth 64)) ∧
    (SxAt s c t 0x19 i → SxMem x a 2 → ∃ y, exec (.sh c t) s = .next (s.setCore c (sxDone y t (sxPc s c t + 4) id)) ∧
      SxStored x y a.toNat 2 ((x.gReg t.val (sGd i)).setWidth 64)) ∧
    (SxAt s c t 0x1A i → SxMem x a 4 → ∃ y, exec (.sw c t) s = .next (s.setCore c (sxDone y t (sxPc s c t + 4) id)) ∧
      SxStored x y a.toNat 4 ((x.gReg t.val (sGd i)).setWidth 64)) ∧
    (SxAt s c t 0x1B i → SxMem x a 8 → ∃ y, exec (.sd c t) s = .next (s.setCore c (sxDone y t (sxPc s c t + 4) id)) ∧
      SxStored x y a.toNat 8 (x.gReg t.val (sGd i + 1) ++ x.gReg t.val (sGd i)))) ∧
  (
  ∀ (s : State) (c : CoreId) (t : Fin 4) (i : Inst32) (code : BitVec 8), (s.core c).err = false →
    let a := (sxEa s c t i)
    let stop : State := s.setCore c (sxStopped (s.core c) t code)
    (∀ e ∈ ([(0x10, 1, .lb c t), (0x11, 1, .lbu c t), (0x12, 2, .lh c t), (0x13, 2, .lhu c t), (0x14, 4, .lw c t), (0x15, 8, .ld c t),
        (0x18, 1, .sb c t), (0x19, 2, .sh c t), (0x1A, 4, .sw c t), (0x1B, 8, .sd c t)] : List (Nat × Nat × Instr)),
      SxAt s c t e.1 i → SxBadAddr a e.2.1 code → exec e.2.2 s = .next stop) ∧
    (SxAt s c t 0x16 i → SxBadAddr (sxA s c t i + (sxB s c t i <<< sfld i 18 2)) (2 ^ sfld i 20 2) code →
      exec (.lx c t) s = .next stop) ∧
    (SxAt s c t 0x27 i → a.toNat % 4 ≠ 0 → a.toNat < 0x8000 → code = 0x08 → exec (.jalr c t) s = .next stop))

/-- spec/04 R121, Tables 4.10 and 4.11: the integer instructions write GD, advance the thread, count one issue, and change
nothing else of the module.
And spec/04 Table 4.10: branches and jumps; a misaligned target is SxMemoryResults' case; of one outside the program counter's
15 bits nothing is said (log 22). -/
def Obligations.SxIntegerAndJumpResults : Prop :=
  (
  ∀ (s : State) (c : CoreId) (t : Fin 4) (i : Inst32), SxRoom s c t →
    (SxAt s c t 0x00 i → exec (.alu c t) s = .next (sxPut s c t (sGd i) (aluTable (sFn i) (sxA s c t i) (sxB s c t i)))) ∧
    (SxAt s c t 0x01 i → exec (.addi c t) s = .next (sxPut s c t (sGd i) (sxA s c t i + (i.extractLsb' 14 18).signExtend 32))) ∧
    (SxAt s c t 0x02 i → exec (.andi c t) s = .next (sxPut s c t (sGd i) (sxA s c t i &&& (i.extractLsb' 14 18).signExtend 32))) ∧
    (SxAt s c t 0x03 i → exec (.ori c t) s = .next (sxPut s c t (sGd i) (sxA s c t i ||| (i.extractLsb' 14 18).signExtend 32))) ∧
    (SxAt s c t 0x04 i → exec (.xori c t) s = .next (sxPut s c t (sGd i) (sxA s c t i ^^^ (i.extractLsb' 14 18).signExtend 32))) ∧
    (SxAt s c t 0x05 i → exec (.slti c t) s =
      .next (sxPut s c t (sGd i) (if (sxA s c t i).slt ((i.extractLsb' 14 18).signExtend 32) then 1 else 0))) ∧
    (SxAt s c t 0x06 i → exec (.sltiu c t) s =
      .next (sxPut s c t (sGd i) (if (sxA s c t i).ult ((i.extractLsb' 14 18).signExtend 32) then 1 else 0))) ∧
    (SxAt s c t 0x07 i → exec (.shi c t) s = .next (sxPut s c t (sGd i)
      (if sfld i 19 2 = 0 then sxA s c t i <<< sfld i 14 5
       else if sfld i 19 2 = 1 then sxA s c t i >>> sfld i 14 5
       else (sxA s c t i).sshiftRight (sfld i 14 5)))) ∧
    (SxAt s c t 0x08 i → exec (.lui c t) s = .next (sxPut s c t (sGd i) ((i.extractLsb' 10 22).setWidth 32 <<< 10)))) ∧
  (
  ∀ (s : State) (c : CoreId) (t : Fin 4) (i : Inst32), SxRoom s c t →
    let x := s.core c
    let pc := sxPc s c t
    let a := x.gReg t.val (sGd i)
    let b := x.gReg t.val (sGa i)
    let off := (i.extractLsb' 14 18).signExtend 32
    let target : BitVec 32 := pc.setWidth 32 + off * 4
    let go (taken : Bool) : State := s.setCore c (sxDone x t (if taken then target.setWidth 15 else pc + 4) id)
    let far : BitVec 32 := pc.setWidth 32 + (i.extractLsb' 10 22).signExtend 32 * 4
    let ret := sxA s c t i + off
    (SxAt s c t 0x20 i → target.toNat < 0x8000 → exec (.beq c t) s = .next (go (a == b))) ∧
    (SxAt s c t 0x21 i → target.toNat < 0x8000 → exec (.bne c t) s = .next (go (a != b))) ∧
    (SxAt s c t 0x22 i → target.toNat < 0x8000 → exec (.blt c t) s = .next (go (a.slt b))) ∧
    (SxAt s c t 0x23 i → target.toNat < 0x8000 → exec (.bge c t) s = .next (go (b.sle a))) ∧
    (SxAt s c t 0x24 i → target.toNat < 0x8000 → exec (.bltu c t) s = .next (go (a.ult b))) ∧
    (SxAt s c t 0x25 i → target.toNat < 0x8000 → exec (.bgeu c t) s = .next (go (b.ule a))) ∧
    (SxAt s c t 0x26 i → far.toNat < 0x8000 → exec (.jal c t) s =
      .next (s.setCore c (sxDone x t (far.setWidth 15) (fun y => y.setG (sGd i) (pc.setWidth 32 + 4))))) ∧
    (SxAt s c t 0x27 i → ret.toNat < 0x8000 → ret.toNat % 4 = 0 → exec (.jalr c t) s =
      .next (s.setCore c (sxDone x t (ret.setWidth 15) (fun y => y.setG (sGd i) (pc.setWidth 32 + 4))))))

namespace Sys2Proof.Claims

/-- The core with semaphore `n` changed by `f`. -/
def withSem (x : CoreState) (n : Nat) (f : BitVec 8 → BitVec 8) : CoreState :=
  { x with sem := x.sem.set (BitVec.ofNat 4 n) (f (x.sem.get (BitVec.ofNat 4 n))) }

/-- A thread begins to wait: nothing else of it changes. -/
def sxWaiting (x : CoreState) (t : Fin 4) (w : ThreadWait) : CoreState :=
  { x with th := x.th.set (BitVec.ofNat 2 t.val) { x.thread t.val with wait := w } }

/-- A packet as it enters the network: it waits at its port while its field holds injection (spec/08 R211). -/
def entering (s : State) (p : Packet) : Packet := { p with out := s.injectionHeld p }

/-- The packet a core sends for one word: header fields of spec/08 Tables 8.3 and 8.4. -/
def oneWordPacket (s : State) (c : CoreId) (da qid : Nat) (qdst : Bool) (w : Word) : Packet :=
  { ptype := if qdst then 1 else 0
    dkind := 0
    dx := nfld da 34 10
    dy := nfld da 24 10
    sx := c.x
    sy := c.y
    epoch := (s.core c).epoch
    len := 1
    qid := if qdst then qid else 0
    h1 := BitVec.ofNat 64 (if qdst then da else da + 0xFF * 2 ^ 48 + 0xFF * 2 ^ 56)
    pay := [(w, false)]
    counted := false
    slot := (s.coreJob c).getD 0
    out := (s.field ((coreField c).getD 0)).rtHeld }

/-- A register pair, the lower-numbered register less significant. -/
def pairOf (s : State) (c : CoreId) (t : Fin 4) (r : Nat) : BitVec 64 :=
  (s.core c).gReg t.val (r + 1) ++ (s.core c).gReg t.val r

end Sys2Proof.Claims

/-- spec/06 R152, R154, spec/04 R115: SEMW takes one or waits, SEMS adds one; QWAIT goes on once the queue holds N entries
and waits before; MVSYNC goes on once no MOVE of the thread is in progress and waits before.
And spec/07 R170, spec/04 R118, R119, spec/07 R163: QREL of an unpaired PLAIN queue that returns no credits drops N head
entries; STEER copies both head entries into its register pairs; SEND within the field puts one packet into the network;
MOVE joins the queue of a busy move engine. -/
def Obligations.SxWaitsQueuesAndSends : Prop :=
  (
  ∀ (s : State) (c : CoreId) (t : Fin 4) (i : Inst32), SxRoom s c t →
    let x := s.core c
    let n := nfld i.toNat 20 12
    let q := x.q.get (BitVec.ofNat 4 (sGa i))
    (SxAt s c t 0x28 i → 0 < x.semCount (sGa i) →
      exec (.semw c t) s = .next (s.setCore c (sxDone (withSem x (sGa i) (· - 1)) t (sxPc s c t + 4) id))) ∧
    (SxAt s c t 0x28 i → x.semCount (sGa i) = 0 →
      exec (.semw c t) s = .next (s.setCore c
        (sxWaiting { x with sxIssue := sat1 x.sxIssue, sxLast := BitVec.ofNat 2 t.val } t (.sem (sGa i))))) ∧
    (SxAt s c t 0x29 i → x.semCount (sGa i) < 255 →
      exec (.sems c t) s = .next (s.setCore c
        (sxDone { withSem x (sGa i) (· + 1) with semSig := sat1 x.semSig } t (sxPc s c t + 4) id))) ∧
    (SxAt s c t 0x2A i → q.d.state ≠ 0 → n ≤ q.d.depth.toNat → n ≤ q.count →
      exec (.sxQwait c t) s = .next (s.setCore c (sxDone x t (sxPc s c t + 4) id))) ∧
    (SxAt s c t 0x2A i → q.d.state ≠ 0 → n ≤ q.d.depth.toNat → q.count < n →
      exec (.sxQwait c t) s = .next (s.setCore c (sxWaiting x t (.queue (sGa i) n)))) ∧
    (SxAt s c t 0x32 i → (x.thread t.val).moves = 0 →
      exec (.mvsync c t) s = .next (s.setCore c (sxDone x t (sxPc s c t + 4) id))) ∧
    (SxAt s c t 0x32 i → (x.thread t.val).moves ≠ 0 →
      exec (.mvsync c t) s = .next (s.setCore c (sxWaiting x t .mvsync)))) ∧
  (
  ∀ (s : State) (c : CoreId) (t : Fin 4) (i : Inst32), SxRoom s c t →
    let x := s.core c
    let n := nfld i.toNat 20 12
    let q := x.q.get (BitVec.ofNat 4 (sGa i))
    let p := x.q.get (BitVec.ofNat 4 (sGb i))
    let wt := q.entryAddr q.head
    let wv := p.entryAddr p.head
    let da := (pairOf s c t (sGa i)).toNat % 2 ^ 48
    let w := pairOf s c t (sGb i)
    let src := x.gReg t.val (sGa i)
    (SxAt s c t 0x2B i → q.d.state ≠ 0 → q.d.mode = 0 → q.d.pen = false → q.d.cren = false → n ≤ q.count →
      q.d.esize ≠ 0 →
      exec (.sxQrel c t) s = .next (s.setCore c (sxDone
        { x with q := x.q.set (BitVec.ofNat 4 (sGa i))
                   { q with head := (q.head + n) % max 1 q.d.depth.toNat, count := q.count - n } }
        t (sxPc s c t + 4) id))) ∧
    (SxAt s c t 0x2C i → sGa i ≠ sGb i → q.d.state ≠ 0 → p.d.state ≠ 0 → q.d.pen = true → p.d.pen = true →
      q.d.pair.toNat = sGb i → p.d.pair.toNat = sGa i → 0 < q.count → 0 < p.count → i.getLsbD 22 = false →
      x.clean wt = true → x.clean wv = true →
      exec (.steer c t) s = .next (s.setCore c (sxDone x t (sxPc s c t + 4) (fun y =>
        (((y.setG (sGd i) ((x.data wt).extractLsb' 0 32)).setG (sGd i + 1) ((x.data wt).extractLsb' 32 32)).setG (sfld i 18 4)
          ((x.data wv).extractLsb' 0 32)).setG (sfld i 18 4 + 1) ((x.data wv).extractLsb' 32 32))))) ∧
    (SxAt s c t 0x30 i → nfld da 44 4 = 0 → nfld da 16 8 = 0 → daTarget da ≠ c → (coreField c).isSome = true →
      coreField (daTarget da) = coreField c → x.held = [] → x.xpdWait = [] →
      exec (.send c t) s = .next { s.setCore c (sxDone x t (sxPc s c t + 4) id) with
        net := s.net ++ [oneWordPacket s c da (sfld i 18 4) (i.getLsbD 22) w] }) ∧
    (SxAt s c t 0x31 i → src.toNat % 8 = 0 → src.toNat < 0x8000 → x.e2.queue.length < 8 → x.e2.prog ≠ [] →
      x.e1.queue = [] → x.e3.queue = [] →
      exec (.move c t) s = .next (s.setCore c (sxDone
        { x with e2 := { x.e2 with queue := x.e2.queue ++ [
            { epc := (sxPc s c t).toNat, addr := src.toNat / 8, thread := t.val, da := (pairOf s c t (sGd i)).toNat % 2 ^ 48,
              len := (x.gReg t.val (sGb i)).toNat % 4096, qdst := i.getLsbD 22, qid := sfld i 18 4 }] } }
        t (sxPc s c t + 4) (fun y => { y with moves := y.moves + 1 })))))

/-- spec/04 R113, Table 4.12: CSRR reads the thread number, the core's position, its field and the field's tick; TSTART starts
a stopped thread with its argument in G1; THALT stops the thread. CYCLE (CSR 0x020) is a free value (log 10): the claim
holds for each. -/
def Obligations.SxThreadResults : Prop :=
  ∀ (s : State) (c : CoreId) (t : Fin 4) (i : Inst32), SxRoom s c t →
    let x := s.core c
    let f := (coreField c).getD 0
    let csr := nfld i.toNat 14 18
    let n : Fin 4 := Fin.ofNat 4 (x.gReg t.val (sGa i)).toNat
    let entry := x.gReg t.val (sGb i)
    (SxAt s c t 0x38 i → csr = 0x000 → exec (.csrr c t) s = .next (sxPut s c t (sGd i) (BitVec.ofNat 32 t.val))) ∧
    (SxAt s c t 0x38 i → csr = 0x001 → exec (.csrr c t) s =
      .next (sxPut s c t (sGd i) (BitVec.ofNat 32 (c.x + c.y * 2 ^ 16)))) ∧
    (SxAt s c t 0x38 i → csr = 0x002 → exec (.csrr c t) s = .next (sxPut s c t (sGd i) (BitVec.ofNat 32 f))) ∧
    (SxAt s c t 0x38 i → csr = 0x010 → exec (.csrr c t) s = .next (s.setCore c (sxDone x t (sxPc s c t + 4) (fun y =>
      Thread.setG { y with tickHi := ((s.field f).tick).extractLsb' 32 32 } (sGd i) (((s.field f).tick).extractLsb' 0 32))))) ∧
    (SxAt s c t 0x38 i → csr = 0x011 → exec (.csrr c t) s = .next (sxPut s c t (sGd i) (x.thread t.val).tickHi)) ∧
    (SxAt s c t 0x38 i → csr = 0x020 → exec (.csrr c t) s =
      .next { sxPut s c t (sGd i) (Config.cycleCount s.freeCtr) with freeCtr := s.freeCtr + 1 }) ∧
    (SxAt s c t 0x3C i → (x.thread n.val).run = false → entry.toNat % 4 = 0 → entry.toNat < 0x8000 →
      ∃ y, exec (.tstart c t) s = .next (s.setCore c y) ∧
        (y.thread n.val).run = true ∧ (y.thread n.val).pc = entry.setWidth 15 ∧
        (y.thread n.val).gReg 1 = x.gReg t.val (sGd i) ∧ (∀ r, r % 16 ≠ 1 → (y.thread n.val).gReg r = 0) ∧
        (y.thread t.val).pc = sxPc s c t + 4 ∧
        (∀ u : Fin 4, u ≠ n → u ≠ t → y.thread u.val = x.thread u.val) ∧
        y = { x with stale := x.stale.filter (fun e => e.thread != n.val), th := y.th, sxIssue := sat1 x.sxIssue, sxLast := BitVec.ofNat 2 t.val }) ∧
    (SxAt s c t 0x3E i → ∃ y, exec (.thalt c t) s = .next (s.setCore c y) ∧
      (y.thread t.val).run = false ∧ (∀ u : Fin 4, u ≠ t → y.thread u.val = x.thread u.val) ∧
      y = { x with th := y.th, sxIssue := sat1 x.sxIssue, sxLast := BitVec.ofNat 2 t.val, prf := { x.prf with running := y.prf.running } })

namespace Sys2Proof.Claims

/-! ### MX and VX sequencers (spec/03 R76-R86, spec/04 R99-R109, spec/06 R148-R156) -/

/-- The sequencer of the core `c`, of kind `k`, stands ready at a clean word pair that holds the instruction `i` of opcode
`op`; no write that its fetch may have missed has landed there (spec/03 R87). -/
def SeqHas (s : State) (c : CoreId) (k : Kind) (op : Nat) (i : Inst128) : Prop :=
  coreKind c = k ∧ s.seqReady c = true ∧ (s.core c).pc.toNat % 2 = 0 ∧ (s.core c).pc.toNat < k.words ∧
    (s.core c).earlier 0 (s.core c).pc.toNat = [] ∧
    (s.core c).clean (s.core c).pc.toNat = true ∧ (s.core c).clean ((s.core c).pc.toNat + 1) = true ∧
    (s.core c).data ((s.core c).pc.toNat + 1) ++ (s.core c).data (s.core c).pc.toNat = i ∧
    iOpc i = op

/-- That instruction is one the sequencer accepts at decode (spec/03 R78, spec/04 R109). -/
def SeqAt (s : State) (c : CoreId) (k : Kind) (op : Nat) (i : Inst128) : Prop :=
  SeqHas s c k op i ∧ (s.core c).decodes k i = true

/-- The header of the instruction names no semaphore. -/
def NoSem (i : Inst128) : Prop := iWen i = false ∧ iSen i = false

/-- The instruction's wait, if it has one, is granted: the count is not 0 (no other engine waits here). -/
def SemFree (x : CoreState) (i : Inst128) : Prop := iWen i = true → 0 < x.semCount (iWsem i)

/-- The semaphores after the take of the instruction's header. -/
def semTaken (x : CoreState) (i : Inst128) : RegFile 4 (BitVec 8) :=
  if iWen i then x.sem.set (BitVec.ofNat 4 (iWsem i)) (x.sem.get (BitVec.ofNat 4 (iWsem i)) - 1) else x.sem

/-- An engine instruction whose command starts at once: every command queue is empty, engine `e` has nothing in progress,
and its semaphore is free. -/
def EngineAt (s : State) (c : CoreId) (k : Kind) (e op : Nat) (i : Inst128) : Prop :=
  SeqAt s c k op i ∧ (s.core c).e1.queue = [] ∧ (s.core c).e2.queue = [] ∧ (s.core c).e3.queue = [] ∧
    (s.core c).engine e = {} ∧ SemFree (s.core c) i

/-- Engine `e` of `y` has the command of `i`, and nothing else, in progress. -/
def InProgress (y : CoreState) (e : Nat) (i : Inst128) : Prop :=
  ∃ d, y.engine e = { queue := [], prog := [d], waiting := false } ∧ d.inst = i

/-- The core past the instruction `i`, with its semaphore taken: what a started command finds. -/
def issued (x : CoreState) (i : Inst128) : CoreState := { x.next with sem := semTaken x i }

/-- Word `w` of a scratchpad, all `n` words from it on clean and inside a kind's scratchpad. -/
def CleanRun (k : Kind) (x : CoreState) (ws : List Nat) : Prop := ∀ w ∈ ws, w < k.words ∧ x.clean w = true

end Sys2Proof.Claims

/-- spec/06 R150, R152, R154: a no-op of the sequencer takes the semaphore of its header's WEN, signals that of SEN at issue,
and changes nothing else; while the semaphore to take is 0 the sequencer is held on it.
And spec/03 R62, R86, Table 3.15, spec/04 Table 4.5: the register writes of the sequencers. A0 ignores writes.
And spec/03 R86: a loop begins with its COUNT, a COUNT of 0 skips the body, and at the body's end the address registers of
ADV advance by their strides and the pass counts down.
And spec/03 R76, R87: where a write has replaced a no-op that may have been fetched ahead, the old instruction is executed whole, or the
new one: a free value says which (log 4). -/
def Obligations.SeqRegistersAndLoops : Prop :=
  (
  ∀ (s : State) (c : CoreId) (k : Kind) (i : Inst128), k ≠ .sx → SeqAt s c k 0x00 i →
    let x := s.core c
    let nop : Instr := if k = .mx then .mxnop c else .vnop c
    (SemFree x i → iSen i = false → exec nop s = .next (s.setCore c (issued x i))) ∧
    (SemFree x i → iSen i = true → (semTaken x i).get (BitVec.ofNat 4 (iSsem i)) ≠ 255 →
      exec nop s = .next (s.setCore c { issued x i with
        sem := (semTaken x i).set (BitVec.ofNat 4 (iSsem i)) ((semTaken x i).get (BitVec.ofNat 4 (iSsem i)) + 1)
        semSig := sat1 x.semSig })) ∧
    (iWen i = true → x.semCount (iWsem i) = 0 →
      exec nop s = .next (s.setCore c { x with hold := .sem (iWsem i), heldInst := i }))) ∧
  (
  ∀ (s : State) (c : CoreId) (k : Kind) (e : Stale), k ≠ .sx → coreKind c = k → s.seqReady c = true →
    let x := s.core c
    let p := x.pc.toNat
    let nop : Instr := if k = .mx then .mxnop c else .vnop c
    let old := (eccDecode e.hi).data ++ (eccDecode e.lo).data
    let new := x.data (p + 1) ++ x.data p
    let y := { x with stale := x.stale.filter (fun o => !(o.thread == 0 && o.pc == p)) }
    p % 2 = 0 → p < k.words → x.earlier 0 p = [e] → x.clean p = true → x.clean (p + 1) = true →
    (eccDecode e.lo).bad = false → (eccDecode e.hi).bad = false → iOpc old = 0 → x.decodes k old = true → NoSem old → iOpc new = 0x13 →
    exec nop s = .next (if Config.fetchAge s.freeCtr % 2 = 0 then ({ s with freeCtr := s.freeCtr + 1 } : State).setCore c y.next else s)) ∧
  (
  ∀ (s : State) (c : CoreId) (i : Inst128), NoSem i →
    let x := s.core c
    let setA (r : Nat) (v : BitVec 13) : CoreState := if r = 0 then x else { x with a := x.a.set (BitVec.ofNat 3 r) v }
    let setS (r : Nat) (v : BitVec 13) : CoreState := { x with str := x.str.set (BitVec.ofNat 3 r) v }
    let r := nfld i.toNat 20 3
    let q := nfld i.toNat 45 3
    let w := ((if nfld i.toNat 24 3 = 0 then 0 else x.a.get (BitVec.ofNat 3 (nfld i.toNat 24 3))) +
      i.extractLsb' 27 13).toNat
    (SeqAt s c .mx 0x10 i → i.getLsbD 23 = false → exec (.mxseta c) s = .next (s.setCore c (setA r (i.extractLsb' 24 13)).next)) ∧
    (SeqAt s c .mx 0x10 i → i.getLsbD 23 = true → exec (.mxseta c) s = .next (s.setCore c (setS r (i.extractLsb' 24 13)).next)) ∧
    (SeqAt s c .vx 0x10 i → i.getLsbD 48 = false → exec (.vseta c) s = .next (s.setCore c (setA q (i.extractLsb' 96 13)).next)) ∧
    (SeqAt s c .vx 0x10 i → i.getLsbD 48 = true → exec (.vseta c) s = .next (s.setCore c (setS q (i.extractLsb' 96 13)).next)) ∧
    (SeqAt s c .vx 0x11 i → exec (.vsetu c) s =
      .next (s.setCore c ({ x with u := x.u.set (BitVec.ofNat 3 (nfld i.toNat 68 3)) (i.extractLsb' 96 32) } : CoreState).next)) ∧
    (SeqAt s c .mx 0x11 i → i.getLsbD 23 = false → exec (.mxsetsc c) s =
      .next (s.setCore c ({ x with sc := x.sc.set (BitVec.ofNat 3 r) (i.extractLsb' 24 32) } : CoreState).next)) ∧
    (SeqAt s c .mx 0x11 i → i.getLsbD 23 = true → CleanRun .mx x [w] → exec (.mxsetsc c) s =
      .next (s.setCore c ({ x with sc := x.sc.set (BitVec.ofNat 3 r) ((x.data w).extractLsb' 0 32) } : CoreState).next))) ∧
  (
  ∀ (s : State) (c : CoreId) (i : Inst128), NoSem i →
    let x := s.core c
    let begin_ (lvl count len : Nat) (adv : BitVec 8) : CoreState :=
      if lvl = 0 then { x with loop0 := some { start := x.pc + 2, len := len, adv := adv }, lc0 := BitVec.ofNat 16 count, pc := x.pc + 2 }
      else { x with loop1 := some { start := x.pc + 2, len := len, adv := adv }, lc1 := BitVec.ofNat 16 count, pc := x.pc + 2 }
    (SeqAt s c .mx 0x12 i → x.loopLegal (nfld i.toNat 20 1) (nfld i.toNat 37 8) = true → nfld i.toNat 21 16 ≠ 0 →
      exec (.mxloop c) s = .next (s.setCore c
        (begin_ (nfld i.toNat 20 1) (nfld i.toNat 21 16) (nfld i.toNat 37 8) (i.extractLsb' 45 8)))) ∧
    (SeqAt s c .vx 0x12 i → x.loopLegal (nfld i.toNat 45 1) (nfld i.toNat 112 8) = true → nfld i.toNat 96 16 ≠ 0 →
      exec (.vloop c) s = .next (s.setCore c
        (begin_ (nfld i.toNat 45 1) (nfld i.toNat 96 16) (nfld i.toNat 112 8) (i.extractLsb' 120 8)))) ∧
    (SeqAt s c .mx 0x12 i → x.loop0 = none → x.loop1 = none → nfld i.toNat 20 1 = 0 → nfld i.toNat 21 16 = 0 →
      exec (.mxloop c) s = .next (s.setCore c { x with pc := x.pc + 2 + BitVec.ofNat 13 (2 * nfld i.toNat 37 8) })) ∧
    (SeqAt s c .vx 0x12 i → x.loop0 = none → x.loop1 = none → nfld i.toNat 45 1 = 0 → nfld i.toNat 96 16 = 0 →
      exec (.vloop c) s = .next (s.setCore c { x with pc := x.pc + 2 + BitVec.ofNat 13 (2 * nfld i.toNat 112 8) })) ∧
    (SeqAt s c .mx 0x00 i → x.loop1 = none → ∀ l, x.loop0 = some l → x.pc + 2 = l.start + BitVec.ofNat 13 (2 * l.len) →
      ∃ y, exec (.mxnop c) s = .next (s.setCore c y) ∧
        (∀ r, r ≠ 0 → y.a.get r = if l.adv.getLsbD r.toNat then x.a.get r + x.str.get r else x.a.get r) ∧
        (if x.lc0.toNat ≤ 1 then y = { x with a := y.a, lc0 := 0, loop0 := none, pc := x.pc + 2 }
         else y = { x with a := y.a, lc0 := x.lc0 - 1, pc := l.start })))

/-- spec/07 R170, R171, spec/03 R86: queue waits and releases of the sequencers, and the halt instructions. -/
def Obligations.SeqQueuesAndHalt : Prop :=
  ∀ (s : State) (c : CoreId) (k : Kind) (i : Inst128), k ≠ .sx → NoSem i →
    let x := s.core c
    let qn := if k = .mx then nfld i.toNat 20 4 else nfld i.toNat 72 4
    let n := if k = .mx then nfld i.toNat 24 12 else nfld i.toNat 76 12
    let q := x.q.get (BitVec.ofNat 4 qn)
    let wait : Instr := if k = .mx then .mxqwait c else .vqwait c
    let rel : Instr := if k = .mx then .mxqrel c else .vqrel c
    let halt : Instr := if k = .mx then .mxhalt c else .vhalt c
    (SeqAt s c k 0x13 i → q.d.state ≠ 0 → n ≤ q.d.depth.toNat → n ≤ q.count → exec wait s = .next (s.setCore c x.next)) ∧
    (SeqAt s c k 0x13 i → q.d.state ≠ 0 → n ≤ q.d.depth.toNat → q.count < n →
      exec wait s = .next (s.setCore c { x with hold := .queue qn n, heldInst := i })) ∧
    (SeqAt s c k 0x14 i → x.e1 = {} → x.e2 = {} → x.e3 = {} → q.d.state ≠ 0 → q.d.mode = 0 → q.d.esize ≠ 0 →
      q.d.pen = false → q.d.cren = false → n ≤ q.count →
      let q' : Queue := { q with head := (q.head + n) % max 1 q.d.depth.toNat, count := q.count - n }
      exec rel s = .next (s.setCore c ({ x with q := x.q.set (BitVec.ofNat 4 qn) q' } : CoreState).next)) ∧
    (SeqAt s c k 0x14 i → x.e1.prog ≠ [] → exec rel s = .next (s.setCore c { x with hold := .release, heldInst := i })) ∧
    (SeqAt s c k 0x1F i → ∃ y, exec halt s = .next (s.setCore c y) ∧ y.halted = true ∧
      y = { x.next with halted := true, prf := { x.prf with running := y.prf.running } })

/-- spec/03 R71, R74, R81, R84: MXLDS puts its tile into the shadow buffer, MXCLRACC clears the rows it names and MXLDACC
loads them; no other entry, register or word changes. -/
def Obligations.MxTileAndAccumulatorLoads : Prop :=
  ∀ (s : State) (c : CoreId) (i : Inst128),
    let x := s.core c
    let z := issued x i
    let lo := nfld i.toNat 20 6
    let rows := nfld i.toNat 26 7
    (EngineAt s c .mx 1 0x01 i → x.shadow = none →
      let o : Operand := { base := x.addrOf (nfld i.toNat 24 3) (nfld i.toNat 27 13), pitch := nfld i.toNat 40 8,
                           tr := i.getLsbD 23, fmt := nfld i.toNat 20 3 }
      let kv := nfld i.toNat 48 4
      let nv := nfld i.toNat 52 5
      (∀ r < kv, ∀ n < nv, o.word r n < 6144 ∧ x.clean (o.word r n) = true) →
      ∃ y, exec (.mxlds c) s = .next (s.setCore c y) ∧ InProgress y 1 i ∧ y = { z with e1 := y.e1, shadow := y.shadow } ∧
        ∃ tl, y.shadow = some tl ∧ tl.fmt = o.fmt ∧ tl.kv = kv ∧ tl.nv = nv ∧
          ∀ r < kv, ∀ n < nv, tl.el[r * nv + n]? = some (widen o.fmt (o.bits x r n))) ∧
    (x.memWf = true → KMap.rising x.acc = true → EngineAt s c .mx 1 0x05 i →
      ∃ y, exec (.mxclracc c) s = .next (s.setCore c y) ∧ InProgress y 1 i ∧
        y = { z with e1 := y.e1, acc := y.acc, accFp := y.accFp } ∧
        ∀ r < 64, y.rowFp r = (if lo ≤ r ∧ r < lo + rows then i.getLsbD 33 else x.rowFp r) ∧
          ∀ e < 16, y.accGet r e = if lo ≤ r ∧ r < lo + rows then 0 else x.accGet r e) ∧
    (KMap.rising x.acc = true → EngineAt s c .mx 1 0x04 i →
      let base := x.addrOf (nfld i.toNat 34 3) (nfld i.toNat 37 13)
      let row (r : Nat) : Nat := (base + (r - lo) * nfld i.toNat 50 8) % 8192
      (∀ r, lo ≤ r → r < lo + rows → ∀ j < 32, (row r + j) % 8192 < 6144 ∧ x.clean ((row r + j) % 8192) = true) →
      ∃ y, exec (.mxldacc c) s = .next (s.setCore c y) ∧ InProgress y 1 i ∧
        y = { z with e1 := y.e1, acc := y.acc, accFp := y.accFp } ∧
        ∀ r < 64, y.rowFp r = (if lo ≤ r ∧ r < lo + rows then i.getLsbD 33 else x.rowFp r) ∧
          ∀ e < 16, y.accGet r e =
            if lo ≤ r ∧ r < lo + rows then
              (if i.getLsbD 33 then BitVec.ofNat 128 (x.elem (row r) e 32)
               else xaccNorm (x.data ((row r + 2 * e + 1) % 8192) ++ x.data ((row r + 2 * e) % 8192)))
            else x.accGet r e)

/-- spec/03 R63-R67, R71, R80, R82: entry (r, n) of an MXMMA is the accumulator (0 with START) with the products added in
order: WS and IS take row r of the broadcast operand and column n of the active tile, OS row r and column n of each step's
two operands. SWAP first makes the shadow tile the active one. No other entry changes. -/
def Obligations.MxMmaEntries : Prop :=
  ∀ (s : State) (c : CoreId) (i : Inst128), EngineAt s c .mx 1 0x02 i →
    let x := s.core c
    let os := nfld i.toNat 20 2 = 2
    let bo : Operand := { base := x.addrOf (nfld i.toNat 26 3) (nfld i.toNat 29 13), pitch := nfld i.toNat 42 8,
                          tr := i.getLsbD 25, fmt := nfld i.toNat 22 3 }
    let fo : Operand := { base := x.addrOf (nfld i.toNat 70 3) (nfld i.toNat 73 13), pitch := nfld i.toNat 86 8,
                          tr := i.getLsbD 69, fmt := nfld i.toNat 66 3 }
    let swap := i.getLsbD 64
    let tl := if swap then x.shadow.getD {} else x.active
    let count := nfld i.toNat 50 7
    let lo := nfld i.toNat 57 6
    let start := i.getLsbD 63
    let fp := decide (3 ≤ bo.fmt)
    let sf := if os then fo.fmt else tl.fmt
    let nv := if os then nfld i.toNat 98 5 else tl.nv
    let rows := if nv = 0 then 0 else if os then nfld i.toNat 94 4 else count
    let adds := if os then count else tl.kv
    let bEl (r j : Nat) : Nat := if os then bo.bits x j r else bo.bits x r j
    let tEl (j n : Nat) : Nat := if os then widen fo.fmt (fo.bits x j n) else tl.el.getD (j * tl.nv + n) 0
    (swap = true → x.shadow.isSome = true) → pairingOk bo.fmt sf = true → nv ≤ 16 → KMap.rising x.acc = true →
    (start = false → ∀ r < rows, x.rowFp (lo + r) = fp) →
    (∀ r < (if os then nfld i.toNat 94 4 else count), ∀ j < adds,
      CleanRun .mx x [if os then bo.word j r else bo.word r j]) →
    (os → ∀ j < count, ∀ n < nv, CleanRun .mx x [fo.word j n]) →
    ∃ y, exec (.mxmma c) s = .next (s.setCore c y) ∧ InProgress y 1 i ∧
      y = { issued x i with
            e1 := y.e1
            acc := y.acc
            accFp := y.accFp
            active := tl
            shadow := if swap then none else x.shadow
            mxSteps := satAdd x.mxSteps count } ∧
      ∀ r < 64, y.rowFp r = (if start = true ∧ lo ≤ r ∧ r < lo + rows then fp else x.rowFp r) ∧
        ∀ n < 16, y.accGet r n =
          if lo ≤ r ∧ r < lo + rows ∧ n < nv then
            (List.range adds).foldl (fun a j => macStep bo.fmt (widenFmt sf) a (bEl (r - lo) j) (tEl j n))
              (if start then 0 else x.accGet r n)
          else x.accGet r n

/-- spec/03 R83, spec/02 R48-R54: MXCVT completes: it writes its converted entries row by row, packed from byte 0 of each stored
row, and records each conversion's events; the accumulators stay. spec/03 R66, R83: XACC as the result's format is for XACC rows
alone. spec/03 R78, Table 3.12: an ENT above 8 for FP32 rows raises MX_ILLEGAL at decode. -/
def Obligations.MxCvtResults : Prop :=
  (
  ∀ (s : State) (c : CoreId) (i : Inst128), EngineAt s c .mx 1 0x03 i →
    let x := s.core c
    let lo := nfld i.toNat 20 6
    let rows := nfld i.toNat 26 7
    let ent := nfld i.toNat 33 5
    let d := DFmt.ofCode (nfld i.toNat 38 3)
    let scale (en lo : Nat) : Nat := if i.getLsbD en then (x.sc.get (BitVec.ofNat 3 (nfld i.toNat lo 3))).toNat else 0x3F80_0000
    let sab := mul32 (scale 45 42) (scale 49 46)
    let base := x.addrOf (nfld i.toNat 50 3) (nfld i.toNat 53 13)
    let res (r e : Nat) : Rnd := cvtEntry d (i.getLsbD 41) (x.rowFp (lo + r)) (x.accGet (lo + r) e) sab
    let beat (r : Nat) : List RowWord :=
      packWords ((base + r * nfld i.toNat 66 8) % 8192) d.width ((List.range ent).map (fun e => (res r e).bits))
    ((∃ r < rows, x.rowFp (lo + r) = true) → d ≠ .xacc) →
    (∀ r < rows, ∀ w ∈ beat r, w.w < 6144) →
    ∃ y, exec (.mxcvt c) s = .next (s.setCore c y) ∧ InProgress y 1 i ∧
      y = { issued x i with e1 := y.e1, mem := y.mem, stale := y.stale, rewrites := y.rewrites, sp := y.sp, nx := y.nx, nxCount := y.nxCount } ∧
      y.mem = ((List.range rows).foldl (fun z r => CoreState.writeBeat .mx z (beat r)) x).mem ∧
      y.nx = ((List.range rows).flatMap (fun r => (List.range ent).map (fun e => (res r e).ev))).foldl (· ||| ·) x.nx) ∧
  (
  ∀ (s : State) (c : CoreId) (i : Inst128) (r : Nat), SeqHas s c .mx 0x03 i → instLegal .mx i = true →
    let x := s.core c
    x.e1.queue = [] → 8 < nfld i.toNat 33 5 → r < nfld i.toNat 26 7 → x.rowFp (nfld i.toNat 20 6 + r) = true →
    x.err = false →
    exec (.mxcvt c) s = .next (s.setCore c { x with
      err := true
      run := false
      errCode := 0x01
      errEpc := BitVec.ofNat 15 x.pc.toNat
      errEngine := 0
      th := x.th.map (fun t => { t with run := false }) }))

namespace Sys2Proof.Claims

/-- The lane of a 32-bit element is selected by the instruction (spec/04 R94). -/
def laneOn (x : CoreState) (i : Inst128) (lane : Nat) : Bool :=
  !i.getLsbD 42 || (x.m.get (BitVec.ofNat 2 (nfld i.toNat 43 2))).getLsbD lane

/-- Vector register number in a field at bit `lo`. -/
def vAt (x : CoreState) (i : Inst128) (lo : Nat) : BitVec 1024 := x.v.get (BitVec.ofNat 5 (nfld i.toNat lo 5))

/-- After a started vector command: VXOPS counts it, and of the core only register VD and NXSTAT changed. -/
def VecDone (x y : CoreState) (i : Inst128) : Prop :=
  InProgress y 1 i ∧
    y = { issued x i with e1 := y.e1, v := x.v.set (BitVec.ofNat 5 (nfld i.toNat 20 5)) (vAt y i 20), nx := y.nx,
                          nxCount := y.nxCount, vxOps := sat1 x.vxOps }

/-- Words from a word on, wrapping at 8,192. -/
def wordsFrom (w n : Nat) : List Nat := (List.range n).map (fun j => (w + j) % 8192)

/-- Address of a VX command: A[IDX] + OFF modulo 8,192. -/
def vxWord (x : CoreState) (i : Inst128) : Nat := x.addrOf (nfld i.toNat 52 3) (nfld i.toNat 55 13)

end Sys2Proof.Claims

/-- spec/04 R92, R94, Table 4.5: VLD loads 32 lanes, or one 32-bit half of a word into every lane; VST stores the selected
lanes and leaves every other half word. -/
def Obligations.VxLoadsAndStores : Prop :=
  ∀ (s : State) (c : CoreId) (i : Inst128),
    let x := s.core c
    let w := vxWord x i
    let fn := nfld i.toNat 45 2
    (EngineAt s c .vx 1 0x20 i → CleanRun .vx x (wordsFrom w (if fn = 0 then 16 else 1)) →
      ∃ y, exec (.vld c) s = .next (s.setCore c y) ∧ VecDone x y i ∧
        ∀ j < 32, vecElem (vAt y i 20) 32 j =
          if laneOn x i j then (if fn = 0 then x.elem w j 32 else x.elem w (fn - 1) 32) else vecElem (vAt x i 20) 32 j) ∧
    (EngineAt s c .vx 1 0x21 i → x.memWf = true → CleanRun .vx x (wordsFrom w 16) →
      ∃ y, exec (.vst c) s = .next (s.setCore c y) ∧ InProgress y 1 i ∧
        y = { issued x i with e1 := y.e1, mem := y.mem, stale := y.stale, rewrites := y.rewrites, vxOps := sat1 x.vxOps } ∧
        (∀ j < 32, nfld (y.data ((w + j / 2) % 8192)).toNat (32 * (j % 2)) 32 =
          if laneOn x i j then vecElem (vAt x i 25) 32 j else nfld (x.data ((w + j / 2) % 8192)).toNat (32 * (j % 2)) 32) ∧
        ∀ a, a < 8192 → a ∉ wordsFrom w 16 → y.data a = x.data a)

/-- spec/04 R93, R94, R97, R98, Tables 4.5 and 4.6: the element-wise instructions write the selected elements of VD; every
other element keeps its value.
And spec/04 R93, Table 4.6: an integer VOP computes modulo 2^32 as the table says, and gives no numeric event. -/
def Obligations.VxElementResults : Prop :=
  (
  ∀ (s : State) (c : CoreId) (i : Inst128),
    let x := s.core c
    let ty := nfld i.toNat 40 2
    let wd := if ty = 1 ∨ ty = 2 then 16 else 32
    let elems (y : CoreState) (w : Nat) (f : Nat → Nat) : Prop :=
      ∀ j, j < 1024 / w → vecElem (vAt y i 20) w j = if laneOn x i (j * w / 32) then f j % 2 ^ w else vecElem (vAt x i 20) w j
    (EngineAt s c .vx 1 0x30 i → ∃ y, exec (.vop c) s = .next (s.setCore c y) ∧ VecDone x y i ∧
      elems y wd (fun j => (vopElem ty (nfld i.toNat 45 6) (vecElem (vAt x i 25) wd j) (vecElem (vAt x i 30) wd j)).bits)) ∧
    (EngineAt s c .vx 1 0x31 i → ∃ y, exec (.vfma c) s = .next (s.setCore c y) ∧ VecDone x y i ∧
      elems y wd (fun j => (vfmaElem ty (vecElem (vAt x i 25) wd j) (vecElem (vAt x i 30) wd j)
        (vecElem (vAt x i 35) wd j)).bits)) ∧
    (EngineAt s c .vx 1 0x35 i → ∃ y, exec (.vtr c) s = .next (s.setCore c y) ∧ VecDone x y i ∧
      elems y 32 (fun j => (vtrFn (nfld i.toNat 45 6) (vecElem (vAt x i 25) 32 j)).bits)) ∧
    (EngineAt s c .vx 1 0x38 i → ∃ y, exec (.vkey c) s = .next (s.setCore c y) ∧ VecDone x y i ∧
      elems y 32 (fun j =>
        let v := BitVec.ofNat 32 (vecElem (vAt x i 25) 32 j)
        (if ty = 3 then v ^^^ 0x8000_0000#32
         else if fpDecode fmtFP32 v.toNat = .nan then 0xFFC0_0000#32
         else if v.msb then ~~~v else v ^^^ 0x8000_0000#32).toNat)) ∧
    (EngineAt s c .vx 1 0x39 i → ∃ y, exec (.viota c) s = .next (s.setCore c y) ∧ VecDone x y i ∧
      elems y 32 (fun j => (x.u.get (BitVec.ofNat 3 (nfld i.toNat 68 3))).toNat + j))) ∧
  (
  ∀ a b : BitVec 32,
    let r (fn : Nat) : Rnd := vopElem 3 fn a.toNat b.toNat
    let is (fn : Nat) (v : BitVec 32) : Prop := r fn = { bits := v.toNat, ev := 0 }
    is 0 (a + b) ∧ is 1 (a - b) ∧ is 2 (a * b) ∧ is 3 (if b.sle a then a else b) ∧ is 4 (if a.sle b then a else b) ∧
    is 5 (if a.msb then -a else a) ∧ is 6 (-a) ∧ is 7 a ∧ is 8 (a &&& b) ∧ is 9 (a ||| b) ∧ is 10 (a ^^^ b) ∧
    is 11 (a <<< (b % 32)) ∧ is 12 (a >>> (b % 32)) ∧ is 13 (a.sshiftRight (b % 32).toNat))

/-- spec/04 R94, R95, Table 4.6: VCMP writes one bit per selected lane and clears the others, VSEL selects lane by lane, and
VRED leaves in element 0 the root of the tree over the selected elements, and 0 in every other; for the integer ADD the root
is the sum modulo 2^32.
And spec/04 R97: VCVT and VCVTX write the converted elements into their part of VD and keep every other element. The
scale is 1.0, the one enabled uniform register, or the rounded product of both. -/
def Obligations.VxCompareConvertReduce : Prop :=
  (
  ∀ (s : State) (c : CoreId) (i : Inst128),
    let x := s.core c
    let ty := nfld i.toNat 40 2
    let a (j : Nat) : Nat := vecElem (vAt x i 25) 32 j
    let b (j : Nat) : Nat := vecElem (vAt x i 30) 32 j
    (EngineAt s c .vx 1 0x32 i →
      ∃ y, exec (.vcmp c) s = .next (s.setCore c y) ∧ InProgress y 1 i ∧
        y = { issued x i with e1 := y.e1, vxOps := sat1 x.vxOps
                              m := x.m.set (BitVec.ofNat 2 (nfld i.toNat 20 2)) (y.m.get (BitVec.ofNat 2 (nfld i.toNat 20 2))) } ∧
        ∀ j < 32, (y.m.get (BitVec.ofNat 2 (nfld i.toNat 20 2))).getLsbD j =
          (laneOn x i j && cmpElem ty (nfld i.toNat 45 6) (a j) (b j))) ∧
    (EngineAt s c .vx 1 0x33 i → ∃ y, exec (.vsel c) s = .next (s.setCore c y) ∧ VecDone x y i ∧
      ∀ j < 32, vecElem (vAt y i 20) 32 j =
        if (x.m.get (BitVec.ofNat 2 (nfld i.toNat 43 2))).getLsbD j then a j else b j) ∧
    (EngineAt s c .vx 1 0x34 i →
      let fn := nfld i.toNat 45 6
      let wd := if ty = 1 ∨ ty = 2 then 16 else 32
      let leaf (j : Nat) : Option Nat := if laneOn x i (j * wd / 32) then some (vecElem (vAt x i 25) wd j) else none
      let tree := redTree (vopElem ty (if fn = 0 then 0 else fn + 2)) 6 ((List.range (1024 / wd)).map leaf, [])
      ∃ y, exec (.vred c) s = .next (s.setCore c y) ∧ VecDone x y i ∧
        (∃ root, tree.1 = [root] ∧ vecElem (vAt y i 20) wd 0 =
          (if tree.2 = [] then (redAlone ty (root.getD (redEmpty ty fn))).bits else root.getD (redEmpty ty fn)) % 2 ^ wd) ∧
        (∀ j, 0 < j → j < 1024 / wd → vecElem (vAt y i 20) wd j = 0) ∧
        (ty = 3 → fn = 0 →
          vecElem (vAt y i 20) 32 0 = ((List.range 32).map (fun j => if laneOn x i j then a j else 0)).sum % 2 ^ 32))) ∧
  (
  ∀ (s : State) (c : CoreId) (i : Inst128),
    let x := s.core c
    let u (lo : Nat) : Nat := (x.u.get (BitVec.ofNat 3 (nfld i.toNat lo 3))).toNat
    let scale := if i.getLsbD 71 then (if i.getLsbD 92 then mul32 (u 68) (u 93) else u 68)
      else if i.getLsbD 92 then u 93 else 0x3F80_0000
    let sf := DFmt.ofCode (nfld i.toNat 48 3)
    let df := DFmt.ofCode (nfld i.toNat 45 3)
    let part := nfld i.toNat 35 2
    let n := 128 / max (sf.width / 8) (df.width / 8)
    let from_ := if sf.width < df.width then part * n else 0
    let to_ := if df.width < sf.width then part * n else 0
    let w := vxWord x i
    (EngineAt s c .vx 1 0x36 i → ∃ y, exec (.vcvt c) s = .next (s.setCore c y) ∧ VecDone x y i ∧
      ∀ j, j < 1024 / df.width → vecElem (vAt y i 20) df.width j =
        if to_ ≤ j ∧ j < to_ + n then
          (convFp df (i.getLsbD 51) (srcValue sf (vecElem (vAt x i 25) sf.width (from_ + (j - to_)))) scale).bits % 2 ^ df.width
        else vecElem (vAt x i 20) df.width j) ∧
    (EngineAt s c .vx 1 0x37 i → CleanRun .vx x (wordsFrom w 64) →
      ∃ y, exec (.vcvtx c) s = .next (s.setCore c y) ∧ VecDone x y i ∧
        ∀ j, j < 1024 / df.width → vecElem (vAt y i 20) df.width j =
          if part * 32 ≤ j ∧ j < part * 32 + 32 then
            let k := j - part * 32
            (convXacc df (i.getLsbD 51) (xaccNorm (x.data ((w + 2 * k + 1) % 8192) ++ x.data ((w + 2 * k) % 8192)))
              scale).bits % 2 ^ df.width
          else vecElem (vAt x i 20) df.width j))

/-- spec/04 R101-R103, R107: SVCFG writes a descriptor that overlaps no valid list, SVCLR fills a list with empty pairs, and
SVINS and SVINSW leave the list that the procedure of R103 gives and add its counts. -/
def Obligations.VxSieveResults : Prop :=
  ∀ (s : State) (c : CoreId) (i : Inst128),
    let x := s.core c
    let n := nfld i.toNat 72 4
    let imm := nfld i.toNat 96 32
    let w := vxWord x i
    let l := x.lists.get (BitVec.ofNat 4 n)
    let k := l.km1.toNat + 1
    let at_ (j : Nat) : Nat := (l.base.toNat + j) % 8192
    let old := (List.range k).map (fun j => x.data (at_ j))
    let after (y : CoreState) (cands : List Word) : Prop :=
      let r := svProcedure l.dir l.nanpol old cands
      InProgress y 3 i ∧
        y = { issued x i with e3 := y.e3, mem := y.mem, stale := y.stale, rewrites := y.rewrites, svRej := satAdd x.svRej r.rej,
                              svDup := satAdd x.svDup r.dup, svNan := satAdd x.svNan r.nan, svInsrt := satAdd x.svInsrt r.ins } ∧
        (∀ j < k, some (y.data (at_ j)) = r.list[j]?) ∧
        ∀ a, a < 8192 → (∀ j < k, a ≠ at_ j) → y.data a = x.data a
    (EngineAt s c .vx 3 0x50 i → w + imm % 2 ^ 10 + 1 ≤ 8192 →
      (∀ m : Fin 16, m.val ≠ n → (x.lists.get (BitVec.ofNat 4 m.val)).valid = true →
        let o := x.lists.get (BitVec.ofNat 4 m.val)
        o.base.toNat + o.km1.toNat + 1 ≤ w ∨ w + imm % 2 ^ 10 + 1 ≤ o.base.toNat) →
      ∃ y, exec (.svcfg c) s = .next (s.setCore c y) ∧ InProgress y 3 i ∧
        y = { issued x i with
              e3 := y.e3
              lists := x.lists.set (BitVec.ofNat 4 n)
                { base := BitVec.ofNat 13 w, km1 := BitVec.ofNat 10 imm, dir := imm.testBit 10, ktype := imm.testBit 11,
                  nanpol := imm.testBit 12, valid := true } }) ∧
    (EngineAt s c .vx 3 0x51 i → x.memWf = true → l.valid = true →
      ∃ y, exec (.svclr c) s = .next (s.setCore c y) ∧ InProgress y 3 i ∧
        y = { issued x i with e3 := y.e3, mem := y.mem, stale := y.stale, rewrites := y.rewrites } ∧
        (∀ j < k, y.data (at_ j) = if l.dir then 0xFFFF_FFFF_FFFF_FFFF else 0x0000_0000_FFFF_FFFF) ∧
        ∀ a, a < 8192 → (∀ j < k, a ≠ at_ j) → y.data a = x.data a) ∧
    (EngineAt s c .vx 3 0x52 i → x.memWf = true → l.valid = true → CleanRun .vx x ((List.range k).map at_) →
      ∃ y, exec (.svins c) s = .next (s.setCore c y) ∧
        after y ((List.range 32).filterMap (fun j =>
          if laneOn x i j then
            some ((vAt x i 25).extractLsb' (32 * j) 32 ++ (vAt x i 30).extractLsb' (32 * j) 32) else none))) ∧
    (EngineAt s c .vx 3 0x53 i → x.memWf = true → l.valid = true → CleanRun .vx x ((List.range k).map at_) →
      CleanRun .vx x (wordsFrom w (nfld i.toNat 76 12)) →
      ∃ y, exec (.svinsw c) s = .next (s.setCore c y) ∧ after y ((wordsFrom w (nfld i.toNat 76 12)).map x.data))

/-- spec/03 R85, spec/07 R163, spec/08 Table 8.4: MXMOVE and VMOVE send their words to another core of the field as one
packet, read from consecutive scratchpad words. -/
def Obligations.MoveSendsItsWords : Prop :=
  ∀ (s : State) (c : CoreId) (k : Kind) (i : Inst128), k ≠ .sx → EngineAt s c k 2 0x08 i →
    let x := s.core c
    let len := nfld i.toNat 36 12
    let qdst := i.getLsbD 48
    let da := nfld i.toNat 64 48
    let ws := wordsFrom (x.addrOf (nfld i.toNat 20 3) (nfld i.toNat 23 13)) len
    let p : Packet := { oneWordPacket s c da (nfld i.toNat 49 4) qdst 0 with
      len := len, pay := ws.map (fun w => (x.data w, false)) }
    0 < len → CleanRun k x ws → nfld da 44 4 = 0 → nfld da 16 8 = 0 → daTarget da ≠ c → (coreField c).isSome = true →
    coreField (daTarget da) = coreField c → x.prf.requests = [] →
    ∃ y, exec (if k = .mx then .mxmove c else .vmove c) s = .next { s.setCore c y with net := s.net ++ [p] } ∧
      InProgress y 2 i ∧ y = { issued x i with e2 := y.e2 }

namespace Sys2Proof.Claims

/-- No engine of the core has a command in its queue. -/
def NoQueued (x : CoreState) : Prop := x.e1.queue = [] ∧ x.e2.queue = [] ∧ x.e3.queue = []

/-- The core's engines work: its field is clocked, its job runs, no core error stopped it. -/
def Works (s : State) (c : CoreId) : Prop :=
  ∃ f j, coreField c = some f ∧ (s.field f).run = true ∧ (s.field f).power = 0 ∧ (s.field f).gated = false ∧
    (s.field f).job = some j ∧ (s.job j).state = .running ∧ (s.core c).err = false

/-- The core issues: its engines work, no safelight interval stops its job, and STOPAT has not stopped it. -/
def Runs (s : State) (c : CoreId) : Prop :=
  Works s c ∧ (∀ j, s.coreJob c = some j → (s.job j).safelight = .idle) ∧ (s.core c).stopped = false

/-- The core with semaphore `n` of count below 255 signalled once. -/
def signalled (x : CoreState) (n : Nat) : CoreState := { withSem x n (· + 1) with semSig := sat1 x.semSig }

/-- `t` is `s` but for the core `c`, which is now `y`, and the counter of free values. -/
def CoreOnly (s t : State) (c : CoreId) (y : CoreState) : Prop := t = { s.setCore c y with freeCtr := t.freeCtr }

end Sys2Proof.Claims

/-- spec/06 R148, R152, R156: COMMAND_COMPLETE takes the command out of its engine and signals its SEN; the SX move engine
counts the move off its thread. While something of a move is held or not yet committed, the move does not complete (spec/03
Table 3.8). SPWAIT and MXSTALL take free counts (log 9). -/
def Obligations.CommandCompletion : Prop :=
  ∀ (s : State) (c : CoreId) (e n : Nat) (cmd : Cmd),
    let x := s.core c
    let k := coreKind c
    let rest := (x.engine e).prog.eraseIdx n
    Works s c → NoQueued x → x.prf.running = none → (x.engine e).prog[n]? = some cmd →
    (k ≠ .sx → e = 1 ∨ e = 2 ∨ e = 3 ∧ k = .vx → (e = 2 → x.sendPending 2 = false) →
      (iSen cmd.inst = true → x.semCount (iSsem cmd.inst) < 255) →
      ∃ t m v, exec (.commandComplete c e n) s = .next t ∧
        CoreOnly s t c { (if iSen cmd.inst then signalled x (iSsem cmd.inst) else x) with
          e1 := if e = 1 then { x.e1 with prog := rest } else x.e1
          e2 := if e = 2 then { x.e2 with prog := rest } else x.e2
          e3 := if e = 3 then { x.e3 with prog := rest } else x.e3
          sp := { x.sp with waitCount := v }
          mxStall := m } ∧ (k ≠ .mx ∨ e ≠ 1 → m = x.mxStall)) ∧
    (k = .sx → e = 2 → cmd.thread < 4 → x.sendPending 4 = false →
      ∃ t v, exec (.commandComplete c e n) s = .next t ∧ CoreOnly s t c { x with
        e2 := { x.e2 with prog := rest }
        sp := { x.sp with waitCount := v }
        th := x.th.set (BitVec.ofNat 2 cmd.thread) { x.thread cmd.thread with moves := (x.thread cmd.thread).moves - 1 } }) ∧
    (e = 2 → x.sendPending (if k = .sx then 4 else 2) = true → exec (.commandComplete c e n) s = .next s)

/-- spec/06 R149, R150, R152-R154, spec/07 R171, spec/04 R114, R115: what ends a wait. A semaphore grant takes one and the held
no-op, the waiting SEMW (of several, the first in the cyclic order after the last issue) or the head command goes on; a queue wait ends once COUNT suffices; a held MXCLRACC enters its command queue
once it has room. The counters of waits take a free count (log 9).
And spec/06 R157, Tables 6.3, 6.4: when every running SX thread waits for a semaphore that is 0 the core stops with
SEM_DEADLOCK, and SEMERR names the lowest-numbered one. Otherwise nothing changes. -/
def Obligations.CoreWaitsAndDeadlock : Prop :=
  (
  ∀ (s : State) (c : CoreId) (q n : Nat), q < 16 →
    let x := s.core c
    let k := coreKind c
    let i := x.heldInst
    let free (v : BitVec 32) (y : CoreState) : CoreState := { y with semStall := v }
    let place (t : Fin 4) : Nat := (t.val + 3 - x.sxLast.toNat) % 4
    Runs s c → x.prf.running = none →
    (k ≠ .sx → x.hold = .sem q → iOpc i = 0 → iSen i = false → 0 < x.semCount q →
      ∃ t v, exec (.semaphoreTake c 0) s = .next t ∧ CoreOnly s t c (free v { (withSem x q (· - 1)).next with hold := .none })) ∧
    (k = .sx → ∀ e : Fin 4, (x.thread e.val).run = true → (x.thread e.val).wait = .sem q → 0 < x.semCount q →
      (∀ d : Fin 4, (x.thread d.val).wait = .sem q → place e ≤ place d) → SxRoom s c e → (sxPc s c e).toNat % 4 = 0 →
      ∃ t v, exec (.semaphoreTake c e.val) s = .next t ∧
        CoreOnly s t c (free v (sxDone (withSem x q (· - 1)) e (sxPc s c e + 4) id))) ∧
    (k = .mx → ∀ cmd, x.e1 = { queue := [cmd], prog := [], waiting := true } → x.e2.queue = [] → x.e3.queue = [] →
      iOpc cmd.inst = 5 → iWsem cmd.inst = q → iWen cmd.inst = true → 0 < x.semCount q → x.hold ≠ .sem q →
      nfld cmd.inst.toNat 20 6 + nfld cmd.inst.toNat 26 7 ≤ 64 →
      ∃ t y, exec (.semaphoreTake c 1) s = .next t ∧ CoreOnly s t c y ∧ y.e1 = { queue := [], prog := [cmd], waiting := false } ∧
        y = { withSem x q (· - 1) with
              e1 := y.e1, acc := y.acc, accFp := y.accFp, semStall := y.semStall, mxStall := y.mxStall } ∧
        ∀ r < 64, ∀ e < 16, KMap.rising x.acc = true →
          y.accGet r e = if nfld cmd.inst.toNat 20 6 ≤ r ∧ r < nfld cmd.inst.toNat 20 6 + nfld cmd.inst.toNat 26 7 then 0
            else x.accGet r e) ∧
    (k ≠ .sx → x.hold = .queue q n → n ≤ (x.q.get (BitVec.ofNat 4 q)).count → iSen i = false →
      exec (.queueWaitEnd c 0) s = .next (s.setCore c { x.next with hold := .none })) ∧
    (k ≠ .sx → x.hold = .queue q n → (x.q.get (BitVec.ofNat 4 q)).count < n → exec (.queueWaitEnd c 0) s = .next s) ∧
    (k = .sx → ∀ e : Fin 4, (x.thread e.val).run = true → (x.thread e.val).wait = .queue q n →
      n ≤ (x.q.get (BitVec.ofNat 4 q)).count → SxRoom s c e → (sxPc s c e).toNat % 4 = 0 →
      exec (.queueWaitEnd c e.val) s = .next (s.setCore c (sxDone x e (sxPc s c e + 4) id))) ∧
    (k = .mx → x.hold = .full → iOpc i = 5 → x.e1.waiting = true → x.e1.queue.length < 8 → x.e2.queue = [] → x.e3.queue = [] →
      ∃ d, d.inst = i ∧ exec (.sequencerQueueRoom c 1) s = .next (s.setCore c { x.next with
        hold := .none
        e1 := { x.e1 with queue := x.e1.queue ++ [d] } })) ∧
    (k = .sx → ∀ e : Fin 4, (x.thread e.val).wait = .room → x.e2.queue.length < 8 →
      exec (.sequencerQueueRoom c e.val) s = .next (s.setCore c (sxWaiting x e .none)))) ∧
  (
  ∀ (s : State) (c : CoreId) (e : Fin 4) (q : Nat), q < 16 → coreKind c = .sx → Runs s c → (s.core c).run = true →
    let x := s.core c
    let waits (d : Fin 4) : Prop := ∃ p, (x.thread d.val).wait = .sem p ∧ x.semCount p = 0
    ((x.thread e.val).run = true → (x.thread e.val).wait = .sem q → x.semCount q = 0 → (∀ d : Fin 4, d < e → ¬ waits d) →
      (∀ d : Fin 4, (x.thread d.val).run = true → waits d) →
      exec (.semDeadlock c) s = .next (s.setCore c { x with
        err := true
        run := false
        errCode := 0x41
        errEpc := (x.thread e.val).pc
        errEngine := BitVec.ofNat 3 e.val
        th := x.th.map (fun t => { t with run := false })
        semErrSem := BitVec.ofNat 4 q
        semErrEngine := BitVec.ofNat 2 e.val
        semErrCount := 0
        semErrKind := true
        semErrValid := true })) ∧
    (((x.thread e.val).run = true ∧ ¬ waits e) → exec (.semDeadlock c) s = .next s))

namespace Sys2Proof.Claims

/-- The core's clock runs: its field is powered, clocked and not gated. -/
def Clocked (s : State) (c : CoreId) : Prop :=
  ∃ f, coreField c = some f ∧ (s.field f).run = true ∧ (s.field f).power = 0 ∧ (s.field f).gated = false

/-- Every word of the two scratchpads but `w` reads the same. -/
def SameBut (x y : CoreState) (w : Nat) : Prop := ∀ a, a ≠ w → x.dec a = y.dec a

/-- The bytes of a word under a mask: byte i comes from `new` where bit i of the mask is 1. -/
def merged (m : BitVec 8) (old new : Word) (i : Nat) : Byte :=
  if m.getLsbD i then (new >>> (8 * i)).setWidth 8 else (old >>> (8 * i)).setWidth 8

end Sys2Proof.Claims

/-- spec/05 R133, R135, R136, spec/07 R169: INBOUND_COMMIT writes the oldest waiting row, byte by byte under its mask; an
entry of a PLAIN queue of one-word entries then counts, unless it is staged (spec/09 R236). SPWAIT takes a free count (log 9).
And spec/05 R139-R141: a pending rewrite lands in its word alone; one patrol step reads one row, advances to the next and
rewrites a corrected word; while SPSCRUB.EN is 0 it does nothing. -/
def Obligations.ScratchpadEvents : Prop :=
  (
  ∀ (s : State) (c : CoreId) (r : Row) (rest : List Row) (w : RowWord), Clocked s c → s.memWf = true →
    let x := s.core c
    x.rows = r :: rest → r.words = [w] → w.w < (coreKind c).words →
    (r.kind = .plain → x.clean w.w = true → w.mask ≠ 0 →
      ∃ t y, exec (.inboundCommit c) s = .next t ∧ CoreOnly s t c y ∧
        y = { x with mem := y.mem, stale := y.stale, rewrites := y.rewrites, rows := rest, sp := y.sp } ∧ SameBut x y w.w ∧
        y.poisoned w.w = w.poison ∧
        ∀ i < 8, (y.data w.w >>> (8 * i)).setWidth 8 = merged w.mask (x.data w.w) w.data i) ∧
    (∀ q < 16, ∀ id st, r.kind = .entries q id → w.mask = 0xFF →
      let qu := x.q.get (BitVec.ofNat 4 q)
      qu.d.mode = 0 → qu.d.esize = 1 → qu.rsv = [{ id := id, entries := 1, done := 0, counted := 0, staged := st }] →
      ∃ t y, exec (.inboundCommit c) s = .next t ∧ CoreOnly s t c y ∧
        y = { x with mem := y.mem, stale := y.stale, rewrites := y.rewrites, rows := rest, sp := y.sp, q := y.q } ∧ SameBut x y w.w ∧
        y.data w.w = w.data ∧ y.poisoned w.w = w.poison ∧
        y.q = x.q.set (BitVec.ofNat 4 q) { qu with
          count := if st then qu.count else qu.count + 1
          rsv := if st then [{ id := id, entries := 1, done := 1, counted := 0, staged := true }] else [] })) ∧
  (
  ∀ (s : State) (c : CoreId), Clocked s c → s.memWf = true →
    let x := s.core c
    let k := coreKind c
    let b := x.sp.scrubRow * k.banks
    let row := (x.sp.scrubRow + 1) % k.rows
    (∀ bank w v, KMap.has x.rewrites bank = true → KMap.get (0, 0) x.rewrites bank = (w, v) → KMap.rising x.rewrites = true →
      ∃ y, exec (.correctionRewrite c bank) s = .next (s.setCore c y) ∧ KMap.get 0 y.mem w = v ∧ SameBut x y w ∧
        KMap.has y.rewrites bank = false ∧ (∀ d, d ≠ bank → KMap.has y.rewrites d = KMap.has x.rewrites d) ∧
        y = { x with mem := y.mem, rewrites := y.rewrites }) ∧
    (∀ bank, KMap.has x.rewrites bank = false → exec (.correctionRewrite c bank) s = .next (s.setCore c x)) ∧
    (x.sp.scrubEn = true → (∀ i < k.banks, x.clean (b + i) = true) →
      exec (.patrolScrub c) s = .next (s.setCore c { x with sp := { x.sp with scrubRow := row } })) ∧
    (x.sp.scrubEn = true → ∀ i < k.banks, (∀ d < k.banks, d ≠ i → x.clean (b + d) = true) →
      (x.dec (b + i)).outcome = .corrected1 → (x.dec (b + i)).poison = false → KMap.has x.rewrites i = false →
      ∃ y, exec (.patrolScrub c) s = .next (s.setCore c y) ∧
        y = { x with rewrites := y.rewrites, sp := y.sp } ∧
        KMap.get (0, 0) y.rewrites i = (b + i, eccEncode (x.data (b + i)) false) ∧
        y.sp = { x.sp with ce := true, ceCount := sat1 x.sp.ceCount, scrubRow := row
                           logWord := if x.sp.logValid then x.sp.logWord else BitVec.ofNat 14 (b + i)
                           logOutcome := if x.sp.logValid then x.sp.logOutcome else 1
                           logSource := if x.sp.logValid then x.sp.logSource else 3
                           logValid := true }) ∧
    (x.sp.scrubEn = false → exec (.patrolScrub c) s = .next s))

/-- spec/15 R407: the first POISON of a core in an exposure asks for a roll-back in place; any other error stops the job.
And spec/05 R144-R147, spec/16 R420: a wash clears the whole core, or, where a word fails, leaves SPSTAT.WASHFAIL, a closed
port and a fenced core; a core reset keeps the words, WASHFAIL with its port, and that the core is scheduled, and XPNO reads 0
(spec/09 R258). The core's field is in no partition (spec/16 Table 16.1). The SEMSTALL of a wait that the error ends is free
(log 9). -/
def Obligations.CoreResetAndErrors : Prop :=
  (
  ∀ (s : State) (c : CoreId) (j : Nat), j < 16 → s.coreJob c = some j → (s.job j).state = .running →
    (s.core c).err = true → (s.core c).errTaken = false →
    let x := s.core c
    ∃ t v, exec (.coreError c) s = .next t ∧ t.cores = (s.setCore c { x with errTaken := true, semStall := v }).cores ∧
      (∀ m, m ≠ j → t.job m = s.job m) ∧
      t = { s with cores := t.cores, jobs := t.jobs, errs := t.errs, errNext := t.errNext, flashErrs := t.flashErrs,
                   flashWait := t.flashWait, ports := t.ports, cp := t.cp, mc := t.mc, mgmt := t.mgmt, mod := t.mod
                   freeCtr := t.freeCtr } ∧
      (x.errCode.toNat ≠ 5 → (t.job j).state = .stopped ∧ (t.job j).held = false) ∧
      (x.errCode.toNat = 5 → (c, (s.job j).expNo) ∉ (s.job j).poisonAt →
        t.job j = { s.job j with holds := { (s.job j).holds with coreError := true }, inPlace := true
                                 poisonAt := (s.job j).poisonAt ++ [(c, (s.job j).expNo)] })) ∧
  (
  ∀ (s : State) (c : CoreId) (f : Nat), coreField c = some f → (s.field f).job = none → (s.field f).power = 0 →
    KMap.rising s.cores = true → c ∉ (s.field f).pendFence →
    let x := s.core c
    ((s.field f).run = true → ∃ t, exec (.wash c []) s = .next t ∧ t.core c = {} ∧
      (∀ d, d ≠ c → (coreField d).isSome → t.core d = s.core d) ∧ (∀ g, g ≠ f → t.field g = s.field g) ∧
      t = { s with cores := t.cores, fields := t.fields }) ∧
    (∀ w v, (s.field f).run = true → w < (coreKind c).words → v ≠ 0 → s.code c = 0 →
      ∃ t, exec (.wash c [(w, v)]) s = .next t ∧ t.code c = 1 ∧
        t.core c = { mem := [(w, v)], portClosed := true, sp := { washFail := true } } ∧
        (∀ d, d ≠ c → (coreField d).isSome → t.core d = s.core d ∧ t.code d = s.code d)) ∧
    (exec (.coreReset c) s = .next (s.setCore c
      { mem := x.mem, xpZero := true, portClosed := x.portClosed, sched := x.sched, sp := { washFail := x.sp.washFail } })))

/-- spec/07 R183-R187, R169, Table 7.5: the pot unit adds a contribution to its slot's word (SUM64), and the slot at the head
counts once EXPECT contributions have landed; one beyond EXPECT is refused with Q_EXCESS; a released slot gets its identity.
EPC and ENGINE of Q_EXCESS are free values (log 21). -/
def Obligations.PotEvents : Prop :=
  ∀ (s : State) (c : CoreId) (q slot : Nat) (r : Row) (w : RowWord), Clocked s c → s.memWf = true → q < 16 →
    let x := s.core c
    let qu := x.q.get (BitVec.ofNat 4 q)
    let a := qu.d.base.toNat + slot
    let n := (KMap.get {} qu.slots slot).contrib
    qu.d.mode = 2 → slot < qu.d.depth.toNat → a < (coreKind c).words →
    (x.rows = [r] → r.kind = .pot q slot → r.words = [w] → slot ∉ qu.idWrites → n < qu.d.expect.toNat → x.clean a = true →
      r.staged = false → (KMap.get {} qu.slots slot).staged = false →
      ∃ y, exec (.potCombine c) s = .next (s.setCore c y) ∧
        y = { x with mem := y.mem, stale := y.stale, rewrites := y.rewrites, rows := [], q := y.q } ∧
        y.data a = x.data a + w.data ∧ y.poisoned a = w.poison ∧ SameBut x y a ∧
        ∃ p, y.q = x.q.set (BitVec.ofNat 4 q) p ∧ KMap.get {} p.slots slot = { contrib := n + 1, staged := false } ∧
          p.acc = satAdd qu.acc 1 ∧ (slot = qu.head → (0 < p.count ↔ n + 1 = qu.d.expect.toNat))) ∧
    (x.rows = [r] → r.kind = .pot q slot → r.words = [w] → slot ∉ qu.idWrites → qu.d.expect.toNat ≤ n → x.err = false →
      r.src.counted = false →
      ∃ t, exec (.potCombine c) s = .next t ∧ (t.core c).err = true ∧ (t.core c).errCode = 0x4B ∧ (t.core c).run = false ∧
        (t.core c).qerrQueue = BitVec.ofNat 4 q ∧ (t.core c).qerrX = BitVec.ofNat 10 r.src.sx ∧ (t.core c).mem = x.mem ∧
        t.net = s.net ++ [entering s (r.src.nak c.x c.y x.epoch 3 1)] ∧
        t = { s with cores := t.cores, net := t.net, freeCtr := t.freeCtr }) ∧
    (∀ rest, qu.idWrites = slot :: rest →
      ∃ y, exec (.potIdentityWrite c q) s = .next (s.setCore c y) ∧
        y = { x with mem := y.mem, stale := y.stale, rewrites := y.rewrites, q := x.q.set (BitVec.ofNat 4 q) { qu with idWrites := rest } } ∧
        y.data a = 0 ∧ y.poisoned a = false ∧ SameBut x y a)

namespace Sys2Proof.Claims

/-- The `k`-th packet in flight is `p`, of type `ty`, for the core `c` of a partition; it is the first on its path, its route
leads there, the core is in service with its port open, and the packet is well formed. -/
def Lands (s : State) (k ty : Nat) (p : Packet) (c : CoreId) : Prop :=
  s.net[k]? = some p ∧ p.ptype = ty ∧ p.dkind = 0 ∧ p.dx = c.x ∧ p.dy = c.y ∧ (∀ o ∈ s.net.take k, samePath p o = false) ∧
    (s.route p).fin = .arrive ∧ (coreField c).isSome = true ∧ s.code c = 0 ∧ (s.core c).portClosed = false ∧
    (s.coreJob c).isSome = true ∧ p.wellFormed = true

/-- The fields, the clock of the field of the core `c` no longer gated (spec/14 R369). -/
def ungated (s : State) (c : CoreId) : State := s.modField ((coreField c).getD 0) (fun f => { f with gated := false })

/-- `t` is `s` without its `k`-th packet, with `add` handed over, the core `c` now `y` and its field not gated, and the flit
counts of the routers and hubs that the packet passed. -/
def Landed (s t : State) (k : Nat) (add : List Packet) (c : CoreId) (y : CoreState) : Prop :=
  t = { s with net := s.net.eraseIdx k ++ add.map (entering s), routers := t.routers, hubs := t.hubs
               fields := (ungated s c).fields, cores := (s.setCore c y).cores, freeCtr := t.freeCtr }

/-- `t` is `u` but for what an error record changes: the records, where they are kept, and the reports of them. -/
def RecordOnly (u t : State) : Prop :=
  t = { u with errs := t.errs, errNext := t.errNext, flashErrs := t.flashErrs, flashWait := t.flashWait, ports := t.ports
               mc := t.mc, mgmt := t.mgmt, mod := t.mod }

/-- The core with queue `n` changed. -/
def withQueue (x : CoreState) (n : Nat) (v : Queue) : CoreState := { x with q := x.q.set (BitVec.ofNat 4 n) v }

/-- The core with one more row waiting for its grant: one word at `w`, from packet `p`. -/
def rowAdded (x : CoreState) (kind : RowKind) (staged : Bool) (p : Packet) (w : RowWord) : CoreState :=
  { x with
    rows := x.rows ++ [{ words := [w], kind := kind, send := x.nextSend, own := false, staged := staged, src := { p with pay := [] } }]
    nextSend := x.nextSend + 1 }

end Sys2Proof.Claims

/-- spec/05 R126, R133, spec/08 R200, R206, spec/09 R233, R236: a WRITE of one word joins the row buffers under FMASK, staged
when it came counted from outside the field, and is counted off; a word at an unmapped offset is refused in a NAK.
And spec/07 R165, R166, R175, R176, R180, R181, R491: a queue send of one word takes the tail entry of an open PLAIN queue; one
of another EPOCH is dropped and counted; one to a closed queue is refused; one whose DA breaks the layout of spec/12 Table 12.4
is refused as UNMAPPED (R307); a credit return adds its credits. A NAK carries the core's epoch (spec/09 R248), and a packet
ungates the core's field (spec/14 R369). -/
def Obligations.WriteAndQueueArrivals : Prop :=
  (
  ∀ (s : State) (k : Nat) (p : Packet) (c : CoreId) (d : Word) (po : Bool), Lands s k 0 p c →
    let x := s.core c
    let f := (coreField c).getD 0
    let w := nfld p.da 0 16 / 8
    p.pay = [(d, po)] → daDest p.da = some (0, c.x, c.y) → nfld p.da 44 4 = 0 →
    (w < (coreKind c).words → p.counted = false → ∃ t, exec (.writeArrival k) s = .next t ∧ Landed s t k [] c
      (rowAdded x .plain false p { w := w, data := d, mask := BitVec.ofNat 8 (nfld p.h1.toNat 48 8), poison := po })) ∧
    (w < (coreKind c).words → p.counted = true → p.slot < 16 → p.srcEnd ≠ some (.field f) → ∃ t, exec (.writeArrival k) s = .next t ∧
      t = { s with net := s.net.eraseIdx k, routers := t.routers, hubs := t.hubs, fields := t.fields, freeCtr := t.freeCtr,
                   cores := (s.setCore c (rowAdded x .plain true p
                     { w := w, data := d, mask := BitVec.ofNat 8 (nfld p.h1.toNat 48 8), poison := po })).cores } ∧
      (∀ g, g ≠ f → t.field g = s.field g) ∧
      t.field f = { s.field f with
        gated := false
        delta := tset (s.field f).delta p.slot (tget 0 (s.field f).delta p.slot - 1) }) ∧
    ((coreKind c).words ≤ w → p.counted = false → ∃ t, exec (.writeArrival k) s = .next t ∧
      Landed s t k [p.nak c.x c.y x.epoch 8 1] c { x with nextSend := x.nextSend + 1, sp := { x.sp with unmap := true } })) ∧
  (
  ∀ (s : State) (k : Nat) (p : Packet) (c : CoreId) (d : Word) (po : Bool), p.qid < 16 → p.counted = false →
    let plain : Prop := nfld p.da 44 4 = 0 ∧ nfld p.da 16 8 = 0
    let x := s.core c
    let q := x.q.get (BitVec.ofNat 4 p.qid)
    let a := (q.d.base.toNat + q.tail % max 1 q.d.depth.toNat) % 8192
    let n := nfld p.h1.toNat 0 13
    (Lands s k 1 p c → plain → p.pay = [(d, po)] → p.len = 1 → nfld p.da 0 16 = 0 → p.epoch = q.d.epoch → q.d.state = 1 → q.d.mode = 0 →
      q.d.esize = 1 → q.rsv = [] → q.count < q.d.depth.toNat →
      ∃ t, exec (.qsendArrival k) s = .next t ∧ Landed s t k [] c
        (rowAdded (withQueue x p.qid { q with
            tail := (q.tail + 1) % max 1 q.d.depth.toNat
            rsv := [{ id := x.nextSend, entries := 1 }]
            acc := satAdd q.acc 1 })
          (.entries p.qid x.nextSend) false p { w := a, data := d, mask := 0xFF, poison := po })) ∧
    (Lands s k 1 p c → plain → p.epoch ≠ q.d.epoch → ∃ t, exec (.qsendArrival k) s = .next t ∧
      Landed s t k [] c (withQueue x p.qid { q with epdrop := satAdd q.epdrop 1 })) ∧
    (Lands s k 1 p c → plain → p.epoch = q.d.epoch → q.d.state = 2 → ∃ t, exec (.qsendArrival k) s = .next t ∧
      Landed s t k [p.nak c.x c.y x.epoch 0 p.len] c (withQueue x p.qid { q with drop := satAdd q.drop p.len })) ∧
    (Lands s k 1 p c → ¬ plain → ∃ t, exec (.qsendArrival k) s = .next t ∧
      Landed s t k [p.nak c.x c.y x.epoch 8 p.len] c { x with sp := { x.sp with unmap := true } }) ∧
    (Lands s k 2 p c → p.epoch = q.d.epoch → q.d.state = 1 → q.d.mode = 0 → q.d.esize = 0 → q.count + n ≤ q.d.depth.toNat →
      ∃ t, exec (.creditArrival k) s = .next t ∧
        Landed s t k [] c (withQueue x p.qid { q with count := q.count + n, acc := satAdd q.acc n })) ∧
    (Lands s k 2 p c → p.epoch ≠ q.d.epoch → ∃ t, exec (.creditArrival k) s = .next t ∧
      Landed s t k [] c (withQueue x p.qid { q with epdrop := satAdd q.epdrop 1 })))

/-- spec/08 R206-R208, R216, R217, spec/05 R126, R139: a READ of one scratchpad word is answered by RDATA with the word; RDATA
without RQ joins the row buffers, staged when it crossed a field boundary; a NAK of a queue reason counts in QNAKCNT and is logged first; a write of NETRD word 1 issues
a READ to a core of the field.
And spec/08 R216, Table 8.4: a write of NETRD word 1 by the core's program issues the READ that the two words describe. -/
def Obligations.ReadsNaksAndRemoteReads : Prop :=
  (
  ∀ (s : State) (k : Nat) (p : Packet) (c : CoreId), p.counted = false →
    let x := s.core c
    let w := nfld p.da 0 16 / 8
    let f := (coreField c).getD 0
    (Lands s k 3 p c → p.sx < 784 → daDest p.da = some (0, c.x, c.y) → nfld p.da 44 4 = 0 →
      p.len = 1 → w < (coreKind c).words → x.clean w = true →
      ∃ t, exec (.readArrival k) s = .next t ∧ Landed s t k [p.rdata c.x c.y x.epoch [(x.data w, false)]] c x) ∧
    (Lands s k 4 p c → (∀ h ∈ s.hubs, h.2.cmb = []) → p.h1.getLsbD 48 = false → w < (coreKind c).words → ∀ d po, p.pay = [(d, po)] →
      ∃ t, exec (.rdataArrival k) s = .next t ∧
        Landed s t k [] c
          (rowAdded x .plain (decide (p.srcEnd ≠ some (.field f))) p { w := w, data := d, mask := 0xFF, poison := po })) ∧
    (Lands s k 5 p c → nfld p.h1.toNat 0 4 ≤ 5 → ∃ t, exec (.nakReceive k) s = .next t ∧
      Landed s t k [] c { x with
        qnakCnt := sat1 x.qnakCnt
        qnakReason := if x.qnakValid then x.qnakReason else BitVec.ofNat 3 (nfld p.h1.toNat 0 4)
        qnakQueue := if x.qnakValid then x.qnakQueue else BitVec.ofNat 4 (nfld p.h1.toNat 4 4)
        qnakX := if x.qnakValid then x.qnakX else BitVec.ofNat 10 p.sx
        qnakY := if x.qnakValid then x.qnakY else BitVec.ofNat 10 p.sy
        qnakValid := true }) ∧
    (Lands s k 5 p c → 8 ≤ nfld p.h1.toNat 0 4 → (s.field f).nakNoted = true → x.netValid = false →
      ∃ t, exec (.nakReceive k) s = .next t ∧
        Landed s t k [] c { x with
          netNak := sat1 x.netNak
          netReason := BitVec.ofNat 4 (nfld p.h1.toNat 0 4)
          netX := BitVec.ofNat 10 p.sx
          netY := BitVec.ofNat 10 p.sy
          netValid := true })) ∧
  (
  ∀ (s : State) (c : CoreId) (v : Word), Runs s c → (s.core c).run = true →
    let w0 := (s.router c).netrd0.toNat
    let da := nfld w0 0 48
    let j := (s.coreJob c).getD 0
    nfld da 44 4 = 0 → nfld da 16 8 = 0 → coreField (daTarget da) = coreField c →
    exec (.netrd1Write c v) s = .next { s with net := s.net ++ [
      { ptype := 3
        dx := (daTarget da).x
        dy := (daTarget da).y
        sx := c.x
        sy := c.y
        epoch := (s.core c).epoch
        len := nfld w0 48 12
        qid := nfld v.toNat 14 4
        h1 := BitVec.ofNat 64 (da + nfld v.toNat 0 13 * 2 ^ 48 + nfld v.toNat 13 1 * 2 ^ 61 + nfld v.toNat 18 1 * 2 ^ 62)
        slot := j
        out := (s.field ((coreField c).getD 0)).rtHeld }] })

/-- spec/08 R217: at a hub that both the READ and its RDATA pass, the first READ of an address takes its place, and a later
one of the same exposure that allows it combines with it and leaves the network. That both pass is the model's reading (log 30).
And spec/08 R198, R212, spec/15 Table 15.7: a failed fine link is down at both its ends and its partitions roll back in place;
a router with another live link stays in service; a replay counts at the receiver. A link that does not exist changes nothing.
And spec/08 R204, R209, R211, R213: ROUTE_ARM writes the shadow tables and arms the swap, the tables in force stay, and only
error records (of the detours above the allowance) change besides; ROUTE_SWAP exchanges the tables of every router and hub of the
field once injection is held and what entered there has left, and lets in what waited. -/
def Obligations.RoutersLinksAndHubs : Prop :=
  (
  ∀ (s : State) (k hx hy : Nat) (p : Packet), s.net[k]? = some p → p.ptype = 3 → p.dkind ≤ 2 →
    (∀ o ∈ s.net.take k, samePath p o = false) → p.srcCore.isSome = true → s.passes p hx hy = true →
    let h := s.hub hx hy
    let e := s.hubExpo hx hy
    (h.cmb = [] → exec (.hubReadCombine k hx hy) s = .next (s.setHub hx hy { h with cmb := [{ lead := p, expo := e, waiters := [] }] })) ∧
    (∀ l, h.cmb = [{ lead := l, expo := e, waiters := [] }] → l ≠ p → l.da = p.da → l.len = p.len → l.slot = p.slot →
      l.dkind = p.dkind → p.h1.getLsbD 62 = true →
      exec (.hubReadCombine k hx hy) s = .next ({ s with net := s.net.eraseIdx k }.setHub hx hy
        { h with cmb := [{ lead := l, expo := e, waiters := [p] }], cmbCount := sat1 h.cmbCount })) ∧
    (∀ l, h.cmb = [{ lead := l, expo := e, waiters := [] }] → l ≠ p → l.da = p.da → l.len = p.len → l.slot = p.slot →
      l.dkind = p.dkind → p.h1.getLsbD 62 = false → exec (.hubReadCombine k hx hy) s = .next s)) ∧
  (
  ∀ (s : State) (c : CoreId) (d : Nat), d < 4 → (coreField c).isSome = true →
    let n : Nat × Nat := (stepDir c.x c.y d).getD (0, 0)
    let b : CoreId := { x := n.1, y := n.2 }
    let live (r : CoreId) (not_ : Nat) : Prop := ∃ e < 4, e ≠ not_ ∧ (s.router r).down.getLsbD e = false ∧
      (∃ m, stepDir r.x r.y e = some m ∧ (coreField { x := m.1, y := m.2 }).isSome = true)
    ((stepDir c.x c.y d).isSome = true → (coreField b).isSome = true → ∃ t, exec (.linkDown (.fine c d)) s = .next t ∧
      (∀ e < 4, (t.router c).down.getLsbD e = ((s.router c).down.getLsbD e || e == d)) ∧
      (∀ e < 4, (t.router b).down.getLsbD e = ((s.router b).down.getLsbD e || e == (d + 2) % 4)) ∧
      (∀ r, r ≠ c → r ≠ b → (coreField r).isSome → t.router r = s.router r) ∧
      (∀ j < 16, s.coreJob c = some j ∨ s.coreJob b = some j → (s.job j).state = .running →
        (t.job j).inPlace = true ∧ (t.job j).holds.fault = true) ∧
      t.cores = s.cores ∧ t.net = s.net ∧ t.hubs = s.hubs ∧ t.stk = s.stk ∧
      (∀ g, t.field g = { s.field g with reports := (t.field g).reports, busy := (t.field g).busy }) ∧
      (live c d → live b ((d + 2) % 4) → t.fields = s.fields)) ∧
    ((stepDir c.x c.y d).isSome = true → (coreField b).isSome = true →
      exec (.flitReplay (.fine c d) false) s = .next (s.setRouter c { s.router c with linkRpl := sat1 (s.router c).linkRpl }) ∧
      exec (.flitReplay (.fine c d) true) s = .next (s.setRouter b { s.router b with linkRpl := sat1 (s.router b).linkRpl })) ∧
    (centralOf c = c → exec (.flitReplay (.attach c) true) s = .next
      (s.setHub (c.x / 16) (c.y / 16) { s.hub (c.x / 16) (c.y / 16) with rpl := sat1 (s.hub (c.x / 16) (c.y / 16)).rpl })) ∧
    ((coreField b).isNone = true ∨ (stepDir c.x c.y d).isNone = true → exec (.linkDown (.fine c d)) s = .next s ∧
      ∀ far, exec (.flitReplay (.fine c d) far) s = .next s)) ∧
  (
  ∀ (s : State) (f : Nat), f < 60 →
    (∀ c ex fk, coreField c = some f → ∃ t, exec (.routeArm f [.router c ex fk]) s = .next t ∧
      (∀ i < 8, KMap.get 0 (t.router c).exS i = ex.getD i 0) ∧ (∀ i < 16, KMap.get 0 (t.router c).fkS i = fk.getD i 0) ∧
      (∀ r, (t.router r).exA = (s.router r).exA ∧ (t.router r).fkA = (s.router r).fkA) ∧
      t.field f = { s.field f with rtArmed := true, rtMissArmed := (t.field f).rtMissArmed } ∧ (∀ g, g ≠ f → t.field g = s.field g) ∧
      RecordOnly { s with routers := t.routers, hubs := t.hubs, fields := t.fields } t) ∧
    ((s.field f).rtArmed = true → (s.field f).rtHeld = true →
      (∀ p ∈ s.net, s.entryField p = some f → p.out = true ∨ ∃ q, p.pos = some q ∧ q.at_.field ≠ some f) →
      ∃ t, exec (.routeSwap f) s = .next t ∧
        (∀ c, coreField c = some f → (t.router c).exA = (s.router c).exS ∧ (t.router c).exS = (s.router c).exA ∧
          (t.router c).fkA = (s.router c).fkS ∧ (t.router c).fkS = (s.router c).fkA) ∧
        (∀ c, (coreField c).isSome = true → coreField c ≠ some f → t.router c = s.router c) ∧
        t.field f = { s.field f with rtActive := !(s.field f).rtActive, rtArmed := false, rtHeld := false
                                     rtMissing := (s.field f).rtMissArmed } ∧
        (∀ g, g ≠ f → t.field g = s.field g) ∧
        t.net = s.net.map (fun p => if s.entryField p = some f then { p with out := false } else p) ∧
        t = { s with routers := t.routers, hubs := t.hubs, fields := t.fields, net := t.net }) ∧
    ((s.field f).rtArmed = true → (∃ p ∈ s.net, s.entryField p = some f ∧ p.out = false ∧ p.pos = none) →
      exec (.routeSwap f) s = .next s))

namespace Sys2Proof.Claims

/-- The job is RUNNING, in no safelight interval and not in a roll-back. -/
def RunningJob (s : State) (j : Nat) : Prop := j < 16 ∧ (s.job j).state = .running ∧ (s.job j).rolled = false

/-- Nothing holds a develop point but LATE or a PAUSE (spec/09 Table 9.3). -/
def NoHold (s : State) (j : Nat) : Prop :=
  (s.job j).holds.fault = false ∧ (s.job j).holds.coreError = false ∧ (s.job j).holds.test = false ∧ s.mod.tsPresent = true ∧
    s.mod.supply ≠ .warning

/-- What the tree shows lets a develop point fall (spec/09 R232, R234): every working field's scheduled cores are done, the
proofs of this exposure have their results, and the counts add up to 0. -/
def TreeShows (s : State) (j : Nat) : Prop :=
  (∀ f ∈ (s.job j).workFields, (∀ e ∈ (s.field f).prfPend, (s.job j).expNo < e.2.2) ∧
    ∀ c ∈ s.schedCores j, coreField c = some f → (s.core c).part = true → s.code c = 0 → (s.core c).done = true) ∧
  s.deltaSum j = 0

end Sys2Proof.Claims

/-- spec/09 R229, R231, R245: a write of XPDONE sets DONE, and stops the core when STOPAT is set; while DONE is 1 it waits, and
takes effect in the next exposure. -/
def Obligations.XpdoneWrites : Prop :=
  ∀ (s : State) (c : CoreId) (e : Nat), Runs s c → (s.core c).run = true →
    let x := s.core c
    (x.done = false → exec (.xpdone c e) s = .next (s.setCore c { x with done := true, stopped := x.stopat })) ∧
    (x.done = true → exec (.xpdone c e) s = .next (s.setCore c { x with xpdWait := x.xpdWait ++ [e] })) ∧
    (∀ rest, x.xpdWait = e :: rest → x.done = false → coreKind c ≠ .sx →
      exec (.xpdoneDeferred c) s = .next (s.setCore c { x with xpdWait := rest, done := true, stopped := x.stopat })) ∧
    (∀ rest (t : Fin 4), x.xpdWait = t.val :: rest → x.done = false → coreKind c = .sx → (x.thread t.val).wait = .xpdone →
      exec (.xpdoneDeferred c) s = .next (s.setCore c
        { sxWaiting x t .none with xpdWait := rest, done := true, stopped := x.stopat })) ∧
    (x.xpdWait ≠ [] → x.done = true → exec (.xpdoneDeferred c) s = .next s)

/-- spec/09 R227, R228, R235, R236, R251: at the develop point the next exposure begins at TICK, every scheduled core's DONE
and held packets clear, staged entries count, and LASTCKPT follows a checkpoint exposure.
And spec/09 R226, R237-R239, Tables 9.3, 9.4: a develop point that PAUSE, or a count that is not 0, holds back is held and
counts in XPHOLDS; PAUSE takes effect there; LATE ticks above HOLD_MAX stop the job with an overrun record. -/
def Obligations.DevelopPoints : Prop :=
  (
  ∀ (s : State) (j : Nat), RunningJob s j → NoHold s j → TreeShows s j → (s.job j).safelight = .idle → (s.job j).sched ≤ s.now →
    (s.job j).pauseReq = false → (s.job j).preemptReq = false → s.mod.replace = false → (s.job j).commitReq = false →
    let q := s.job j
    let spacing := max 1 q.image.ckptSpacing
    ∃ t, exec (.developPoint j []) s = .next t ∧
      ((t.job j).expNo = q.expNo + 1 ∧ (t.job j).begin_ = s.now ∧ (t.job j).sched = s.now + q.expLen ∧ (t.job j).lastDev = s.now ∧
        (t.job j).held = false ∧ (t.job j).lateTicks = 0 ∧ (t.job j).state = .running ∧
        (t.job j).lastCkpt = if (q.expNo + 1) % spacing = 0 then q.expNo + 1 else q.lastCkpt) ∧
      (∀ m, m ≠ j → t.job m = s.job m) ∧
      (∀ c ∈ s.schedCores j, (t.core c).done = false ∧ (t.core c).held = [] ∧ (t.core c).mem = (s.core c).mem ∧
        (t.core c).sem = (s.core c).sem) ∧
      (∀ c ∈ s.schedCores j, ∀ n < 16, ∀ id,
        let u := (s.core c).q.get (BitVec.ofNat 4 n)
        u.d.mode = 0 → u.d.esize = 1 → u.slots = [] → u.rsv = [{ id := id, entries := 1, done := 1, counted := 0, staged := true }] →
        ((t.core c).q.get (BitVec.ofNat 4 n)) = { u with rsv := [], count := u.count + 1 }) ∧
      t = { s with cores := t.cores, jobs := t.jobs, fields := t.fields, stk := t.stk, dieDelta := t.dieDelta, net := t.net,
                   ports := t.ports, cp := t.cp, freeCtr := t.freeCtr }) ∧
  (
  ∀ (s : State) (j : Nat), RunningJob s j → (s.job j).safelight = .idle →
    let q := s.job j
    (q.held = false → q.sched ≤ s.now → (q.pauseReq = true ∨ s.deltaSum j ≠ 0) → q.allFields.Nodup →
      ∃ t, exec (.developHold j) s = .next t ∧
        t.job j = { q with held := true, waitAll := (t.job j).waitAll
                           warnFrom := if s.mod.supply = .warning then some s.mod.ctl else none } ∧
        (∀ f < 60, t.field f = if f ∈ q.allFields then { s.field f with xpHolds := sat1 (s.field f).xpHolds } else s.field f) ∧
        (∀ m, m ≠ j → t.job m = s.job m) ∧ t = { s with jobs := t.jobs, fields := t.fields }) ∧
    (q.sched ≤ s.now → s.deltaSum j ≠ 0 → exec (.developPoint j []) s = .next s) ∧
    (NoHold s j → TreeShows s j → q.sched ≤ s.now → q.pauseReq = true →
      ∃ t, exec (.developPoint j []) s = .next t ∧ (t.job j).state = .paused ∧ (t.job j).pauseReq = false ∧
        (t.job j).held = true ∧ (t.job j).expNo = q.expNo ∧ t.cores = s.cores ∧ t.net = s.net) ∧
    (q.held = true → q.holdMax < q.lateTicks →
      ∃ t r, exec (.overrun j) s = .next t ∧ (t.job j).state = .stopped ∧ (t.job j).overrun = some r ∧
        r.expNo = q.expNo ∧ r.sched = q.sched ∧ r.stopTick = s.now ∧ r.holdMax = q.holdMax ∧ r.sum = s.deltaSum j ∧
        t.cores = s.cores ∧ t.net = s.net ∧ t.fields = s.fields) ∧
    (q.lateTicks ≤ q.holdMax → exec (.overrun j) s = .next s))

/-- spec/09 R253, R255: a roll-back in place advances the epochs, clears every count of the slot and every packet of it bound
for a core; a lost working field without a fault overlay pauses the job instead. The restart begins exposure LASTCKPT. While no
control processor runs neither happens (spec/01 R15), nor while a vote is open (spec/15 R400). -/
def Obligations.RollBacks : Prop :=
  ∀ (s : State) (j : Nat), j < 16 → (s.job j).state = .running →
    let q := s.job j
    let noVote : Prop := ∀ f ∈ q.workFields, (s.field f).votes = []
    (s.cpRuns = true → noVote → q.faultFields = [] → q.inPlace = true → q.noCover = false →
      ∃ t, exec (.rollBack j []) s = .next t ∧ (t.job j).rolled = true ∧ (t.job j).epochAdd = (q.epochAdd + 1) % 4 ∧
        (t.job j).inPlace = false ∧ (t.job j).holds.coreError = false ∧ (t.job j).held = false ∧ (t.job j).expNo = q.expNo ∧
        (t.job j).state = .running ∧ t.deltaSum j = 0 ∧ (∀ p ∈ t.net, p.slot = j → p.dkind = 0 → p.ptype = 6) ∧
        (∀ m, m ≠ j → t.job m = s.job m)) ∧
    (∀ f, s.cpRuns = true → noVote → q.faultFields = [f] → some f ∈ q.fields → some f ∉ q.spareFields → q.ovActive = [] → q.noCover = false →
      q.safelight = .idle →
      ∃ t, exec (.rollBack j []) s = .next t ∧ (t.job j).state = .paused ∧ (t.job j).noCover = true ∧ (t.job j).held = true ∧
        t.cores = s.cores ∧ t.net = s.net) ∧
    (s.cpRuns = true → q.rolled = true → q.faultFields = [] → q.inPlace = false → q.log = [] →
      ∃ t, exec (.rollbackRestart j) s = .next t ∧ (t.job j).expNo = q.lastCkpt ∧ (t.job j).rolled = false ∧
        (t.job j).sched = s.now + q.expLen ∧ t.deltaSum j = 0 ∧
        (∀ c ∈ s.schedCores j, (t.core c).run = true ∧ (coreKind c ≠ .sx → (t.core c).pc = (s.core c).entry)) ∧ t.net = s.net) ∧
    (s.cpRuns = false → exec (.rollBack j []) s = .next s ∧ exec (.rollbackRestart j) s = .next s) ∧
    ((∃ f ∈ q.workFields, (s.field f).votes ≠ []) → exec (.rollBack j []) s = .next s)

/-- spec/15 R397, R398, Table 15.10: with proofing off for the exposure a begin mark opens an unsampled tile and an end mark
closes it; with PRFCFG.EN at 0 a mark does nothing. A sampled tile is counted, awaited, and its run request waits.
And spec/15 R399, R412: a run request reaches its proofer once the input copies sent before it have arrived (spec/08 R201) and
while fewer than four wait there; the oldest starts once the proofer
is halted, at the request's entry address. -/
def Obligations.ProofMarksAndRuns : Prop :=
  (
  ∀ (s : State) (c : CoreId) (d : BitVec 8) (f j : Nat), Runs s c → (s.core c).run = true → coreField c = some f →
    (s.field f).job = some j →
    let x := s.core c
    let e := (s.job j).expNo + (if x.done then 1 else 0)
    let n : BitVec 12 := if x.prf.tileExpo = e then x.prf.tileno + 1 else 1
    let a := (x.prf.table.toNat + 2 * d.toNat) % 8192
    let w0 := (x.data a).toNat
    let w1 := (x.data ((x.prf.table.toNat + 2 * d.toNat + 1) % 8192)).toNat
    (x.prf.en = false → exec (.prfmarkBegin c d) s = .next s ∧ exec (.prfmarkEnd c) s = .next s) ∧
    (x.prf.en = true → (s.job j).proof = [] → exec (.prfmarkBegin c d) s = .next (s.setCore c { x with
      prf := { x.prf with isOpen := true, sampled := false, d := d, tileno := n, tileExpo := e } })) ∧
    (x.prf.en = true → x.prf.isOpen = true → x.prf.sampled = false →
      exec (.prfmarkEnd c) s = .next (s.setCore c { x with prf := { x.prf with isOpen := false } })) ∧
    (∀ code seed, x.prf.en = true → (s.job j).proof = [(0, code, seed)] →
      proofSampled (s.field f).logical (c.y % 128) (c.x % 96) e (if x.prf.tileExpo = e then x.prf.tileno.toNat else 0) code seed = true →
      x.clean a = true →
      x.clean ((x.prf.table.toNat + 2 * d.toNat + 1) % 8192) = true → nfld w0 13 13 = 0 → nfld w0 39 13 = 0 → f < 60 →
      x.prf.px.toNat < 768 → coreField { x := x.prf.px.toNat, y := x.prf.py.toNat } = some f →
      exec (.prfmarkBegin c d) s = .next ((s.setCore c { x with
        prf := { x.prf with
          isOpen := true
          sampled := true
          d := d
          tileno := n
          tileExpo := e
          count := sat1 x.prf.count
          requests := x.prf.requests ++ [({ x := x.prf.px.toNat, y := x.prf.py.toNat },
            { entry := BitVec.ofNat 13 (nfld w1 21 13), cx := BitVec.ofNat 10 c.x, cy := BitVec.ofNat 10 c.y, d := d })] } }).modField f
        (fun g => { g with prfS := sat1 g.prfS, prfPend := g.prfPend ++ [(c, d, e)] })))) ∧
  (
  ∀ (s : State) (c p : CoreId) (req : RunReq) (rest : List (CoreId × RunReq)), NoQueued (s.core c) →
    let x := s.core c
    let y := s.core p
    (x.prf.requests = (p, req) :: rest → coreField p = coreField c → coreHub p = coreHub c → (coreField c).isSome = true → p ≠ c →
      y.prf.runq.length < 4 →
      (∀ m ∈ s.net, m.srcCore = some c → m.dkind = 0 → m.dstCore = p → m.isResponse = true) →
      exec (.prfrun c) s = .next ((s.setCore c { x with prf := { x.prf with requests := rest } }).setCore p
        { y with prf := { y.prf with runq := y.prf.runq ++ [req] } })) ∧
    (x.prf.requests = (p, req) :: rest → coreField p = coreField c → coreHub p = coreHub c → 4 ≤ y.prf.runq.length →
      exec (.prfrun c) s = .next s) ∧
    (∀ l, x.prf.runq = req :: l → x.prf.held = false → x.prf.running = none → Runs s c → coreKind c ≠ .sx → x.halted = true →
      x.e1.prog = [] → x.e2.prog = [] → x.e3.prog = [] →
      exec (.proofRunStart c) s = .next (s.setCore c { x with
        run := true
        halted := false
        pc := req.entry
        prf := { x.prf with runq := l, running := some req, count := sat1 x.prf.count } })) ∧
    (x.prf.running.isSome = true → exec (.proofRunStart c) s = .next s))

/-- spec/15 R399, R400, Table 15.6: a comparison that agrees ends the tile; one that does not starts the vote, which holds the
develop point; the voter's comparison is the vote's result; the vote fences the core that was wrong and raises the
replacement advisory. -/
def Obligations.ComparisonsAndVotes : Prop :=
  ∀ (s : State) (c : CoreId) (v : Word) (req : RunReq) (f : Nat), Runs s c → (s.core c).run = true → coreField c = some f → f < 60 →
    (s.core c).prf.running = some req →
    let x := s.core c
    let g := s.field f
    let n := nfld v.toNat 26 8 + 1
    let a (i : Nat) : Nat := (nfld v.toNat 0 13 + i) % 8192
    let b (i : Nat) : Nat := (nfld v.toNat 13 13 + i) % 8192
    let primary : CoreId := { x := req.cx.toNat, y := req.cy.toNat }
    let same : Prop := ∀ i < n, x.data (a i) = x.data (b i)
    let mine (w : Vote) : Bool := w.voter == c && w.primary == primary && w.d == req.d && w.result.isNone
    (∀ i < n, x.clean (a i) = true ∧ x.clean (b i) = true) →
    (g.votes.any mine = false → same → exec (.prfcmp c v) s = .next ((s.setCore c x).modField f (fun h =>
      { h with prfPend := h.prfPend.eraseP (fun e => e.1 == primary && e.2.1 == req.d) }))) ∧
    (g.votes.any mine = false → ¬ same → ∃ t, exec (.prfcmp c v) s = .next t ∧ (t.field f).prfM = sat1 g.prfM ∧
      (t.field f).votes = g.votes ++ [{ primary := primary, proofer := c, voter := { x := (s.core primary).prf.vx.toNat
                                                                                     y := (s.core primary).prf.vy.toNat }, d := req.d }] ∧
      (t.core c).prf.held = true ∧ (∀ j < 16, g.job = some j → (t.job j).holds.fault = true) ∧ t.mod = s.mod) ∧
    (g.votes.any mine = true → exec (.prfcmp c v) s = .next ((s.setCore c x).modField f (fun h =>
      { h with votes := h.votes.map (fun w => if mine w then { w with result := some (decide same) } else w) }))) ∧
    (∀ w r rest, g.votes = w :: rest → w.result = some r → s.code w.proofer = 0 → s.code w.primary = 0 → w.proofer ≠ w.primary →
      (coreField w.proofer).isSome → (coreField w.primary).isSome →
      ∃ t, exec (.voteComplete f) s = .next t ∧ (t.field f).votes = rest ∧ (t.field f).voteValid = true ∧
        (t.field f).voteFaulty = (!r) ∧ t.code w.proofer = (if r then 1 else 0) ∧ t.code w.primary = (if r then 0 else 1) ∧
        t.mod.replace = true ∧ t.cores = s.cores ∧ t.net = s.net)

/-- spec/13 R352, Table 13.10: a core's JOBACK ends the input it names: OK for reason 0, INPUT_REFUSED otherwise, with the
reason. -/
def Obligations.JobAnswers : Prop :=
  ∀ (s : State) (c : CoreId) (v : Word) (p : Packet) (f j : Nat) (i : InputSent) (e : Entry), s.net = [p] → p.ptype = 0 → p.dkind = 3 →
    p.dx = f → p.sx = c.x → p.sy = c.y → coreField c = some f → p.len = 1 → p.pay = [(v, false)] → p.wellFormed = true →
    p.counted = false → nfld p.da 44 4 = 3 → nfld p.da 0 17 = 0x1F00 → (s.route p).fin = .arrive → (s.field f).job = some j → j < 16 →
    (s.job j).inputs = [i] → nfld v.toNat 0 32 = i.num → s.entry i.entry = some e →
    let reason := nfld v.toNat 32 16
    ∃ t u : State, exec (.joback c v) s = .next t ∧ t = u.complete e (if reason = 0 then 0 else 0xD) (leBytes 2 reason) ∧
      u = { s with net := [], routers := u.routers, hubs := u.hubs, freeCtr := u.freeCtr
                   jobs := (s.modJob j (fun q => { q with inputs := [] })).jobs }

namespace Sys2Proof.Claims

/-- The port serves TLPs: its link is up, the start sequence has readied it, and it is not in D3hot (spec/12 R302, R331). -/
def Serves (s : State) (p : Port) : Prop := (s.port p).linkUp = true ∧ (s.port p).ready = true ∧ (s.port p).d3 = false

/-- A host of the port owns the module (spec/12 R326). -/
def Owns (s : State) (p : Port) : Prop := ∃ n, s.cp.owner = some (p, n)

/-- Window `i` of a port is `w` and it is the only one open. -/
def OnlyWindow (x : PortState) (i : Nat) (w : InWin) : Prop := i < 64 ∧ ∀ m < 64, tget none x.inWin m = if m = i then some w else none

/-- The window holds the `len` bytes from BAR2 offset `off` for a requester, with the permissions `perm`. -/
def WindowHolds (w : InWin) (req : BitVec 16) (off len : Nat) : Prop :=
  w.base ≤ off ∧ off + len ≤ w.base + w.size ∧ (req ^^^ w.reqId) &&& w.reqMask = 0 ∧ w.closing = false

/-- The port's one outbound window is `w`. -/
def OnlyOutWindow (x : PortState) (i : Nat) (w : OutWin) : Prop := i < 64 ∧ ∀ m < 64, tget none x.outWin m = if m = i then some w else none

/-- The `k`-th packet in flight is `p`, of type `ty`, and reaches companion die `d`, well formed and not counted. -/
def LandsAtDie (s : State) (k ty : Nat) (p : Packet) (d : Port) : Prop :=
  s.net[k]? = some p ∧ p.ptype = ty ∧ p.dkind = 2 ∧ p.dx = d.num ∧ (∀ o ∈ s.net.take k, samePath p o = false) ∧
    (s.route p).fin = .arrive ∧ p.wellFormed = true ∧ p.counted = false

/-- `t` is `s` without its `k`-th packet, with `add` handed over, port `d` now `x`, and the passed routers' and hubs' counts. -/
def LandedAtDie (s t : State) (k : Nat) (add : List Packet) (d : Port) (x : PortState) : Prop :=
  t = { s with net := s.net.eraseIdx k ++ add.map (entering s), routers := t.routers, hubs := t.hubs, freeCtr := t.freeCtr
               ports := (s.modPort d (fun _ => x)).ports }

end Sys2Proof.Claims

/-- spec/00 R12, Table 0.4, spec/12 R306, R334, R495, Table 12.10: a host's write of its own BAR0 clears W1C bits and stores RW
fields, a read-only register ignores it, and one of a control view is discarded and counted in WRDENY; a core writes its own registers; the configuration path
writes RTCFG.XMIN. -/
def Obligations.RegisterWrites : Prop :=
  ∀ (s : State) (p : Port) (c : CoreId) (v : Word),
    let x := s.core c
    (Serves s p → exec (.registerWrite (.bar0 p) c 0x18 v) s = .next (s.modPort p (fun y => { y with evt := y.evt &&& ~~~(v.extractLsb' 0 7) }))) ∧
    (Serves s p → exec (.registerWrite (.bar0 p) c 0x20 v) s = .next (s.modPort p (fun y => { y with evtEn := v.extractLsb' 0 7 }))) ∧
    (Serves s p → exec (.registerWrite (.bar0 p) c 0x200 v) s = .next (s.modPort p (fun y => { y with ctlAddr := v.extractLsb' 0 48 }))) ∧
    (Serves s p → exec (.registerWrite (.bar0 p) c 0x10 v) s = .next s) ∧
    (Serves s p → ∀ a, exec (.registerWrite (.view p) c a v) s = .next (s.modPort p (fun y => { y with wrDeny := sat1 y.wrDeny }))) ∧
    (Runs s c → x.run = true → exec (.registerWrite .wafer c 0x130 v) s =
      .next (s.setCore c { x with sp := { x.sp with scrubEn := v.getLsbD 0, scrubPeriod := v.extractLsb' 4 8 } })) ∧
    (Runs s c → x.run = true → coreKind c ≠ .sx → exec (.registerWrite .wafer c 0x180 v) s =
      .next (s.setCore c { x with nx := x.nx &&& ~~~(v.extractLsb' 0 7) })) ∧
    (Runs s c → x.run = true → exec (.registerWrite .wafer c 0xE40 v) s =
      .next (s.setRouter c { s.router c with netrd0 := v })) ∧
    ((coreField c).isSome = true → exec (.registerWrite .cp c 0xE08 v) s =
      .next (s.setRouter c { s.router c with xmin := v.extractLsb' 0 6 }))

/-- spec/00 R12, R13, spec/09 R259, spec/12 R304, R334: a host's read of a register of BAR0 or of CTLDATA is answered with its value, and
clears an RC field for the owner alone; BAR4 shows the MSI-X table and changes nothing (spec/12 R324); a read of XPTICKLO loads the latch of
its path; CTLDATA answers with the register CTLADDR names and clears it for the owner; a reserved offset answers ones and counts
in RDDENY.
And spec/00 R7, spec/12 R301, R302: a configuration request is answered with Request Retry Status until the port is ready; then a
read delivers its register, the Device Serial Number among them, and a write of the command register sets memory and bus master
enables. -/
def Obligations.RegisterReadsAndConfig : Prop :=
  (
  ∀ (s : State) (p : Port) (c : CoreId) (f tag : Nat), Serves s p → f < 60 →
    let x := s.core c
    let a := (s.port p).ctlAddr.toNat
    let deny : Tx := .cpl tag .sc [((s.port p).wrDeny.setWidth 64, false)]
    (Owns s p → exec (.clearingRead (.bar0 p) tag 0x28) s = .next (s.modPort p (fun y => { y with wrDeny := 0, tx := y.tx ++ [deny] }))) ∧
    (¬ Owns s p → exec (.clearingRead (.bar0 p) tag 0x28) s = .next (s.modPort p (fun y => { y with tx := y.tx ++ [deny] })) ∧
      ∀ r, ∃ u, exec (.clearingRead (.bar0 p) tag r) s = .next (s.modPort p (fun y => { y with tx := y.tx ++ [.cpl tag .sc [(u, false)]] }))) ∧
    (∀ v < 64, exec (.clearingRead (.bar4 p) tag (16 * v)) s = .next (s.modPort p (fun y =>
      { y with tx := y.tx ++ [.cpl tag .sc [(BitVec.ofNat 64 ((s.port p).vec v).addr, false)]] }))) ∧
    (exec (.clearingRead (.ctlData p) tag a) s = exec (.ctldataRead p tag) s) ∧
    (∀ r, exec (.clearingRead (.view p) tag r) s = .next s ∧ exec (.clearingRead .wafer tag r) s = .next s) ∧
    (daDest a = some (0, c.x, c.y) → nfld a 44 4 = 2 → nfld a 0 13 = 0x110 →
      (s.cp.owner.isSome = true → s.cp.active.isSome = true → exec (.clearingRead .cp tag a) s =
        .next (s.setCore c { x with sp := { x.sp with ceCount := 0 } })) ∧
      (s.cp.owner = none → exec (.clearingRead .cp tag a) s = .next s)) ∧
    (exec (.xptickloRead (.view p) f) s = .next (s.modField f (fun y =>
      { y with tickHi := tset y.tickHi p.num (y.tick.extractLsb' 32 32) }))) ∧
    (exec (.xptickloRead .wafer f) s = .next (s.modField f (fun y => { y with tickHi := tset y.tickHi 2 (y.tick.extractLsb' 32 32) }))) ∧
    (daDest a = some (0, c.x, c.y) → nfld a 44 4 = 2 → nfld a 0 13 = 0x110 → Owns s p → exec (.ctldataRead p tag) s =
      .next ((s.setCore c { x with sp := { x.sp with ceCount := 0 } }).modPort p (fun y =>
        { y with tx := y.tx ++ [.cpl tag .sc [(x.sp.ceCount.setWidth 64, false)]] }))) ∧
    (daDest a = some (0, c.x, c.y) → nfld a 44 4 = 2 → nfld a 0 13 = 0x110 → ¬ Owns s p → exec (.ctldataRead p tag) s =
      .next (s.modPort p (fun y => { y with tx := y.tx ++ [.cpl tag .sc [(x.sp.ceCount.setWidth 64, false)]] }))) ∧
    (nfld a 44 4 = 0 → exec (.ctldataRead p tag) s = .next (s.modPort p (fun y =>
      { y with rdDeny := sat1 y.rdDeny, tx := y.tx ++ [.cpl tag .sc [(BitVec.allOnes 64, false)]] })))) ∧
  (
  ∀ (s : State) (p : Port) (tag off : Nat) (w : Option (BitVec 32)) (v : BitVec 32), (s.port p).linkUp = true →
    ((s.port p).ready = false → exec (.configRequest p tag off w) s =
      .next (s.modPort p (fun y => { y with tx := y.tx ++ [.cpl tag .rrs []] }))) ∧
    ((s.port p).ready = true → s.fw.grade = 0 → exec (.configRequest p tag 0 none) s =
      .next (s.modPort p (fun y => { y with tx := y.tx ++ [.cpl tag .sc [(0x00601FB7, false)]] }))) ∧
    ((s.port p).ready = true → exec (.configRequest p tag (capAt 2 + 4) none) s =
      .next (s.modPort p (fun y => { y with tx := y.tx ++ [.cpl tag .sc [((s.fw.serial.extractLsb' 0 32).setWidth 64, false)]] })) ∧
      exec (.configRequest p tag (capAt 2 + 8) none) s =
      .next (s.modPort p (fun y => { y with tx := y.tx ++ [.cpl tag .sc [((s.fw.serial.extractLsb' 32 32).setWidth 64, false)]] }))) ∧
    ((s.port p).ready = true → exec (.configRequest p tag 0x04 (some v)) s =
      .next (s.modPort p (fun y =>
        { y with memEnable := v.getLsbD 1, busMaster := v.getLsbD 2, tx := y.tx ++ [.cpl tag .sc []] }))))

/-- spec/12 R309-R315, R322: a memory write of one word in the owner's window to a stack region leaves as one WRITE and notes
its destination for the next fence; from a port that does not own the module, or outside every window, it is counted in WRDENY.
And spec/12 R311, R312, R315, spec/09 R233, R254: a memory write of one word in a window to a core of a RUNNING job leaves as one
counted WRITE for the core of that logical position, and its die logs it. -/
def Obligations.WindowWrites : Prop :=
  (
  ∀ (s : State) (p : Port) (req : BitVec 16) (off i : Nat) (w : InWin) (r : Region) (d : Word) (po : Bool), Serves s p →
    let bs : List (Option Byte) := (leBytes 8 d.toNat).map some
    let da := 2 ^ 44 + w.stack * 2 ^ 37 + (r.off + w.roff + (off - w.base))
    let q : Packet := { ptype := 0, dkind := 1, dx := w.stack, sx := 784 + p.num, epoch := w.epoch, len := 1, slot := w.job
                        tag := 64 * p.num + i, pay := [(d, po)]
                        h1 := BitVec.ofNat 64 (da + 0xFF * 2 ^ 48 + 0xFF * 2 ^ 56) }
    (Owns s p → OnlyWindow (s.port p) i w → WindowHolds w req off 8 → w.perm.getLsbD 1 = true → w.kind = 1 →
      (s.job w.job).region w.region w.stack = some r → (s.job w.job).holdsPartition = false → da % 8 = 0 → (s.port p).viaPeer = false →
      (s.job w.job).rolled = false → (s.job w.job).replayTo = none → (s.port p).fenceTab = [] → w.stack < 16 →
      r.off + w.roff + w.size ≤ 2 ^ 37 →
      exec (.windowWriteTlp p req off bs po) s = .next (({ s with net := s.net ++ [entering s q] } : State).modPort p (fun y =>
        { y with
          winAcc := tset y.winAcc i (sat1 (tget 0 y.winAcc i))
          fenceTab := [({ q with ptype := 3, pay := [], h1 := BitVec.ofNat 64 da }, i)] }))) ∧
    (¬ Owns s p → exec (.windowWriteTlp p req off bs po) s = .next (s.modPort p (fun y => { y with wrDeny := sat1 y.wrDeny }))) ∧
    (Owns s p → OnlyWindow (s.port p) i w → ¬ WindowHolds w req off 8 → exec (.windowWriteTlp p req off bs po) s =
      .next (s.modPort p (fun y => { y with wrDeny := sat1 y.wrDeny })))) ∧
  (
  ∀ (s : State) (p : Port) (req : BitVec 16) (off i f : Nat) (w : InWin) (d : Word) (po : Bool), Serves s p → Owns s p →
    let bs : List (Option Byte) := (leBytes 8 d.toNat).map some
    let c := coreAtPos f (96 * w.ly0 + w.lx0)
    let q := s.job w.job
    OnlyWindow (s.port p) i w → WindowHolds w req off 8 → w.perm.getLsbD 1 = true → w.kind = 0 → w.nx = 1 → w.stride = w.size →
    w.boff = 0 → off = w.base → 8 ≤ w.size → w.job < 16 → q.state = .running → q.fields[w.lf]? = some (some f) →
    96 * w.ly0 + w.lx0 < 12288 → f < 60 → (s.port p).viaPeer = false → q.rolled = false → q.replayTo = none → q.log = [] →
    (s.port p).fenceTab = [] → w.size ≤ 65536 →
    ∃ t k, exec (.windowWriteTlp p req off bs po) s = .next t ∧ t.net = s.net ++ [entering s k] ∧
      k.ptype = 0 ∧ k.dkind = 0 ∧ k.dx = c.x ∧ k.dy = c.y ∧ k.sx = 784 + p.num ∧ k.len = 1 ∧ k.pay = [(d, po)] ∧ k.counted = true ∧
      k.slot = w.job ∧ k.h1 = BitVec.ofNat 64 (c.x * 2 ^ 34 + c.y * 2 ^ 24 + 0xFF * 2 ^ 48 + 0xFF * 2 ^ 56) ∧
      (t.job w.job).log = [{ expo := q.expNo, die := p, pkt := k, dest := some { lf := w.lf, pos := 96 * w.ly0 + w.lx0 } }] ∧
      tget 0 (t.dieDelta.get p) w.job = tget 0 (s.dieDelta.get p) w.job + 1 ∧
      t = { s with net := t.net, jobs := t.jobs, dieDelta := t.dieDelta, ports := t.ports })

/-- spec/12 R305, R311, R315, R320, spec/09 R254: a memory read of one word in a window to a stack region sends one READ and waits,
behind the replay while the job's log replays; outside
every window it is an Unsupported Request, counted in RDDENY; after 100,000 ticks without its data it ends as Completer Abort,
counted in RDTMO. -/
def Obligations.WindowReads : Prop :=
  ∀ (s : State) (p : Port) (req : BitVec 16) (tag off i : Nat) (w : InWin) (r : Region), Serves s p → off < 0xC00000000 →
    let da := 2 ^ 44 + w.stack * 2 ^ 37 + (r.off + w.roff + (off - w.base))
    let n := 128 + (s.port p).tagNext
    let q : Packet := { ptype := 3, dkind := 1, dx := w.stack, sx := 784 + p.num, epoch := w.epoch, len := 1, slot := w.job
                        tag := n, h1 := BitVec.ofNat 64 (da + n % 8192 * 2 ^ 48) }
    (OnlyWindow (s.port p) i w → WindowHolds w req off 8 → w.perm.getLsbD 0 = true → w.kind = 1 →
      (s.job w.job).region w.region w.stack = some r → (s.job w.job).holdsPartition = false → da % 8 = 0 → (s.port p).viaPeer = false →
      (s.job w.job).rolled = false → (s.job w.job).replayTo = none → w.stack < 16 →
      exec (.windowReadTlp p req tag off 8) s = .next (({ s with net := s.net ++ [entering s q] } : State).modPort p (fun y =>
        { y with
          tagNext := y.tagNext + 1
          inReads := y.inReads ++ [{ tag := tag, at_ := s.mod.ctl, win := some (p, i), parts := [(n, none)] }]
          winAcc := tset y.winAcc i (sat1 (tget 0 y.winAcc i)) }))) ∧
    (OnlyWindow (s.port p) i w → WindowHolds w req off 8 → w.perm.getLsbD 0 = true → w.kind ≠ 2 → (s.port p).viaPeer = false →
      ((s.job w.job).rolled = true ∨ (s.job w.job).replayTo.isSome = true) →
      exec (.windowReadTlp p req tag off 8) s = .next (s.modPort p (fun y =>
        { y with heldReads := y.heldReads ++ [{ tag := tag, at_ := s.mod.ctl, win := (p, i), off := off, len := 8 }] }))) ∧
    ((∀ m < 64, tget none (s.port .a).inWin m = none ∧ tget none (s.port .b).inWin m = none) →
      exec (.windowReadTlp p req tag off 8) s =
        .next (s.modPort p (fun y => { y with rdDeny := sat1 y.rdDeny, tx := y.tx ++ [.cpl tag .ur []] }))) ∧
    (∀ d, (s.port p).inReads = [d] → d.tag = tag → d.at_ + 100000 ≤ s.mod.ctl → exec (.inboundReadTimeout p tag) s =
      .next (s.modPort p (fun y => { y with inReads := [], rdTmo := sat1 y.rdTmo, tx := y.tx ++ [.cpl tag .ca []] }))) ∧
    (∀ d, (s.port p).inReads = [] → (s.port p).heldReads = [d] → d.tag = tag → d.at_ + 100000 ≤ s.mod.ctl →
      exec (.inboundReadTimeout p tag) s =
        .next (s.modPort p (fun y => { y with heldReads := [], rdTmo := sat1 y.rdTmo, tx := y.tx ++ [.cpl tag .ca []] }))) ∧
    (∀ d, (s.port p).inReads = [d] → d.tag = tag → s.mod.ctl < d.at_ + 100000 → exec (.inboundReadTimeout p tag) s = .next s)

/-- spec/12 R316-R318: an outbound WRITE of one word in an outbound window becomes a memory write TLP, outside it it is refused
and counted in OBDISC, and with the link down it is discarded and counted; an outbound READ becomes a read request with a tag of its
own, and waits while 256 are outstanding (Table 12.1); its
completion returns as RDATA, poisoned where the completion failed.
And spec/12 R322, R324, R325: once no reply of a fence is outstanding its commands may start; a message held back goes out 100
ticks after its vector's last one, and not before. -/
def Obligations.OutboundAndFences : Prop :=
  (
  ∀ (s : State) (k i : Nat) (p : Packet) (d : Port) (w : OutWin), OnlyOutWindow (s.port d) i w → (s.port d).viaPeer = false →
    let x := s.port d
    let off := nfld p.da 0 43
    let inside : Prop := nfld p.da 44 4 = 4 ∧ w.base ≤ off ∧ off + 8 ≤ w.base + w.size
    let addr := w.haddr + (off - w.base)
    let up : Prop := x.linkUp = true ∧ x.d3 = false ∧ x.busMaster = true
    (∀ v po, LandsAtDie s k 0 p d → p.len = 1 → p.pay = [(v, po)] → nfld p.h1.toNat 48 8 = 0xFF → inside → up →
      8 ≤ x.maxPayload → addr % 4096 ≤ 4088 → ∃ t, exec (.outboundWrite k) s = .next t ∧
        LandedAtDie s t k [] d { x with tx := x.tx ++ [.write addr (leBytes 8 v.toNat) po] }) ∧
    (LandsAtDie s k 0 p d → p.len = 1 → inside → x.linkUp = false → ∃ t, exec (.outboundWrite k) s = .next t ∧
      LandedAtDie s t k [] d { x with obDisc := sat1 x.obDisc }) ∧
    (LandsAtDie s k 0 p d → p.len = 1 → ¬ inside → ∃ t, exec (.outboundWrite k) s = .next t ∧
      LandedAtDie s t k [p.nak (784 + d.num) 0 p.epoch 8 1] d { x with obDisc := sat1 x.obDisc }) ∧
    (LandsAtDie s k 3 p d → p.len = 1 → inside → w.perm.getLsbD 0 = true → (s.job p.slot).replayTo = none → 8 ≤ x.maxReadReq →
      addr % 4096 ≤ 4088 → x.outReads.length < 256 → ∃ t n, exec (.outboundRead k) s = .next t ∧ n < 256 ∧
        (∀ r ∈ x.outReads, r.tag ≠ n) ∧ LandedAtDie s t k [] d { x with
          outReads := x.outReads ++ [{ tag := n, pkt := p }]
          tx := x.tx ++ [.readReq n addr 8] }) ∧
    (LandsAtDie s k 3 p d → 256 ≤ x.outReads.length → exec (.outboundRead k) s = .next s) ∧
    (∀ tag v, x.outReads = [{ tag := tag, pkt := p }] → p.len = 1 → p.counted = false →
      exec (.outboundCompletion d tag (some [(v, false)])) s = .next (({ s with
        net := s.net ++ [entering s (p.rdata (784 + d.num) 0 p.epoch [(v, false)])] } : State).modPort d (fun y => { y with outReads := [] })) ∧
      exec (.outboundCompletion d tag none) s = .next (({ s with
        net := s.net ++ [entering s (p.rdata (784 + d.num) 0 p.epoch [(0, true)])] } : State).modPort d (fun y => { y with outReads := [] })))) ∧
  (
  ∀ (s : State) (p : Port) (v : Nat), v < 64 →
    let x := s.port p
    let m := x.vec v
    (x.await = [] → ∃ t, exec (.fenceComplete p) s = .next t ∧ (∀ e ∈ t.cp.journal, e.port = p → e.fence = []) ∧
      (∀ i < 8, (tget {} (t.port p).slots i).fence = [] ∧ (tget {} (t.port p).slots i).bytes = (tget {} x.slots i).bytes) ∧
      t.cp.journal.map (·.id) = s.cp.journal.map (·.id) ∧ t = { s with ports := t.ports, cp := t.cp }) ∧
    (∀ a, m.heldBack = true → m.last = some a → a + 100 ≤ s.mod.ctl → x.msixEn = true → x.msixMask = false → m.masked = false →
      x.d3 = false → x.linkUp = true → exec (.msixHoldoffEnd p v) s = .next (s.modPort p (fun y => { y with
        msix := tset y.msix v { m with last := some s.mod.ctl, pend := false, heldBack := false }
        tx := y.tx ++ [.msix m.addr m.data] }))) ∧
    (∀ a, m.last = some a → s.mod.ctl < a + 100 → exec (.msixHoldoffEnd p v) s = .next s))

namespace Sys2Proof.Claims

/-- The one command of the journal with number `n` is `e`; it has started, and a control processor runs. -/
def Started (s : State) (n op : Nat) (e : Entry) : Prop :=
  s.entry n = some e ∧ e.started = true ∧ e.opcode = op ∧ s.cpRuns = true ∧ e.resv = false ∧ e.waiting = false ∧ e.deaf = false

/-- Session `n` of port `p` is `q`. -/
def HasSession (s : State) (p : Port) (n : Nat) (q : Session) : Prop := n < 16 ∧ tget none (s.port p).sess n = some q

end Sys2Proof.Claims

/-- spec/13 R335-R337, Table 13.1: a write fills a slot of the inbox; one to a BUSY slot is discarded and counted; a header whose
MAGIC is wrong frees the slot; the write that completes a packet commits it, and its fence waits for the fence READs that are still
on their way (spec/12 R322); an abort frees the slots that are FILLING.
And spec/13 R342-R344, Table 13.3: the CP takes a NOP whose sequence number is the session's next: it is journaled and its slot
is free; a smaller number is a DUPLICATE, a larger one a SEQ_GAP, each with its reply. A command starts once its fence is complete
and no earlier command of its session is left. -/
def Obligations.InboxAndTaking : Prop :=
  (
  ∀ (s : State) (p : Port) (i : Nat) (bs : List Byte), i < 8 → Serves s p →
    let x := s.port p
    let y := tget {} x.slots i
    (0 < bs.length → bs.length < 32 → y = {} → ∃ t, exec (.inboxWrite p (4096 * i) bs) s = .next t ∧
      (∀ b < bs.length, KMap.get 0 (tget {} (t.port p).slots i).bytes b = bs.getD b 0) ∧ (tget {} (t.port p).slots i).busy = false ∧
      (∀ m < 8, m ≠ i → tget {} (t.port p).slots m = tget {} x.slots m) ∧ t = s.modPort p (fun z => { z with slots := (t.port p).slots })) ∧
    (0 < bs.length → bs.length ≤ 4096 → y.busy = true → x.logValid = true → exec (.inboxWrite p (4096 * i) bs) s =
      .next (s.modPort p (fun z => { z with inboxDisc := sat1 z.inboxDisc }))) ∧
    (bs.length = 32 → y = {} → bytesAt bs 0 4 ≠ 0x4E494641 → ∃ t, exec (.inboxWrite p (4096 * i) bs) s = .next t ∧
      tget {} (t.port p).slots i = {} ∧ (t.port p).inboxDisc = sat1 x.inboxDisc ∧
      (x.logValid = false → (t.port p).logReason = 1 ∧ (t.port p).logSlot = BitVec.ofNat 3 i ∧ (t.port p).logValid = true) ∧
      t.cp = s.cp ∧ t.net = s.net) ∧
    (bs.length = 32 → y = {} → bytesAt bs 0 4 = 0x4E494641 → bytesAt bs 4 2 = 1 → bytesAt bs 16 2 = 32 → s.cp.active.isSome = true →
      x.fenceTab = [] → (x.await = [] ∨ ∃ tag w, x.viaPeer = false ∧ x.await = [(tag, .fence p w)]) →
      ∃ t, exec (.inboxWrite p (4096 * i) bs) s = .next t ∧ (tget {} (t.port p).slots i).busy = true ∧
        (tget {} (t.port p).slots i).fence = x.await.map (·.1) ∧ (t.port p).order = x.order ++ [i] ∧ t.cp = s.cp ∧ t.net = s.net) ∧
    (y.busy = false → y.bytes ≠ [] → x.logValid = true → exec (.inboxctlAbort p (BitVec.ofNat 8 (2 ^ i))) s =
      .next (s.modPort p (fun z => { z with slots := tset z.slots i {}, order := z.order.filter (· ≠ i), inboxDisc := sat1 z.inboxDisc }))) ∧
    (y.busy = true → exec (.inboxctlAbort p (BitVec.ofNat 8 (2 ^ i))) s = .next s)) ∧
  (
  ∀ (s : State) (p : Port) (i n : Nat) (q : Session), s.cpRuns = true → i < 8 → HasSession s p n q → 0 < n →
    let x := s.port p
    let y := tget {} x.slots i
    let reply (st : Nat) (pay : List Byte) : State := s.modPort p (fun z => PortState.put s.mod.ctl
      { z with slots := tset z.slots i {}, order := z.order.filter (· ≠ i) } n
      { tag := y.num 8 8, status := st, opcode := 5, quiet := y.num 24 4 % 2 == 1, payload := pay })
    (x.order = [i] → y.num 6 2 = 5 → y.num 18 2 = n → y.num 16 2 = 32 → q.kept.length < 64 →
      (∀ e ∈ s.cp.journal, e.port ≠ p) → y.num 20 4 = q.nextSeq → ∃ t e, exec (.packetTake p) s = .next t ∧
        t.cp.journal = s.cp.journal ++ [e] ∧ e.id = s.cp.nextId ∧ e.port = p ∧ e.sess = n ∧ e.seq = q.nextSeq ∧ e.opcode = 5 ∧
        e.tag = y.num 8 8 ∧ e.fence = y.fence ∧ e.started = false ∧ tget {} (t.port p).slots i = {} ∧ (t.port p).order = [] ∧
        (∃ r, HasSession t p n r ∧ r.nextSeq = q.nextSeq + 1 ∧ (q.nextSeq, none) ∈ r.hist) ∧
        t = { s with ports := t.ports, cp := { s.cp with journal := t.cp.journal, nextId := s.cp.nextId + 1 } }) ∧
    (x.order = [i] → y.num 6 2 = 5 → y.num 18 2 = n → q.kept.length < 64 → y.num 20 4 < q.nextSeq →
      exec (.packetTake p) s = .next (reply 1 (dupPayload q (y.num 20 4)))) ∧
    (x.order = [i] → y.num 6 2 = 5 → y.num 18 2 = n → q.kept.length < 64 → q.nextSeq < y.num 20 4 →
      exec (.packetTake p) s = .next (reply 2 [])) ∧
    (∀ e, s.cp.journal = [e] → e.fence = [] → exec (.commandStart e.id) s =
      .next { s with cp := { s.cp with journal := [{ e with started := true }] } }) ∧
    (∀ d e, s.cp.journal = [d, e] → d.id < e.id → d.port = e.port → d.sess = e.sess → d.deaf = e.deaf → d.started = false →
      exec (.commandStart e.id) s = .next s))

/-- spec/13 R343, R345-R347, Table 13.4: a completed command leaves the journal and its status is kept; its reply is written at
the ring's next entry, with the phase bit, or kept while the ring is full; the oldest kept entry goes out first, and LOST goes out
before the first event posted after a drop (R348). -/
def Obligations.ReplyRing : Prop :=
  ∀ (s : State) (e : Entry) (n : Nat) (q : Session) (tail : RingEntry) (rest : List RingEntry), Started s n 5 e → e.quiet = true →
    e.param = [] → HasSession s e.port e.sess q →
    let x := s.port e.port
    let c := (tget 0 x.ringCons e.sess).toNat
    let used := (q.posted + 65536 - c) % 65536
    let at_ := q.rbase + (q.posted % 2 ^ q.rlog2) * (64 * 2 ^ q.esize)
    let entry : RingEntry := { tag := e.tag, status := 0, opcode := 5, quiet := true }
    let kept := q.hist.map (fun h => if h.1 = e.seq then (e.seq, some 0) else h)
    let left := s.cp.journal.filter (fun d => d.id ≠ e.id)
    let up : Prop := x.linkUp = true ∧ x.d3 = false ∧ x.grace = none
    let block := leBytes 8 e.tag ++ leBytes 2 0 ++ leBytes 2 5 ++ leBytes 2 0 ++ leBytes 1 e.sess ++
      leBytes 1 (if q.posted / 2 ^ q.rlog2 % 2 = 0 then 1 else 0)
    (q.kept = [] → up → used < 2 ^ q.rlog2 → exec (.nop n) s = .next (({ s with cp := { s.cp with journal := left } } : State).modPort e.port
      (fun z => { z with
        tx := z.tx ++ [.write at_ block]
        sess := tset z.sess e.sess (some { q with hist := kept, posted := q.posted + 1 }) }))) ∧
    (q.kept = [] → up → 2 ^ q.rlog2 ≤ used → exec (.nop n) s = .next (({ s with cp := { s.cp with journal := left } } : State).modPort e.port
      (fun z => { z with sess := tset z.sess e.sess (some { q with hist := kept, kept := [entry] }) }))) ∧
    (q.kept = tail :: rest → up → used < 2 ^ q.rlog2 → (tail.event = false ∨ q.lost = 0) → exec (.keptReplyPost e.port e.sess) s =
      .next (s.modPort e.port (fun z => PortState.write s.mod.ctl z e.sess { q with kept := rest } tail))) ∧
    (q.kept = tail :: rest → up → used < 2 ^ q.rlog2 → tail.event = true → q.lost ≠ 0 → exec (.keptReplyPost e.port e.sess) s =
      .next (s.modPort e.port (fun z => PortState.write s.mod.ctl z e.sess { q with lost := 0 }
        { opcode := 0xFF03, event := true, payload := leBytes 4 q.lost }))) ∧
    (q.kept = [] → exec (.keptReplyPost e.port e.sess) s = .next s)

namespace Sys2Proof.Claims

/-- The lowest multiple of 2^20 at which `size` bytes are free in every stack of a list (spec/13 R351). -/
def Lowest (s : State) (sts : List Nat) (size off : Nat) : Prop :=
  off % 1048576 = 0 ∧ s.freeAt sts off size = true ∧ ∀ o < off, o % 1048576 = 0 → s.freeAt sts o size = false

/-- The port can place memory writes for the CP. -/
def Posts (x : PortState) : Prop := x.linkUp = true ∧ x.d3 = false ∧ x.busMaster = true

/-- A companion die reaches the wafer through its attachment (spec/15 R405). -/
def Reaches (s : State) : Prop := (s.port .a).viaPeer = false ∨ (s.port .b).viaPeer = false

/-- Read requests for `len` bytes from an address on, none above the max read request size or across 4 KiB (spec/12 R318). -/
def ReadsOf (size : Nat) : Nat → Nat → List Tx → Prop
  | _, len, [] => len = 0
  | addr, len, t :: l => ∃ tag n, t = .readReq tag addr n ∧ 0 < n ∧ n ≤ size ∧ n ≤ len ∧ addr % 4096 + n ≤ 4096 ∧
      ReadsOf size (addr + n) (len - n) l

/-- `s` with TLPs handed to the link of port `p`. -/
def sending (s : State) (p : Port) (l : List Tx) : State := s.modPort p (fun x => { x with tx := x.tx ++ l })

/-- No window is open in a port. -/
def NoWindows (x : PortState) : Prop := ∀ m < 64, tget none x.inWin m = none ∧ tget none x.outWin m = none

/-- `t` answers command `e` and leaves every other command of the journal as it was. -/
def Answered (s t : State) (e : Entry) : Prop := t.cp.journal = s.cp.journal.filter (fun d => d.id ≠ e.id)

end Sys2Proof.Claims

/-- spec/12 Table 12.8, R327, R329, R330, spec/13 R341, R345, R349, Table 13.7: HELLO opens the lowest free session on the ring it
names; BYE ends the session; CLAIM is granted with no owner, waits behind the other port's host with WAIT or while that port is
preferred, is refused otherwise; YIELD
releases the owner; SESSION_STATUS and GET_TICK report; a parameter out of its range gives BAD_PARAM. -/
def Obligations.SessionCommands : Prop :=
  ∀ (s : State) (n : Nat) (e : Entry),
    let x := s.port e.port
    let gen := leBytes 4 s.cp.ownGen.toNat
    let waiting : Entry → Entry := fun d => if d.id = e.id then { d with waiting := true } else d
    (∀ k, Started s n 0x0000 e → e.clean [(0, 12)] = true → e.p 0 8 % 64 = 0 → 4 ≤ e.p 8 1 → e.p 8 1 ≤ 12 → e.p 9 1 ≤ 6 →
      1 ≤ e.p 10 1 → e.p 10 1 ≤ 63 → e.p 11 1 < 4 → 1 ≤ k → k < 16 → tget none x.sess k = none →
      (∀ m, 1 ≤ m → m < k → (tget none x.sess m).isSome = true) → ∃ (t : State) (q : Session), exec (.hello n) s = .next t ∧
        HasSession t e.port k q ∧ q.rbase = e.p 0 8 ∧ q.rlog2 = e.p 8 1 ∧ q.esize = e.p 9 1 ∧ q.vector = e.p 10 1 ∧
        (q.subJobs = true ↔ e.p 11 1 % 2 = 1) ∧ (q.subErrs = true ↔ 2 ≤ e.p 11 1) ∧ q.nextSeq = 1 ∧ q.posted + q.kept.length = 1 ∧
        tget 0 (t.port e.port).ringCons k = 0 ∧ Answered s t e ∧ t.cp.owner = s.cp.owner) ∧
    (∀ q, Started s n 0x0001 e → e.clean [] = true → HasSession s e.port e.sess q → q.kept = [] → x.linkUp = true → x.d3 = false →
      x.grace = none → (q.posted + 65536 - (tget 0 x.ringCons e.sess).toNat) % 65536 < 2 ^ q.rlog2 →
      (∀ d ∈ s.cp.journal, d.port = e.port → d.sess = e.sess → d = e) → (∀ p, NoWindows (s.port p)) →
      ∃ (t : State), exec (.bye n) s = .next t ∧ tget none (t.port e.port).sess e.sess = none ∧ Answered s t e ∧
        (∀ m < 16, m ≠ e.sess → tget none (t.port e.port).sess m = tget none x.sess m) ∧ t.cp.owner = s.cp.owner) ∧
    (Started s n 0x0002 e → e.clean [(0, 1)] = true → e.p 0 1 < 2 →
      (s.cp.owner = none → s.mod.prefPort ≠ some e.port.other → ∃ (t : State), exec (.claim n) s = .next t ∧
        t.cp.owner = some (e.port, e.sess) ∧ t.cp.ownGen = s.cp.ownGen + 1 ∧ Answered s t e ∧
        ∀ p, (t.port p).evt.getLsbD 0 = true) ∧
      (∀ o m, s.cp.owner = some (o, m) → (e.p 0 1 = 0 ∧ s.mod.prefPort ≠ some e.port.other ∨ o = e.port) →
        exec (.claim n) s = .next (s.complete e 0xF gen)) ∧
      (∀ o m, s.cp.owner = some (o, m) → (e.p 0 1 = 1 ∨ s.mod.prefPort = some e.port.other) → o ≠ e.port → s.cp.claim = none →
        exec (.claim n) s = .next { s with cp := { s.cp with claim := some e.id, journal := s.cp.journal.map waiting } }) ∧
      (s.cp.owner = none → s.mod.prefPort = some e.port.other → s.cp.claim = none →
        exec (.claim n) s = .next { s with cp := { s.cp with claim := some e.id, journal := s.cp.journal.map waiting } })) ∧
    (Started s n 0x0003 e → e.clean [] = true → s.cp.claim = none →
      (s.cp.owner = some (e.port, e.sess) → ∃ (t : State), exec (.yield n) s = .next t ∧ t.cp.owner = none ∧
        t.cp.ownGen = s.cp.ownGen + 1 ∧ Answered s t e ∧ ∀ p, (t.port p).evt.getLsbD 0 = true) ∧
      (s.cp.owner ≠ some (e.port, e.sess) → exec (.yield n) s = .next (s.complete e 7 []))) ∧
    (∀ q, Started s n 0x0004 e → e.clean [] = true → HasSession s e.port e.sess q → exec (.sessionStatus n) s =
      .next (s.complete e 0 (leBytes 4 q.nextSeq ++
        leBytes 2 (s.cp.journal.filter (fun d => d.port = e.port ∧ d.sess = e.sess ∧ d.deaf = false)).length ++ leBytes 2 q.kept.length))) ∧
    (Started s n 0x0300 e → e.clean [] = true → exec (.getTick n) s =
      .next (s.complete e 0 (leBytes 8 (s.port s.cp.cpact).tick.toNat ++ leBytes 1 s.mod.tsrc.num))) ∧
    (Started s n 0x0002 e → 2 ≤ e.p 0 1 → exec (.claim n) s = .next (s.complete e 6 []))

/-- spec/12 R309, R314, R316, Table 12.5, spec/13 R350, Table 13.8: OPEN_WINDOW opens a window with the parameters' attributes, or
refuses one that overlaps another; CLOSE_WINDOW closes it at once where none of its packets is on the wafer and waits for them
otherwise. -/
def Obligations.WindowCommands : Prop :=
  ∀ (s : State) (n : Nat) (e : Entry) (p : Port),
    let i := e.p 1 1
    let x := s.port p
    let base := e.p 8 8
    let size := e.p 16 8
    (∀ r, Started s n 0x0100 e → e.clean [(0, 6), (8, 16), (24, 4), (40, 2), (48, 8)] = true → e.p 0 1 = 0 → i < 64 → e.p 2 1 = 1 →
      e.p 3 1 < 64 → e.p 3 1 % 4 ≠ 0 → e.p 3 1 / 8 % 2 = 0 → e.p 4 1 < 16 → e.p 5 1 = p.num → base % 4096 = 0 → size % 4096 = 0 →
      size ≠ 0 → base + size ≤ 0xC00000000 → (s.job (e.p 4 1)).state ≠ .empty → e.p 41 1 < 16 → e.p 48 8 % 4096 = 0 →
      (s.job (e.p 4 1)).region (e.p 40 1) (e.p 41 1) = some r → e.p 48 8 + size ≤ r.size →
      (NoWindows x → ∃ w : InWin, exec (.openWindow n) s =
        .next ((s.modPort p (fun y => { y with inWin := tset y.inWin i (some w) })).complete e 0 []) ∧ w.base = base ∧ w.size = size ∧
        w.kind = 1 ∧ w.job = e.p 4 1 ∧ w.perm.toNat = e.p 3 1 % 4 ∧ w.epoch.toNat = e.p 3 1 / 16 ∧ w.region = e.p 40 1 ∧
        w.stack = e.p 41 1 ∧ w.roff = e.p 48 8 ∧ w.reqId.toNat = e.p 24 2 ∧ w.reqMask.toNat = e.p 26 2 ∧ w.by_ = (e.port, e.sess) ∧
        w.closing = false) ∧
      (∀ m o, m < 64 → tget none x.inWin m = some o → base < o.base + o.size → o.base < base + size →
        exec (.openWindow n) s = .next (s.complete e 8 []))) ∧
    (Started s n 0x0100 e → e.clean [(0, 2), (3, 1), (5, 1), (8, 16), (32, 8)] = true → e.p 0 1 = 1 → i < 64 →
      (e.p 3 1 = 2 ∨ e.p 3 1 = 3) → e.p 5 1 = e.port.num → base % 4096 = 0 → size % 4096 = 0 → size ≠ 0 → base + size ≤ 2 ^ 43 →
      e.p 32 8 % 4096 = 0 → NoWindows (s.port e.port) → exec (.openWindow n) s = .next ((s.modPort e.port (fun y => { y with
        outWin := tset y.outWin i (some { base := base, size := size, haddr := e.p 32 8, perm := BitVec.ofNat 2 (e.p 3 1)
                                          by_ := (e.port, e.sess) }) })).complete e 0 [])) ∧
    (∀ w, Started s n 0x0101 e → e.clean [(0, 3)] = true → e.p 0 1 = 0 → i < 64 → e.p 2 1 = p.num → tget none x.inWin i = some w →
      w.closing = false →
      ((∀ q ∈ s.net, q.tag ≠ 64 * p.num + i) → (∀ d, ∀ r ∈ (s.port d).inReads, r.win ≠ some (p, i)) → exec (.closeWindow n) s =
        .next ((s.modPort p (fun y => { y with inWin := tset y.inWin i none })).complete e 0 [])) ∧
      (∀ q ∈ s.net, q.tag = 64 * p.num + i → 784 ≤ q.sx → q.ptype = 0 → exec (.closeWindow n) s =
        .next ((s.modPort p (fun y => { y with inWin := tset y.inWin i (some { w with closing := true }) })).modEntry e.id
          (fun d => { d with waiting := true })))) ∧
    (∀ w, Started s n 0x0101 e → e.clean [(0, 3)] = true → e.p 0 1 = 1 → i < 64 → e.p 2 1 = e.port.num →
      tget none (s.port e.port).outWin i = some w → (∀ q ∈ s.net, q.dkind ≠ 2) → exec (.closeWindow n) s =
        .next ((s.modPort e.port (fun y => { y with outWin := tset y.outWin i none })).complete e 0 [])) ∧
    (Started s n 0x0101 e → e.clean [(0, 3)] = true → e.p 0 1 = 0 → i < 64 → e.p 2 1 = p.num → tget none x.inWin i = none →
      exec (.closeWindow n) s = .next (s.complete e 7 []))

/-- spec/13 R351, Tables 13.7, 13.9, 13.11, spec/14 R365: ALLOC_REGION places a region at the lowest multiple of 2^20 free in every named
stack; FREE_REGION frees it and closes its windows; SET_MEMMODE changes the mode of empty stacks; SET_FALLBACK; WAIT_EXP answers
at once where EXPNO has reached its value and waits otherwise. With both attachments cut ALLOC_REGION ends BAD_STATE (spec/15 R405;
that this command is one of those is the model's reading, log 83). -/
def Obligations.MemoryCommands : Prop :=
  ∀ (s : State) (n : Nat) (e : Entry),
    let j := e.p 0 1
    let q := s.job j
    let id := e.p 1 1
    let sts := (List.range 16).filter (fun m => e.p 2 2 / 2 ^ m % 2 = 1)
    let size := e.p 8 8
    (Started s n 0x0102 e → e.clean [(0, 4), (8, 8)] = true → j < 16 → 1 ≤ id → id ≤ 15 → e.p 2 2 ≠ 0 → size % 1048576 = 0 → size ≠ 0 →
      q.state ≠ .empty → (∀ r ∈ q.regions, r.id ≠ id) →
      (¬ Reaches s → exec (.allocRegion n) s = .next (s.complete e 7 [])) ∧
      (∀ off, Reaches s → Lowest s sts size off → ∃ (t : State), exec (.allocRegion n) s = .next t ∧
        (t.job j).regions = q.regions ++ sts.map (fun m => { id := id, stack := m, off := off, size := size }) ∧
        t.jobs = (s.modJob j (fun _ => t.job j)).jobs ∧ Answered s t e) ∧
      (Reaches s → (∀ o, o % 1048576 = 0 → s.freeAt sts o size = false) → exec (.allocRegion n) s = .next (s.complete e 8 []))) ∧
    (∀ r, Started s n 0x0103 e → e.clean [(0, 2)] = true → j < 16 → 1 ≤ id → id ≤ 15 → q.state = .loaded → r ∈ q.regions → r.id = id →
      ∃ (t : State), exec (.freeRegion n) s = .next t ∧ (t.job j).regions = q.regions.filter (fun x => x.id ≠ id) ∧ Answered s t e ∧
        (∀ p m, m < 64 → tget none (t.port p).inWin m =
          (tget none (s.port p).inWin m).filter (fun w => !(w.job == j && w.kind == 1 && w.region == id))) ∧
        t.net = s.net ∧ t.stk = s.stk) ∧
    (Started s n 0x0104 e → e.clean [(0, 1)] = true → e.p 0 1 < 2 →
      ((∀ k < 16, (s.job k).regions = []) → exec (.setMemmode n) s = .next (({ s with
        mod := { s.mod with memMode := e.p 0 1 == 1 }
        stk := s.stk.map (fun k => if k.lost then k else { k with mem := [] }) } : State).complete e 0 [])) ∧
      (∀ k < 16, (s.job k).regions ≠ [] → exec (.setMemmode n) s = .next (s.complete e 7 []))) ∧
    (Started s n 0x0301 e → e.clean [(0, 1)] = true → e.p 0 1 < 2 → exec (.setFallback n) s =
      .next (({ s with mod := { s.mod with fallback := e.p 0 1 == 1 } } : State).complete e 0 [])) ∧
    (Started s n 0x0302 e → e.clean [(0, 1), (8, 8)] = true → j < 16 →
      (q.state ≠ .empty → e.p 8 8 ≤ q.expNo → exec (.waitExp n) s = .next (s.complete e 0 (leBytes 8 q.lastDev ++ leBytes 8 q.expNo))) ∧
      (q.state ≠ .empty → q.expNo < e.p 8 8 → exec (.waitExp n) s = .next (s.modEntry e.id (fun d => { d with waiting := true }))) ∧
      (q.state = .empty → exec (.waitExp n) s = .next (s.complete e 7 [])))

/-- spec/09 R224-R228, R256, R257, Table 9.1, spec/13 R351, R353, Table 13.9: LOAD_JOB reads HLEN bytes at HADDR through the sender's
port, fills an empty slot and places region 0, or answers why not; UNLOAD_JOB empties a LOADED or SUSPENDED slot; START places
a LOADED or SUSPENDED job on its fields and begins exposure 0, or LASTCKPT; in any other state they answer BAD_STATE. The first,
third and fourth clause are their completion: a started command with parameters in range, the slot in the state it asks for, and
for START the preconditions of spec/09 R225 and Table 13.9. With both attachments cut LOAD_JOB ends BAD_STATE (spec/15 R405; that this
command is one of those is the model's reading, log 83). -/
def Obligations.LoadingAndStarting : Prop :=
  ∀ (s : State) (n : Nat) (e : Entry) (stuck : Stuck), e.p 0 1 < 16 →
    let j := e.p 0 1
    let q := s.job j
    let x := s.port e.port
    let others (t : State) : Prop := ∀ k < 16, k ≠ j → t.job k = s.job k
    let gone (t : State) : Prop := ∀ d ∈ t.cp.journal, d.id ≠ e.id
    (Started s n 0x0200 e → e.clean [(0, 1), (8, 16)] = true → q.state = .empty → Reaches s → Posts x → 0 < x.maxReadReq →
      ∃ l, ReadsOf x.maxReadReq (e.p 8 8) (e.p 16 8) l ∧
        exec (.loadJob n .failed) s = .next ((sending s e.port l).complete e 0xC []) ∧
        exec (.loadJob n .bad) s = .next ((sending s e.port l).complete e 0xB []) ∧
        ∀ (im : JobImage) (off : Nat),
          (Lowest s (List.range 16) ((((im.region0 + 15) / 16) + 1048575) / 1048576 * 1048576) off →
            ∃ (t : State), exec (.loadJob n (.ok im)) s = .next t ∧ (t.job j).state = .loaded ∧ (t.job j).image = im ∧
              (t.job j).expLen = im.expLen ∧ (t.job j).holdMax = im.holdMax ∧
              (t.job j).regions = (List.range 16).map (fun m =>
                { id := 0, stack := m, off := off, size := (((im.region0 + 15) / 16) + 1048575) / 1048576 * 1048576 }) ∧
              others t ∧ Answered s t e ∧ t.cp.owner = s.cp.owner) ∧
          ((∀ o, o % 1048576 = 0 →
              s.freeAt (List.range 16) o ((((im.region0 + 15) / 16) + 1048575) / 1048576 * 1048576) = false) →
            exec (.loadJob n (.ok im)) s = .next ((sending s e.port l).complete e 8 []))) ∧
    (∀ r, Started s n 0x0200 e → e.clean [(0, 1), (8, 16)] = true →
      (q.state ≠ .empty ∨ ¬ Reaches s → exec (.loadJob n r) s = .next (s.complete e 7 [])) ∧
      (q.state = .empty → Reaches s → ¬ Posts x → exec (.loadJob n r) s = .next (s.complete e 0xC []))) ∧
    (Started s n 0x0201 e → e.clean [(0, 1)] = true → q.state = .loaded ∨ q.state = .suspended → ∃ (t : State),
      exec (.unloadJob n) s = .next t ∧ t.job j = {} ∧ others t ∧ gone t ∧
        ∀ p m w, m < 64 → tget none (t.port p).inWin m = some w → w.job ≠ j) ∧
    (∀ (work spare : List Nat), Started s n 0x0202 e → e.clean [(0, 2)] = true → e.p 1 1 < 60 →
      q.state = .loaded ∨ q.state = .suspended → s.regionsOk j = true → s.drain = false →
      placeShape (e.p 1 1) (q.image.working ++ q.image.spares) = some (work ++ spare) →
      work.length = q.image.working.length → (∀ f ∈ work ++ spare, s.fieldOk f = true ∧ (s.field f).job = none) →
      configBad q.image q.inForce = none →
      (∀ ci ∈ q.image.cores, ∃ f, work[ci.at_.lf]? = some f ∧ s.code (coreAtPos f ci.at_.pos) = 0 ∧
        s.hubOut ((coreAtPos f ci.at_.pos).x / 16) ((coreAtPos f ci.at_.pos).y / 16) = false) →
      let first := if q.state = .suspended then q.lastCkpt else 0
      ∃ (t : State), exec (.start n stuck) s = .next t ∧ (t.job j).state = .running ∧ (t.job j).fields = work.map some ∧
        (t.job j).spareFields = spare.map some ∧ (t.job j).expNo = first ∧ (t.job j).begin_ = s.now ∧
        (t.job j).sched = s.now + q.expLen ∧ (t.job j).held = false ∧ (∀ f ∈ work ++ spare, (t.field f).job = some j) ∧ others t ∧
        gone t ∧ t.cp.owner = s.cp.owner) ∧
    (Started s n 0x0201 e → e.clean [(0, 1)] = true → q.state ≠ .loaded → q.state ≠ .suspended →
      exec (.unloadJob n) s = .next (s.complete e 7 [])) ∧
    (Started s n 0x0202 e → e.clean [(0, 2)] = true → e.p 1 1 < 60 → q.state ≠ .loaded → q.state ≠ .suspended →
      exec (.start n stuck) s = .next (s.complete e 7 []))

/-- spec/09 R226, R243, R245, R255, R256, Table 13.9: PAUSE, PREEMPT and APPLY_MODE of a RUNNING job take effect at a develop point and
wait for it; RESUME of a PAUSED job whose fields are all there lets the held develop point fall; COMMIT exchanges the overlay
tables at once where no develop point will come, but once its application ends while a fault overlay is being applied; each answers BAD_STATE in other states. -/
def Obligations.DevelopPointCommands : Prop :=
  ∀ (s : State) (n : Nat) (e : Entry), e.p 0 1 < 16 →
    let j := e.p 0 1
    let q := s.job j
    let waits (t : State) : State := t.modEntry e.id (fun d => { d with waiting := true })
    (Started s n 0x0203 e → e.clean [(0, 1)] = true →
      (q.state = .running → exec (.pause n) s = .next (waits (s.modJob j (fun x => { x with pauseReq := true })))) ∧
      (q.state ≠ .running → exec (.pause n) s = .next (s.complete e 7 []))) ∧
    (Started s n 0x0205 e → e.clean [(0, 1)] = true →
      (q.state = .running → exec (.preempt n) s = .next (waits (s.modJob j (fun x => { x with preemptReq := true })))) ∧
      (q.state ≠ .running → exec (.preempt n) s = .next (s.complete e 7 []))) ∧
    (∀ (i : Nat) (o : Overlay), Started s n 0x0208 e → e.clean [(0, 2)] = true → e.p 1 1 < 64 →
      (q.state = .running → q.safelight = .idle → q.ovActive.find? (fun v => v.1 == e.p 1 1) = some (i, o) → o.fault = none →
        exec (.applyMode n) s = .next (waits (s.modJob j (fun x => { x with safelight := .staged o })))) ∧
      (q.state ≠ .running → exec (.applyMode n) s = .next (s.complete e 7 [])) ∧
      (q.safelight = .staged o → exec (.applyMode n) s = .next (s.complete e 7 []))) ∧
    (Started s n 0x0204 e → e.clean [(0, 1)] = true →
      (q.state = .paused → q.faultFields = [] → q.rolled = false → s.mod.supply = .normal → ∃ (t : State), exec (.resume n) s = .next t ∧
        t.jobs = (s.modJob j (fun x => { x with state := .running, noCover := false, pauseReq := false
                                                holds := { x.holds with pause := false }, warnFrom := none })).jobs ∧
        t.cp = (waits s).cp ∧ t.cores = s.cores ∧ t.fields = s.fields ∧ t.net = s.net) ∧
      (q.state ≠ .paused → exec (.resume n) s = .next (s.complete e 7 []))) ∧
    (Started s n 0x0209 e → e.clean [(0, 1)] = true →
      (q.state = .running → exec (.commit n) s = .next (waits (s.modJob j (fun x => { x with commitReq := true })))) ∧
      (q.state = .paused → q.noCover = false → (q.faultFields ≠ [] ∨ q.inPlace = true) →
        exec (.commit n) s = .next (waits (s.modJob j (fun x => { x with commitReq := true })))) ∧
      (q.state = .loaded ∨ q.state = .paused → q.noCover = true ∨ q.faultFields = [] ∧ q.inPlace = false → s.cp.journal = [e] →
        ∃ (t : State), exec (.commit n) s = .next t ∧
        t.jobs = (s.modJob j (fun x => { x with ovActive := x.ovShadow, ovShadow := x.ovActive, commitReq := false })).jobs ∧
        t.cp.journal = []) ∧
      (q.state = .empty → exec (.commit n) s = .next (s.complete e 7 [])))

/-- spec/13 Tables 13.9, 13.11, R352, R353, spec/09 R242, R254, spec/15 R398, R405: LOAD_OVERLAY reads its overlay through the sender's
port and writes a shadow entry, and ends BAD_STATE with both attachments cut (log 83: the model's reading); JOB_STATUS reports;
JOB_INPUT sends one QSEND and waits for the kernel's answer; SET_PROOFING takes effect after the exposure in progress;
READ_OVERRUN writes the record of a STOPPED job to host memory. -/
def Obligations.JobReportsAndInputs : Prop :=
  ∀ (s : State) (n : Nat) (e : Entry), e.p 0 1 < 16 →
    let j := e.p 0 1
    let q := s.job j
    (∀ o : Overlay, Started s n 0x0207 e → e.clean [(0, 2), (8, 16)] = true → e.p 1 1 < 64 →
      (q.state ≠ .empty → Reaches s → Posts (s.port e.port) → 0 < (s.port e.port).maxReadReq →
        ∃ l, ReadsOf (s.port e.port).maxReadReq (e.p 8 8) (e.p 16 8) l ∧
          (q.overlayOk o = true → actionsBad q.image q.inForce o = none → configBad q.image (q.inForce ++ [o]) = none →
            exec (.loadOverlay n (.ok o)) s = .next
              (((sending s e.port l).modJob j (fun x => { x with ovShadow := KMap.put x.ovShadow (e.p 1 1) o })).complete e 0 [])) ∧
          exec (.loadOverlay n .failed) s = .next ((sending s e.port l).complete e 0xC []) ∧
          exec (.loadOverlay n .bad) s = .next ((sending s e.port l).complete e 0xB [])) ∧
      (q.state ≠ .empty → Reaches s → ¬ Posts (s.port e.port) → exec (.loadOverlay n (.ok o)) s = .next (s.complete e 0xC [])) ∧
      (q.state = .empty ∨ ¬ Reaches s → exec (.loadOverlay n (.ok o)) s = .next (s.complete e 7 []))) ∧
    (Started s n 0x020A e → e.clean [(0, 1)] = true → q.expNo < 2 ^ 64 → q.lastCkpt < 2 ^ 64 → ∃ pay,
      exec (.jobStatus n) s = .next (s.complete e 0 pay) ∧ pay.length = 100 ∧
        (q.state = .empty → bytesAt pay 0 1 = 0) ∧ (q.state = .loaded → bytesAt pay 0 1 = 1) ∧ (q.state = .running → bytesAt pay 0 1 = 2) ∧
        (q.state = .paused → bytesAt pay 0 1 = 3) ∧ (q.state = .suspended → bytesAt pay 0 1 = 4) ∧
        (q.state = .stopped → bytesAt pay 0 1 = 5) ∧ (q.state = .running → q.held = false → bytesAt pay 1 1 = 0) ∧
        bytesAt pay 8 8 = q.expNo ∧ bytesAt pay 16 8 = q.lastCkpt) ∧
    (∀ (lp : LPos) (qid : Nat) (c : CoreId), Started s n 0x020B e → e.clean [(0, 2), (8, 4056)] = true → e.p 1 1 < 16 →
      q.state = .running → q.image.kernelIn.find? (fun k => k.1 == e.p 1 1) = some (e.p 1 1, lp, qid) → q.place lp = some c →
      (s.port e.port).viaPeer = false → q.rolled = false → q.replayTo = none → q.log = [] → e.param.length = 16 →
      (∀ d ∈ s.cp.journal, d.opcode = 0x20B → d.waiting = false) →
      ∃ (t : State) (k : Packet), exec (.jobInput n) s = .next t ∧ t.net = s.net ++ [entering s k] ∧ k.ptype = 1 ∧ k.dkind = 0 ∧ k.dx = c.x ∧
        k.dy = c.y ∧ k.sx = 784 + e.port.num ∧ k.qid = qid ∧ k.epoch = ((s.core c).qu qid).d.epoch ∧ k.counted = true ∧ k.slot = j ∧
        k.pay = [(BitVec.ofNat 64 (q.nextInput % 2 ^ 32 + 2 ^ 32 * e.p 1 1 + 2 ^ 36), false), (BitVec.ofNat 64 (e.p 8 8), false)] ∧
        (t.job j).nextInput = q.nextInput + 1 ∧
        (t.job j).inputs = q.inputs ++ [{ num := q.nextInput, input := e.p 1 1, entry := e.id, dest := lp, queue := qid }] ∧
        (t.job j).log = [{ expo := q.expNo, die := e.port, pkt := k, dest := some lp }] ∧
        t.cp.journal = s.cp.journal.map (fun d => if d.id = e.id then { d with waiting := true, aux := 0 } else d)) ∧
    (Started s n 0x020B e → e.clean [(0, 2), (8, 4056)] = true → e.p 1 1 < 16 → q.state = .loaded →
      exec (.jobInput n) s = .next (s.complete e 7 [])) ∧
    (Started s n 0x0400 e → e.clean [(0, 2), (8, 8)] = true → e.p 1 1 < 6 →
      (q.state = .running → exec (.setProofing n) s = .next ((s.modJob j (fun x =>
        { x with proof := x.proof ++ [(x.expNo + 1, e.p 1 1, BitVec.ofNat 64 (e.p 8 8))] })).complete e 0 [])) ∧
      (q.state = .loaded → exec (.setProofing n) s = .next ((s.modJob j (fun x =>
        { x with proof := x.proof ++ [(0, e.p 1 1, BitVec.ofNat 64 (e.p 8 8))] })).complete e 0 [])) ∧
      (q.state = .empty → exec (.setProofing n) s = .next (s.complete e 7 []))) ∧
    (∀ r : OverrunRec, Started s n 0x0404 e → e.clean [(0, 1), (8, 12)] = true → e.p 8 8 % 8 = 0 →
      (q.state = .stopped → q.overrun = some r →
        let x := s.port e.port
        let len := 64 + 16 * r.entries.length
        (len ≤ e.p 16 4 → x.linkUp = true → x.d3 = false → x.busMaster = true → ∃ b, b.length = len ∧ exec (.readOverrun n) s =
          .next ((s.modPort e.port (fun y => y.sendWrite (e.p 8 8) b)).complete e 0 (leBytes 4 len)) ∧ bytesAt b 8 8 = r.expNo % 2 ^ 64) ∧
        (e.p 16 4 < len → exec (.readOverrun n) s = .next (s.complete e 6 (leBytes 8 len)))) ∧
      (q.state ≠ .stopped → exec (.readOverrun n) s = .next (s.complete e 7 [])))

/-- spec/16 R427-R432: KILL stops a job at once and waits for its packets, then washes its partition and empties the slot;
SET_DEBUG_HOLD and SNAPSHOT ask for a snapshot in a reserved space; READ_SNAPSHOT answers on the port that asked, and with both
attachments cut with BAD_STATE (spec/15 R405, log 83: the model's reading); after its hold time the snapshot is gone. -/
def Obligations.KillAndSnapshot : Prop :=
  ∀ (s : State) (n : Nat) (e : Entry) (stuck : Stuck), e.p 0 1 < 16 →
    let j := e.p 0 1
    let q := s.job j
    (Started s n 0x0206 e → e.clean [(0, 1)] = true → q.state = .running →
      (∀ k ∈ s.net, k.slot = j → k.counted = true → k.pos = none → (∀ d ∈ s.cp.journal, d.id = e.id → d = e) → ∃ (t : State) (d : Entry), exec (.kill n stuck) s = .next t ∧
        (t.job j).state = .stopped ∧ t.net = s.net ∧ t.cores = s.cores ∧ d ∈ t.cp.journal ∧ d.id = e.id ∧ d.waiting = true ∧ d.aux = s.now) ∧
      (s.net = [] → (∀ p, NoWindows (s.port p)) → s.cp.journal = [e] → tget Snap.none s.snaps j = .none → ∃ (t : State),
        exec (.kill n stuck) s = .next t ∧ t.job j = {} ∧ t.cp.journal = [] ∧
        (∀ f ∈ q.allFields, f < 60 → (t.field f).job = none) ∧ (∀ k < 16, k ≠ j → t.job k = s.job k))) ∧
    (Started s n 0x0206 e → e.clean [(0, 1)] = true → q.state = .loaded → exec (.kill n stuck) s = .next (s.complete e 7 [])) ∧
    (Started s n 0x0800 e → e.clean [(0, 2), (4, 4)] = true → e.p 1 1 < 2 → 1 ≤ e.p 4 4 → e.p 4 4 ≤ 3600 →
      (q.state ≠ .empty → tget Snap.none s.snaps j = .none → exec (.setDebugHold n) s =
        .next ((s.modJob j (fun x => { x with debugHold := (e.p 1 1 == 1), holdSecs := e.p 4 4 })).complete e 0 [])) ∧
      (q.state = .empty → exec (.setDebugHold n) s = .next (s.complete e 7 []))) ∧
    (Started s n 0x0801 e → e.clean [(0, 1), (8, 8)] = true →
      (∀ off, q.state ≠ .empty → q.debugHold = true → tget Snap.none s.snaps j = .none → (s.stack 0).lost = false → e.p 8 8 = 1 →
        Lowest s [0] 752877568 off →
        let snap : Snap := .asked e.port e.sess q.holdSecs 1 [{ id := 16, stack := 0, off := off, size := 752877568 }]
        exec (.snapshot n) s = .next (({ s with snaps := tset s.snaps j snap } : State).complete e 0 [])) ∧
      (q.debugHold = false → exec (.snapshot n) s = .next (s.complete e 7 []))) ∧
    (∀ p ex sp data, Started s n 0x0802 e → e.clean [(0, 1), (8, 16)] = true → e.p 8 8 % 8 = 0 →
      (tget Snap.none s.snaps j = .held p ex sp data → ¬ Reaches s → exec (.readSnapshot n) s = .next (s.complete e 7 [])) ∧
      (tget Snap.none s.snaps j = .held p ex sp data → Reaches s → p = e.port → data.length ≤ e.p 16 8 → (s.port p).linkUp = true →
        (s.port p).d3 = false → (s.port p).busMaster = true → exec (.readSnapshot n) s =
          .next ((s.modPort e.port (fun y => y.sendWrite (e.p 8 8) data)).complete e 0 (leBytes 8 data.length))) ∧
      (tget Snap.none s.snaps j = .held p ex sp data → p ≠ e.port → exec (.readSnapshot n) s = .next (s.complete e 7 [])) ∧
      (tget Snap.none s.snaps j = .expired → exec (.readSnapshot n) s = .next (s.complete e 0x12 []))) ∧
    (∀ p ex sp data k, k < 16 → tget Snap.none s.snaps k = .held p ex sp data →
      (ex ≤ s.now → exec (.snapshotExpiry k) s = .next { s with snaps := tset s.snaps k .expired }) ∧
      (s.now < ex → exec (.snapshotExpiry k) s = .next s))

namespace Sys2Proof.Claims

/-- `s` with bytes written to host memory at `addr` through port `p`. -/
def written (s : State) (p : Port) (addr : Nat) (b : List Byte) : State := s.modPort p (fun x => x.sendWrite addr b)

/-- No limit acts on a field's clock: the supply and the coolant are normal, no throttle applies (spec/14 R367). -/
def NoLimit (s : State) (f : Nat) : Prop :=
  s.mod.supply = .normal ∧ s.mod.coolantOk = true ∧ (s.field f).thermLim = 20 ∧ (s.field f).powLim = 20

/-- The field is no edge field of a companion die or a stack (spec/01 Table 1.5). -/
def Inner (f : Nat) : Prop := f < 60 ∧ f ≠ 22 ∧ f ≠ 37 ∧ ∀ n < 16, (stackEdge n).1 ≠ f

end Sys2Proof.Claims

/-- spec/13 Table 13.11, R346, spec/15 R395, R401, spec/14 R385, spec/17 R450: SET_SDC_POLICY, SET_POWER_CAP and GET_IDENTITY;
READ_ERRORS, GET_NEGATIVE, READ_SENSORS and SPDM write their data to host memory and answer with its length, or answer BAD_PARAM
with the length needed; an HADDR that is no multiple of 8 is a BAD_PARAM. An SPDM request is taken up only where its response fits. -/
def Obligations.ModuleReports : Prop :=
  ∀ (s : State) (n : Nat) (e : Entry),
    let lo := e.p 0 8
    let len := e.p 8 4
    (Started s n 0x0401 e → e.clean [(0, 1)] = true → e.p 0 1 < 2 → exec (.setSdcPolicy n) s =
      .next (({ s with mod := { s.mod with policy := e.p 0 1 } } : State).complete e 0 [])) ∧
    (Started s n 0x0500 e → e.clean [(0, 4)] = true →
      (5000 ≤ e.p 0 4 → e.p 0 4 ≤ 27000 → exec (.setPowerCap n) s =
        .next (({ s with mod := { s.mod with cap := e.p 0 4 } } : State).complete e 0 [])) ∧
      (e.p 0 4 < 5000 ∨ 27000 < e.p 0 4 → exec (.setPowerCap n) s = .next (s.complete e 6 []))) ∧
    (Started s n 0x0700 e → e.clean [] = true → exec (.getIdentity n) s =
      .next (s.complete e 0 (leBytes 8 s.fw.serial.toNat ++ leBytes 2 (if s.fw.grade = 0 then 0x60 else 0x61) ++ leBytes 1 s.fw.grade ++ [0] ++
        leBytes 4 (s.enabled .mx) ++ leBytes 4 (s.enabled .vx) ++ leBytes 4 (s.enabled .sx) ++ leBytes 4 s.fw.arc ++
        leBytes 1 s.cp.cpact.num))) ∧
    (Started s n 0x0402 e → e.clean [(0, 12)] = true → lo % 8 = 0 → Posts (s.port e.port) →
      (369600 ≤ len → exec (.getNegative n) s = .next ((written s e.port lo s.negative).complete e 0 (leBytes 4 369600))) ∧
      (len < 369600 → exec (.getNegative n) s = .next (s.complete e 6 (leBytes 8 369600)))) ∧
    (Started s n 0x0503 e → e.clean [(0, 12)] = true → lo % 8 = 0 → Posts (s.port e.port) →
      (1664 ≤ len → ∃ b, b.length = 1664 ∧ bytesAt b 8 2 = 206 ∧
        exec (.readSensors n) s = .next ((written s e.port lo b).complete e 0 (leBytes 4 1664))) ∧
      (len < 1664 → exec (.readSensors n) s = .next (s.complete e 6 (leBytes 8 1664)))) ∧
    (Started s n 0x0403 e → e.clean [(0, 20)] = true → e.p 8 8 % 8 = 0 → Posts (s.port e.port) →
      (∀ r, s.errs = [r] → e.p 0 8 ≤ r.seqno → 64 ≤ e.p 16 4 → exec (.readErrors n) s =
        .next ((written s e.port (e.p 8 8) (r.bytes s.fw.serial.toNat)).complete e 0 (leBytes 4 1 ++ leBytes 4 0 ++ leBytes 8 (r.seqno + 1)))) ∧
      ((∀ r ∈ s.errs, r.seqno < e.p 0 8) → exec (.readErrors n) s =
        .next (s.complete e 0 (leBytes 4 0 ++ leBytes 4 0 ++ leBytes 8 (e.p 0 8))))) ∧
    (∀ q, Started s n 0x0701 e → e.clean [(0, 12), (16, 4096)] = true → lo % 8 = 0 → Posts (s.port e.port) → HasSession s e.port e.sess q →
      let t := s.modPort e.port (fun x => { x with sess := tset x.sess e.sess (some { q with spdm := q.spdm ++ [e.param.drop 16] }) })
      ∃ resp, (resp.length ≤ len → exec (.spdm n) s = .next ((written t e.port lo resp).complete e 0 (leBytes 4 resp.length))) ∧
        (len < resp.length → exec (.spdm n) s = .next (s.complete e 6 (leBytes 8 resp.length)))) ∧
    (lo % 8 ≠ 0 →
      (Started s n 0x0402 e → exec (.getNegative n) s = .next (s.complete e 6 [])) ∧
      (Started s n 0x0503 e → exec (.readSensors n) s = .next (s.complete e 6 [])) ∧
      (Started s n 0x0701 e → exec (.spdm n) s = .next (s.complete e 6 []))) ∧
    (e.p 8 8 % 8 ≠ 0 → Started s n 0x0403 e → exec (.readErrors n) s = .next (s.complete e 6 []))

/-- spec/14 R367, R371, R379, spec/15 R408, R411, spec/13 Table 13.11: SET_CLOCK sets a field's clock code and answers once the field has
switched; in a running partition it waits for a develop point; SET_FIELD_POWER parks a field, opens its switch, or closes it and
washes its cores; a field with a protective action under way refuses both for now, and the command waits for it (spec/01 R17); RUN_TEST
tests a field of no partition and fences a failing core, a protective action (spec/01 R16). -/
def Obligations.FieldCommands : Prop :=
  ∀ (s : State) (n f : Nat) (e : Entry), f < 60 →
    let x := s.field f
    let keeps (t : State) (a : Nat) : State := t.modEntry e.id (fun d => { d with waiting := true, aux := a })
    let waits (t : State) : State := keeps t 0
    let others (t : State) : Prop := ∀ g, g ≠ f → t.field g = s.field g
    (Started s n 0x0501 e → e.clean [(0, 9)] = true → e.p 0 8 = 2 ^ f → e.p 8 1 ≤ 20 → x.busy = false →
      let at_ := s.modField f (fun y => { y with clkSet := e.p 8 1, clkPend := none })
      (x.job = none → x.run = false → exec (.setClock n) s = .next (at_.complete e 0 [])) ∧
      (x.job = none → x.run = true → x.power = 0 → NoLimit s f → x.clkEff = e.p 8 1 → x.clkLimit = 0 →
        exec (.setClock n) s = .next (at_.complete e 0 [])) ∧
      (x.job = none → x.run = true → x.power = 0 → NoLimit s f → x.clkEff ≠ e.p 8 1 → exec (.setClock n) s = .next (waits at_)) ∧
      (∀ j, x.job = some j → (s.job j).state = .running →
        exec (.setClock n) s = .next (waits (s.modField f (fun y => { y with clkPend := some (e.p 8 1) }))))) ∧
    (∀ stuck, Started s n 0x0502 e → e.clean [(0, 9)] = true → e.p 0 8 = 2 ^ f → x.busy = false →
      (x.job.isSome = true → e.p 8 1 ≤ 2 → exec (.setFieldPower n stuck) s = .next (s.complete e 7 [])) ∧
      (e.p 8 1 = 1 → x.job = none → x.power = 0 → exec (.setFieldPower n stuck) s =
        .next ((s.modField f (fun y => { y with power := 1, run := false, gated := false, vcore := 600 })).complete e 0 [])) ∧
      (e.p 8 1 = 2 → x.job = none → x.power = 0 → Inner f → ∃ (t : State), exec (.setFieldPower n stuck) s = .next t ∧
        (t.field f).power = 2 ∧ (t.field f).swOpen = true ∧ (t.field f).cause = 0 ∧ (t.field f).run = false ∧ (t.field f).vcore = 0 ∧
        others t ∧ (∀ c, coreField c = some f → t.core c = {}) ∧ Answered s t e ∧ t.jobs = s.jobs) ∧
      (e.p 8 1 = 0 → x.job = none → x.power = 2 → x.lockout = false → x.tstop = false → KMap.rising s.cores = true → ∃ (t : State),
        exec (.setFieldPower n []) s = .next t ∧ (t.field f).power = 0 ∧ (t.field f).swOpen = false ∧ (t.field f).cause = 0 ∧
        (t.field f).lost = false ∧ (t.field f).run = s.mod.tsPresent ∧ others t ∧
        (∀ c, coreField c = some f → t.core c = {}) ∧ Answered s t e)) ∧
    (x.busy = true →
      (Started s n 0x0501 e → e.clean [(0, 9)] = true → e.p 0 8 = 2 ^ f → e.p 8 1 ≤ 20 →
        exec (.setClock n) s = .next (keeps s (2 ^ f))) ∧
      (∀ stuck, Started s n 0x0502 e → e.clean [(0, 9)] = true → e.p 0 8 = 2 ^ f → e.p 8 1 = 1 → x.job = none → x.power = 0 →
        exec (.setFieldPower n stuck) s = .next (keeps s (2 ^ f)))) ∧
    (Started s n 0x0405 e → e.clean [(0, 1)] = true → e.p 0 1 = f →
      (s.fieldOk f = true → x.job = none → x.run = true → ∃ (t : State), exec (.runTest n []) s = .next t ∧
        (t.field f).testFail = false ∧ (t.field f).testHg = 47 ∧ (t.field f).testTick = x.tick.setWidth 32 ∧ others t ∧ Answered s t e ∧
        t.cores = s.cores) ∧
      (∀ c, s.fieldOk f = true → x.job = none → x.run = true → coreField c = some f → s.code c = 0 → ∃ u : State,
        exec (.runTest n [.core c]) s = .next (u.complete e 0 (leBytes 8 (2 ^ coreHub c))) ∧ u.code c = 1 ∧
          (u.field f).busy = true ∧ 6 ∈ (u.field f).reports) ∧
      (x.job.isSome = true → exec (.runTest n []) s = .next (s.complete e 7 [])))

/-- spec/17 R442-R447, R467, Tables 17.5, 17.6, 17.11: an update begins where none is in progress, takes blocks from its own source
alone, is verified when every byte is there and written to the slot not running in both dies, and is activated as PENDING, or, with P[0] = 1, by a handover, which needs
HITLESS_OK, the running STATEVER and a standby CP; the commands of the inbox, the service port and PLDM share one state machine. Verification rests on key hashes and digests that
the manual leaves open; the statement holds for either outcome. -/
def Obligations.FirmwareUpdates : Prop :=
  ∀ (s : State) (n seq : Nat) (e : Entry) (m : Mgmt),
    let src : UpdSrc := .port e.port e.sess
    let served : Prop := s.mc.a.running = true ∨ s.mc.b.running = true
    let good (target size : Nat) : Prop := target ≤ 2 ∧ 5744 ≤ size ∧ (size - 5744) % 8 = 0 ∧
      size ≤ (if target = 0 then 33554432 else if target = 1 then 4194304 else 524288)
    let upd (u : Option Update) : State := { s with fw := { s.fw with upd := u } }
    let reply (t : State) (cmd st : Nat) (pay : List Byte) : State :=
      { t with fw := { t.fw with replies := t.fw.replies ++ [svcFrame cmd seq (leBytes 1 st ++ pay)] } }
    let pldm (t : State) (st : Nat) : State := { t with mgmt := { t.mgmt with replies := t.mgmt.replies ++ [(m, leBytes 1 st)] } }
    let slot := 1 - s.fw.runMod
    let put (u : Update) : State :=
      { s with fw := { s.fw with
          flash := { a := { s.fw.flash.a with mod := tset s.fw.flash.a.mod slot { state := 1, gen := 0, image := u.image } }
                     b := { s.fw.flash.b with mod := tset s.fw.flash.b.mod slot { state := 1, gen := 0, image := u.image } } }
          upd := some { u with state := 3, slot := slot, bytes := [] } } }
    let pend (u : Update) : State :=
      { s with fw := { s.fw with
          flash := { a := { s.fw.flash.a with mod := tmod s.fw.flash.a.mod u.slot (fun x => { x with state := 2 }) }
                     b := { s.fw.flash.b with mod := tmod s.fw.flash.b.mod u.slot (fun x => { x with state := 2 }) } }
          upd := none } }
    let allowed : Prop := m = .smbus (s.cp.active.getD .a) ∧ (s.mc.get (s.cp.active.getD .a)).running = true
    let whole (u : Update) : Prop := s.fw.upd = some u ∧ u.state = 1 ∧ u.target = 0 ∧ u.received = u.size ∧ s.mod.supply ≠ .warning
    (Started s n 0x0600 e → e.clean [(0, 1), (4, 4)] = true →
      (s.fw.upd = none → good (e.p 0 1) (e.p 4 4) → exec (.fwBegin n) s =
        .next ((upd (some { src := src, target := e.p 0 1, size := e.p 4 4 })).complete e 0 [])) ∧
      (s.fw.upd = none → ¬ good (e.p 0 1) (e.p 4 4) → exec (.fwBegin n) s = .next (s.complete e 6 [])) ∧
      (∀ u, s.fw.upd = some u → u.state ≠ 3 → good (e.p 0 1) (e.p 4 4) → exec (.fwBegin n) s = .next (s.complete e 7 []))) ∧
    (∀ u, Started s n 0x0601 e → e.clean [(0, 4), (8, 4096)] = true → e.p 0 4 % 8 = 0 → s.fw.upd = some u →
      (u.src = src → u.state = 1 → e.p 0 4 + (e.param.length - 8) ≤ u.size → ∃ v : Update,
        exec (.fwBlock n) s = .next ((upd (some v)).complete e 0 []) ∧ v = { u with bytes := v.bytes } ∧
        ∀ b, KMap.get 0 v.bytes b = if e.p 0 4 ≤ b ∧ b < e.p 0 4 + (e.param.length - 8) then e.param.getD (b - e.p 0 4 + 8) 0
          else KMap.get 0 u.bytes b) ∧
      (u.src ≠ src → exec (.fwBlock n) s = .next (s.complete e 7 []))) ∧
    (∀ u, Started s n 0x0602 e → e.clean [] = true →
      (whole u → u.src = src → exec (.fwEnd n) s = .next (if s.fw.verify 0 u.image = 0 then (put u).complete e 0 []
        else (upd none).complete e (s.fw.verify 0 u.image) [])) ∧
      (s.fw.upd = some u → u.src = src → u.received < u.size → exec (.fwEnd n) s = .next (s.complete e 7 []))) ∧
    (∀ u, Started s n 0x0603 e → e.clean [(0, 1)] = true → s.fw.upd = some u → u.state = 3 → u.target = 0 →
      (e.p 0 1 = 0 → s.mod.supply ≠ .warning → exec (.fwActivate n) s = .next ((pend u).complete e 0 [])) ∧
      (e.p 0 1 = 0 → s.mod.supply = .warning → exec (.fwActivate n) s =
        .next ((upd (some { u with state := 4, arg := 0, entry := some e.id })).modEntry e.id (fun d => { d with waiting := true }))) ∧
      (e.p 0 1 = 1 → s.hitlessOk u = true → exec (.fwActivate n) s =
        .next ((upd (some { u with state := 4, arg := 1, entry := some e.id })).modEntry e.id (fun d => { d with waiting := true }))) ∧
      (e.p 0 1 = 1 → s.hitlessOk u = false → exec (.fwActivate n) s = .next (s.complete e 7 []))) ∧
    (Started s n 0x0604 e → e.clean [] = true → (∀ u, s.fw.upd = some u → u.state < 256) → ∃ pay,
      exec (.fwStatus n) s = .next (s.complete e 0 pay) ∧ pay.length = 96 ∧
        bytesAt pay 0 1 = (match s.fw.upd with | none => 0 | some u => u.state)) ∧
    (served →
      (∀ baud, baud ≤ 1 → exec (.svcHello seq baud) s =
        .next (reply { s with fw := { s.fw with baud := baud } } 0x81 0 (leBytes 8 s.fw.serial.toNat ++ leBytes 1 s.fw.arc))) ∧
      (∀ target size, s.fw.upd = none → good target size → exec (.svcBegin seq target size) s =
        .next (reply (upd (some { src := .service, target := target, size := size })) 0x90 0 [])) ∧
      (∀ (off : Nat) (data : List Byte) (u : Update), s.fw.upd = some u → u.src = .service → u.state = 1 → 8 ≤ data.length →
        data.length ≤ 1024 → data.length % 8 = 0 → off + data.length ≤ u.size → ∃ v : Update, exec (.svcBlock seq off data) s =
          .next (reply (upd (some v)) 0x91 0 []) ∧ v = { u with bytes := v.bytes } ∧
          ∀ b, KMap.get 0 v.bytes b = if off ≤ b ∧ b < off + data.length then data.getD (b - off) 0 else KMap.get 0 u.bytes b) ∧
      (∀ u, whole u → u.src = .service → exec (.svcEnd seq) s = .next (if s.fw.verify 0 u.image = 0 then reply (put u) 0x92 0 []
        else reply (upd none) 0x92 (s.fw.verify 0 u.image) [])) ∧
      (∀ u, s.fw.upd = some u → u.state = 3 → u.target = 0 → s.mod.supply ≠ .warning →
        exec (.svcActivate seq 0) s = .next (reply (pend u) 0x93 0 [])) ∧
      (∃ pay, exec (.svcStatus seq) s = .next (reply s 0x94 0 pay) ∧ pay.length = 96)) ∧
    (allowed →
      (∀ target size, s.fw.upd = none → good target size → exec (.pldmUpdate m (.start target size)) s =
        .next (pldm (upd (some { src := .pldm, target := target, size := size })) 0)) ∧
      (∀ u, whole u → u.src = .pldm → exec (.pldmUpdate m .verify) s = .next (if s.fw.verify 0 u.image = 0 then pldm (put u) 0
        else pldm (upd none) (s.fw.verify 0 u.image))) ∧
      (∀ u, s.fw.upd = some u → u.src = .pldm → u.state = 3 → u.target = 0 → s.mod.supply ≠ .warning →
        exec (.activateFirmware m false) s = .next (pldm (pend u) 0)) ∧
      (∀ u, s.fw.upd = some u → u.src = .pldm → u.state = 1 → exec (.cancelUpdate m) s = .next (pldm (upd none) 0)) ∧
      (s.fw.upd = none → exec (.cancelUpdate m) s = .next (pldm s 0)))

/-- spec/18 R455-R466, Tables 18.1, 18.2: the vendor commands report and set what they name, refuse a sender that R459 does not allow,
and a parameter out of its range; SET_ENDPOINT_ID and SET_EVENT_RECEIVER; readings are taken again; the first record not
acknowledged is sent to the receiver. -/
def Obligations.Management : Prop :=
  ∀ (s : State) (m : Mgmt) (p : Port), m = .smbus p → (s.mc.get p).running = true →
    let sends (t : State) (b : List Byte) : State := { t with mgmt := { t.mgmt with replies := t.mgmt.replies ++ [(m, b)] } }
    let gives (t : State) (cmd st : Nat) (pay : List Byte) : State := sends t (leBytes 1 cmd ++ leBytes 1 st ++ pay)
    (exec (.getHealth m) s = .next (gives s 1 0 (leBytes 1 s.healthNow ++
      leBytes 1 (b2n s.mod.replace + 2 * b2n s.drain + 4 * s.mod.policy) ++ leBytes 2 (s.enabled .mx / 1000) ++ leBytes 2 (s.enabled .vx / 1000) ++
      leBytes 2 (s.enabled .sx / 1000) ++ leBytes 1 (match s.cp.active with | some q => q.num | none => 0xFF)))) ∧
    (∀ from_ r, (s.mc.get p).store = [r] → from_ ≤ r.1.seqno → exec (.getRecords m from_) s =
      .next (gives s 2 0 (leBytes 1 1 ++ r.1.bytes s.fw.serial.toNat))) ∧
    (∀ period defer_, 3600 ≤ period → period ≤ 604800 → 1 ≤ defer_ → defer_ ≤ 600 → exec (.setTest m period defer_) s =
      .next (gives { s with mgmt := { s.mgmt with testPeriod := period, testDefer := defer_ } } 3 0 [])) ∧
    (∀ defer_, exec (.setTest m 3599 defer_) s = .next (gives s 3 6 [])) ∧
    (s.mod.step = 10 → exec (.moduleReset m 0x52455354) s = .next (gives { s with mod := { s.mod with warmReq := true } } 4 0 [])) ∧
    (exec (.moduleReset m 0) s = .next (gives s 4 6 [])) ∧
    (∀ i kind addr, i < 8 → (kind = 4 ∨ kind = 6) → exec (.setAcl m i kind addr) s =
      .next (gives { s with mgmt := { s.mgmt with acl := tset s.mgmt.acl i (some (kind, addr)) } } 5 0 [])) ∧
    (∀ i addr, i < 8 → exec (.setAcl m i 0 addr) s =
      .next (gives { s with mgmt := { s.mgmt with acl := tset s.mgmt.acl i none } } 5 0 [])) ∧
    (∀ ip pre gw, pre ≤ 32 → exec (.setAddr m 1 ip pre gw) s =
      .next (gives { s with mgmt := { s.mgmt with addrStatic := some (ip, pre, gw) } } 6 0 [])) ∧
    ((s.port p).linkUp = true → s.cp.owner = none → exec (.setTest (.vdm p) 3600 1) s =
      .next { s with mgmt := { s.mgmt with replies := s.mgmt.replies ++ [(.vdm p, leBytes 1 3 ++ leBytes 1 5)] } }) ∧
    (∃ b, exec (.getJobs m) s = .next (gives s 7 0 b) ∧ b.length = 16 ∧ ∀ j < 16, bytesAt b j 1 = (s.job j).state.code) ∧
    (∀ eid, 8 ≤ eid → eid ≤ 254 → ∃ (t : State), exec (.setEndpointId m eid) s = .next (sends t (leBytes 1 0 ++ leBytes 1 eid)) ∧
      tget 0 (t.mc.get p).eid 0 = eid ∧ (t.mc.get p.other) = s.mc.get p.other ∧ t = { s with mc := t.mc }) ∧
    (∀ recv, exec (.setEventReceiver m recv) s = .next (sends { s with
      mc := s.mc.modify p (fun x => { x with receiver := some recv, sentAt := none }) } [0])) ∧
    (∀ vals, ∃ l, exec (.sensorPoll vals) s = .next { s with mgmt := { s.mgmt with sensors := l, sensorTick := s.now } } ∧
      (∀ v, (1, v) ∈ l ↔ vals.find? (fun a => a.1 == 1) = some (1, v)) ∧ (4, (s.mod.cap : Int)) ∈ l) ∧
    (∀ r x, s.mc.get p = x → x.store = [(r, false)] → x.receiver.isSome = true → x.sentAt = none → x.lossy = false → x.health = s.healthNow →
      exec (.recordDelivery p true) s = .next { s with mc := s.mc.set p { x with
        store := [(r, true)], sent := x.sent ++ [r.bytes s.fw.serial.toNat] } } ∧
      exec (.recordDelivery p false) s = .next { s with mc := s.mc.set p { x with
        sent := x.sent ++ [r.bytes s.fw.serial.toNat], sentAt := some s.mod.sby } })

namespace Sys2Proof.Claims

/-- What every reset of a port leaves of it (spec/16 R416): no sessions, windows, slots, grace period or reads; its registers at
their reset values. -/
def PortIsReset (x : PortState) : Prop :=
  (∀ n < 16, tget none x.sess n = none) ∧ NoWindows x ∧ (∀ i < 8, tget {} x.slots i = {}) ∧ x.grace = none ∧ x.inReads = [] ∧ x.heldReads = [] ∧
    x.evt = 0 ∧ x.evtEn = 0x7F ∧ x.wrDeny = 0 ∧ x.rdDeny = 0 ∧ x.inboxDisc = 0 ∧ x.cfg = [] ∧ x.busMaster = false ∧ x.memEnable = false ∧
    x.msixEn = false ∧ x.d3 = false

/-- The straps a connector reads. -/
def Strapped (x y : PortState) (t : Straps) : Prop :=
  (x.cprsnt = true → y.delaySel = 7 ∧ y.pref = false) ∧ (x.cprsnt = false → y.delaySel = t.delay.val ∧ y.pref = t.pref)

/-- PORTEVT of a port shows an event. -/
def Shows (t : State) (p : Port) (bit : Nat) : Prop := (t.port p).evt.getLsbD bit = true

/-- `t` differs from `s` in its ports alone. -/
def PortsOnly (s t : State) : Prop := t = { s with ports := t.ports }

end Sys2Proof.Claims

/-- spec/12 R302, R331, R332, spec/19 R471, spec/16 R416: a link trains with a mated cable, a settled REFCLK and no PERST#; PERST# of an unmated
connector is ignored; straps are sampled; unmating a cable is a link loss and no port reset; D3hot is entered and left. -/
def Obligations.ConnectorsAndLinks : Prop :=
  ∀ (s : State) (p : Port) (st : Straps),
    let x := s.port p
    (x.linkUp = false → x.reset = false → x.perst = false → x.cprsnt = false → x.refPresent = true → x.refSettled = true → x.grace = none → 3 ≤ s.mod.step →
      ∀ rate width, ∃ (t : State), exec (.linkUp p rate width) s = .next t ∧ PortsOnly s t ∧ (t.port p).linkUp = true ∧
        ((t.port p).degraded = true ↔ rate < 16 ∨ width < 8) ∧ Shows t p.other 5 ∧ (t.port p.other).linkUp = (s.port p.other).linkUp) ∧
    (x.refPresent = false ∨ x.refSettled = false → ∀ rate width, exec (.linkUp p rate width) s = .next s) ∧
    (x.cprsnt = false → exec (.perstAssert p) s = .next (s.modPort p (fun y => { y with perst := true }))) ∧
    (x.cprsnt = true → exec (.perstAssert p) s = .next s) ∧
    (∃ (t : State), exec (.perstDeassert p st) s = .next t ∧ PortsOnly s t ∧ (t.port p).perst = false ∧ (t.port p).reset = false ∧
      Strapped x (t.port p) st ∧ t.port p.other = s.port p.other ∧ (t.port p).sess = x.sess) ∧
    (exec (.cprsntChange p true st) s = .next (s.modPort p (fun y => { y with cprsnt := false, delaySel := st.delay.val, pref := st.pref }))) ∧
    (x.linkUp = false → exec (.cprsntChange p false st) s = .next (s.modPort p (fun y => { y with cprsnt := true, perst := false }))) ∧
    (x.linkUp = true → ∃ (t : State), exec (.cprsntChange p false st) s = .next t ∧ PortsOnly s t ∧ (t.port p).cprsnt = true ∧ (t.port p).perst = false ∧
      (t.port p).reset = x.reset ∧ (t.port p).linkUp = false ∧ (t.port p).inReads = [] ∧ (t.port p).inWin = x.inWin ∧ Shows t p.other 5 ∧
      (∀ m, s.cp.owner = some (p, m) → (t.port p).grace = some (s.mod.ctl + 25000000) ∧ Shows t p 1 ∧ Shows t p.other 1)) ∧
    (x.linkUp = true → exec (.d3hotEntry p) s = .next (s.modPort p (fun y => { y with d3 := true }))) ∧
    (x.linkUp = false → exec (.d3hotEntry p) s = .next s) ∧
    (x.d3 = true → ∃ (t : State), exec (.d0Return p) s = .next t ∧ PortsOnly s t ∧ (t.port p).d3 = false ∧
      t.port p.other = s.port p.other ∧ (∀ n < 16, (tget none (t.port p).sess n).isSome = (tget none x.sess n).isSome)) ∧
    (x.d3 = false → exec (.d0Return p) s = .next s)

/-- spec/16 R414-R417, spec/12 R327, R328, R330: a port reset, a function-level reset and the end of a grace period close what the
port held and release ownership; the loss of the owner's link begins a grace period of 25,000,000 ticks and its return within it, on a settled REFCLK,
keeps the sessions; the preference for a port ends after its time. -/
def Obligations.PortResetsAndGrace : Prop :=
  ∀ (s : State) (p : Port),
    let x := s.port p
    let freed (t : State) : Prop := PortIsReset (t.port p) ∧ (s.cp.claim = none → ∀ m, s.cp.owner = some (p, m) → t.cp.owner = none ∧
      t.cp.ownGen = s.cp.ownGen + 1) ∧ (∀ q m, q ≠ p → s.cp.owner = some (q, m) → t.cp.owner = some (q, m)) ∧
      (∀ n < 16, (tget none (t.port p.other).sess n).isSome = (tget none (s.port p.other).sess n).isSome)
    (x.perst = true → x.cprsnt = false → x.reset = false → ∃ (t : State), exec (.portReset p) s = .next t ∧ freed t ∧
      (t.port p).linkUp = false ∧ (t.port p).reset = true ∧ (x.linkUp = true → Shows t p.other 5)) ∧
    (x.perst = false → exec (.portReset p) s = .next s) ∧
    (x.linkUp = true → x.ready = true → ∃ (t : State), exec (.functionLevelReset p) s = .next t ∧ freed t ∧ (t.port p).linkUp = true ∧
      (t.port p).maxPayload = x.maxPayload ∧ (t.port p).maxReadReq = x.maxReadReq) ∧
    (∀ g, x.grace = some g →
      (g ≤ s.mod.ctl → ∃ (t : State), exec (.graceExpiry p) s = .next t ∧ freed t ∧ (t.port p).linkUp = false) ∧
      (s.mod.ctl < g → exec (.graceExpiry p) s = .next s) ∧
      (s.mod.ctl < g → x.cprsnt = false → x.perst = false → x.reset = false → x.refPresent = true → x.refSettled = true → ∃ (t : State), exec (.linkReturn p) s = .next t ∧ PortsOnly s t ∧
        (t.port p).linkUp = true ∧ (t.port p).grace = none ∧ Shows t p.other 2 ∧ Shows t p.other 5 ∧ Shows t p 2 ∧
        (∀ n < 16, (tget none (t.port p).sess n).isSome = (tget none x.sess n).isSome) ∧ (t.port p).inWin = x.inWin) ∧
      (g ≤ s.mod.ctl ∨ x.cprsnt = true ∨ x.refPresent = false ∨ x.refSettled = false → exec (.linkReturn p) s = .next s)) ∧
    (x.grace = none → exec (.graceExpiry p) s = .next s ∧ exec (.linkReturn p) s = .next s) ∧
    (x.linkUp = true → ∃ (t : State), exec (.linkLoss p) s = .next t ∧ PortsOnly s t ∧ (t.port p).linkUp = false ∧
      (t.port p).inReads = [] ∧ (t.port p).heldReads = [] ∧ Shows t p.other 5 ∧ (t.port p).inWin = x.inWin ∧
      (∀ m, s.cp.owner = some (p, m) → (t.port p).grace = some (s.mod.ctl + 25000000) ∧ Shows t p 1 ∧ Shows t p.other 1) ∧
      (s.cp.owner = none → (t.port p).grace = x.grace)) ∧
    (x.linkUp = false → exec (.linkLoss p) s = .next s) ∧
    (∀ a, s.mod.prefEnd = some a →
      (a ≤ s.mod.ctl → s.cp.claim = none → exec .ownerPrefExpiry s =
        .next { s with mod := { s.mod with prefPort := none, prefEnd := none } }) ∧
      (∀ e, a ≤ s.mod.ctl → s.cp.owner = none → s.cp.claim = some e.id → s.entry e.id = some e → ∃ (t : State),
        exec .ownerPrefExpiry s = .next t ∧ t.cp.owner = some (e.port, e.sess) ∧ t.cp.claim = none ∧ t.mod.prefPort = none ∧
        Answered s t e ∧ Shows t .a 0 ∧ Shows t .b 0) ∧
      (s.mod.ctl < a → exec .ownerPrefExpiry s = .next s))

/-- spec/01 R19-R25, spec/17 R446, Table 17.6, spec/13 Table 13.12: a heartbeat of the active CP; after 10 missed ones (20,000 ticks) the other CP takes
over, with the journal kept and packets not yet journaled forgotten; a hitless handover moves the role to the other CP and runs
the new image as TRIAL; a break of the control ring is recorded, and after a second one some fields are reached over the express
network alone. -/
def Obligations.ControlProcessors : Prop :=
  ∀ (s : State) (p : Port), s.cp.active = some p → s.cpRuns = true →
    (exec .heartbeat s = .next { s with cp := { s.cp with lastBeat := s.mod.ctl } }) ∧
    (s.cp.up.get p.other = true → s.cp.lastBeat + 20000 ≤ s.mod.ctl → s.fw.upd = none → ∃ (t : State), exec .takeover s = .next t ∧
      t.cp.active = some p.other ∧ t.cp.cpact = p.other ∧ t.cp.up.get p = false ∧ t.cp.journal = s.cp.journal ∧ t.cp.owner = s.cp.owner ∧
      t.jobs = s.jobs ∧ (∀ q, Shows t q 3 ∧ (t.port q).order = []) ∧ ∃ r ∈ t.errs, r.cls = 0xC ∧ r.unit = p.num ∧ r.severity = 2) ∧
    (s.mod.ctl < s.cp.lastBeat + 20000 → exec .takeover s = .next s) ∧
    (s.cp.up.get p.other = false → exec .takeover s = .next s) ∧
    (∀ u, s.fw.upd = some u → u.handsOver = true → u.entry = none → s.cp.up.get p.other = true → s.mod.supply ≠ .warning → ∃ (t : State),
      exec .handover s = .next t ∧ t.cp.active = some p.other ∧ t.fw.runMod = u.slot ∧ t.fw.upd = none ∧ t.fw.trialAt = some s.mod.ctl ∧
      t.cp.journal = s.cp.journal ∧ t.jobs = s.jobs ∧ (∀ q, Shows t q 3) ∧
      (∀ q, (tget {} (t.fw.flash.get q).mod u.slot).image = (tget {} (s.fw.flash.get q).mod u.slot).image)) ∧
    (s.fw.upd = none → exec .handover s = .next s) ∧
    (∀ off, ∃ (t : State), exec (.ringBreak off) s = .next t ∧ t.mod.ringBreaks = s.mod.ringBreaks + 1 ∧ t.cp = s.cp ∧
      (s.mod.ringBreaks = 0 → t.mod.expressOnly = s.mod.expressOnly) ∧
      (s.mod.ringBreaks ≠ 0 → ∀ g < 60, (g ∈ t.mod.expressOnly ↔ g ∈ s.mod.expressOnly ∨ g ∈ off)) ∧
      ∃ r ∈ t.errs, r.cls = 0x13 ∧ r.severity = (if s.mod.ringBreaks = 0 then 2 else 4))

/-- spec/00 R2, spec/14 R358-R369, Tables 14.1-14.3: a REFCLK is present, settles after the connector's delay and, where it is the owner's,
becomes the time source; its loss takes its connector's link down, stops the time source's domains at clean points and is recorded, by the
MCs where it was the last one; a recovery resumes them from the same REFCLK or, where it may fall back, from the one settled first, and follows
the owner again; domains whose controllers are loaded lock; the standby oscillator is trimmed; a field switches to its effective clock, is gated
when idle and runs again for a packet. That the source follows an owner only once its REFCLK is settled is the model's reading (log 46). -/
def Obligations.ClockEvents : Prop :=
  ∀ (s : State) (p : Port) (f : Nat), f < 60 →
    let x := s.port p
    let y := s.field f
    let usable (q : Port) : Prop := (s.port q).refPresent = true ∧ (s.port q).refSettled = true
    let source (t : State) (d : Port) : Prop :=
      (s.cp.owner = none → t.mod.tsrc = d) ∧ ∀ q m, s.cp.owner = some (q, m) → (usable q → t.mod.tsrc = q) ∧ (¬ usable q → t.mod.tsrc = d)
    (s.mod.standby = true → x.refPresent = false → s.mgmt.mcPend = [] → exec (.refclkPresent p) s =
      .next (s.modPort p (fun z => { z with refPresent := true, refSettled := false, refAt := s.mod.sby }))) ∧
    (s.mod.standby = false → exec (.refclkPresent p) s = .next s) ∧
    (∀ d, x.refPresent = true → x.refSettled = false →
      [10000, 20000, 50000, 100000, 200000, 500000, 2000000, 10000000][x.delaySel]? = some d →
      let settled := s.modPort p (fun z => { z with refSettled := true, settledAt := s.mod.sby })
      (x.refAt + d ≤ s.mod.sby →
        (s.mod.tsPresent = false ∨ s.cp.owner = none → exec (.refclkSettled p) s = .next settled) ∧
        (∀ m, s.mod.tsPresent = true → s.cp.owner = some (p, m) →
          exec (.refclkSettled p) s = .next { settled with mod := { s.mod with tsrc := p } })) ∧
      (s.mod.sby < x.refAt + d → exec (.refclkSettled p) s = .next s)) ∧
    (x.refPresent = true →
      (s.mod.tsPresent = true → s.mod.tsrc = p → ∃ (t : State), exec (.refclkLost p) s = .next t ∧ t.mod.tsPresent = false ∧
        t.mod.ctlLock = false ∧ (t.port p).refPresent = false ∧ (t.port p).refSettled = false ∧ (t.port p).linkUp = false ∧
        t.cores = s.cores ∧ t.jobs = s.jobs ∧ t.net = s.net ∧ (∀ g < 60, (t.field g) = { s.field g with lock := false, run := false }) ∧
        (∀ n < 16, (t.stack n) = { s.stack n with locked := false, selfRefresh := true }) ∧
        (s.cp.active.isSome = true → (s.port p.other).refPresent = true → ∃ r ∈ t.errs, r.cls = 0xD ∧ r.unit = p.num)) ∧
      (s.mod.tsPresent = false ∨ s.mod.tsrc ≠ p → (s.port p.other).refPresent = true →
        (x.linkUp = false → exec (.refclkLost p) s = .next (s.modPort p (fun z => { z with refPresent := false, refSettled := false }))) ∧
        (x.linkUp = true → ∃ (t : State), exec (.refclkLost p) s = .next t ∧ t = { s with ports := t.ports } ∧ (t.port p).linkUp = false ∧
          (t.port p).refPresent = false ∧ (t.port p.other).evt.getLsbD 5 = true)) ∧
      ((s.port p.other).refPresent = false → ∃ (t : State), exec (.refclkLost p) s = .next t ∧ t.fw = s.fw ∧
        ∀ q, (s.mc.get q).running = true → ∃ r, (r, false) ∈ (t.mc.get q).store ∧ r.cls = 0xD ∧ r.source = 6)) ∧
    (s.mod.tsPresent = false → 5 ≤ s.mod.step →
      (s.mod.tsrc = p → usable p → (s.mod.fallback = false ∨ ¬ usable p.other ∨ x.settledAt ≤ (s.port p.other).settledAt) →
        ∃ (t : State), exec .clockRecovery s = .next t ∧ t.mod.tsPresent = true ∧ t.mod.ctlLock = true ∧ source t p ∧ t.cores = s.cores ∧
        t.jobs = s.jobs ∧
        (∀ g < 60, (s.field g).loaded = true → (s.field g).power = 0 → (s.field g).swOpen = false → (s.field g).tstop = false →
          (t.field g) = { s.field g with lock := true, run := true }) ∧
        (∀ n < 16, (s.stack n).loaded = true → (s.stack n).lost = false →
          (t.stack n) = { s.stack n with locked := true, selfRefresh := false })) ∧
      (s.mod.tsrc = p.other → s.mod.fallback = true → usable p → (¬ usable p.other ∨ x.settledAt < (s.port p.other).settledAt) →
        ∃ (t : State), exec .clockRecovery s = .next t ∧ t.mod.tsPresent = true ∧ source t p) ∧
      (s.mod.tsrc = p.other → ¬ usable p.other → (s.mod.fallback = false ∨ ¬ usable p) → exec .clockRecovery s = .next s)) ∧
    (s.mod.tsPresent = true → exec .clockRecovery s = .next s) ∧
    (s.mod.step = 3 → s.ports.a.refPresent = true → s.ports.a.refSettled = true → s.ports.b.pref = false → exec (.clockLock .control) s =
      .next { s with
        ports := { a := { s.ports.a with tick := 0, tickAdj := 0 }, b := { s.ports.b with tick := 0, tickAdj := 0 } }
        mod := { s.mod with tsrc := .a, tsPresent := true, ctlLock := true, step := 5 } }) ∧
    (s.mod.ctlLock = true → y.power = 0 → y.swOpen = false → y.tstop = false →
      (y.loaded = true → exec (.clockLock (.field f)) s = .next (s.modField f (fun z => { z with lock := true, run := true }))) ∧
      (y.loaded = false → exec (.clockLock (.field f)) s = .next s)) ∧
    (∀ n, s.mod.ctlLock = true → (s.stack n).lost = false →
      ((s.stack n).loaded = true → exec (.clockLock (.stack n)) s = .next (s.modStack n (fun z => { z with locked := true, selfRefresh := false }))) ∧
      ((s.stack n).loaded = false → exec (.clockLock (.stack n)) s = .next s)) ∧
    (∀ eth, (s.mc.get p).running = true →
      (s.mod.tsPresent = true → exec (.standbyTrim eth) s = .next { s with mod := { s.mod with stbySrc := 1 } }) ∧
      (s.mod.tsPresent = false → x.refPresent = true → exec (.standbyTrim eth) s = .next { s with mod := { s.mod with stbySrc := 2 } })) ∧
    (y.run = true → y.power = 0 → y.tstop = false → y.clkSet ≤ 20 →
      (NoLimit s f → ∃ v, exec (.clockSwitch f) s = .next (s.modField f (fun z =>
        { z with clkEff := z.clkSet, clkLimit := 0, vcore := v })) ∧ 650 ≤ v.toNat ∧ v.toNat ≤ 850) ∧
      (s.mod.supply = .warning → 0 < y.clkSet → ∃ v, exec (.clockSwitch f) s = .next (s.modField f (fun z =>
        { z with clkEff := 0, clkLimit := 3, vcore := v })) ∧ 650 ≤ v.toNat ∧ v.toNat ≤ 850)) ∧
    (y.run = false → exec (.clockSwitch f) s = .next s) ∧
    (y.run = true → y.power = 0 → y.gated = false → s.fieldIdle f = true →
      exec (.clockGate f) s = .next (s.modField f (fun z => { z with gated := true }))) ∧
    (s.fieldIdle f = false → exec (.clockGate f) s = .next s) ∧
    (∀ q ∈ s.net, q.dkind = 0 → coreField { x := q.dx, y := q.dy } = some f → y.gated = true →
      exec (.clockUngate f) s = .next (s.modField f (fun z => { z with gated := false })))

namespace Sys2Proof.Claims

/-- What is left where every supply switch is open (spec/14 R376): no cores, packets, jobs or CP; every field OFF with its switch open;
of the in-service list what the flash devices hold (spec/01 R32, spec/14 R373). -/
def Unpowered (s t : State) : Prop :=
  t.cores = [] ∧ t.routers = [] ∧ t.hubs = [] ∧ t.net = [] ∧ (∀ j < 16, t.job j = {}) ∧ t.cp.active = none ∧ t.cp.owner = none ∧
    (∀ f < 60, (t.field f).swOpen = true ∧ (t.field f).cause = 4 ∧ (t.field f).power = 2 ∧ (t.field f).run = false) ∧
    (∀ n < 16, (t.stack n).mem = []) ∧ t.fused = s.fused ∧
    (s.flashCopy = none → t.service = s.service) ∧ (∀ k, s.flashCopy = some k → t.service = k.service) ∧ t.mod.mainClosed = s.mod.mainClosed ∧ t.mod.step = 2

end Sys2Proof.Claims

/-- spec/14 R372-R376, spec/19 R475, R476, spec/16 R414, R415, R424-R426, Tables 16.3, 16.4: the supply warning below 49.0 V and its clearing at 49.5 V;
a develop point held 200,000 ticks for POWER is a PAUSE; the module supply reset, its return, the loss of standby power, the
PRESENT contact, the cold power-on, the end of the start sequence, also where a die did not complete its power-up (spec/01 R19), the module
warm reset. Flash writes that the warning delayed are made when it clears. -/
def Obligations.SupplyAndStart : Prop :=
  ∀ (s : State),
    (s.mod.supply = .normal → ∀ mv,
      (mv < 49000 → ∃ (t : State), exec (.supplyWarning mv) s = .next t ∧ t.mod = { s.mod with supply := .warning } ∧
        (∀ j < 16, (s.job j).state = .running → (s.job j).held = true → t.job j = { s.job j with warnFrom := some s.mod.ctl }) ∧
        (∀ j < 16, (s.job j).held = false → t.job j = s.job j) ∧ t = { s with mod := t.mod, jobs := t.jobs }) ∧
      (49000 ≤ mv → exec (.supplyWarning mv) s = .next s)) ∧
    (s.mod.supply = .warning → ∀ mv,
      (49500 ≤ mv → s.fw.syncDue = false → ∃ (t : State), exec (.supplyWarningClear mv) s = .next t ∧
        t.mod = { s.mod with supply := .normal } ∧ (∀ j < 16, t.job j = { s.job j with warnFrom := none }) ∧
        t = { s with mod := t.mod, jobs := t.jobs, flashErrs := s.flashErrs ++ s.flashWait, flashWait := [], flashCopy := none }) ∧
      (mv < 49500 → exec (.supplyWarningClear mv) s = .next s)) ∧
    (∀ j a, j < 16 → (s.job j).state = .running → (s.job j).held = true → s.mod.supply = .warning → (s.job j).warnFrom = some a →
      (a + 200000 ≤ s.mod.ctl → ∃ (t : State), exec (.powerHoldPause j) s = .next t ∧ (t.job j).state = .paused ∧
        (t.job j).holds.pause = true ∧ (t.job j).held = true ∧ (t.job j).expNo = (s.job j).expNo ∧ t.net = s.net ∧ t.fields = s.fields) ∧
      (s.mod.ctl < a + 200000 → exec (.powerHoldPause j) s = .next s)) ∧
    ((s.mod.supply = .normal ∨ s.mod.supply = .warning) → ∀ mv,
      (mv < 45000 ∨ 60000 < mv → ∃ (t : State), exec (.supplyReset mv) s = .next t ∧ Unpowered s t ∧ t.mod.supply = .reset ∧
        t.fw.flash = s.fw.flash ∧ (∀ p, (s.mc.get p).running = true → ∃ r, (r, false) ∈ (t.mc.get p).store ∧ r.cls = 0xE ∧ r.code = mv)) ∧
      (45000 ≤ mv → mv ≤ 60000 → exec (.supplyReset mv) s = .next s)) ∧
    (s.mod.supply = .reset → ∀ mv,
      (50000 ≤ mv → mv ≤ 58000 → s.mod.present = true → exec (.supplyReturn mv) s =
        .next { s with mod := { s.mod with supply := .normal, mainClosed := true, step := 3 } }) ∧
      (50000 ≤ mv → mv ≤ 58000 → s.mod.present = false → exec (.supplyReturn mv) s = .next { s with mod := { s.mod with supply := .off } }) ∧
      (mv < 50000 ∨ 58000 < mv → exec (.supplyReturn mv) s = .next s)) ∧
    (s.mod.standby = true → ∃ (t : State), exec .standbyPowerLoss s = .next t ∧ t.mod.standby = false ∧ t.mod.step = 0 ∧ t.mgmt = {} ∧
      t.mc = { a := {}, b := {} } ∧ t.cores = [] ∧ (∀ j < 16, t.job j = {}) ∧ t.fw.flash = s.fw.flash ∧ t.fw.keyHash = s.fw.keyHash) ∧
    (s.mod.standby = false → (∀ a b, ∃ (t : State), exec (.coldPowerOn a b) s = .next t ∧ t.mod.standby = true ∧ t.mod.sby = 0 ∧ t.mgmt = {} ∧
        Strapped s.ports.a t.ports.a a ∧ Strapped s.ports.b t.ports.b b ∧ Unpowered s t ∧ t.fw.keyHash = s.fw.keyHash ∧
        (∀ p, (t.mc.get p).store = [])) ∧ exec .presentMate s = .next s) ∧
    (s.mod.standby = true → s.mod.present = false → s.mod.supply ≠ .reset → exec .presentMate s = .next { s with
      mod := { s.mod with present := true, presentAt := s.mod.sby, mainClosed := true, supply := .normal, step := 3 } }) ∧
    (s.mod.present = true → s.mod.supply = .normal → ∃ (t : State), exec .presentBreak s = .next t ∧ t.mod.present = false ∧
      t.mod.mainClosed = false ∧ t.mod.supply = .off ∧ t.cores = [] ∧ t.mc = s.mc ∧ t.mgmt = s.mgmt ∧ t.fw.flash = s.fw.flash) ∧
    (s.mod.present = false → exec .presentBreak s = .next s) ∧
    (s.mod.step = 5 → s.mod.tsPresent = true → ∃ (t : State), exec (.startSequenceEnd [] [] []) s = .next t ∧ t.mod.step = 10 ∧
      t.ports.a.ready = true ∧ t.ports.b.ready = true ∧
      (t.cp.active.isSome = true → s.ports.a.refPresent = true → s.mod.coolantOk = false → s.mod.coolantNoted = false →
        ∃ r ∈ t.errs, r.cls = 0xF) ∧
      (t.cp.active.isSome = true → ∀ f < 60, (t.field f).run = true ∧ (t.field f).power = 0 ∧ (t.field f).testFail = false ∧
        (t.field f).clkSet = 18)) ∧
    (s.mod.step = 5 → s.mod.tsPresent = true → ∀ p, ∃ (t : State), exec (.startSequenceEnd [] [] [p]) s = .next t ∧ t.cp.active ≠ some p ∧
      (t.port p).ready = false ∧ (t.port p.other).ready = true) ∧
    (s.mod.step ≠ 5 → ∀ w u d, exec (.startSequenceEnd w u d) s = .next s) ∧
    (3 ≤ s.mod.step → s.mod.warmReq = true → ∃ (t : State), exec .moduleWarmReset s = .next t ∧ t.mod.step = 3 ∧ t.mod.warmReq = false ∧
      t.cores = [] ∧ t.net = [] ∧ (∀ j < 16, t.job j = {}) ∧ t.cp.owner = none ∧ t.mc = s.mc ∧ t.mgmt = s.mgmt ∧ t.fw.flash = s.fw.flash ∧
      (∀ n < 16, (t.stack n).mem = (s.stack n).mem ∧ (t.stack n).selfRefresh = true)) ∧
    (s.mod.warmReq = false → s.ports.a.perst = false → s.ports.a.cprsnt = false → exec .moduleWarmReset s = .next s)

/-- spec/14 R377-R388, spec/19 R478, spec/16 R419: a rail fault opens a field's switch, a second one within 1 s locks it out; a lost field
holds its partition for FAULT; samples, the thermal limit, the stop at 100 °C and the restart; the coolant state; the power
limit; a field with a protective action under way keeps its grant (spec/01 R17); a field reset washes the field and keeps its clock code. That
a limit's first step starts from the code set is the model's choice (log 60), as are the start of an interval at its first sample. -/
def Obligations.RailsAndHeat : Prop :=
  ∀ (s : State) (f : Nat), f < 60 →
    let x := s.field f
    let others (t : State) : Prop := ∀ g, g ≠ f → t.field g = s.field g
    let from_ (lim : Nat) : Nat := if lim = 20 then x.clkSet else lim
    (∀ cause, (cause = 1 ∨ cause = 3) → x.swOpen = false →
      ∃ (t : State), exec (.railFault f cause) s = .next t ∧ (t.field f).swOpen = true ∧ (t.field f).cause = cause ∧ (t.field f).power = 2 ∧
        (t.field f).run = false ∧ (t.field f).vcore = 0 ∧ (t.field f).reports = x.reports ++ [cause] ∧ others t ∧ t.jobs = s.jobs ∧
        (x.closedAt = none → (t.field f).lockout = x.lockout) ∧
        (∀ a, x.closedAt = some a → s.mod.ctl < a + 100000000 → (t.field f).lockout = true) ∧
        ∀ c, coreField c = some f → t.core c = {}) ∧
    (x.swOpen = true → ∀ cause, exec (.railFault f cause) s = .next s) ∧
    (∀ j, x.lost = false → x.swOpen = true → x.cause = 1 → Inner f → x.job = some j → j < 16 → (s.job j).state = .running →
      ∃ (t : State), exec (.fieldLost f) s = .next t ∧ (t.field f).lost = true ∧ (t.job j).holds.fault = true ∧
        f ∈ (t.job j).faultFields ∧ (t.job j).state = .running ∧ others t ∧ (∀ k < 16, k ≠ j → t.job k = s.job k)) ∧
    (x.lost = true → exec (.fieldLost f) s = .next s) ∧
    (∀ temps : List Int, temps ≠ [] → (∀ v ∈ temps, -128 ≤ v ∧ v ≤ 127) → ∃ (t : State) (m : Int), exec (.tempSample f temps) s = .next t ∧
      m ∈ temps ∧ (∀ v ∈ temps, v ≤ m) ∧ (t.field f).tempMax = BitVec.ofInt 8 m ∧ (t.field f).temps = temps ∧ others t ∧
      (m < 100 → (t.field f).tstop = x.tstop ∧ (t.field f).run = x.run) ∧
      (100 ≤ m → x.tstop = false → x.power ≠ 2 → x.swOpen = false → (t.field f).tstop = true ∧ (t.field f).run = false ∧
        (t.field f).vcore = 600 ∧ (t.field f).busy = true ∧ (t.field f).reports = x.reports ++ [4])) ∧
    (x.run = true →
      (90 ≤ x.tempMax.toInt → x.thermAt = none → 0 < from_ x.thermLim → exec (.throttleStep f) s = .next (s.modField f (fun y =>
        { y with thermLim := from_ x.thermLim - 1, thermAt := some s.mod.ctl, fthr := sat1 y.fthr, busy := true
                 reports := y.reports ++ [5] }))) ∧
      (∀ a, x.tempMax.toInt ≤ 87 → x.thermLim + 1 < x.clkSet → x.thermLim < 20 → x.thermUp = some a → a + 10000 ≤ s.mod.ctl →
        exec (.throttleStep f) s = .next (s.modField f (fun y => { y with thermLim := y.thermLim + 1, thermUp := some s.mod.ctl }))) ∧
      (87 < x.tempMax.toInt → x.tempMax.toInt < 90 → exec (.throttleStep f) s = .next s) ∧
      (x.grant.toNat < x.watts.toNat → x.powAt = none → 0 < from_ x.powLim → exec (.powerLimitStep f) s = .next (s.modField f (fun y =>
        { y with powLim := from_ x.powLim - 1, powAt := some s.mod.ctl, fthr := sat1 y.fthr }))) ∧
      (∀ a, x.grant.toNat < x.watts.toNat → x.powAt = some a → s.mod.ctl < a + 1000 → exec (.powerLimitStep f) s = .next s)) ∧
    (∀ a, x.tstop = true → x.swOpen = false → x.power = 0 → x.job = none → x.coolSince = some a → a + 100000 ≤ s.mod.ctl →
      s.cpRuns = true → s.mod.tsPresent = true → KMap.rising s.cores = true → ∃ (t : State), exec (.thermalRestart f []) s = .next t ∧ (t.field f).tstop = false ∧
        (t.field f).run = true ∧ (t.field f).thermLim = 0 ∧ (t.field f).clkEff = 0 ∧ others t ∧
        ∀ c, coreField c = some f → t.core c = {}) ∧
    (x.tstop = false → exec (.thermalRestart f []) s = .next s) ∧
    (s.mod.standby = true →
      (s.mod.coolantOk = false → exec (.coolantStateChange true) s =
        .next { s with mod := { s.mod with coolantOk := true, coolantNoted := false } }) ∧
      (s.mod.coolantNoted = false → ∃ (t : State), exec (.coolantStateChange false) s = .next t ∧ t.mod.coolantOk = false ∧
        t.mod.coolantNoted = true ∧ t.fields = s.fields ∧ t.jobs = s.jobs ∧ (s.cpRuns = true → ∃ r ∈ t.errs, r.cls = 0xF)) ∧
      (s.mod.coolantOk = false → s.mod.coolantNoted = true → exec (.coolantStateChange false) s = .next s)) ∧
    (∀ fixed, s.cpRuns = true → x.power = 0 → x.busy = true → ∃ (t : State), exec (.powerShare fixed []) s = .next t ∧ t.field f = x) ∧
    (∀ fixed, s.cpRuns = true → x.power = 0 → x.busy = false → ∃ (t : State), exec (.powerShare fixed []) s = .next t ∧
      (t.field f).base = BitVec.ofNat 16 ((s.mod.cap - fixed) / ((List.range 60).filter (fun g => (s.field g).power ≠ 2)).length) ∧
      (x.run = false → x.watts.toNat ≤ (s.mod.cap - fixed) / ((List.range 60).filter (fun g => (s.field g).power ≠ 2)).length →
        (t.field f).grant = (t.field f).base) ∧ t.jobs = s.jobs ∧ t.cores = s.cores ∧ (t.field f).watts = x.watts) ∧
    (x.job = none → x.power = 0 → x.swOpen = false → x.tstop = false → x.loaded = true → s.cpRuns = true → s.mod.tsPresent = true →
      KMap.rising s.cores = true → ∃ (t : State), exec (.fieldReset f [] []) s = .next t ∧ (t.field f).clkSet = x.clkSet ∧ (t.field f).run = true ∧
        (t.field f).tick = (s.port s.cp.cpact).tick ∧ (t.field f).testFail = false ∧ (t.field f).errCe = 0 ∧ others t ∧
        ∀ c, coreField c = some f → t.core c = {} ∧ t.router c = {}) ∧
    (∀ j, x.job = some j → exec (.fieldReset f [] []) s = .next s)

/-- spec/15 R402-R404, R394, R409, R410, spec/12 R308, spec/17 R440: a stack takes a WRITE and answers a READ; it is lost, returns once its edge field is
back, and ends its rebuild; error counts are fetched into the field's totals, those of links too, and a core above the rate gets a pending fence and a record; a
hub group's test comes due once per TEST_PERIOD at its offset, runs at once outside a running partition, waits inside one, and holds the develop point when deferred too long; an image passes its trial after 300 s. -/
def Obligations.StacksAndTests : Prop :=
  ∀ (s : State) (k n : Nat) (p : Packet) (f : Nat), f < 60 →
    let x := s.field f
    let w := nfld p.da 0 37 / 8
    let lands (ty : Nat) : Prop := s.net[k]? = some p ∧ p.ptype = ty ∧ p.dkind = 1 ∧ p.dx = n ∧ n < 16 ∧
      (∀ o ∈ s.net.take k, samePath p o = false) ∧ (s.route p).fin = .arrive ∧ p.wellFormed = true ∧ p.counted = false ∧ p.len = 1 ∧
      nfld p.da 0 37 < 75000000000 ∧ nfld p.da 0 37 % 8 = 0 ∧ (s.stack n).locked = true ∧ (s.stack n).selfRefresh = false ∧
      (s.stack n).lost = false ∧ (s.stack n).rebuild = none ∧ s.mod.memMode = false
    (∀ d po, lands 0 → p.pay = [(d, po)] → nfld p.h1.toNat 48 8 = 0xFF → KMap.wf 0 (s.stack n).mem = true →
      ∃ (t : State), exec (.stackWrite k) s = .next t ∧
      KMap.get 0 (t.stack n).mem w = eccEncode d po ∧ (∀ a, a ≠ w → KMap.get 0 (t.stack n).mem a = KMap.get 0 (s.stack n).mem a) ∧
      (∀ m, m ≠ n → t.stack m = s.stack m) ∧ t.net = s.net.eraseIdx k ∧ t.cores = s.cores) ∧
    (∀ d po, lands 3 → KMap.get 0 (s.stack n).mem w = eccEncode d po → ∃ (t : State), exec (.stackRead k) s = .next t ∧
      t.net = s.net.eraseIdx k ++ [entering s (p.rdata (768 + n) 0 p.epoch [(d, po)])] ∧ t.stk = s.stk ∧ t.cores = s.cores) ∧
    (n < 16 → (s.stack n).failed = false → ∃ (t : State), exec (.stackLost n) s = .next t ∧ (t.stack n).lost = true ∧
      (t.stack n).failed = true ∧ (t.stack n).locked = false ∧ (t.stack n).mem = (s.stack n).mem) ∧
    ((s.stack n).failed = true → exec (.stackLost n) s = .next s) ∧
    (n < 16 → (s.stack n).lost = true → (s.stack n).failed = false → s.edgeBack n = true → (∀ m, m ≠ n → (s.stack m).lost = false) →
      exec (.stackReturn n) s = .next (s.modStack n (fun y => { y with lost := false, locked := true, selfRefresh := false }))) ∧
    (n < 16 → s.edgeBack n = false → exec (.stackReturn n) s = .next s) ∧
    (∀ u, n < 16 → (∀ m < 16, (s.stack m).lost = false) → (s.stack n).rebuild = some u → ∃ (t : State),
      exec (.stackRebuildComplete n) s = .next t ∧ (t.stack n).rebuild = none ∧ (∀ m, m ≠ n → t.stack m = s.stack m) ∧
        (∀ a, a < 8 * u → KMap.get 0 (t.stack n).mem a = KMap.get 0 (s.stack n).mem a)) ∧
    (∀ c, x.run = true → s.coresOf f = [c] → s.routers = [] → coreField c = some f → x.last = [] → s.code c = 0 → x.pendFence = [] →
      ∃ (t : State), exec (.errorCountSweep f) s = .next t ∧ (t.field f).errCe = satAdd x.errCe (s.core c).sp.ceCount.toNat ∧
        (t.field f).errUe = satAdd x.errUe (s.core c).sp.ueCount.toNat ∧ (t.field f).pois = satAdd x.pois (s.core c).sp.poisCount.toNat ∧
        (4096 < (s.core c).sp.ceCount.toNat → (t.field f).pendFence = [c] ∧ (s.cpRuns = true → ∃ r ∈ t.errs, r.cls = 1)) ∧
        ((s.core c).sp.ceCount.toNat ≤ 4096 → (s.core c).sp.logValid = false → (t.field f).pendFence = []) ∧ t.cores = s.cores) ∧
    (∀ c r, x.run = true → s.coresOf f = [] → s.routers = [(coreKey c, r)] → coreField c = some f → x.last = [] →
      ∃ (t : State), exec (.errorCountSweep f) s = .next t ∧ (t.field f).errCe = satAdd x.errCe r.linkCe.toNat ∧
        (t.field f).errUe = satAdd x.errUe r.linkRpl.toNat ∧ (t.field f).pendFence = x.pendFence ∧ t.routers = s.routers ∧
        (65536 < r.linkCe.toNat → s.cpRuns = true → ∃ e ∈ t.errs, e.cls = 1)) ∧
    (∀ h, h < 48 → s.fieldOk f = true → x.run = true →
      let period := s.mgmt.testPeriod * 100000000
      let off := (48 * f + h) * period / 2880
      let last := off + (x.tick.toNat - off) / period * period
      let due : Prop := off ≤ x.tick.toNat ∧ KMap.get 0 x.testLast h ≤ last ∧ ∀ d ∈ x.testDue, d.1 ≠ h
      (x.tick.toNat < off → (∀ d ∈ x.testDue, d.1 ≠ h) → exec (.testDue f h []) s = .next s) ∧
      (last < KMap.get 0 x.testLast h → (∀ d ∈ x.testDue, d.1 ≠ h) → exec (.testDue f h []) s = .next s) ∧
      (due → x.job = none → ∃ (t : State), exec (.testDue f h []) s = .next t ∧ (t.field f).testFail = false ∧ (t.field f).testHg = h ∧
        (∀ d ∈ (t.field f).testDue, d.1 ≠ h) ∧ KMap.get 0 (t.field f).testLast h = last + 1 ∧ t.cores = s.cores) ∧
      (∀ j, due → x.job = some j → (s.job j).state = .running → exec (.testDue f h []) s = .next (s.modField f (fun y =>
        { y with testLast := KMap.put y.testLast h (last + 1), testDue := y.testDue ++ [(h, s.mod.ctl)], testDefer := true }))) ∧
      (∀ j a, x.job = some j → (s.job j).state = .running → x.testDue = [(h, a)] →
        (a + s.mgmt.testDefer * 100000000 < s.mod.ctl → exec (.testDeferExpiry f h) s =
          .next (s.modJob j (fun q => { q with holds := { q.holds with test := true } }))) ∧
        (s.mod.ctl ≤ a + s.mgmt.testDefer * 100000000 → exec (.testDeferExpiry f h) s = .next s))) ∧
    (s.mod.supply ≠ .warning →
      (∀ a, s.fw.trialAt = some a → s.cpRuns = true → s.fw.runMod < 2 →
        (a + 30000000000 ≤ s.mod.ctl → ∃ (t : State), exec (.trialPass .module) s = .next t ∧ t.fw.trialAt = none ∧ s.fw.arc ≤ t.fw.arc ∧
          s.fw.revoke &&& t.fw.revoke = s.fw.revoke ∧ (∀ q, (tget {} (t.fw.flash.get q).mod s.fw.runMod).state = 4 ∧
            ∀ i < 2, (tget {} (s.fw.flash.get q).mod i).gen < (tget {} (t.fw.flash.get q).mod s.fw.runMod).gen) ∧ t.fw.runMod = s.fw.runMod) ∧
        (s.mod.ctl < a + 30000000000 → exec (.trialPass .module) s = .next s)) ∧
      (∀ q a, s.fw.mcTrialAt.get q = some a → (s.mc.get q).running = true → s.fw.runMc.get q < 2 → a + 30000000000 ≤ s.mod.sby →
        ∃ (t : State), exec (.trialPass (.mc q)) s = .next t ∧ t.fw.mcTrialAt.get q = none ∧
          (tget {} (t.fw.flash.get q).mc (s.fw.runMc.get q)).state = 4 ∧ t.fw.arc = s.fw.arc))

namespace Sys2Proof.Claims

/-- XOR of the powers alpha^(k i) over the set positions 0 to 78 of a code word (spec/15 R391, R392). -/
def codeSum (k : Nat) (c : Code) : Nat := (List.range 79).foldl (fun a i => if c.getLsbD i then a ^^^ gfPow (k * i) else a) 0

/-- The number of ones of a code word. -/
def onesOf (c : Code) : Nat := ((List.range 80).filter (fun i => c.getLsbD i)).length

/-- A code word with position `i` inverted. -/
def flipped (c : Code) (i : Nat) : Code := c ^^^ (1#80 <<< i)

end Sys2Proof.Claims

/-- A step takes the command at the front of the queue and runs it on the state with the queue's rest. On an empty queue one tick
passes (the model's choice, log 1). -/
def Obligations.StepRunsTheFrontCommand : Prop :=
  ∀ (s : State) (c : Instr) (rest : List Instr),
    step { s with pending := c :: rest } = exec c { s with pending := rest } ∧
    (s.pending = [] → step s = .next s.tick)

/-- Every step keeps every scratchpad and every stack memory in its canonical form: rising addresses, no entry equal to what an
unlisted word reads as (the model's form of memory). -/
def Obligations.StepKeepsMemoryForm : Prop :=
  ∀ (s t : State), s.memWf = true → step s = .next t → t.memWf = true

/-- The module at reset has its memories in the canonical form and its negative in order. -/
def Obligations.ResetMemoryForm : Prop :=
  State.reset.memWf = true ∧ State.reset.negWf = true

/-- spec/15 R413, spec/16 Table 16.4, Tables 9.11, 12.10, 13.1, 14.6, 15.11, spec/05 R144: nothing runs and nothing is listed at reset; each register of the
register tables holds its reset value; a core never changed reads as washed. The values of fuses and flash are the model's
choice (log 14). -/
def Obligations.ResetState : Prop :=
  let s := State.reset
  (∀ c, s.core c = {} ∧ s.router c = {}) ∧ s.net = [] ∧ s.pending = [] ∧ s.errs = [] ∧ s.errNext = 0 ∧ s.flashErrs = [] ∧ s.flashWait = [] ∧ s.flashCopy = none ∧
  (∀ j < 16, (s.job j).state = .empty ∧ (s.job j).regions = []) ∧
  (∀ f < 60, (s.field f).clkSet = 18 ∧ (s.field f).run = false ∧ (s.field f).tempPeak = 0x80 ∧ (s.field f).fthr = 0 ∧ (s.field f).job = none ∧
    (s.field f).xpHolds = 0 ∧ (s.field f).errCe = 0 ∧ (s.field f).voteValid = false) ∧
  (∀ n < 16, (s.stack n).mem = [] ∧ (s.stack n).lost = false) ∧
  (∀ p, (s.port p).evt = 0 ∧ (s.port p).evtEn = 0x7F ∧ (s.port p).wrDeny = 0 ∧ (s.port p).ctlAddr = 0 ∧ (s.port p).linkUp = false ∧
    NoWindows (s.port p) ∧ (∀ n < 16, tget none (s.port p).sess n = none) ∧ (∀ i < 8, tget {} (s.port p).slots i = {}) ∧
    (∀ v < 64, ((s.port p).vec v).masked = true)) ∧
  s.cp.owner = none ∧ s.cp.ownGen = 0 ∧ s.cp.active = none ∧ s.cp.journal = [] ∧ s.mod.cap = 27000 ∧ s.mod.policy = 0 ∧ s.mod.step = 0 ∧
  s.mod.standby = false ∧ s.mod.memMode = false ∧ s.mgmt.testPeriod = 86400 ∧ s.mgmt.testDefer = 10

/-- spec/15 R390, R391: positions 14 to 77 of a code word hold the data bits, 78 the poison bit; S1 = S3 = 0 over positions 0 to 78; the
word has an even number of ones; the all-zero word is a code word. -/
def Obligations.CodeWordsOfTheCode : Prop :=
  eccEncode 0 false = 0 ∧
  ∀ (d : Word) (p : Bool),
    let c := eccEncode d p
    (∀ j < 64, c.getLsbD (14 + j) = d.getLsbD j) ∧ c.getLsbD 78 = p ∧ codeSum 1 c = 0 ∧ codeSum 3 c = 0 ∧ onesOf c % 2 = 0

/-- spec/15 R392, Table 15.1: a code word decodes clean; with one position inverted it is corrected, one bit; with two inverted it is
corrected, two bits: the data and the poison bit come back. -/
def Obligations.OneAndTwoErrorsCorrected : Prop :=
  ∀ (d : Word) (p : Bool),
    let c := eccEncode d p
    eccDecode c = { outcome := .clean, data := d, poison := p } ∧
    (∀ i < 80, eccDecode (flipped c i) = { outcome := .corrected1, data := d, poison := p }) ∧
    (∀ i < 80, ∀ j < i, eccDecode (flipped (flipped c i) j) = { outcome := .corrected2, data := d, poison := p })

/-- spec/09 R246, R249, Table 9.7: the interval drains until no packet of the partition is left but those that wait in front of a stopped
field; then the overlay is in force, STOPAT
and the cores' stop clear, and the next exposure begins.
And spec/01 R16, spec/09 R222: a report reaches the active CP, which ends a field controller's protective actions (the model's choice,
log 82); a TICK copy off by one is corrected in
the next tick, and one off by more is a fault of its field.
And spec/09 R221, spec/14 R364, R366: on an empty queue one tick of 10 ns passes: every copy of TICK advances while a time source is
present and stands still without one (that a step on an empty queue is a tick is the model's choice, log 1). -/
def Obligations.SafelightReportsAndTime : Prop :=
  (
  ∀ (s : State) (j : Nat) (o : Overlay), j < 16 → (s.job j).state = .running →
    let q := s.job j
    (q.safelight = .drain o → (∀ p ∈ s.net, p.slot = j → (s.route p).pos.isSome = true) →
      exec (.safelightDrainEnd j) s = .next (s.modJob j (fun x => { x with safelight := .apply o }))) ∧
    (q.safelight = .drain o → (∃ p ∈ s.net, p.slot = j ∧ (s.route p).pos = none) → exec (.safelightDrainEnd j) s = .next s) ∧
    (q.safelight = .apply o → o.changes = [] → (∀ c ∈ s.schedCores j, NoQueued (s.core c)) → ∃ t, exec (.safelightStart j) s = .next t ∧
      (t.job j).safelight = .idle ∧ (t.job j).inForce = q.inForce ++ [o] ∧ (t.job j).expLen = o.expLen.getD q.expLen ∧
      (t.job j).holdMax = o.holdMax.getD q.holdMax ∧ (t.job j).expNo = q.expNo + 1 ∧
      (t.job j).sched = s.now + o.expLen.getD q.expLen ∧
      (∀ c ∈ s.schedCores j, (t.core c).stopat = false ∧ (t.core c).stopped = false ∧ (t.core c).done = false) ∧
      (∀ m, m ≠ j → t.job m = s.job m) ∧ t.mod = s.mod ∧ t.fw = s.fw)) ∧
  (
  ∀ (s : State) (f : Nat), f < 60 →
    let now := (s.port s.cp.cpact).tick
    let d : Int := ((s.field f).tick.toNat : Int) - now.toNat
    (s.cpRuns = true → exec (.faultReport f) s = .next (s.modField f (fun x => { x with reports := [], busy := false }))) ∧
    (s.cpRuns = false → exec (.faultReport f) s = .next s) ∧
    (d = 0 → exec (.tickCompare (.field f)) s = .next (s.modField f (fun x => { x with tickAdj := 0 }))) ∧
    (d = 1 → exec (.tickCompare (.field f)) s = .next (s.modField f (fun x => { x with tickAdj := -1 }))) ∧
    (d = -1 → exec (.tickCompare (.field f)) s = .next (s.modField f (fun x => { x with tickAdj := 1 }))) ∧
    (2 ≤ d.natAbs → ∃ t, exec (.tickCompare (.field f)) s = .next t ∧ t.field f = { s.field f with lost := true } ∧
      (∀ j < 16, (s.field f).job = some j → (s.job j).state = .running → (t.job j).holds.fault = true ∧ f ∈ (t.job j).faultFields) ∧
      (∀ g, g ≠ f → t.field g = s.field g) ∧ t.cores = s.cores ∧ t.net = s.net ∧ t.stk = s.stk) ∧
    (∀ n < 16, (s.stack n).tick = now + 1 → now ≠ BitVec.allOnes 64 →
      exec (.tickCompare (.stack n)) s = .next (s.modStack n (fun x => { x with tickAdj := -1 }))) ∧
    (∀ p, (s.port p).tick = now → exec (.tickCompare (.die p)) s = .next (s.modPort p (fun x => { x with tickAdj := 0 })))) ∧
  (
  ∀ s : State, s.pending = [] → (∀ p, (s.port p).heldReads = []) →
    (s.mod.tsPresent = true → (∀ n < 16, (s.stack n).rebuild = none) → (∀ p, (s.port p).tickAdj = 0) → (∀ f < 60, (s.field f).tickAdj = 0) → (∀ n < 16, (s.stack n).tickAdj = 0) →
      ∃ (t : State), step s = .next t ∧ (∀ p, (t.port p).tick = (s.port p).tick + 1) ∧ (∀ f < 60, (t.field f).tick = (s.field f).tick + 1) ∧
        (∀ n < 16, (t.stack n).tick = (s.stack n).tick + 1) ∧ t.cores = s.cores ∧ t.net = s.net) ∧
    (s.mod.tsPresent = false → ∃ (t : State), step s = .next t ∧ t = { s with mod := t.mod } ∧
      t.mod.sby = s.mod.sby + (if s.mod.standby then 1 else 0) ∧
      t.mod.ctl = s.mod.ctl + (if s.ports.a.refPresent || s.ports.b.refPresent then 1 else 0)))
end

