-- ==== Sys2Proof/Laws/Issue.lean ====
section
/-! SUPPORT. Laws of issue: what one issue does once its instruction word is read clean, and what an engine does with a command
that finds its queue empty. -/

namespace Sys2Proof.Machine

variable (s : State) (c : CoreId)

/-- With nothing kept of an instruction's words, its fetch finds what they hold. -/
theorem State.fetchOld_nil (t pc : Nat) (h : (s.core c).earlier t pc = []) : s.fetchOld c t pc = (s, none) := by
  simp only [State.fetchOld, h]

/-! ### SX -/

theorem State.sxIssueOp_ready (t : Fin 4) (op : Nat) (body : SxBody) (i : Inst32) (hk : coreKind c = .sx)
    (hr : s.sxReady c t.val = true) (hp : ((s.core c).thread t.val).pc.toNat % 4 = 0)
    (ho' : (s.core c).earlier t.val ((s.core c).thread t.val).pc.toNat = [])
    (hc : (s.core c).clean (((s.core c).thread t.val).pc.toNat / 8) = true)
    (hi : ((s.core c).data (((s.core c).thread t.val).pc.toNat / 8)).extractLsb'
      (8 * (((s.core c).thread t.val).pc.toNat % 8)) 32 = i)
    (ho : sOpc i = op) (hl : sxLegal i = true) :
    s.sxIssueOp c t op body = body (s.setCore c (s.core c)) c t.val i := by
  have hf : s.fetchSx c t.val = (s.setCore c (s.core c), some i) := by
    simp only [State.fetchSx, hp, State.fetchOld_nil s c _ _ ho']
    rw [CoreState.noteReads_clean _ _ _ _ (by simpa using hc), CoreState.poisoned_clean _ _ hc]
    simp [hi]
  simp [State.sxIssueOp, hk, hr, hf, ho, hl]

/-- A thread that goes to a legal address. -/
theorem CoreState.jump_ok (x : CoreState) (t : Nat) (a : BitVec 32) (h3 : a.toNat % 4 = 0) (hr : a.toNat < 0x8000) :
    x.jump t a = x.modThread t (fun y => { y with pc := a.extractLsb' 0 15, wait := .none }) := by
  simp only [CoreState.jump]
  rw [if_neg (by omega), if_neg (by omega)]

/-! ### Sequencers -/

theorem State.fetchSeq_clean (hp : (s.core c).pc.toNat % 2 = 0) (hw : (s.core c).pc.toNat < (coreKind c).words)
    (hn : (s.core c).earlier 0 (s.core c).pc.toNat = [])
    (h0 : (s.core c).clean (s.core c).pc.toNat = true) (h1 : (s.core c).clean ((s.core c).pc.toNat + 1) = true) :
    s.fetchSeq c = (s.setCore c (s.core c),
      some (((s.core c).data ((s.core c).pc.toNat + 1)) ++ ((s.core c).data (s.core c).pc.toNat))) := by
  simp only [State.fetchSeq, State.fetchOld_nil s c _ _ hn]
  rw [if_neg (by omega)]
  rw [CoreState.noteReads_clean _ _ _ _ (by
    intro w hw
    simp only [List.mem_cons, List.not_mem_nil, or_false] at hw
    rcases hw with rfl | rfl
    · exact h0
    · exact h1)]
  simp [CoreState.poisoned_clean _ _ h0, CoreState.poisoned_clean _ _ h1]

/-- An issue whose instruction is read clean and names no semaphore to wait on goes straight to its body. -/
theorem State.issue_ready (k : Kind) (op : Nat) (body : Body) (i : Inst128) (hk : coreKind c = k) (hr : s.seqReady c = true)
    (hp : (s.core c).pc.toNat % 2 = 0) (hw : (s.core c).pc.toNat < k.words)
    (hn : (s.core c).earlier 0 (s.core c).pc.toNat = [])
    (h0 : (s.core c).clean (s.core c).pc.toNat = true) (h1 : (s.core c).clean ((s.core c).pc.toNat + 1) = true)
    (hi : ((s.core c).data ((s.core c).pc.toNat + 1)) ++ ((s.core c).data (s.core c).pc.toNat) = i)
    (ho : iOpc i = op) (hl : (s.core c).decodes k i = true) (hs : engineOf k op = some 0 → iWen i = false) :
    s.issue c k op body = body (s.setCore c (s.core c)) c i := by
  subst hk
  simp only [State.issue, hr]
  rw [State.fetchSeq_clean s c hp hw hn h0 h1, hi]
  by_cases he : engineOf (coreKind c) op = some 0
  · simp [ho, hl, hs he]
  · simp [ho, hl, he]

/-- An issue that takes its semaphore first. -/
theorem State.issue_takes (k : Kind) (op : Nat) (body : Body) (i : Inst128) (hk : coreKind c = k) (hr : s.seqReady c = true)
    (hp : (s.core c).pc.toNat % 2 = 0) (hw : (s.core c).pc.toNat < k.words)
    (hn : (s.core c).earlier 0 (s.core c).pc.toNat = [])
    (h0 : (s.core c).clean (s.core c).pc.toNat = true) (h1 : (s.core c).clean ((s.core c).pc.toNat + 1) = true)
    (hi : ((s.core c).data ((s.core c).pc.toNat + 1)) ++ ((s.core c).data (s.core c).pc.toNat) = i)
    (ho : iOpc i = op) (hl : (s.core c).decodes k i = true) (he : engineOf k op = some 0) (hwen : iWen i = true)
    (hg : (s.core c).semGrant k 0 (iWsem i) = true) :
    s.issue c k op body = body (s.setCore c ((s.core c).take (iWsem i))) c i := by
  subst hk
  simp only [State.issue, hr]
  rw [State.fetchSeq_clean s c hp hw hn h0 h1, hi]
  simp [ho, hl, he, hwen, hg]

/-! ### Engines -/

/-- No engine has anything queued: nothing starts. -/
theorem State.kick_idle (n : Nat) (h1 : (s.core c).e1.queue = []) (h2 : (s.core c).e2.queue = [])
    (h3 : (s.core c).e3.queue = []) : State.kick n s c = s := by
  cases n with
  | zero => rfl
  | succ n =>
    simp only [State.kick]
    split
    · rfl
    · simp [State.tryStart, CoreState.engine, h1, h2, h3]

/-! ### The program counter and the loops -/

/-- An engine's update commutes with whatever changes only the sequencer's registers. -/
def seqPart (x y : CoreState) : CoreState :=
  { x with pc := y.pc, a := y.a, lc0 := y.lc0, lc1 := y.lc1, loop0 := y.loop0, loop1 := y.loop1 }

theorem seqPart_self (x : CoreState) : seqPart x x = x := rfl

theorem CoreState.setA_part (x y : CoreState) (i : Nat) (v : BitVec 13) : (seqPart x y).setA i v = seqPart x (y.setA i v) := by
  unfold CoreState.setA; split <;> rfl

theorem CoreState.advance_part (x y : CoreState) (adv : BitVec 8) (h : y.str = x.str) :
    (seqPart x y).advance adv = seqPart x (y.advance adv) ∧ (y.advance adv).str = x.str := by
  unfold CoreState.advance
  generalize List.range 8 = l
  induction l generalizing y with
  | nil => exact ⟨rfl, h⟩
  | cons i t ih =>
    simp only [List.foldl_cons]
    by_cases hb : adv.getLsbD i = true
    · simp only [hb, if_true]
      have e : (seqPart x y).aReg i + (seqPart x y).str.get (BitVec.ofNat 3 i) = y.aReg i + y.str.get (BitVec.ofNat 3 i) := by
        rw [h]; rfl
      rw [e, CoreState.setA_part]
      exact ih _ (by unfold CoreState.setA; split <;> exact h)
    · simp only [hb]
      exact ih _ h

theorem CoreState.endPass1_part (x y : CoreState) (h : y.str = x.str) :
    (seqPart x y).endPass1 = seqPart x y.endPass1 ∧ y.endPass1.str = x.str := by
  unfold CoreState.endPass1
  rw [show (seqPart x y).loop1 = y.loop1 from rfl, show (seqPart x y).pc = y.pc from rfl]
  cases y.loop1 with
  | none => exact ⟨rfl, h⟩
  | some l =>
    dsimp only
    by_cases hp : y.pc = l.stop
    · obtain ⟨h1, h2⟩ := CoreState.advance_part x y l.adv h
      rw [if_neg (not_not.2 hp), if_neg (not_not.2 hp), h1, show (seqPart x (y.advance l.adv)).lc1 = (y.advance l.adv).lc1 from rfl]
      by_cases hq : (y.advance l.adv).lc1.toNat ≤ 1
      · rw [if_pos hq, if_pos hq]; exact ⟨rfl, h2⟩
      · rw [if_neg hq, if_neg hq]; exact ⟨rfl, h2⟩
    · rw [if_pos hp, if_pos hp]; exact ⟨rfl, h⟩

theorem CoreState.endPass0_part (x y : CoreState) (h : y.str = x.str) : (seqPart x y).endPass0 = seqPart x y.endPass0 := by
  unfold CoreState.endPass0
  rw [show (seqPart x y).loop0 = y.loop0 from rfl, show (seqPart x y).pc = y.pc from rfl]
  cases y.loop0 with
  | none => rfl
  | some l =>
    dsimp only
    by_cases hp : y.pc = l.stop
    · obtain ⟨h1, h2⟩ := CoreState.advance_part x y l.adv h
      rw [if_neg (not_not.2 hp), if_neg (not_not.2 hp), h1, show (seqPart x (y.advance l.adv)).lc0 = (y.advance l.adv).lc0 from rfl]
      by_cases hq : (y.advance l.adv).lc0.toNat ≤ 1
      · rw [if_pos hq, if_pos hq]; rfl
      · rw [if_neg hq, if_neg hq]; rfl
    · rw [if_pos hp, if_pos hp]

theorem CoreState.goTo_part (x y : CoreState) (p : BitVec 13) (h : y.str = x.str) : (seqPart x y).goTo p = seqPart x (y.goTo p) := by
  unfold CoreState.goTo
  have e : ({ seqPart x y with pc := p } : CoreState) = seqPart x { y with pc := p } := rfl
  rw [e]
  obtain ⟨h1, h2⟩ := CoreState.endPass1_part x { y with pc := p } h
  rw [h1, CoreState.endPass0_part x _ h2]

theorem CoreState.next_part (x y : CoreState) (h : y.str = x.str) : (seqPart x y).next = seqPart x y.next :=
  CoreState.goTo_part x y _ h

/-- Moving past an instruction changes only the program counter, the address registers and the loops. -/
theorem CoreState.next_frame (x : CoreState) : x.next = seqPart x x.next := by
  have := CoreState.next_part x x rfl
  rwa [seqPart_self] at this

/-- A change outside the program counter, the address and stride registers and the loops passes through. -/
theorem CoreState.next_of (x y : CoreState) (h : x.str = y.str) (hx : x = seqPart x y) : x.next = seqPart x y.next := by
  conv_lhs => rw [hx]
  exact CoreState.next_part x y h.symm


end Sys2Proof.Machine
end

