-- ==== Sys2Proof/Laws/Wf.lean ====
section
/-! SUPPORT. The canonical form of the memories under the operations that read and write them. -/

namespace Sys2Proof.Machine

/-- The canonical form of one memory of code words. -/
def codeWf (m : KMap Code) : Bool := KMap.wf 0 m

@[simp] theorem codeWf_nil : codeWf [] = true := rfl

@[simp] theorem codeWf_set (m : KMap Code) (w : Nat) (v : Code) (h : codeWf m = true) : codeWf (KMap.set 0#80 m w v) = true :=
  KMap.wf_set 0 m w v h

/-- The canonical form as a test of the two parts of State that hold memories. -/
def memOk (cores : KMap CoreState) (stk : Vector StackState 16) : Bool :=
  KMap.rising cores && cores.all (fun e => e.2.memWf) && stk.toList.all StackState.memWf

@[simp] theorem memOk_fold (s : State) : memOk s.cores s.stk = s.memWf := rfl

@[simp] theorem State.memWf_mk (cores : KMap CoreState) (routers hubs net fields stk jobs dieDelta fused service fusedHub serviceHub
    errs errNext flashErrs flashWait flashCopy ports cp fw mc mgmt mod snaps freeCtr pending) :
    (State.mk cores routers hubs net fields stk jobs dieDelta fused service fusedHub serviceHub errs errNext flashErrs flashWait
      flashCopy ports cp fw mc
      mgmt mod snaps freeCtr pending).memWf = memOk cores stk := rfl

theorem State.memWf_iff (s : State) : s.memWf = true ↔
    KMap.rising s.cores = true ∧ (∀ e ∈ s.cores, codeWf e.2.mem = true) ∧ ∀ k ∈ s.stk.toList, codeWf k.mem = true := by
  rw [State.memWf, Bool.and_eq_true, Bool.and_eq_true, List.all_eq_true, List.all_eq_true, and_assoc]
  rfl

@[simp] theorem State.memWf_core (s : State) (c : CoreId) (h : s.memWf = true) : codeWf (s.core c).mem = true := by
  rw [State.memWf_iff] at h
  rcases KMap.get_mem {} s.cores (coreKey c) with e | e
  · unfold State.core; rw [e]; rfl
  · exact h.2.1 _ e

theorem memOk_putCore (s : State) (k : Nat) (v : CoreState) (h : s.memWf = true) (hv : codeWf v.mem = true) :
    memOk (KMap.put s.cores k v) s.stk = true := by
  rw [State.memWf_iff] at h
  simp only [memOk, Bool.and_eq_true, List.all_eq_true]
  refine ⟨⟨KMap.rising_put _ _ _ h.1, fun e he => ?_⟩, h.2.2⟩
  rcases KMap.mem_put _ _ _ e he with rfl | he
  · exact hv
  · exact h.2.1 e he

@[simp] theorem State.memWf_setCore (s : State) (c : CoreId) (v : CoreState) (h : s.memWf = true) (hv : codeWf v.mem = true) :
    (s.setCore c v).memWf = true := memOk_putCore s _ v h hv

@[simp] theorem State.memWf_modCore (s : State) (c : CoreId) (f : CoreState → CoreState) (h : s.memWf = true)
    (hf : codeWf (f (s.core c)).mem = true) : (s.modCore c f).memWf = true := State.memWf_setCore s c _ h hf

@[simp] theorem State.memWf_setRouter (s : State) (c : CoreId) (v : Router) : (s.setRouter c v).memWf = s.memWf := rfl
@[simp] theorem State.memWf_setHub (s : State) (x y : Nat) (v : Hub) : (s.setHub x y v).memWf = s.memWf := rfl
@[simp] theorem State.memWf_modField (s : State) (n : Nat) (g : FieldState → FieldState) : (s.modField n g).memWf = s.memWf := rfl
@[simp] theorem State.memWf_modJob (s : State) (n : Nat) (g : Job → Job) : (s.modJob n g).memWf = s.memWf := rfl
@[simp] theorem State.memWf_modPort (s : State) (p : Port) (f : PortState → PortState) : (s.modPort p f).memWf = s.memWf := rfl

theorem memOk_stk (s : State) (v : Vector StackState 16) (h : s.memWf = true) (hv : ∀ k ∈ v.toList, codeWf k.mem = true) :
    memOk s.cores v = true := by
  rw [State.memWf_iff] at h
  simp only [memOk, Bool.and_eq_true, List.all_eq_true]
  exact ⟨⟨h.1, h.2.1⟩, hv⟩

/-- Changing every stack in a way that keeps its memory canonical. -/
theorem memOk_mapStk (s : State) (f : StackState → StackState) (h : s.memWf = true)
    (hf : ∀ k : StackState, codeWf k.mem = true → codeWf (f k).mem = true) : memOk s.cores (s.stk.map f) = true := by
  refine memOk_stk s _ h (fun k hk => ?_)
  simp only [Vector.toList_map, List.mem_map] at hk
  obtain ⟨k', hk', rfl⟩ := hk
  exact hf k' (((State.memWf_iff s).1 h).2.2 k' hk')

@[simp] theorem State.memWf_stack (s : State) (n : Nat) (h : s.memWf = true) : codeWf (s.stack n).mem = true := by
  unfold State.stack tget
  split
  · exact ((State.memWf_iff s).1 h).2.2 _ (by simp)
  · simp

@[simp] theorem State.memWf_modStack (s : State) (n : Nat) (g : StackState → StackState) (h : s.memWf = true)
    (hg : codeWf (g (s.stack n)).mem = true) : (s.modStack n g).memWf = true := by
  refine memOk_stk s _ h (fun k hk => ?_)
  simp only [State.modStack, tmod] at hk
  split at hk
  · rename_i hn
    simp only [Vector.mem_toList_iff] at hk
    rcases Vector.mem_or_eq_of_mem_set hk with hk | rfl
    · exact ((State.memWf_iff s).1 h).2.2 k (by simpa using hk)
    · simpa [State.stack, tget, hn] using hg
  · exact ((State.memWf_iff s).1 h).2.2 k hk

@[simp] theorem CoreState.mem_ite (p : Prop) [Decidable p] (c d : CoreState) : (if p then c else d).mem = if p then c.mem else d.mem := by
  split <;> rfl

@[simp] theorem codeWf_ite (p : Prop) [Decidable p] (m n : KMap Code) :
    codeWf (if p then m else n) = if p then codeWf m else codeWf n := by
  split <;> rfl

@[simp] theorem State.memWf_ite (p : Prop) [Decidable p] (s t : State) :
    (if p then s else t).memWf = if p then s.memWf else t.memWf := by
  split <;> rfl

/-- A fold of steps that each keep the canonical form keeps it. -/
@[simp] theorem memWf_foldl {β : Type} (f : State → β → State) (l : List β) (s : State) (h : s.memWf = true)
    (hf : ∀ t b, t.memWf = true → (f t b).memWf = true) : (l.foldl f s).memWf = true := by
  induction l generalizing s with
  | nil => exact h
  | cons b t ih => exact ih _ (hf s b h)

/-- A fold of core steps that each keep the canonical form keeps it. -/
@[simp] theorem wf_foldl {β : Type} (f : CoreState → β → CoreState) (l : List β) (c : CoreState) (h : codeWf c.mem = true)
    (hf : ∀ d b, codeWf d.mem = true → codeWf (f d b).mem = true) : codeWf (l.foldl f c).mem = true := by
  induction l generalizing c with
  | nil => exact h
  | cons b t ih => exact ih _ (hf c b h)

/-- A fold of steps that each leave the memories alone leaves them alone. -/
theorem mw_foldl {β : Type} (f : State → β → State) (l : List β) (s : State) (hf : ∀ t b, (f t b).memWf = t.memWf) :
    (l.foldl f s).memWf = s.memWf := by
  induction l generalizing s with
  | nil => rfl
  | cons b t ih => exact (ih _).trans (hf s b)

/-- A fold of core steps that each leave the scratchpad leaves it. -/
theorem mem_foldl {β : Type} (f : CoreState → β → CoreState) (l : List β) (c : CoreState) (hf : ∀ d b, (f d b).mem = d.mem) :
    (l.foldl f c).mem = c.mem := by
  induction l generalizing c with
  | nil => rfl
  | cons b t ih => exact (ih _).trans (hf c b)

@[simp] theorem State.memWf_reset : State.reset.memWf = true := by
  simp [State.reset, memOk, KMap.rising]
  decide +kernel

end Sys2Proof.Machine
end

