-- ==== Sys2Proof/Laws/WfBase.lean ====
section
/-! SUPPORT. The canonical form of the memories under the core, record, network, stack and queue operations:
one lemma per operation, each by unfolding it and citing the lemmas of what it calls. -/

namespace Sys2Proof.Machine

set_option linter.unusedSimpArgs false
set_option linter.unusedTactic false
set_option linter.unreachableTactic false
set_option linter.unnecessarySeqFocus false
set_option linter.unusedVariables false

/-! ### Spad -/

@[simp] theorem CoreState.addRewrite_mem (k : Kind) (c : CoreState) (w : Nat) (e : EccWord) : (CoreState.addRewrite k c w e).mem = c.mem := by
  unfold CoreState.addRewrite; try dsimp only
  (repeat' split) <;> simp [mem_foldl]

@[simp] theorem CoreState.noteRead_mem (k : Kind) (src : Nat) (c : CoreState) (w : Nat) : (CoreState.noteRead k src c w).mem = c.mem := by
  unfold CoreState.noteRead; try dsimp only
  (repeat' split) <;> simp [mem_foldl]

@[simp] theorem CoreState.noteReads_mem (k : Kind) (src : Nat) (c : CoreState) (ws : List Nat) : (CoreState.noteReads k src c ws).mem = c.mem := by
  unfold CoreState.noteReads; try dsimp only
  (repeat' split) <;> simp [mem_foldl]

@[simp] theorem CoreState.store_mem (k : Kind) (c : CoreState) (w : Nat) (v : Code) (h : codeWf c.mem = true) :
    codeWf (CoreState.store k c w v).mem = true := codeWf_set c.mem w v h

@[simp] theorem CoreState.write_mem (k : Kind) (c : CoreState) (w : Nat) (mask : BitVec 8) (data : Word) (poison : Bool)  (hc : codeWf c.mem = true) : codeWf (CoreState.write k c w mask data poison).mem = true := by
  unfold CoreState.write; try dsimp only
  (repeat' split) <;> simp +contextual (maxDischargeDepth := 30) [hc]

@[simp] theorem CoreState.keepOld_mem (k : Kind) (c : CoreState) (ws : List Nat) : (c.keepOld k ws).mem = c.mem := rfl

@[simp] theorem CoreState.writeBeat_mem (k : Kind) (c : CoreState) (ws : List RowWord) (hc : codeWf c.mem = true) :
    codeWf (CoreState.writeBeat k c ws).mem = true := by
  unfold CoreState.writeBeat
  have h : codeWf (c.keepOld k (ws.map (·.w))).mem = true := hc
  generalize c.keepOld k (ws.map (·.w)) = d at h
  induction ws generalizing d with
  | nil => exact h
  | cons w t ih => exact ih (CoreState.write k d w.w w.mask w.data w.poison) (CoreState.write_mem k d w.w w.mask w.data w.poison h)

/-! ### Flags -/

@[simp] theorem CoreState.noteEv_mem (c : CoreState) (e : Ev) : (CoreState.noteEv c e).mem = c.mem := by
  unfold CoreState.noteEv; try dsimp only
  (repeat' split) <;> simp [mem_foldl]

@[simp] theorem CoreState.noteEvs_mem (c : CoreState) (l : List Ev) : (CoreState.noteEvs c l).mem = c.mem := by
  unfold CoreState.noteEvs; try dsimp only
  (repeat' split) <;> simp [mem_foldl]

/-! ### CoreOps -/

@[simp] theorem CoreState.fail_mem (c : CoreState) (code epc engine : Nat) : (CoreState.fail c code epc engine).mem = c.mem := by
  unfold CoreState.fail; try dsimp only
  (repeat' split) <;> simp [mem_foldl]

@[simp] theorem CoreState.failQueue_mem (c : CoreState) (code epc engine q : Nat) (src : Option (Nat × Nat)) : (CoreState.failQueue c code epc engine q src).mem = c.mem := by
  unfold CoreState.failQueue; try dsimp only
  (repeat' split) <;> simp [mem_foldl]

@[simp] theorem CoreState.setA_mem (c : CoreState) (i : Nat) (v : BitVec 13) : (CoreState.setA c i v).mem = c.mem := by
  unfold CoreState.setA; try dsimp only
  (repeat' split) <;> simp [mem_foldl]

@[simp] theorem CoreState.take_mem (c : CoreState) (s : Nat) : (CoreState.take c s).mem = c.mem := by
  unfold CoreState.take; try dsimp only
  (repeat' split) <;> simp [mem_foldl]

@[simp] theorem CoreState.signal_mem (c : CoreState) (s engine epc : Nat) : (CoreState.signal c s engine epc).mem = c.mem := by
  unfold CoreState.signal; try dsimp only
  (repeat' split) <;> simp [mem_foldl]

@[simp] theorem CoreState.setQ_mem (c : CoreState) (n : Nat) (v : Queue)  (hc : codeWf c.mem = true) : codeWf (CoreState.setQ c n v).mem = true := by
  unfold CoreState.setQ; try dsimp only
  (repeat' split) <;> simp +contextual (maxDischargeDepth := 30) [hc]

@[simp] theorem CoreState.loadQueue_mem (k : Kind) (c : CoreState) (n : Nat) (d : QDesc)  (hc : codeWf c.mem = true) : codeWf (CoreState.loadQueue k c n d).mem = true := by
  unfold CoreState.loadQueue; try dsimp only
  (repeat' split) <;> simp +contextual (maxDischargeDepth := 30) [hc]

@[simp] theorem CoreState.dropRows_mem (c : CoreState) (n : Nat)  (hc : codeWf c.mem = true) : codeWf (CoreState.dropRows c n).mem = true := by
  unfold CoreState.dropRows; try dsimp only
  (repeat' split) <;> simp +contextual (maxDischargeDepth := 30) [hc]

/-! ### Reply -/

@[simp] theorem State.modPort_mw (s : State) (p : Port) (f : PortState → PortState) : (State.modPort s p f).memWf = s.memWf := by
  unfold State.modPort; try dsimp only
  (repeat' split) <;> simp [mw_foldl]

@[simp] theorem State.portEvent_mw (s : State) (p : Port) (bit : Nat) : (State.portEvent s p bit).memWf = s.memWf := by
  unfold State.portEvent; try dsimp only
  (repeat' split) <;> simp [mw_foldl]

@[simp] theorem State.bothEvent_mw (s : State) (bit : Nat) : (State.bothEvent s bit).memWf = s.memWf := by
  unfold State.bothEvent; try dsimp only
  (repeat' split) <;> simp [mw_foldl]

@[simp] theorem State.jobEvent_mw (s : State) (j code reason expno : Nat) : (State.jobEvent s j code reason expno).memWf = s.memWf := by
  unfold State.jobEvent; try dsimp only
  (repeat' split) <;> simp [mw_foldl]

@[simp] theorem State.complete_mw (s : State) (e : Entry) (status : Nat) (payload : List Byte) : (State.complete s e status payload).memWf = s.memWf := by
  unfold State.complete; try dsimp only
  (repeat' split) <;> simp [mw_foldl]

@[simp] theorem State.modEntry_mw (s : State) (n : Nat) (f : Entry → Entry) : (State.modEntry s n f).memWf = s.memWf := by
  unfold State.modEntry; try dsimp only
  (repeat' split) <;> simp [mw_foldl]

@[simp] theorem State.completeIf_mw (s : State) (sel : Entry → Bool) (status : Nat) (payload : State → Entry → List Byte) : (State.completeIf s sel status payload).memWf = s.memWf := by
  unfold State.completeIf; try dsimp only
  (repeat' split) <;> simp [mw_foldl]

/-! ### Records -/

@[simp] theorem State.deliverRec_mw (s : State) (r : ErrRec) : (State.deliverRec s r).memWf = s.memWf := by
  unfold State.deliverRec; try dsimp only
  (repeat' split) <;> simp [mw_foldl]

@[simp] theorem State.errorRecord_mw (s : State) (r : ErrRec) : (s.errorRecord r).memWf = s.memWf := by
  unfold State.errorRecord; dsimp only
  split
  · split
    · rw [State.memWf_mk, memOk_fold]
    · rfl
  · split <;> rw [State.deliverRec_mw, State.memWf_mk, memOk_fold]

@[simp] theorem State.postMc_mw (s : State) : (State.postMc s).memWf = s.memWf := by
  unfold State.postMc; try dsimp only
  (repeat' split) <;> simp [mw_foldl]

/-! ### Ops -/

@[simp] theorem State.draw_mw (s : State) : (State.draw s).2.memWf = s.memWf := by
  unfold State.draw; try dsimp only
  (repeat' split) <;> simp [mw_foldl]

@[simp] theorem State.keepFlash_mw (s : State) : (State.keepFlash s).memWf = s.memWf := by
  unfold State.keepFlash; try dsimp only
  (repeat' split) <;> simp [mw_foldl]

@[simp] theorem State.countWait_mw (s : State) (c : CoreId) (hs : s.memWf = true) : (State.countWait s c).memWf = true := by
  unfold State.countWait; try dsimp only
  (repeat' split) <;> simp +contextual (maxDischargeDepth := 30) [hs]

@[simp] theorem State.countStall_mw (s : State) (c : CoreId) (sem : Bool) (mx : Bool) (hs : s.memWf = true) : (State.countStall s c sem mx).memWf = true := by
  unfold State.countStall; try dsimp only
  (repeat' split) <;> simp +contextual (maxDischargeDepth := 30) [hs]

@[simp] theorem State.fence_mw (s : State) (c : CoreId) (v : BitVec 2) : (State.fence s c v).memWf = s.memWf := by
  unfold State.fence; try dsimp only
  (repeat' split) <;> simp [mw_foldl]

@[simp] theorem State.faultInPlace_mw (s : State) (j : Nat) : (State.faultInPlace s j).memWf = s.memWf := by
  unfold State.faultInPlace; try dsimp only
  (repeat' split) <;> simp [mw_foldl]

@[simp] theorem State.addDelta_mw (s : State) (e : NetEnd) (slot : Nat) (v : BitVec 32) (hs : s.memWf = true) : (State.addDelta s e slot v).memWf = true := by
  unfold State.addDelta; try dsimp only
  (repeat' split) <;> simp +contextual (maxDischargeDepth := 30) [hs]

@[simp] theorem State.clearDelta_mw (s : State) (slot : Nat) (hs : s.memWf = true) : (s.clearDelta slot).memWf = true := by
  unfold State.clearDelta
  exact memOk_mapStk s _ hs (fun _ hk => hk)

/-! ### Net -/

@[simp] theorem State.send_mw (s : State) (e : NetEnd) (p : Packet) (hs : s.memWf = true) : (State.send s e p).memWf = true := by
  unfold State.send; try dsimp only
  (repeat' split) <;> simp +contextual (maxDischargeDepth := 30) [hs]

@[simp] theorem State.takeOff_mw (s : State) (e : NetEnd) (p : Packet) (hs : s.memWf = true) : (State.takeOff s e p).memWf = true := by
  unfold State.takeOff; try dsimp only
  (repeat' split) <;> simp +contextual (maxDischargeDepth := 30) [hs]

@[simp] theorem State.handOff_mw (s : State) (src : CoreId) (p : Packet) (ms : List CoreId) (hs : s.memWf = true) : (State.handOff s src p ms).memWf = true := by
  unfold State.handOff; try dsimp only
  (repeat' split) <;> simp +contextual (maxDischargeDepth := 30) [hs]

@[simp] theorem State.countFlits_mw (s : State) (p : Packet) (w : Walk) (hs : s.memWf = true) : (State.countFlits s p w).memWf = true := by
  unfold State.countFlits; try dsimp only
  (repeat' split) <;> simp +contextual (maxDischargeDepth := 30) [hs]

@[simp] theorem State.refuseAt_mw (s : State) (p : Packet) (e : NetEnd) (sx sy : Nat) (ep : BitVec 2) (reason words : Nat) (hs : s.memWf = true) : (State.refuseAt s p e sx sy ep reason words).memWf = true := by
  unfold State.refuseAt; try dsimp only
  (repeat' split) <;> simp +contextual (maxDischargeDepth := 30) [hs]

@[simp] theorem State.refuseRoute_mw (s : State) (p : Packet) (c : CoreId) (w : Walk) (hs : s.memWf = true) : (State.refuseRoute s p c w).memWf = true := by
  unfold State.refuseRoute; try dsimp only
  (repeat' split) <;> simp +contextual (maxDischargeDepth := 30) [hs]

@[simp] theorem State.dropNet_mw (s : State) (k : Nat) : (State.dropNet s k).memWf = s.memWf := by
  unfold State.dropNet; try dsimp only
  (repeat' split) <;> simp [mw_foldl]

@[simp] theorem State.fanOut_mw (s : State) (p : Packet) (l : List (Nat × Nat)) (hs : s.memWf = true) :
    (s.fanOut p l).memWf = true := by
  unfold State.fanOut
  refine memWf_foldl _ _ _ hs (fun t b ht => ?_)
  dsimp only
  split <;> simp +contextual (maxDischargeDepth := 30) [ht]

@[simp] theorem State.passed_mw (s : State) (p : Packet) (w : Walk) (hs : s.memWf = true) : (State.passed s p w).memWf = true := by
  unfold State.passed; try dsimp only
  (repeat' split) <;> simp +contextual (maxDischargeDepth := 30) [hs]

@[simp] theorem State.standAt_mw (s : State) (k : Nat) (p : Packet) (w : Walk) (hs : s.memWf = true) : (State.standAt s k p w).memWf = true := by
  unfold State.standAt; try dsimp only
  (repeat' split) <;> simp +contextual (maxDischargeDepth := 30) [hs]

@[simp] theorem State.ungate_mw (s : State) (p : Packet) : (State.ungate s p).memWf = s.memWf := by
  unfold State.ungate; try dsimp only
  (repeat' split) <;> simp [mw_foldl]

@[simp] theorem State.arrive_mw (s : State) (k : Nat) (types kinds : List Nat) (f : State → Packet → State)
    (hf : ∀ t p, t.memWf = true → (f t p).memWf = true) (hs : s.memWf = true) : (s.arrive k types kinds f).memWf = true := by
  unfold State.arrive; dsimp only
  (repeat' split) <;> simp +contextual (maxDischargeDepth := 30) [hs, hf]

@[simp] theorem CoreState.setUnmap_mem (c : CoreState)  (hc : codeWf c.mem = true) : codeWf (CoreState.setUnmap c).mem = true := by
  unfold CoreState.setUnmap; try dsimp only
  (repeat' split) <;> simp +contextual (maxDischargeDepth := 30) [hc]

@[simp] theorem State.coreRefuse_mw (s : State) (c : CoreId) (p : Packet) (reason words : Nat) (hs : s.memWf = true) : (State.coreRefuse s c p reason words).memWf = true := by
  unfold State.coreRefuse; try dsimp only
  (repeat' split) <;> simp +contextual (maxDischargeDepth := 30) [hs]

/-! ### Faults -/

@[simp] theorem State.applyGrade_mw (s : State) : (State.applyGrade s).memWf = s.memWf := by
  unfold State.applyGrade; try dsimp only
  (repeat' split) <;> simp [mw_foldl]

@[simp] theorem State.fenceCore_mw (s : State) (c : CoreId) (code : BitVec 2) : (State.fenceCore s c code).memWf = s.memWf := by
  unfold State.fenceCore; try dsimp only
  (repeat' split) <;> simp [mw_foldl]

@[simp] theorem State.removeHub_mw (s : State) (hx hy : Nat) : (State.removeHub s hx hy).memWf = s.memWf := by
  unfold State.removeHub; try dsimp only
  (repeat' split) <;> simp [mw_foldl]

@[simp] theorem State.faultField_mw (s : State) (f : Nat) : (State.faultField s f).memWf = s.memWf := by
  unfold State.faultField; try dsimp only
  (repeat' split) <;> simp [mw_foldl]

@[simp] theorem State.deadCore_mw (s : State) (c : CoreId) (code : BitVec 2) : (State.deadCore s c code).memWf = s.memWf := by
  unfold State.deadCore; try dsimp only
  (repeat' split) <;> simp [mw_foldl]

@[simp] theorem State.abortInputs_mw (s : State) (j : Nat) : (State.abortInputs s j).memWf = s.memWf := by
  unfold State.abortInputs; try dsimp only
  (repeat' split) <;> simp [mw_foldl]

@[simp] theorem State.abortWaiting_mw (s : State) (j : Nat) : (State.abortWaiting s j).memWf = s.memWf := by
  unfold State.abortWaiting; try dsimp only
  (repeat' split) <;> simp [mw_foldl]

@[simp] theorem State.commitTables_mw (s : State) (j : Nat) : (State.commitTables s j).memWf = s.memWf := by
  unfold State.commitTables; try dsimp only
  (repeat' split) <;> simp [mw_foldl]

@[simp] theorem State.commitNow_mw (s : State) (j : Nat) : (State.commitNow s j).memWf = s.memWf := by
  unfold State.commitNow; try dsimp only
  (repeat' split) <;> simp [mw_foldl]

@[simp] theorem State.stopJob_mw (s : State) (j reason : Nat) : (State.stopJob s j reason).memWf = s.memWf := by
  unfold State.stopJob; try dsimp only
  (repeat' split) <;> simp [mw_foldl]

@[simp] theorem State.loseStack_mw (s : State) (n : Nat) (own : Bool) (hs : s.memWf = true) :
    (s.loseStack n own).memWf = true := by
  unfold State.loseStack
  dsimp only
  have h1 : ∀ v w x y : Bool, ∀ r : Option Nat, (s.modStack n (fun k => { k with
      lost := v, failed := k.failed || w, locked := x, selfRefresh := y, rebuild := if own then r else k.rebuild })).memWf = true := by
    intros; exact State.memWf_modStack s n _ hs (State.memWf_stack s n hs)
  have h2 : ∀ (g : StackState → StackState), (∀ k, (g k).mem = k.mem) → (s.modStack n g).memWf = true := by
    intro g hg; exact State.memWf_modStack s n _ hs (by rw [hg]; exact State.memWf_stack s n hs)
  have h3 : ∀ (l : List Nat) (t : State), t.memWf = true →
      (l.foldl (fun s m => s.modStack m (fun x => { x with lost := true })) t).memWf = true := by
    intro l t ht
    exact memWf_foldl _ l t ht (fun t b h => State.memWf_modStack t b _ h (State.memWf_stack t b h))
  split
  · exact h3 _ _ (h2 _ (fun _ => rfl))
  · refine memWf_foldl _ _ _ ?_ (fun t b ht => ?_)
    · rw [State.errorRecord_mw]
      exact h3 _ _ (h2 _ (fun _ => rfl))
    · (repeat' split) <;> simp (maxDischargeDepth := 30) [ht]

@[simp] theorem State.cutEdge_mw (s : State) (f : Nat) (hs : s.memWf = true) : (s.cutEdge f).memWf = true := by
  have h1 : ∀ t : State, t.memWf = true → ∀ p : Port, ∀ n : Nat,
      (if f = n then t.modPort p (fun x => { x with viaPeer := true }) else t).memWf = true := by
    intro t ht p n; split <;> simp [ht]
  unfold State.cutEdge
  dsimp only
  split
  · exact State.loseStack_mw _ _ _ (h1 _ (h1 _ hs _ _) _ _)
  · exact h1 _ (h1 _ hs _ _) _ _

@[simp] theorem State.loseField_mw (s : State) (f : Nat) (hs : s.memWf = true) : (s.loseField f).memWf = true := by
  unfold State.loseField
  extract_lets
  refine State.cutEdge_mw _ _ ?_
  rw [State.errorRecord_mw]
  rw [State.faultField_mw]
  exact hs

@[simp] theorem State.washFailed_mw (s : State) (c : CoreId) : (State.washFailed s c).memWf = s.memWf := by
  unfold State.washFailed; try dsimp only
  (repeat' split) <;> simp [mw_foldl]

@[simp] theorem State.sweepCore_mw (s : State) (f : Nat) (c : CoreId) : (State.sweepCore s f c).memWf = s.memWf := by
  unfold State.sweepCore; try dsimp only
  (repeat' split) <;> simp [mw_foldl]

theorem washedCore_wf (k : Kind) (stuck : List (Nat × Code)) : codeWf (washedCore k stuck).mem = true := by
  have h : ∀ (l : List (Nat × Code)) (m : KMap Code), codeWf m = true →
      codeWf (l.foldl (fun m e => if e.1 < k.words then KMap.set 0 m e.1 e.2 else m) m) = true := by
    intro l
    induction l with
    | nil => exact fun _ h => h
    | cons e t ih =>
      intro m hm
      refine ih _ ?_
      dsimp only
      split
      · exact KMap.wf_set 0 m e.1 e.2 hm
      · exact hm
  exact h stuck [] rfl

theorem memOk_delCore (s : State) (k : Nat) (h : s.memWf = true) : memOk (KMap.del s.cores k) s.stk = true := by
  rw [State.memWf_iff] at h
  simp only [memOk, Bool.and_eq_true, List.all_eq_true]
  exact ⟨⟨KMap.rising_del _ _ h.1, fun e he => h.2.1 e (KMap.mem_del _ _ _ he)⟩, h.2.2⟩

@[simp] theorem State.washCore_mw (s : State) (c : CoreId) (stuck : List (Nat × Code)) (hs : s.memWf = true) :
    (s.washCore c stuck).memWf = true := by
  unfold State.washCore
  split
  · exact hs
  · rename_i f _
    have h1 : (s.sweepCore f c).memWf = true := by simp [hs]
    generalize s.sweepCore f c = t at h1
    dsimp only
    have h2 : (if washedCore (coreKind c) stuck = {} then { t with cores := KMap.del t.cores (coreKey c) }
        else t.setCore c (washedCore (coreKind c) stuck)).memWf = true := by
      split
      · exact memOk_delCore t _ h1
      · exact State.memWf_setCore t c _ h1 (washedCore_wf _ _)
    generalize (if washedCore (coreKind c) stuck = {} then { t with cores := KMap.del t.cores (coreKey c) }
        else t.setCore c (washedCore (coreKind c) stuck)) = u at h2
    (repeat' split) <;> simp [h2]

@[simp] theorem State.washField_mw (s : State) (f : Nat) (stuck : Stuck) (hs : s.memWf = true) : (State.washField s f stuck).memWf = true := by
  unfold State.washField; try dsimp only
  (repeat' split) <;> simp +contextual (maxDischargeDepth := 30) [hs]

@[simp] theorem State.releaseField_mw (s : State) (f : Nat) : (State.releaseField s f).memWf = s.memWf := by
  unfold State.releaseField; try dsimp only
  (repeat' split) <;> simp [mw_foldl]

@[simp] theorem State.partitionReset_mw (s : State) (j : Nat) (stuck : Stuck) (hs : s.memWf = true) :
    (s.partitionReset j stuck).memWf = true := by
  unfold State.partitionReset
  refine State.clearDelta_mw _ _ (memWf_foldl _ _ _ (by simpa using hs) (fun t f ht => ?_))
  rw [State.memWf_modField]
  exact State.washField_mw t f stuck ht

/-! ### Stacks -/

@[simp] theorem State.stackPut_mw (s : State) (n w : Nat) (d : Word) (p : Bool) (hs : s.memWf = true) : (State.stackPut s n w d p).memWf = true := by
  unfold State.stackPut; try dsimp only
  (repeat' split) <;> simp +contextual (maxDischargeDepth := 30) [hs]

@[simp] theorem State.stackUe_mw (s : State) (n w sev : Nat) : (State.stackUe s n w sev).memWf = s.memWf := by
  unfold State.stackUe; try dsimp only
  (repeat' split) <;> simp [mw_foldl]

@[simp] theorem State.stackFetch_mw (s : State) (n w : Nat) (hs : s.memWf = true) : (State.stackFetch s n w).1.memWf = true := by
  unfold State.stackFetch; try dsimp only
  (repeat' split) <;> simp +contextual (maxDischargeDepth := 30) [hs]

@[simp] theorem State.stackParity_mw (s : State) (n w : Nat) (old new : Word × Bool) (hs : s.memWf = true) : (State.stackParity s n w old new).memWf = true := by
  unfold State.stackParity; try dsimp only
  (repeat' split) <;> simp +contextual (maxDischargeDepth := 30) [hs]

@[simp] theorem State.stackWrite_mw (s : State) (n w : Nat) (mask : BitVec 8) (d : Word) (p : Bool) (hs : s.memWf = true) : (State.stackWrite s n w mask d p).memWf = true := by
  unfold State.stackWrite; try dsimp only
  (repeat' split) <;> simp +contextual (maxDischargeDepth := 30) [hs]

@[simp] theorem State.zeroRange_mw (s : State) (n off size : Nat) (hs : s.memWf = true) : (State.zeroRange s n off size).memWf = true := by
  unfold State.zeroRange; try dsimp only
  (repeat' split) <;> simp +contextual (maxDischargeDepth := 30) [hs]

@[simp] theorem State.allocRegion_mw (s : State) (j id : Nat) (sts : List Nat) (off size : Nat) (hs : s.memWf = true) : (State.allocRegion s j id sts off size).memWf = true := by
  unfold State.allocRegion; try dsimp only
  (repeat' split) <;> simp +contextual (maxDischargeDepth := 30) [hs]

/-! ### Queues -/

@[simp] theorem State.failAt_mw (s : State) (c : CoreId) (code q : Nat) (src : Option (Nat × Nat)) (hs : s.memWf = true) : (State.failAt s c code q src).memWf = true := by
  unfold State.failAt; try dsimp only
  (repeat' split) <;> simp +contextual (maxDischargeDepth := 30) [hs]

@[simp] theorem CoreState.addRows_mem (k : Kind) (c : CoreState) (ws : List RowWord) (kind : RowKind) (own staged : Bool) (p : Packet)  (hc : codeWf c.mem = true) : codeWf (CoreState.addRows k c ws kind own staged p).mem = true := by
  unfold CoreState.addRows; try dsimp only
  (repeat' split) <;> simp +contextual (maxDischargeDepth := 30) [hc]

@[simp] theorem State.writeIn_mw (s : State) (c : CoreId) (p : Packet) (hs : s.memWf = true) : (State.writeIn s c p).memWf = true := by
  unfold State.writeIn; try dsimp only
  (repeat' split) <;> simp +contextual (maxDischargeDepth := 30) [hs]

@[simp] theorem CoreState.acceptPlain_mem (k : Kind) (c : CoreState) (n : Nat) (p : Packet) (own staged : Bool)  (hc : codeWf c.mem = true) : codeWf (CoreState.acceptPlain k c n p own staged).mem = true := by
  unfold CoreState.acceptPlain; try dsimp only
  (repeat' split) <;> simp +contextual (maxDischargeDepth := 30) [hc]

@[simp] theorem CoreState.acceptPot_mem (k : Kind) (c : CoreState) (n : Nat) (p : Packet) (own staged : Bool)  (hc : codeWf c.mem = true) : codeWf (CoreState.acceptPot k c n p own staged).mem = true := by
  unfold CoreState.acceptPot; try dsimp only
  (repeat' split) <;> simp +contextual (maxDischargeDepth := 30) [hc]

@[simp] theorem State.queueIn_mw (s : State) (c : CoreId) (p : Packet) (own : Bool) (hs : s.memWf = true) : (State.queueIn s c p own).memWf = true := by
  unfold State.queueIn; try dsimp only
  (repeat' split) <;> simp +contextual (maxDischargeDepth := 30) [hs]

@[simp] theorem State.creditIn_mw (s : State) (c : CoreId) (p : Packet) (hs : s.memWf = true) : (State.creditIn s c p).memWf = true := by
  unfold State.creditIn; try dsimp only
  (repeat' split) <;> simp +contextual (maxDischargeDepth := 30) [hs]

@[simp] theorem CoreState.commitRow_mem (k : Kind) (c : CoreState)  (hc : codeWf c.mem = true) : codeWf (CoreState.commitRow k c).mem = true := by
  unfold CoreState.commitRow; try dsimp only
  (repeat' split) <;> simp +contextual (maxDischargeDepth := 30) [hc]

@[simp] theorem CoreState.combine_mem (k : Kind) (c : CoreState) (n slot : Nat) (new : List RowWord) (staged : Bool)  (hc : codeWf c.mem = true) : codeWf (CoreState.combine k c n slot new staged).mem = true := by
  unfold CoreState.combine; try dsimp only
  (repeat' split) <;> simp +contextual (maxDischargeDepth := 30) [hc]

@[simp] theorem CoreState.combineRow_mem (k : Kind) (n width : Nat) (staged : Bool) (f : Nat) (c : CoreState) (slot : Nat)
    (ws : List RowWord) (used : Nat) (hc : codeWf c.mem = true) :
    codeWf (CoreState.combineRow k n width staged f c slot ws used).1.mem = true := by
  induction f generalizing c slot ws used with
  | zero => exact hc
  | succ f ih =>
    unfold CoreState.combineRow; dsimp only
    (repeat' split) <;> simp [hc, ih]

@[simp] theorem State.potCombine_mw (s : State) (c : CoreId) (hs : s.memWf = true) : (s.potCombine c).memWf = true := by
  unfold State.potCombine; dsimp only
  split
  · exact hs
  · rename_i rest _
    split
    · split
      · exact hs
      · split
        · rename_i heq
          have h := (congrArg (fun r => codeWf r.1.mem) heq).symm.trans
            (CoreState.combineRow_mem _ _ _ _ _ _ _ _ _ (show codeWf ({ s.core c with rows := rest } : CoreState).mem = true from State.memWf_core s c hs))
          exact State.memWf_setCore s c _ hs h
        · rename_i heq
          have h := (congrArg (fun r => codeWf r.1.mem) heq).symm.trans
            (CoreState.combineRow_mem _ _ _ _ _ _ _ _ _ (show codeWf ({ s.core c with rows := rest } : CoreState).mem = true from State.memWf_core s c hs))
          refine State.send_mw _ _ _ (State.failAt_mw _ _ _ _ _ (State.memWf_setCore s c _ hs h))
    · exact hs

@[simp] theorem CoreState.identityWrite_mem (k : Kind) (c : CoreState) (n : Nat)  (hc : codeWf c.mem = true) : codeWf (CoreState.identityWrite k c n).mem = true := by
  unfold CoreState.identityWrite; try dsimp only
  (repeat' split) <;> simp +contextual (maxDischargeDepth := 30) [hc]

/-! ### CoreRegs -/

@[simp] theorem State.clearCoreReg_mw (s : State) (c : CoreId) (off : Nat) (hs : s.memWf = true) : (State.clearCoreReg s c off).memWf = true := by
  unfold State.clearCoreReg; try dsimp only
  (repeat' split) <;> simp +contextual (maxDischargeDepth := 30) [hs]

@[simp] theorem CoreState.plainWrite_mem (k : Kind) (c : CoreState) (off : Nat) (v : Word) : (CoreState.plainWrite k c off v).mem = c.mem := by
  unfold CoreState.plainWrite; try dsimp only
  (repeat' split) <;> simp [mem_foldl]

/-! ### Send -/

@[simp] theorem State.handCore_mw (s : State) (c : CoreId) (eng : Nat) (p : Packet) (hs : s.memWf = true) : (State.handCore s c eng p).memWf = true := by
  unfold State.handCore; try dsimp only
  (repeat' split) <;> simp +contextual (maxDischargeDepth := 30) [hs]

@[simp] theorem State.creditReturn_mw (s : State) (c : CoreId) (q n : Nat) (hs : s.memWf = true) : (State.creditReturn s c q n).memWf = true := by
  unfold State.creditReturn; try dsimp only
  (repeat' split) <;> simp +contextual (maxDischargeDepth := 30) [hs]

@[simp] theorem State.release_mw (s : State) (c : CoreId) (q n : Nat) (hs : s.memWf = true) : (State.release s c q n).memWf = true := by
  unfold State.release; try dsimp only
  (repeat' split) <;> simp +contextual (maxDischargeDepth := 30) [hs]

@[simp] theorem State.xpdone_mw (s : State) (c : CoreId) (eng : Nat) (hs : s.memWf = true) : (State.xpdone s c eng).memWf = true := by
  unfold State.xpdone; try dsimp only
  (repeat' split) <;> simp +contextual (maxDischargeDepth := 30) [hs]

@[simp] theorem State.proofCopies_mw (s : State) (c dst : CoreId) (d : BitVec 8) (hs : s.memWf = true) : (State.proofCopies s c dst d).memWf = true := by
  unfold State.proofCopies; try dsimp only
  (repeat' split) <;> simp +contextual (maxDischargeDepth := 30) [hs]

@[simp] theorem State.proofOutput_mw (s : State) (c dst : CoreId) (d : BitVec 8) (hs : s.memWf = true) : (State.proofOutput s c dst d).memWf = true := by
  unfold State.proofOutput; try dsimp only
  (repeat' split) <;> simp +contextual (maxDischargeDepth := 30) [hs]

@[simp] theorem State.prfBegin_mw (s : State) (c : CoreId) (d : BitVec 8) (hs : s.memWf = true) : (State.prfBegin s c d).memWf = true := by
  unfold State.prfBegin; try dsimp only
  (repeat' split) <;> simp +contextual (maxDischargeDepth := 30) [hs]

@[simp] theorem State.prfEnd_mw (s : State) (c : CoreId) (hs : s.memWf = true) : (State.prfEnd s c).memWf = true := by
  unfold State.prfEnd; try dsimp only
  (repeat' split) <;> simp +contextual (maxDischargeDepth := 30) [hs]

@[simp] theorem State.prfCompare_mw (s : State) (c : CoreId) (a b len : Nat) (hs : s.memWf = true) : (State.prfCompare s c a b len).memWf = true := by
  unfold State.prfCompare; try dsimp only
  (repeat' split) <;> simp +contextual (maxDischargeDepth := 30) [hs]

@[simp] theorem State.ownWrite_mw (s : State) (c : CoreId) (eng da : Nat) (w : Word × Bool) (hs : s.memWf = true) : (State.ownWrite s c eng da w).memWf = true := by
  unfold State.ownWrite; try dsimp only
  (repeat' split) <;> simp +contextual (maxDischargeDepth := 30) [hs]

@[simp] theorem State.ownBlock_mw (s : State) (c : CoreId) (eng da : Nat) (ws : List (Word × Bool)) (hs : s.memWf = true) : (State.ownBlock s c eng da ws).memWf = true := by
  unfold State.ownBlock; try dsimp only
  (repeat' split) <;> simp +contextual (maxDischargeDepth := 30) [hs]

@[simp] theorem State.coreSend_mw (s : State) (c : CoreId) (eng da : Nat) (qdst : Bool) (qid : Nat) (ws : List (Word × Bool)) (hs : s.memWf = true) : (State.coreSend s c eng da qdst qid ws).memWf = true := by
  unfold State.coreSend; try dsimp only
  (repeat' split) <;> simp +contextual (maxDischargeDepth := 30) [hs]

end Sys2Proof.Machine
end

