-- ==== Sys2Proof/Laws/WfUnits.lean ====
section
/-! SUPPORT. The canonical form of the memories under the units of a core, a job's cores and the network's events:
one lemma per operation, each by unfolding it and citing the lemmas of what it calls. -/

namespace Sys2Proof.Machine

set_option linter.unusedSimpArgs false
set_option linter.unusedTactic false
set_option linter.unreachableTactic false
set_option linter.unnecessarySeqFocus false
set_option linter.unusedVariables false

/-! ### MxArray -/

@[simp] theorem CoreState.fetchWords_mem (k : Kind) (c : CoreState) (ws : List Nat) (epc engine : Nat) : (CoreState.fetchWords k c ws epc engine).1.mem = c.mem := by
  unfold CoreState.fetchWords; try dsimp only
  (repeat' split) <;> simp [mem_foldl]

@[simp] theorem CoreState.accSet_mem (c : CoreState) (row col : Nat) (v : Xacc)  (hc : codeWf c.mem = true) : codeWf (CoreState.accSet c row col v).mem = true := by
  unfold CoreState.accSet; try dsimp only
  (repeat' split) <;> simp +contextual (maxDischargeDepth := 30) [hc]

@[simp] theorem CoreState.setRowFp_mem (c : CoreState) (row : Nat) (v : Bool)  (hc : codeWf c.mem = true) : codeWf (CoreState.setRowFp c row v).mem = true := by
  unfold CoreState.setRowFp; try dsimp only
  (repeat' split) <;> simp +contextual (maxDischargeDepth := 30) [hc]

@[simp] theorem mxLds_mem (c : CoreState) (cmd : Cmd) : (mxLds c cmd).1.mem = c.mem := by
  unfold mxLds; try dsimp only
  (repeat' split) <;> simp [mem_foldl]

@[simp] theorem mmaStore_mem (c : CoreState) (p : MmaPlan) (os start : Bool) (accb rows : Nat) (fp : Bool) (d : CoreState) :
    (mmaStore c p os start accb rows fp d).mem = d.mem := by
  refine mem_foldl _ _ _ (fun a j => ?_)
  refine (mem_foldl (fun d' n => d'.accSet (accb + j) n (mmaEntry c p os start accb j n)) _ _ (fun _ _ => rfl)).trans ?_
  split <;> rfl

@[simp] theorem mxMma_mem (c : CoreState) (cmd : Cmd) : (mxMma c cmd).1.mem = c.mem := by
  unfold mxMma; try dsimp only
  (repeat' split) <;> simp [mem_foldl]

@[simp] theorem mxCvt_mem (c : CoreState) (cmd : Cmd)  (hc : codeWf c.mem = true) : codeWf (mxCvt c cmd).1.mem = true := by
  unfold mxCvt; try dsimp only
  (repeat' split) <;> simp +contextual (maxDischargeDepth := 30) [hc]

@[simp] theorem mxLdAcc_mem (c : CoreState) (cmd : Cmd)  (hc : codeWf c.mem = true) : codeWf (mxLdAcc c cmd).1.mem = true := by
  unfold mxLdAcc; try dsimp only
  (repeat' split) <;> simp +contextual (maxDischargeDepth := 30) [hc]

@[simp] theorem mxClrAcc_mem (c : CoreState) (cmd : Cmd)  (hc : codeWf c.mem = true) : codeWf (mxClrAcc c cmd).1.mem = true := by
  unfold mxClrAcc; try dsimp only
  (repeat' split) <;> simp +contextual (maxDischargeDepth := 30) [hc]

@[simp] theorem mxArrayRun_mem (c : CoreState) (cmd : Cmd)  (hc : codeWf c.mem = true) : codeWf (mxArrayRun c cmd).1.mem = true := by
  unfold mxArrayRun; try dsimp only
  (repeat' split) <;> simp +contextual (maxDischargeDepth := 30) [hc]

/-! ### VxVector -/

@[simp] theorem CoreState.setV_mem (c : CoreState) (i : Nat) (x : BitVec 1024)  (hc : codeWf c.mem = true) : codeWf (CoreState.setV c i x).mem = true := by
  unfold CoreState.setV; try dsimp only
  (repeat' split) <;> simp +contextual (maxDischargeDepth := 30) [hc]

@[simp] theorem CoreState.setM_mem (c : CoreState) (i : Nat) (x : BitVec 32)  (hc : codeWf c.mem = true) : codeWf (CoreState.setM c i x).mem = true := by
  unfold CoreState.setM; try dsimp only
  (repeat' split) <;> simp +contextual (maxDischargeDepth := 30) [hc]

@[simp] theorem CoreState.putLanes_mem (c : CoreState) (i : Inst128) (w : Nat) (f : Nat → Rnd)  (hc : codeWf c.mem = true) : codeWf (CoreState.putLanes c i w f).mem = true := by
  unfold CoreState.putLanes; try dsimp only
  (repeat' split) <;> simp +contextual (maxDischargeDepth := 30) [hc]

@[simp] theorem vxLd_mem (c : CoreState) (cmd : Cmd)  (hc : codeWf c.mem = true) : codeWf (vxLd c cmd).1.mem = true := by
  unfold vxLd; try dsimp only
  (repeat' split) <;> simp +contextual (maxDischargeDepth := 30) [hc]

@[simp] theorem vxSt_mem (c : CoreState) (cmd : Cmd)  (hc : codeWf c.mem = true) : codeWf (vxSt c cmd).1.mem = true := by
  unfold vxSt; try dsimp only
  (repeat' split) <;> simp +contextual (maxDischargeDepth := 30) [hc]

@[simp] theorem vxOp_mem (c : CoreState) (cmd : Cmd)  (hc : codeWf c.mem = true) : codeWf (vxOp c cmd).1.mem = true := by
  unfold vxOp; try dsimp only
  (repeat' split) <;> simp +contextual (maxDischargeDepth := 30) [hc]

@[simp] theorem vxFma_mem (c : CoreState) (cmd : Cmd)  (hc : codeWf c.mem = true) : codeWf (vxFma c cmd).1.mem = true := by
  unfold vxFma; try dsimp only
  (repeat' split) <;> simp +contextual (maxDischargeDepth := 30) [hc]

@[simp] theorem vxCmp_mem (c : CoreState) (cmd : Cmd)  (hc : codeWf c.mem = true) : codeWf (vxCmp c cmd).1.mem = true := by
  unfold vxCmp; try dsimp only
  (repeat' split) <;> simp +contextual (maxDischargeDepth := 30) [hc]

@[simp] theorem vxSel_mem (c : CoreState) (cmd : Cmd)  (hc : codeWf c.mem = true) : codeWf (vxSel c cmd).1.mem = true := by
  unfold vxSel; try dsimp only
  (repeat' split) <;> simp +contextual (maxDischargeDepth := 30) [hc]

@[simp] theorem vxRed_mem (c : CoreState) (cmd : Cmd)  (hc : codeWf c.mem = true) : codeWf (vxRed c cmd).1.mem = true := by
  unfold vxRed; try dsimp only
  (repeat' split) <;> simp +contextual (maxDischargeDepth := 30) [hc]

@[simp] theorem vxTr_mem (c : CoreState) (cmd : Cmd)  (hc : codeWf c.mem = true) : codeWf (vxTr c cmd).1.mem = true := by
  unfold vxTr; try dsimp only
  (repeat' split) <;> simp +contextual (maxDischargeDepth := 30) [hc]

@[simp] theorem CoreState.putRun_mem (c : CoreState) (vd dw p : Nat) (rs : List Rnd)  (hc : codeWf c.mem = true) : codeWf (CoreState.putRun c vd dw p rs).mem = true := by
  unfold CoreState.putRun; try dsimp only
  (repeat' split) <;> simp +contextual (maxDischargeDepth := 30) [hc]

@[simp] theorem vxCvt_mem (c : CoreState) (cmd : Cmd)  (hc : codeWf c.mem = true) : codeWf (vxCvt c cmd).1.mem = true := by
  unfold vxCvt; try dsimp only
  (repeat' split) <;> simp +contextual (maxDischargeDepth := 30) [hc]

@[simp] theorem vxCvtx_mem (c : CoreState) (cmd : Cmd)  (hc : codeWf c.mem = true) : codeWf (vxCvtx c cmd).1.mem = true := by
  unfold vxCvtx; try dsimp only
  (repeat' split) <;> simp +contextual (maxDischargeDepth := 30) [hc]

@[simp] theorem vxKey_mem (c : CoreState) (cmd : Cmd)  (hc : codeWf c.mem = true) : codeWf (vxKey c cmd).1.mem = true := by
  unfold vxKey; try dsimp only
  (repeat' split) <;> simp +contextual (maxDischargeDepth := 30) [hc]

@[simp] theorem vxIota_mem (c : CoreState) (cmd : Cmd)  (hc : codeWf c.mem = true) : codeWf (vxIota c cmd).1.mem = true := by
  unfold vxIota; try dsimp only
  (repeat' split) <;> simp +contextual (maxDischargeDepth := 30) [hc]

@[simp] theorem vxVectorRun_mem (c : CoreState) (cmd : Cmd)  (hc : codeWf c.mem = true) : codeWf (vxVectorRun c cmd).1.mem = true := by
  unfold vxVectorRun; try dsimp only
  (repeat' split) <;> simp +contextual (maxDischargeDepth := 30) [hc]

/-! ### VxSieve -/

@[simp] theorem svCfg_mem (c : CoreState) (cmd : Cmd) : (svCfg c cmd).1.mem = c.mem := by
  unfold svCfg; try dsimp only
  (repeat' split) <;> simp [mem_foldl]

@[simp] theorem svClr_mem (c : CoreState) (cmd : Cmd)  (hc : codeWf c.mem = true) : codeWf (svClr c cmd).1.mem = true := by
  unfold svClr; try dsimp only
  (repeat' split) <;> simp +contextual (maxDischargeDepth := 30) [hc]

@[simp] theorem svOffer_mem (c : CoreState) (cmd : Cmd) (cands : List Word)  (hc : codeWf c.mem = true) : codeWf (svOffer c cmd cands).1.mem = true := by
  unfold svOffer; try dsimp only
  (repeat' split) <;> simp +contextual (maxDischargeDepth := 30) [hc]

@[simp] theorem svIns_mem (c : CoreState) (cmd : Cmd)  (hc : codeWf c.mem = true) : codeWf (svIns c cmd).1.mem = true := by
  unfold svIns; try dsimp only
  (repeat' split) <;> simp +contextual (maxDischargeDepth := 30) [hc]

@[simp] theorem svInsw_mem (c : CoreState) (cmd : Cmd)  (hc : codeWf c.mem = true) : codeWf (svInsw c cmd).1.mem = true := by
  unfold svInsw; try dsimp only
  (repeat' split) <;> simp +contextual (maxDischargeDepth := 30) [hc]

@[simp] theorem vxSieveRun_mem (c : CoreState) (cmd : Cmd)  (hc : codeWf c.mem = true) : codeWf (vxSieveRun c cmd).1.mem = true := by
  unfold vxSieveRun; try dsimp only
  (repeat' split) <;> simp +contextual (maxDischargeDepth := 30) [hc]

/-! ### Seq -/

@[simp] theorem CoreState.setEngine_mem (c : CoreState) (e : Nat) (g : Engine) : (CoreState.setEngine c e g).mem = c.mem := by
  unfold CoreState.setEngine; try dsimp only
  (repeat' split) <;> simp [mem_foldl]

@[simp] theorem CoreState.advance_mem (c : CoreState) (adv : BitVec 8) : (CoreState.advance c adv).mem = c.mem := by
  unfold CoreState.advance; try dsimp only
  (repeat' split) <;> simp [mem_foldl]

@[simp] theorem CoreState.endPass1_mem (c : CoreState) : (CoreState.endPass1 c).mem = c.mem := by
  unfold CoreState.endPass1; try dsimp only
  (repeat' split) <;> simp [mem_foldl]

@[simp] theorem CoreState.endPass0_mem (c : CoreState) : (CoreState.endPass0 c).mem = c.mem := by
  unfold CoreState.endPass0; try dsimp only
  (repeat' split) <;> simp [mem_foldl]

@[simp] theorem CoreState.goTo_mem (c : CoreState) (pc : BitVec 13) : (CoreState.goTo c pc).mem = c.mem := by
  unfold CoreState.goTo; try dsimp only
  (repeat' split) <;> simp [mem_foldl]

@[simp] theorem CoreState.next_mem (c : CoreState) : (CoreState.next c).mem = c.mem := by
  unfold CoreState.next; try dsimp only
  (repeat' split) <;> simp [mem_foldl]

@[simp] theorem CoreState.beginLoop_mem (c : CoreState) (lvl count len : Nat) (adv : BitVec 8) : (CoreState.beginLoop c lvl count len adv).mem = c.mem := by
  unfold CoreState.beginLoop; try dsimp only
  (repeat' split) <;> simp [mem_foldl]

@[simp] theorem CoreState.svCopy_mem (c : CoreState)  (hc : codeWf c.mem = true) : codeWf (CoreState.svCopy c).mem = true := by
  unfold CoreState.svCopy; try dsimp only
  (repeat' split) <;> simp +contextual (maxDischargeDepth := 30) [hc]

@[simp] theorem State.runMove_mw (s : State) (c : CoreId) (cmd : Cmd) (eng errEng : Nat) (hs : s.memWf = true) : (State.runMove s c cmd eng errEng).1.memWf = true := by
  unfold State.runMove; try dsimp only
  (repeat' split) <;> simp +contextual (maxDischargeDepth := 30) [hs]

@[simp] theorem State.runCmd_mw (s : State) (c : CoreId) (e : Nat) (cmd : Cmd) (hs : s.memWf = true) : (State.runCmd s c e cmd).1.memWf = true := by
  unfold State.runCmd; try dsimp only
  (repeat' split) <;> simp +contextual (maxDischargeDepth := 30) [hs]

@[simp] theorem State.startHead_mw (s : State) (c : CoreId) (e : Nat) (cmd : Cmd) (rest : List Cmd) (hs : s.memWf = true) :
    (s.startHead c e cmd rest).memWf = true := by
  unfold State.startHead
  extract_lets k x y g t
  have ht : t.memWf = true := by
    refine State.memWf_setCore s c _ hs ?_
    rw [CoreState.setEngine_mem]
    unfold y; split <;> simp [x, hs]
  have h2 := State.runCmd_mw t c e cmd ht
  generalize State.runCmd t c e cmd = r at h2
  obtain ⟨u, ok⟩ := r
  dsimp only at h2 ⊢
  split
  · exact h2
  · refine State.memWf_modCore u c _ h2 ?_
    split <;> simp [h2]

theorem State.tryStart_mw (s : State) (c : CoreId) (e : Nat) (hs : s.memWf = true) (t : State) (h : s.tryStart c e = some t) :
    t.memWf = true := by
  unfold State.tryStart at h
  extract_lets k x g at h
  have hw : ∀ g', (s.setCore c (x.setEngine e g')).memWf = true := fun _ =>
    State.memWf_setCore s c _ hs ((congrArg codeWf (CoreState.setEngine_mem _ _ _)).trans (State.memWf_core s c hs))
  split at h
  · cases h
  · split at h
    · cases h
    · split at h
      · cases h; exact hw _
      · split at h
        · cases h
        · split at h
          · cases h; exact hw _
          · cases h; exact State.startHead_mw _ _ _ _ _ hs

@[simp] theorem State.kick_mw (n : Nat) (s : State) (c : CoreId) (hs : s.memWf = true) : (State.kick n s c).memWf = true := by
  induction n generalizing s with
  | zero => exact hs
  | succ n ih =>
    unfold State.kick
    split
    · exact hs
    · split
      · rename_i t h
        refine ih t ?_
        cases h1 : s.tryStart c 1 with
        | some u => rw [h1] at h; cases h; exact State.tryStart_mw s c 1 hs _ h1
        | none =>
          rw [h1] at h
          cases h2 : s.tryStart c 2 with
          | some u => simp [h2] at h; cases h; exact State.tryStart_mw s c 2 hs _ h2
          | none => simp [h2] at h; exact State.tryStart_mw s c 3 hs _ h
      · exact hs

@[simp] theorem State.endRun_mw (s : State) (c : CoreId) (hs : s.memWf = true) : (State.endRun s c).memWf = true := by
  unfold State.endRun; try dsimp only
  (repeat' split) <;> simp +contextual (maxDischargeDepth := 30) [hs]

/-- A change of a core that keeps its scratchpad canonical. -/
def CoreKeeps (f : CoreState → CoreState) : Prop := ∀ d, codeWf d.mem = true → codeWf (f d).mem = true

theorem State.finish_mw (s : State) (c : CoreId) (i : Inst128) (f : CoreState → CoreState) (hf : CoreKeeps f) (hs : s.memWf = true) :
    (s.finish c i f).memWf = true := by
  unfold State.finish
  refine State.endRun_mw _ _ (State.memWf_modCore s c _ hs ?_)
  dsimp only
  split
  · rw [CoreState.signal_mem]; exact hf _ (State.memWf_core s c hs)
  · exact hf _ (State.memWf_core s c hs)

@[simp] theorem State.holdSeq_mw (s : State) (c : CoreId) (i : Inst128) (h : SeqHold) (hs : s.memWf = true) : (State.holdSeq s c i h).memWf = true := by
  unfold State.holdSeq; try dsimp only
  (repeat' split) <;> simp +contextual (maxDischargeDepth := 30) [hs]

@[simp] theorem State.enqueue_mw (s : State) (c : CoreId) (i : Inst128) (hs : s.memWf = true) : (s.enqueue c i).memWf = true := by
  unfold State.enqueue
  extract_lets k x
  split
  · rename_i e _
    extract_lets g
    split
    · simp [hs]
    split
    · simp [hs]
    · refine State.kick_mw _ _ _ (State.memWf_setCore s c _ hs ?_)
      exact (congrArg codeWf ((CoreState.next_mem _).trans (CoreState.setEngine_mem _ _ _))).trans (State.memWf_core s c hs)
  · exact hs

@[simp] theorem State.fetchOld_mw (s : State) (c : CoreId) (t pc : Nat) (hs : s.memWf = true) : (s.fetchOld c t pc).1.memWf = true := by
  unfold State.fetchOld
  split
  · exact hs
  · exact State.memWf_modCore _ c _ hs (State.memWf_core s c hs)

@[simp] theorem State.fetchSeq_mw (s : State) (c : CoreId) (hs : s.memWf = true) : (State.fetchSeq s c).1.memWf = true := by
  unfold State.fetchSeq; try dsimp only
  have h := State.fetchOld_mw s c 0 (s.core c).pc.toNat hs
  split
  · simp +contextual (maxDischargeDepth := 30) [hs]
  split <;> (rename_i he; rw [he] at h; dsimp only at h; split <;> simp +contextual (maxDischargeDepth := 30) [h])

/-- What an issued instruction does keeps the canonical form. -/
def BodyKeeps (b : Body) : Prop := ∀ s c i, s.memWf = true → (b s c i).memWf = true

theorem State.issue_mw (s : State) (c : CoreId) (k : Kind) (opc : Nat) (body : Body) (hb : BodyKeeps body) (hs : s.memWf = true) :
    (s.issue c k opc body).memWf = true := by
  unfold State.issue
  split
  · exact hs
  · have h := State.fetchSeq_mw s c hs
    split
    · rename_i he; rw [he] at h; exact h
    · rename_i t i he
      rw [he] at h
      dsimp only at h
      extract_lets reserved
      split
      · exact hs
      · split
        · simp [h]
        · split
          · split
            · exact hb _ _ _ (State.memWf_modCore _ _ _ h (by simp [h]))
            · simp [h]
          · exact hb _ _ _ h

/-! ### JobOps -/

@[simp] theorem Job.writeWords_mem (j : Job) (k : Kind) (at_ : LPos) (rs : List Reloc) (ws : List (Nat × Word)) (c : CoreState)
    (hc : codeWf c.mem = true) : codeWf (Job.writeWords j k at_ rs ws c).mem = true := by
  unfold Job.writeWords; try dsimp only
  (repeat' split) <;> simp +contextual (maxDischargeDepth := 30) [hc]

@[simp] theorem Job.applyChange_mem (j : Job) (k : Kind) (rs : List Reloc) (x : CoreChange) (c : CoreState) (hc : codeWf c.mem = true) :
    codeWf (Job.applyChange j k rs x c).mem = true := by
  unfold Job.applyChange
  refine Job.writeWords_mem j k x.at_ rs x.patch _ (wf_foldl _ _ c hc (fun d b hd => ?_))
  split <;> simp [hd]

@[simp] theorem Job.loadCore_mem (j : Job) (ci : CoreImage) (c : CoreState) (hc : codeWf c.mem = true) :
    codeWf (Job.loadCore j ci c).mem = true := by
  unfold Job.loadCore
  refine wf_foldl _ _ _ ?_ (fun d o hd => wf_foldl _ _ _ hd (fun e x he => Job.applyChange_mem j _ _ x e he))
  refine wf_foldl _ _ _ (Job.writeWords_mem j _ _ _ _ c hc) (fun d q hd => ?_)
  simp [hd]

@[simp] theorem State.loadConfig_mw (s : State) (j : Nat) (hs : s.memWf = true) : (s.loadConfig j).memWf = true := by
  unfold State.loadConfig
  extract_lets q
  refine memWf_foldl _ _ _ hs (fun t ci ht => ?_)
  split
  · split
    · exact ht
    · exact State.memWf_setCore _ _ _ ht (Job.loadCore_mem _ _ _ (State.memWf_core _ _ ht))
  · exact ht

@[simp] theorem State.loadCarried_mw (s : State) (j : Nat) (hs : s.memWf = true) : (s.loadCarried j).memWf = true := by
  unfold State.loadCarried
  extract_lets q area
  split
  · exact hs
  · refine memWf_foldl _ _ _ hs (fun t it ht => ?_)
    split
    · exact ht
    · refine memWf_foldl _ _ _ ht (fun u i hu => ?_)
      dsimp only
      split
      · exact hu
      · simp (maxDischargeDepth := 30) [hu]

@[simp] theorem CoreState.start_mem (k : Kind) (c : CoreState) : (CoreState.start k c).mem = c.mem := by
  unfold CoreState.start; try dsimp only
  (repeat' split) <;> simp [mem_foldl]

@[simp] theorem State.startCores_mw (s : State) (j : Nat) (hs : s.memWf = true) : (State.startCores s j).memWf = true := by
  unfold State.startCores; try dsimp only
  (repeat' split) <;> simp +contextual (maxDischargeDepth := 30) [hs]

@[simp] theorem State.joinFields_mw (s : State) (j : Nat) (fs : List Nat) (spare : Bool) (hs : s.memWf = true) : (State.joinFields s j fs spare).memWf = true := by
  unfold State.joinFields; try dsimp only
  (repeat' split) <;> simp +contextual (maxDischargeDepth := 30) [hs]

@[simp] theorem State.publishQueue_mw (s : State) (c : CoreId) (n : Nat) (hs : s.memWf = true) : (State.publishQueue s c n).memWf = true := by
  unfold State.publishQueue; try dsimp only
  (repeat' split) <;> simp +contextual (maxDischargeDepth := 30) [hs]

@[simp] theorem State.publishCore_mw (s : State) (c : CoreId) (hs : s.memWf = true) : (State.publishCore s c).memWf = true := by
  unfold State.publishCore; try dsimp only
  (repeat' split) <;> simp +contextual (maxDischargeDepth := 30) [hs]

@[simp] theorem State.publish_mw (s : State) (j : Nat) (hs : s.memWf = true) : (State.publish s j).memWf = true := by
  unfold State.publish; try dsimp only
  (repeat' split) <;> simp +contextual (maxDischargeDepth := 30) [hs]

@[simp] theorem State.releaseHeld_mw (s : State) (c : CoreId) (hs : s.memWf = true) : (State.releaseHeld s c).memWf = true := by
  unfold State.releaseHeld; try dsimp only
  (repeat' split) <;> simp +contextual (maxDischargeDepth := 30) [hs]

@[simp] theorem State.dieSend_mw (s : State) (d : Port) (p : Packet) (dest : Option LPos) (log : Bool) (hs : s.memWf = true) : (State.dieSend s d p dest log).memWf = true := by
  unfold State.dieSend; try dsimp only
  (repeat' split) <;> simp +contextual (maxDischargeDepth := 30) [hs]

@[simp] theorem State.replayOne_mw (s : State) (j : Nat) (e : LogEntry) (hs : s.memWf = true) : (State.replayOne s j e).memWf = true := by
  unfold State.replayOne; try dsimp only
  (repeat' split) <;> simp +contextual (maxDischargeDepth := 30) [hs]

@[simp] theorem State.replay_mw (s : State) (j : Nat) (hs : s.memWf = true) : (State.replay s j).memWf = true := by
  unfold State.replay; try dsimp only
  (repeat' split) <;> simp +contextual (maxDischargeDepth := 30) [hs]

@[simp] theorem State.beginExposure_mw (s : State) (j n : Nat) (hs : s.memWf = true) : (State.beginExposure s j n).memWf = true := by
  unfold State.beginExposure; try dsimp only
  (repeat' split) <;> simp +contextual (maxDischargeDepth := 30) [hs]

/-! ### FcRegs -/

@[simp] theorem State.latchTick_mw (s : State) (f latch : Nat) : (State.latchTick s f latch).memWf = s.memWf := by
  unfold State.latchTick; try dsimp only
  (repeat' split) <;> simp [mw_foldl]

@[simp] theorem State.clearFcReg_mw (s : State) (f off : Nat) : (State.clearFcReg s f off).memWf = s.memWf := by
  unfold State.clearFcReg; try dsimp only
  (repeat' split) <;> simp [mw_foldl]

@[simp] theorem State.fcRead_mw (s : State) (f latch off : Nat) : (State.fcRead s f latch off).1.memWf = s.memWf := by
  unfold State.fcRead; try dsimp only
  (repeat' split) <;> simp [mw_foldl]

/-! ### SpadEvents -/

@[simp] theorem State.inboundCommit_mw (s : State) (c : CoreId) (hs : s.memWf = true) : (State.inboundCommit s c).memWf = true := by
  unfold State.inboundCommit; try dsimp only
  (repeat' split) <;> simp +contextual (maxDischargeDepth := 30) [hs]

@[simp] theorem CoreState.landRewrite_mem (x : CoreState) (bank : Nat)  (hx : codeWf x.mem = true) : codeWf (CoreState.landRewrite x bank).mem = true := by
  unfold CoreState.landRewrite; try dsimp only
  (repeat' split) <;> simp +contextual (maxDischargeDepth := 30) [hx]

@[simp] theorem CoreState.patrol_mem (k : Kind) (x : CoreState) : (CoreState.patrol k x).mem = x.mem := by
  unfold CoreState.patrol; try dsimp only
  (repeat' split) <;> simp [mem_foldl]

@[simp] theorem CoreState.resetCore_mem (x : CoreState)  (hx : codeWf x.mem = true) : codeWf (CoreState.resetCore x).mem = true := by
  unfold CoreState.resetCore; try dsimp only
  (repeat' split) <;> simp +contextual (maxDischargeDepth := 30) [hx]

@[simp] theorem State.coreReset_mw (s : State) (c : CoreId) (hs : s.memWf = true) : (State.coreReset s c).memWf = true := by
  unfold State.coreReset; try dsimp only
  (repeat' split) <;> simp +contextual (maxDischargeDepth := 30) [hs]

/-! ### NetEvents -/

@[simp] theorem State.answerInput_mw (s : State) (j num reason : Nat) : (State.answerInput s j num reason).memWf = s.memWf := by
  unfold State.answerInput; try dsimp only
  (repeat' split) <;> simp [mw_foldl]

@[simp] theorem State.joback_mw (s : State) (f : Nat) (c : CoreId) (v : Word) : (State.joback s f c v).memWf = s.memWf := by
  unfold State.joback; try dsimp only
  (repeat' split) <;> simp [mw_foldl]

@[simp] theorem State.fcRefuse_mw (s : State) (f : Nat) (p : Packet) (reason words : Nat) (hs : s.memWf = true) : (State.fcRefuse s f p reason words).memWf = true := by
  unfold State.fcRefuse; try dsimp only
  (repeat' split) <;> simp +contextual (maxDischargeDepth := 30) [hs]

@[simp] theorem State.fcWrite_mw (s : State) (p : Packet) (hs : s.memWf = true) : (State.fcWrite s p).memWf = true := by
  unfold State.fcWrite; try dsimp only
  (repeat' split) <;> simp +contextual (maxDischargeDepth := 30) [hs]

@[simp] theorem State.coreWrite_mw (s : State) (p : Packet) (hs : s.memWf = true) : (State.coreWrite s p).memWf = true := by
  unfold State.coreWrite; try dsimp only
  (repeat' split) <;> simp +contextual (maxDischargeDepth := 30) [hs]

@[simp] theorem State.jobackArrives_mw (s : State) (c : CoreId) (v : Word) (hs : s.memWf = true) : (State.jobackArrives s c v).memWf = true := by
  unfold State.jobackArrives; try dsimp only
  (repeat' split) <;> simp +contextual (maxDischargeDepth := 30) [hs]

@[simp] theorem State.coreQueue_mw (s : State) (p : Packet) (f : State → CoreId → Packet → State)
    (hf : ∀ t c p, t.memWf = true → (f t c p).memWf = true) (hs : s.memWf = true) : (s.coreQueue p f).memWf = true := by
  unfold State.coreQueue; dsimp only
  (repeat' split) <;> simp [hs, hf]

@[simp] theorem State.readPad_mw (s : State) (c : CoreId) (w : Nat) (hs : s.memWf = true) : (State.readPad s c w).1.memWf = true := by
  unfold State.readPad; try dsimp only
  (repeat' split) <;> simp +contextual (maxDischargeDepth := 30) [hs]

@[simp] theorem State.readBlock_mw (s : State) (c : CoreId) (off : Nat) (hs : s.memWf = true) : (State.readBlock s c off).1.memWf = true := by
  unfold State.readBlock; try dsimp only
  (repeat' split) <;> simp +contextual (maxDischargeDepth := 30) [hs]

theorem readRun_mw (f : State → Nat → State × Option (Word × Bool)) (hf : ∀ t i, t.memWf = true → (f t i).1.memWf = true)
    (l : List Nat) (s : State) (hs : s.memWf = true) : (readRun s f l).1.memWf = true := by
  induction l generalizing s with
  | nil => exact hs
  | cons i t ih => exact ih _ (hf s i hs)

@[simp] theorem State.answerRead_mw (s : State) (e : NetEnd) (p : Packet) (sx sy : Nat) (epoch : BitVec 2) (vs : List (Option (Word × Bool))) (hs : s.memWf = true) : (State.answerRead s e p sx sy epoch vs).memWf = true := by
  unfold State.answerRead; try dsimp only
  (repeat' split) <;> simp +contextual (maxDischargeDepth := 30) [hs]

@[simp] theorem State.coreRead_mw (s : State) (p : Packet) (hs : s.memWf = true) : (s.coreRead p).memWf = true := by
  unfold State.coreRead
  extract_lets c e serve
  split
  · exact State.coreRefuse_mw _ _ _ _ _ hs
  · have key : ∀ (f : State → Nat → State × Option (Word × Bool)) (g : State → BitVec 2) (vs : State → List (Option (Word × Bool)) → Bool),
        (∀ t i, t.memWf = true → (f t i).1.memWf = true) →
        ((if vs s (readRun s f (List.range p.len)).2 then (readRun s f (List.range p.len)).1.modCore c CoreState.setUnmap
          else (readRun s f (List.range p.len)).1).answerRead (posEnd c) p c.x c.y (g
          (if vs s (readRun s f (List.range p.len)).2 then (readRun s f (List.range p.len)).1.modCore c CoreState.setUnmap
          else (readRun s f (List.range p.len)).1)) (readRun s f (List.range p.len)).2).memWf = true := by
      intro f g vs hf
      have h := readRun_mw f hf (List.range p.len) s hs
      refine State.answerRead_mw _ _ _ _ _ _ _ ?_
      split
      · exact State.memWf_modCore _ _ _ h (CoreState.setUnmap_mem _ (State.memWf_core _ _ h))
      · exact h
    split
    · exact State.coreRefuse_mw _ _ _ _ _ hs
    · split
      · exact key _ (fun u => (u.core c).epoch) (fun _ l => l.any (·.isNone)) (fun t i ht => by simp [ht])
      · exact key _ (fun u => (u.core c).epoch) (fun _ l => l.any (·.isNone)) (fun t i ht => by simp [ht])

@[simp] theorem State.fcReadAll_mw (s : State) (p : Packet) (hs : s.memWf = true) : (s.fcReadAll p).memWf = true := by
  unfold State.fcReadAll; dsimp only
  split
  · simp [hs]
  · split
    · simp [hs]
    · refine State.answerRead_mw _ _ _ _ _ _ _ (readRun_mw _ (fun t i ht => ?_) _ s hs)
      simp [ht]

@[simp] theorem State.readArrival_mw (s : State) (k : Nat) (hs : s.memWf = true) : (s.readArrival k).memWf = true := by
  unfold State.readArrival
  split
  · split
    · exact hs
    · refine State.arrive_mw _ _ _ _ _ (fun t p ht => ?_) hs
      split
      · exact State.coreRead_mw _ _ ht
      · exact State.fcReadAll_mw _ _ ht
  · exact hs

@[simp] theorem State.coreRdata_mw (s : State) (p : Packet) (hs : s.memWf = true) : (State.coreRdata s p).memWf = true := by
  unfold State.coreRdata; try dsimp only
  (repeat' split) <;> simp +contextual (maxDischargeDepth := 30) [hs]

@[simp] theorem State.winNaked_mw (s : State) (p : Port) (w : Nat) : (State.winNaked s p w).memWf = s.memWf := by
  unfold State.winNaked; try dsimp only
  (repeat' split) <;> simp [mw_foldl]

@[simp] theorem State.dieRdata_mw (s : State) (d : Port) (p : Packet) (hs : s.memWf = true) : (State.dieRdata s d p).memWf = true := by
  unfold State.dieRdata; try dsimp only
  (repeat' split) <;> simp +contextual (maxDischargeDepth := 30) [hs]

@[simp] theorem CoreState.noteQnak_mem (x : CoreState) (p : Packet) : (CoreState.noteQnak x p).mem = x.mem := by
  unfold CoreState.noteQnak; try dsimp only
  (repeat' split) <;> simp [mem_foldl]

@[simp] theorem CoreState.noteNak_mem (x : CoreState) (p : Packet) : (CoreState.noteNak x p).mem = x.mem := by
  unfold CoreState.noteNak; try dsimp only
  (repeat' split) <;> simp [mem_foldl]

@[simp] theorem State.nakRecord_mw (s : State) (f : Nat) (c : CoreId) (reason : Nat) : (State.nakRecord s f c reason).memWf = s.memWf := by
  unfold State.nakRecord; try dsimp only
  (repeat' split) <;> simp [mw_foldl]

@[simp] theorem State.coreNak_mw (s : State) (p : Packet) (hs : s.memWf = true) : (State.coreNak s p).memWf = true := by
  unfold State.coreNak; try dsimp only
  (repeat' split) <;> simp +contextual (maxDischargeDepth := 30) [hs]

@[simp] theorem State.dieNak_mw (s : State) (d : Port) (p : Packet) (hs : s.memWf = true) : (State.dieNak s d p).memWf = true := by
  unfold State.dieNak; try dsimp only
  (repeat' split) <;> simp +contextual (maxDischargeDepth := 30) [hs]

@[simp] theorem State.progWrite_mw (s : State) (c : CoreId) (off : Nat) (v : Word) (hs : s.memWf = true) : (State.progWrite s c off v).memWf = true := by
  unfold State.progWrite; try dsimp only
  (repeat' split) <;> simp +contextual (maxDischargeDepth := 30) [hs]

@[simp] theorem State.hubRead_mw (s : State) (k hx hy : Nat) : (State.hubRead s k hx hy).memWf = s.memWf := by
  unfold State.hubRead; try dsimp only
  (repeat' split) <;> simp [mw_foldl]

@[simp] theorem State.markDown_mw (s : State) (l : LinkId) : (State.markDown s l).memWf = s.memWf := by
  unfold State.markDown; try dsimp only
  (repeat' split) <;> simp [mw_foldl]

@[simp] theorem State.hubFailed_mw (s : State) (hx hy : Nat) : (State.hubFailed s hx hy).memWf = s.memWf := by
  unfold State.hubFailed; try dsimp only
  (repeat' split) <;> simp [mw_foldl]

@[simp] theorem State.routerFailed_mw (s : State) (c : CoreId) : (State.routerFailed s c).memWf = s.memWf := by
  unfold State.routerFailed; try dsimp only
  (repeat' split) <;> simp [mw_foldl]

@[simp] theorem State.linkFault_mw (s : State) (l : LinkId) (hs : s.memWf = true) : (s.linkFault l).memWf = true := by
  unfold State.linkFault
  have h : ((linkFields l).foldl (fun s f => match s.fieldJob f with
      | some j => s.faultInPlace j
      | none => s) s).memWf = true :=
    memWf_foldl _ _ _ hs (fun t f ht => by split <;> simp [ht])
  extract_lets t
  have h' : t.memWf = true := h
  clear_value t
  have hr : ∀ c : CoreId, (if t.routerDead c then t.routerFailed c else t).memWf = true := by
    intro c; split <;> simp [h']
  have hh : ∀ x y : Nat, (if t.hubDead x y then t.hubFailed x y else t).memWf = true := by
    intro x y; split <;> simp [h']
  split
  · extract_lets u
    have hu : u.memWf = true := hr _
    clear_value u
    (repeat' split) <;> simp [hu]
  · extract_lets u
    have hu : u.memWf = true := hh _ _
    clear_value u
    (repeat' split) <;> simp [hu]
  · exact h'

@[simp] theorem State.linkDown_mw (s : State) (l : LinkId) (hs : s.memWf = true) : (State.linkDown s l).memWf = true := by
  unfold State.linkDown; try dsimp only
  (repeat' split) <;> simp +contextual (maxDischargeDepth := 30) [hs]

@[simp] theorem State.countReplay_mw (s : State) (a : At) : (s.countReplay a).memWf = s.memWf := by
  unfold State.countReplay; split <;> rfl

@[simp] theorem State.latencyRecord_mw (s : State) (f : Nat) (l : List ((Nat × Nat) × (Nat × Nat))) :
    (s.latencyRecord f l).memWf = s.memWf := by
  unfold State.latencyRecord; split <;> simp

@[simp] theorem State.flitReplay_mw (s : State) (l : LinkId) (far : Bool) : (State.flitReplay s l far).memWf = s.memWf := by
  unfold State.flitReplay; try dsimp only
  (repeat' split) <;> simp [mw_foldl]

@[simp] theorem State.writeShadow_mw (s : State) (f : Nat) (t : Tables) : (State.writeShadow s f t).memWf = s.memWf := by
  unfold State.writeShadow; try dsimp only
  (repeat' split) <;> simp [mw_foldl]

@[simp] theorem State.clearShadows_mw (s : State) (f : Nat) : (State.clearShadows s f).memWf = s.memWf := by
  unfold State.clearShadows; try dsimp only
  (repeat' split) <;> simp [mw_foldl]

@[simp] theorem State.swapTables_mw (s : State) (f : Nat) : (State.swapTables s f).memWf = s.memWf := by
  unfold State.swapTables; try dsimp only
  (repeat' split) <;> simp [mw_foldl]

/-! ### SxOps -/

/-- What an issued SX instruction does keeps the canonical form. -/
def SxKeeps (b : SxBody) : Prop := ∀ s c t i, s.memWf = true → (b s c t i).memWf = true

@[simp] theorem CoreState.setThread_mem (c : CoreState) (t : Nat) (v : Thread)  (hc : codeWf c.mem = true) : codeWf (CoreState.setThread c t v).mem = true := by
  unfold CoreState.setThread; try dsimp only
  (repeat' split) <;> simp +contextual (maxDischargeDepth := 30) [hc]

@[simp] theorem CoreState.modThread_mem (c : CoreState) (t : Nat) (f : Thread → Thread)  (hc : codeWf c.mem = true) : codeWf (CoreState.modThread c t f).mem = true := by
  unfold CoreState.modThread; try dsimp only
  (repeat' split) <;> simp +contextual (maxDischargeDepth := 30) [hc]

@[simp] theorem CoreState.failSx_mem (c : CoreState) (t code : Nat) : (CoreState.failSx c t code).mem = c.mem := by
  unfold CoreState.failSx; try dsimp only
  (repeat' split) <;> simp [mem_foldl]

@[simp] theorem CoreState.countIssue_mem (c : CoreState) (t : Nat) (hc : codeWf c.mem = true) : codeWf (CoreState.countIssue c t).mem = true := by
  unfold CoreState.countIssue; try dsimp only
  (repeat' split) <;> simp +contextual (maxDischargeDepth := 30) [hc]

@[simp] theorem CoreState.jump_mem (c : CoreState) (t : Nat) (a : BitVec 32)  (hc : codeWf c.mem = true) : codeWf (CoreState.jump c t a).mem = true := by
  unfold CoreState.jump; try dsimp only
  (repeat' split) <;> simp +contextual (maxDischargeDepth := 30) [hc]

@[simp] theorem CoreState.sxNext_mem (c : CoreState) (t : Nat) (f : Thread → Thread)  (hc : codeWf c.mem = true) : codeWf (CoreState.sxNext c t f).mem = true := by
  unfold CoreState.sxNext; try dsimp only
  (repeat' split) <;> simp +contextual (maxDischargeDepth := 30) [hc]

@[simp] theorem CoreState.sxWait_mem (c : CoreState) (t : Nat) (w : ThreadWait)  (hc : codeWf c.mem = true) : codeWf (CoreState.sxWait c t w).mem = true := by
  unfold CoreState.sxWait; try dsimp only
  (repeat' split) <;> simp +contextual (maxDischargeDepth := 30) [hc]

@[simp] theorem State.fetchSx_mw (s : State) (c : CoreId) (t : Nat) (hs : s.memWf = true) : (State.fetchSx s c t).1.memWf = true := by
  unfold State.fetchSx; try dsimp only
  have h := State.fetchOld_mw s c t ((s.core c).thread t).pc.toNat hs
  split
  · simp +contextual (maxDischargeDepth := 30) [hs]
  split <;> (rename_i he; rw [he] at h; dsimp only at h; split <;> simp +contextual (maxDischargeDepth := 30) [h])

theorem State.sxIssueOp_mw (s : State) (c : CoreId) (t : Fin 4) (opc : Nat) (body : SxBody) (hb : SxKeeps body)
    (hs : s.memWf = true) : (s.sxIssueOp c t opc body).memWf = true := by
  unfold State.sxIssueOp
  split
  · exact hs
  · have h := State.fetchSx_mw s c t.val hs
    split
    · rename_i he; rw [he] at h; exact h
    · rename_i u i he
      rw [he] at h
      dsimp only at h
      split
      · exact hs
      · split
        · simp [h]
        · exact hb _ _ _ _ h

@[simp] theorem CoreState.putGd_mem (c : CoreState) (t : Nat) (i : Inst32) (v : BitVec 32)  (hc : codeWf c.mem = true) : codeWf (CoreState.putGd c t i v).mem = true := by
  unfold CoreState.putGd; try dsimp only
  (repeat' split) <;> simp +contextual (maxDischargeDepth := 30) [hc]

theorem aluBody_keeps  : SxKeeps aluBody := by
  intro s c t i hs
  unfold aluBody sxCore; try dsimp only
  refine State.memWf_modCore _ _ _ hs ?_
  (repeat' split) <;> simp +contextual (maxDischargeDepth := 30) [hs]

theorem immBody_keeps (fn : Nat) : SxKeeps (immBody fn) := by
  intro s c t i hs
  unfold immBody sxCore; try dsimp only
  refine State.memWf_modCore _ _ _ hs ?_
  (repeat' split) <;> simp +contextual (maxDischargeDepth := 30) [hs]

theorem shiBody_keeps  : SxKeeps shiBody := by
  intro s c t i hs
  unfold shiBody sxCore; try dsimp only
  refine State.memWf_modCore _ _ _ hs ?_
  (repeat' split) <;> simp +contextual (maxDischargeDepth := 30) [hs]

theorem luiBody_keeps  : SxKeeps luiBody := by
  intro s c t i hs
  unfold luiBody sxCore; try dsimp only
  refine State.memWf_modCore _ _ _ hs ?_
  (repeat' split) <;> simp +contextual (maxDischargeDepth := 30) [hs]

@[simp] theorem CoreState.sxLoad_mem (c : CoreState) (t : Nat) (a : BitVec 32) (n : Nat) (put : BitVec 64 → Thread → Thread)  (hc : codeWf c.mem = true) : codeWf (CoreState.sxLoad c t a n put).mem = true := by
  unfold CoreState.sxLoad; try dsimp only
  (repeat' split) <;> simp +contextual (maxDischargeDepth := 30) [hc]

theorem loadBody_keeps (n : Nat) (sx : Bool) : SxKeeps (loadBody n sx) := by
  intro s c t i hs
  unfold loadBody sxCore; try dsimp only
  refine State.memWf_modCore _ _ _ hs ?_
  (repeat' split) <;> simp +contextual (maxDischargeDepth := 30) [hs]

theorem ldBody_keeps  : SxKeeps ldBody := by
  intro s c t i hs
  unfold ldBody sxCore; try dsimp only
  refine State.memWf_modCore _ _ _ hs ?_
  (repeat' split) <;> simp +contextual (maxDischargeDepth := 30) [hs]

theorem lxBody_keeps  : SxKeeps lxBody := by
  intro s c t i hs
  unfold lxBody sxCore; try dsimp only
  refine State.memWf_modCore _ _ _ hs ?_
  (repeat' split) <;> simp +contextual (maxDischargeDepth := 30) [hs]

@[simp] theorem CoreState.sxStore_mem (c : CoreState) (t : Nat) (a : BitVec 32) (n : Nat) (v : BitVec 64)  (hc : codeWf c.mem = true) : codeWf (CoreState.sxStore c t a n v).mem = true := by
  unfold CoreState.sxStore; try dsimp only
  (repeat' split) <;> simp +contextual (maxDischargeDepth := 30) [hc]

theorem storeBody_keeps (n : Nat) : SxKeeps (storeBody n) := by
  intro s c t i hs
  unfold storeBody sxCore; try dsimp only
  refine State.memWf_modCore _ _ _ hs ?_
  (repeat' split) <;> simp +contextual (maxDischargeDepth := 30) [hs]

theorem sdBody_keeps  : SxKeeps sdBody := by
  intro s c t i hs
  unfold sdBody sxCore; try dsimp only
  refine State.memWf_modCore _ _ _ hs ?_
  (repeat' split) <;> simp +contextual (maxDischargeDepth := 30) [hs]

theorem branchBody_keeps (taken : BitVec 32 → BitVec 32 → Bool) : SxKeeps (branchBody taken) := by
  intro s c t i hs
  unfold branchBody sxCore; try dsimp only
  refine State.memWf_modCore _ _ _ hs ?_
  (repeat' split) <;> simp +contextual (maxDischargeDepth := 30) [hs]

theorem jalBody_keeps  : SxKeeps jalBody := by
  intro s c t i hs
  unfold jalBody sxCore; try dsimp only
  refine State.memWf_modCore _ _ _ hs ?_
  (repeat' split) <;> simp +contextual (maxDischargeDepth := 30) [hs]

theorem jalrBody_keeps  : SxKeeps jalrBody := by
  intro s c t i hs
  unfold jalrBody sxCore; try dsimp only
  refine State.memWf_modCore _ _ _ hs ?_
  (repeat' split) <;> simp +contextual (maxDischargeDepth := 30) [hs]

@[simp] theorem CoreState.failSxQueue_mem (c : CoreState) (t code q : Nat) : (CoreState.failSxQueue c t code q).mem = c.mem := by
  unfold CoreState.failSxQueue; try dsimp only
  (repeat' split) <;> simp [mem_foldl]

theorem semwBody_keeps  : SxKeeps semwBody := by
  intro s c t i hs
  unfold semwBody sxCore; try dsimp only
  refine State.memWf_modCore _ _ _ hs ?_
  (repeat' split) <;> simp +contextual (maxDischargeDepth := 30) [hs]

theorem semsBody_keeps  : SxKeeps semsBody := by
  intro s c t i hs
  unfold semsBody sxCore; try dsimp only
  refine State.memWf_modCore _ _ _ hs ?_
  (repeat' split) <;> simp +contextual (maxDischargeDepth := 30) [hs]

theorem qwaitSx_keeps  : SxKeeps qwaitSx := by
  intro s c t i hs
  unfold qwaitSx sxCore; try dsimp only
  refine State.memWf_modCore _ _ _ hs ?_
  (repeat' split) <;> simp +contextual (maxDischargeDepth := 30) [hs]

theorem qrelSx_keeps  : SxKeeps qrelSx := by
  intro s c t i hs
  unfold qrelSx; try dsimp only
  (repeat' split) <;> simp +contextual (maxDischargeDepth := 30) [hs]

theorem steerBody_keeps  : SxKeeps steerBody := by
  intro s c t i hs
  unfold steerBody; try dsimp only
  (repeat' split) <;> simp +contextual (maxDischargeDepth := 30) [hs]

@[simp] theorem CoreState.afterSend_mem (c : CoreState) (t : Nat)  (hc : codeWf c.mem = true) : codeWf (CoreState.afterSend c t).mem = true := by
  unfold CoreState.afterSend; try dsimp only
  (repeat' split) <;> simp +contextual (maxDischargeDepth := 30) [hc]

theorem sendBody_keeps  : SxKeeps sendBody := by
  intro s c t i hs
  unfold sendBody; try dsimp only
  (repeat' split) <;> simp +contextual (maxDischargeDepth := 30) [hs]

theorem moveBody_keeps  : SxKeeps moveBody := by
  intro s c t i hs
  unfold moveBody; try dsimp only
  (repeat' split) <;> simp +contextual (maxDischargeDepth := 30) [hs]

theorem mvsyncBody_keeps  : SxKeeps mvsyncBody := by
  intro s c t i hs
  unfold mvsyncBody sxCore; try dsimp only
  refine State.memWf_modCore _ _ _ hs ?_
  (repeat' split) <;> simp +contextual (maxDischargeDepth := 30) [hs]

theorem csrrBody_keeps  : SxKeeps csrrBody := by
  intro s c t i hs
  unfold csrrBody; try dsimp only
  (repeat' split) <;> simp +contextual (maxDischargeDepth := 30) [hs]

theorem tstartBody_keeps  : SxKeeps tstartBody := by
  intro s c t i hs
  unfold tstartBody sxCore; try dsimp only
  refine State.memWf_modCore _ _ _ hs ?_
  (repeat' split) <;> simp +contextual (maxDischargeDepth := 30) [hs]

theorem thaltBody_keeps  : SxKeeps thaltBody := by
  intro s c t i hs
  unfold thaltBody; try dsimp only
  (repeat' split) <;> simp +contextual (maxDischargeDepth := 30) [hs]

@[simp] theorem CoreState.semwGrant_mem (c : CoreState) (t : Nat)  (hc : codeWf c.mem = true) : codeWf (CoreState.semwGrant c t).mem = true := by
  unfold CoreState.semwGrant; try dsimp only
  (repeat' split) <;> simp +contextual (maxDischargeDepth := 30) [hc]

@[simp] theorem CoreState.qwaitEnd_mem (c : CoreState) (t : Nat)  (hc : codeWf c.mem = true) : codeWf (CoreState.qwaitEnd c t).mem = true := by
  unfold CoreState.qwaitEnd; try dsimp only
  (repeat' split) <;> simp +contextual (maxDischargeDepth := 30) [hc]

end Sys2Proof.Machine
end

