-- ==== Sys2Proof/Laws/WfHost.lean ====
section
/-! SUPPORT. The canonical form of the memories under exposures, the host interface and the host's commands:
one lemma per operation, each by unfolding it and citing the lemmas of what it calls. -/

namespace Sys2Proof.Machine

set_option linter.unusedSimpArgs false
set_option linter.unusedTactic false
set_option linter.unreachableTactic false
set_option linter.unnecessarySeqFocus false
set_option linter.unusedVariables false

/-! ### Expo -/

@[simp] theorem State.xpdoneDeferred_mw (s : State) (c : CoreId) (hs : s.memWf = true) : (State.xpdoneDeferred s c).memWf = true := by
  unfold State.xpdoneDeferred; try dsimp only
  (repeat' split) <;> simp +contextual (maxDischargeDepth := 30) [hs]

@[simp] theorem State.beginHold_mw (s : State) (j : Nat) (hs : s.memWf = true) : (State.beginHold s j).memWf = true := by
  unfold State.beginHold; try dsimp only
  simp +contextual (maxDischargeDepth := 30) [hs]

@[simp] theorem State.developHold_mw (s : State) (j : Nat) (hs : s.memWf = true) : (State.developHold s j).memWf = true := by
  unfold State.developHold; try dsimp only
  (repeat' split) <;> simp +contextual (maxDischargeDepth := 30) [hs]

@[simp] theorem State.fieldsDevelop_mw (s : State) (j : Nat) : (State.fieldsDevelop s j).memWf = s.memWf := by
  unfold State.fieldsDevelop; try dsimp only
  (repeat' split) <;> simp [mw_foldl]

@[simp] theorem State.reattach_mw (s : State) : (State.reattach s).memWf = s.memWf := by
  unfold State.reattach; try dsimp only
  (repeat' split) <;> simp [mw_foldl]

@[simp] theorem State.cancelStaged_mw (s : State) (j : Nat) (hs : s.memWf = true) : (State.cancelStaged s j).memWf = true := by
  unfold State.cancelStaged; try dsimp only
  (repeat' split) <;> simp +contextual (maxDischargeDepth := 30) [hs]

@[simp] theorem State.enterPaused_mw (s : State) (j reason : Nat) (hs : s.memWf = true) : (State.enterPaused s j reason).memWf = true := by
  unfold State.enterPaused; try dsimp only
  (repeat' split) <;> simp +contextual (maxDischargeDepth := 30) [hs]

@[simp] theorem State.recordCkpt_mw (s : State) (j : Nat) : (State.recordCkpt s j).memWf = s.memWf := by
  unfold State.recordCkpt; try dsimp only
  (repeat' split) <;> simp [mw_foldl]

@[simp] theorem State.releaseAll_mw (s : State) (j : Nat) : (State.releaseAll s j).memWf = s.memWf := by
  unfold State.releaseAll; try dsimp only
  (repeat' split) <;> simp [mw_foldl]

@[simp] theorem State.suspend_mw (s : State) (j : Nat) (stuck : Stuck) (hs : s.memWf = true) : (State.suspend s j stuck).memWf = true := by
  unfold State.suspend; try dsimp only
  (repeat' split) <;> simp +contextual (maxDischargeDepth := 30) [hs]

@[simp] theorem State.armStaged_mw (s : State) (j : Nat) (hs : s.memWf = true) : (State.armStaged s j).memWf = true := by
  unfold State.armStaged; try dsimp only
  (repeat' split) <;> simp +contextual (maxDischargeDepth := 30) [hs]

@[simp] theorem State.nextExposure_mw (s : State) (j : Nat) (hs : s.memWf = true) : (State.nextExposure s j).memWf = true := by
  unfold State.nextExposure; try dsimp only
  (repeat' split) <;> simp +contextual (maxDischargeDepth := 30) [hs]

@[simp] theorem State.develop_mw (s : State) (j : Nat) (stuck : Stuck) (hs : s.memWf = true) : (State.develop s j stuck).memWf = true := by
  unfold State.develop; try dsimp only
  (repeat' split) <;> simp +contextual (maxDischargeDepth := 30) [hs]

@[simp] theorem CoreState.queueAction_mem (k : Kind) (x : CoreState) (n : Nat) (d : QDesc) (a : QAction)  (hx : codeWf x.mem = true) : codeWf (CoreState.queueAction k x n d a).mem = true := by
  unfold CoreState.queueAction; try dsimp only
  (repeat' split) <;> simp +contextual (maxDischargeDepth := 30) [hx]

@[simp] theorem CoreState.reenter_mem (k : Kind) (x : CoreState) (entry : BitVec 13) : (CoreState.reenter k x entry).mem = x.mem := by
  unfold CoreState.reenter; try dsimp only
  (repeat' split) <;> simp [mem_foldl]

@[simp] theorem State.applyCore_mw (s : State) (j : Nat) (rs : List Reloc) (x : CoreChange) (hs : s.memWf = true) : (State.applyCore s j rs x).memWf = true := by
  unfold State.applyCore; try dsimp only
  (repeat' split) <;> simp +contextual (maxDischargeDepth := 30) [hs]

@[simp] theorem State.abortRenewed_mw (s : State) (j : Nat) (o : Overlay) : (s.abortRenewed j o).memWf = s.memWf := by
  unfold State.abortRenewed
  refine (mw_foldl _ _ _ (fun t x => ?_)).trans (State.memWf_modJob _ _ _)
  split
  · exact State.complete_mw _ _ _ _
  · rfl

@[simp] theorem State.safelightStart_mw (s : State) (j : Nat) (hs : s.memWf = true) : (s.safelightStart j).memWf = true := by
  unfold State.safelightStart
  split
  · rename_i o _
    have h1 : (o.changes.foldl (fun s x => s.applyCore j o.relocs x) s).memWf = true := memWf_foldl _ _ _ hs (fun t x ht => by simp [ht])
    extract_lets a b c d e f g
    have he : e.memWf = true := by simp [e, d, c, a, h1]
    have hf : f.memWf = true := memWf_foldl _ _ _ he (fun t c ht => by simp [ht])
    have hg : g.memWf = true := State.nextExposure_mw _ _ hf
    exact memWf_foldl _ _ _ hg (fun t c ht => by simp [ht])
  · exact hs

@[simp] theorem State.dropSpares_mw (s : State) (j : Nat) : (State.dropSpares s j).memWf = s.memWf := by
  unfold State.dropSpares; try dsimp only
  (repeat' split) <;> simp [mw_foldl]

@[simp] theorem State.applyCover_mw (s : State) (j : Nat) (stuck : Stuck) (o : Overlay) (hs : s.memWf = true) : (State.applyCover s j stuck o).memWf = true := by
  unfold State.applyCover; try dsimp only
  (repeat' split) <;> simp +contextual (maxDischargeDepth := 30) [hs]

@[simp] theorem State.coverAll_mw (s : State) (j : Nat) (stuck : Stuck) (hs : s.memWf = true) :
    (s.coverAll j stuck).memWf = true := by
  unfold State.coverAll
  refine memWf_foldl _ _ _ hs (fun t f ht => ?_)
  split <;> simp [ht]

@[simp] theorem State.restore_mw (s : State) (j : Nat) (stuck : Stuck) (hs : s.memWf = true) : (State.restore s j stuck).memWf = true := by
  unfold State.restore; try dsimp only
  (repeat' split) <;> simp +contextual (maxDischargeDepth := 30) [hs]

@[simp] theorem State.uncovered_mw (s : State) (j : Nat) (hs : s.memWf = true) : (State.uncovered s j).memWf = true := by
  unfold State.uncovered; try dsimp only
  (repeat' split) <;> simp +contextual (maxDischargeDepth := 30) [hs]

@[simp] theorem State.rollBack_mw (s : State) (j : Nat) (stuck : Stuck) (hs : s.memWf = true) : (s.rollBack j stuck).memWf = true := by
  have hd : (s.dropSpares j).memWf = true := by simp [hs]
  have hc : ((s.dropSpares j).coverAll j stuck).memWf = true := by simp [hs]
  unfold State.rollBack
  dsimp only
  (repeat' split) <;> simp [hs, hd, hc]

@[simp] theorem State.restart_mw (s : State) (j : Nat) (hs : s.memWf = true) : (State.restart s j).memWf = true := by
  unfold State.restart; try dsimp only
  (repeat' split) <;> simp +contextual (maxDischargeDepth := 30) [hs]

/-! ### Proofing -/

@[simp] theorem State.coreErrorRecord_mw (s : State) (j : Nat) (c : CoreId) (sev action : Nat) : (State.coreErrorRecord s j c sev action).memWf = s.memWf := by
  unfold State.coreErrorRecord; try dsimp only
  (repeat' split) <;> simp [mw_foldl]

@[simp] theorem State.endWaits_mw (s : State) (c : CoreId) (hs : s.memWf = true) : (State.endWaits s c).memWf = true := by
  unfold State.endWaits; try dsimp only
  (repeat' split) <;> simp +contextual (maxDischargeDepth := 30) [hs]

@[simp] theorem State.coreError_mw (s : State) (c : CoreId) (hs : s.memWf = true) : (State.coreError s c).memWf = true := by
  unfold State.coreError; try dsimp only
  (repeat' split) <;> simp +contextual (maxDischargeDepth := 30) [hs]

@[simp] theorem State.timebaseFault_mw (s : State) (f : Nat) : (State.timebaseFault s f).memWf = s.memWf := by
  unfold State.timebaseFault; try dsimp only
  (repeat' split) <;> simp [mw_foldl]

@[simp] theorem State.tickCompare_mw (s : State) (h : TickCopy) (hs : s.memWf = true) : (State.tickCompare s h).memWf = true := by
  unfold State.tickCompare; try dsimp only
  (repeat' split) <;> simp +contextual (maxDischargeDepth := 30) [hs]

@[simp] theorem State.prfRun_mw (s : State) (c : CoreId) (hs : s.memWf = true) : (State.prfRun s c).memWf = true := by
  unfold State.prfRun; try dsimp only
  (repeat' split) <;> simp +contextual (maxDischargeDepth := 30) [hs]

@[simp] theorem State.proofStart_mw (s : State) (c : CoreId) (hs : s.memWf = true) : (State.proofStart s c).memWf = true := by
  unfold State.proofStart; try dsimp only
  (repeat' split) <;> simp +contextual (maxDischargeDepth := 30) [hs]

@[simp] theorem State.silentError_mw (s : State) (f : Nat) (faulty : CoreId) (primary : Bool) : (State.silentError s f faulty primary).memWf = s.memWf := by
  unfold State.silentError; try dsimp only
  (repeat' split) <;> simp [mw_foldl]

@[simp] theorem State.voteComplete_mw (s : State) (f : Nat) : (State.voteComplete s f).memWf = s.memWf := by
  unfold State.voteComplete; try dsimp only
  (repeat' split) <;> simp [mw_foldl]

/-! ### HostRegs -/

@[simp] theorem State.registerWrite_mw (s : State) (p : RegPath) (c : CoreId) (addr : Nat) (v : Word) (hs : s.memWf = true) : (State.registerWrite s p c addr v).memWf = true := by
  unfold State.registerWrite; try dsimp only
  (repeat' split) <;> simp +contextual (maxDischargeDepth := 30) [hs]

@[simp] theorem State.clearDa_mw (s : State) (da : Nat) (hs : s.memWf = true) : (State.clearDa s da).memWf = true := by
  unfold State.clearDa; try dsimp only
  (repeat' split) <;> simp +contextual (maxDischargeDepth := 30) [hs]

@[simp] theorem State.ctlRead_mw (s : State) (p : Port) (da : Nat) (hs : s.memWf = true) : (State.ctlRead s p da).1.memWf = true := by
  unfold State.ctlRead; try dsimp only
  (repeat' split) <;> simp +contextual (maxDischargeDepth := 30) [hs]

@[simp] theorem State.ctldataAt_mw (s : State) (p : Port) (tag da : Nat) (hs : s.memWf = true) : (s.ctldataAt p tag da).memWf = true := by
  have h := State.ctlRead_mw s p da hs
  unfold State.ctldataAt
  try dsimp only
  (repeat' split) <;> simp_all

@[simp] theorem State.ctldataRead_mw (s : State) (p : Port) (tag : Nat) (hs : s.memWf = true) : (State.ctldataRead s p tag).memWf = true := by
  unfold State.ctldataRead; try dsimp only
  (repeat' split) <;> simp +contextual (maxDischargeDepth := 30) [hs]

@[simp] theorem State.clearingRead_mw (s : State) (p : RegPath) (tag addr : Nat) (hs : s.memWf = true) : (State.clearingRead s p tag addr).memWf = true := by
  unfold State.clearingRead; try dsimp only
  (repeat' split) <;> simp +contextual (maxDischargeDepth := 30) [hs]

@[simp] theorem State.configRequest_mw (s : State) (p : Port) (tag off : Nat) (w : Option (BitVec 32)) : (State.configRequest s p tag off w).memWf = s.memWf := by
  unfold State.configRequest; try dsimp only
  (repeat' split) <;> simp [mw_foldl]

/-! ### Windows -/

@[simp] theorem State.newTag_mw (s : State) (d : Port) : (State.newTag s d).2.memWf = s.memWf := by
  unfold State.newTag; try dsimp only
  (repeat' split) <;> simp [mw_foldl]

@[simp] theorem State.wrDenied_mw (s : State) (p : Port) : (State.wrDenied s p).memWf = s.memWf := by
  unfold State.wrDenied; try dsimp only
  (repeat' split) <;> simp [mw_foldl]

@[simp] theorem State.sendWrites_mw (p : Port) (i : Nat) (w : InWin) (poison : Bool) (l : List (WinDest × List (Option Byte)))
    (s : State) (hs : s.memWf = true) : (State.sendWrites s p i w poison l).memWf = true := by
  induction l generalizing s with
  | nil => exact hs
  | cons e t ih => exact ih _ (by simp [hs])

theorem issueFence_fold (p : Port) (l : List (Packet × Nat)) (r : State × List Nat) (hr : r.1.memWf = true) :
    (l.foldl (fun (r : State × List Nat) e =>
      let (tag, s) := r.1.newTag p
      let s := s.modPort p (fun x => { x with await := x.await ++ [(tag, .fence p e.2)] })
      (s.send (.die p) { e.1 with tag := tag }, r.2 ++ [tag])) r).1.memWf = true := by
  induction l generalizing r with
  | nil => exact hr
  | cons e t ih => exact ih _ (by simp [hr])

@[simp] theorem State.issueFence_mw (s : State) (p : Port) (hs : s.memWf = true) : (s.issueFence p).1.memWf = true := by
  unfold State.issueFence
  extract_lets tab t
  split
  · exact hs
  · exact issueFence_fold p tab _ hs

@[simp] theorem State.fenceFull_mw (s : State) (p : Port) (hs : s.memWf = true) : (State.fenceFull s p).memWf = true := by
  unfold State.fenceFull; try dsimp only
  (repeat' split) <;> simp +contextual (maxDischargeDepth := 30) [hs]

@[simp] theorem State.windowWriteIn_mw (s : State) (p : Port) (i : Nat) (w : InWin) (off : Nat) (bs : List (Option Byte)) (poison : Bool) (hs : s.memWf = true) : (State.windowWriteIn s p i w off bs poison).memWf = true := by
  unfold State.windowWriteIn; try dsimp only
  (repeat' split) <;> simp +contextual (maxDischargeDepth := 30) [hs]

@[simp] theorem State.windowWrite_mw (s : State) (p : Port) (req : BitVec 16) (off : Nat) (bs : List (Option Byte)) (poison : Bool) (hs : s.memWf = true) : (State.windowWrite s p req off bs poison).memWf = true := by
  unfold State.windowWrite; try dsimp only
  (repeat' split) <;> simp +contextual (maxDischargeDepth := 30) [hs]

@[simp] theorem State.readDenied_mw (s : State) (p : Port) (tag : Nat) : (State.readDenied s p tag).memWf = s.memWf := by
  unfold State.readDenied; try dsimp only
  (repeat' split) <;> simp [mw_foldl]

@[simp] theorem State.readAborted_mw (s : State) (p : Port) (tag : Nat) : (State.readAborted s p tag).memWf = s.memWf := by
  unfold State.readAborted; try dsimp only
  (repeat' split) <;> simp [mw_foldl]

@[simp] theorem State.sendReads_mw (p : Port) (i : Nat) (w : InWin) (l : List (WinDest × List Unit))
    (s : State) (hs : s.memWf = true) : (State.sendReads s p i w l).1.memWf = true := by
  induction l generalizing s with
  | nil => exact hs
  | cons e t ih => exact ih _ (by simp [hs])

@[simp] theorem State.windowReadIn_mw (s : State) (p o : Port) (i : Nat) (w : InWin) (at_ tag off len : Nat) (hs : s.memWf = true) : (State.windowReadIn s p o i w at_ tag off len).memWf = true := by
  unfold State.windowReadIn; try dsimp only
  (repeat' split) <;> simp +contextual (maxDischargeDepth := 30) [hs]

@[simp] theorem State.serveHeld_mw (s : State) (p : Port) (r : HeldRead) (hs : s.memWf = true) : (State.serveHeld s p r).memWf = true := by
  unfold State.serveHeld; try dsimp only
  (repeat' split) <;> simp +contextual (maxDischargeDepth := 30) [hs]

@[simp] theorem State.serveAllHeld_mw (s : State) (p : Port) (hs : s.memWf = true) : (State.serveAllHeld s p).memWf = true := by
  unfold State.serveAllHeld; try dsimp only
  (repeat' split) <;> simp +contextual (maxDischargeDepth := 30) [hs]

@[simp] theorem State.coreView_mw (s : State) (off : Nat) : (s.coreView off).1 = s := by
  unfold State.coreView
  extract_lets n c r
  clear_value n c r
  (repeat' split) <;> rfl

@[simp] theorem State.fcView_mw (s : State) (p : Port) (off : Nat) : (State.fcView s p off).1.memWf = s.memWf := by
  unfold State.fcView; try dsimp only
  (repeat' split) <;> simp [mw_foldl]

@[simp] theorem State.viewRead_mw (s : State) (p : Port) (off : Nat) (hs : s.memWf = true) : (s.viewRead p off).1.memWf = true := by
  unfold State.viewRead
  split
  · exact (congrArg State.memWf (State.coreView_mw s off)).trans hs
  · split
    · simp [hs]
    · exact hs

@[simp] theorem State.controlView_mw (s : State) (p : Port) (tag off len : Nat) (hs : s.memWf = true) :
    (s.controlView p tag off len).memWf = true := by
  unfold State.controlView
  have h := readRun_mw (fun s i => s.viewRead p (off + 8 * i)) (fun t i ht => State.viewRead_mw t p _ ht)
    (List.range ((off % 8 + len + 7) / 8)) s hs
  generalize readRun s (fun s i => s.viewRead p (off + 8 * i)) (List.range ((off % 8 + len + 7) / 8)) = r at h
  obtain ⟨u, vs⟩ := r
  dsimp only at h ⊢
  split <;> simp [hs, h]

@[simp] theorem State.windowRead_mw (s : State) (p : Port) (req : BitVec 16) (tag off len : Nat) (hs : s.memWf = true) : (State.windowRead s p req tag off len).memWf = true := by
  unfold State.windowRead; try dsimp only
  (repeat' split) <;> simp +contextual (maxDischargeDepth := 30) [hs]

@[simp] theorem State.obCount_mw (s : State) (d : Port) : (State.obCount s d).memWf = s.memWf := by
  unfold State.obCount; try dsimp only
  (repeat' split) <;> simp [mw_foldl]

@[simp] theorem State.outRefuse_mw (s : State) (d : Port) (p : Packet) (reason : Nat) (hs : s.memWf = true) : (State.outRefuse s d p reason).memWf = true := by
  unfold State.outRefuse; try dsimp only
  (repeat' split) <;> simp +contextual (maxDischargeDepth := 30) [hs]

@[simp] theorem State.outWriteAt_mw (s : State) (d : Port) (p : Packet) (hs : s.memWf = true) : (State.outWriteAt s d p).memWf = true := by
  unfold State.outWriteAt; try dsimp only
  (repeat' split) <;> simp +contextual (maxDischargeDepth := 30) [hs]

@[simp] theorem State.outArrive_mw (s : State) (k ty : Nat) (f : State → Port → Packet → State)
    (hf : ∀ t q p, t.memWf = true → (f t q p).memWf = true) (hs : s.memWf = true) : (s.outArrive k ty f).memWf = true := by
  unfold State.outArrive
  have h := State.arrive_mw s k [ty] [2] (fun s p => f s (Port.ofNum p.dx) p) (fun t p ht => hf t _ p ht) hs
  split
  · exact hs
  · extract_lets t
    (repeat' split) <;> first | exact (State.obCount_mw t _).trans h | exact h

@[simp] theorem State.outReadAt_mw (s : State) (d : Port) (p : Packet) (hs : s.memWf = true) : (State.outReadAt s d p).memWf = true := by
  unfold State.outReadAt; try dsimp only
  (repeat' split) <;> simp +contextual (maxDischargeDepth := 30) [hs]

@[simp] theorem State.outboundCompletion_mw (s : State) (d : Port) (tag : Nat) (data : Option (List (Word × Bool))) (hs : s.memWf = true) : (State.outboundCompletion s d tag data).memWf = true := by
  unfold State.outboundCompletion; try dsimp only
  (repeat' split) <;> simp +contextual (maxDischargeDepth := 30) [hs]

@[simp] theorem State.fenceComplete_mw (s : State) (p : Port) : (State.fenceComplete s p).memWf = s.memWf := by
  unfold State.fenceComplete; try dsimp only
  (repeat' split) <;> simp [mw_foldl]

@[simp] theorem State.closeInbound_mw (s : State) (p : Port) (sel : InWin → Bool) : (State.closeInbound s p sel).memWf = s.memWf := by
  unfold State.closeInbound; try dsimp only
  (repeat' split) <;> simp [mw_foldl]

@[simp] theorem State.closeOutbound_mw (s : State) (p : Port) (sel : OutWin → Bool) : (State.closeOutbound s p sel).memWf = s.memWf := by
  unfold State.closeOutbound; try dsimp only
  (repeat' split) <;> simp [mw_foldl]

@[simp] theorem State.closeBoth_mw (s : State) (sel : InWin → Bool) : (State.closeBoth s sel).memWf = s.memWf := by
  unfold State.closeBoth; try dsimp only
  (repeat' split) <;> simp [mw_foldl]

/-! ### Inbox -/

@[simp] theorem State.slotWrite_mw (s : State) (p : Port) (slot at_ : Nat) (bs : List Byte) (hs : s.memWf = true) :
    (s.slotWrite p slot at_ bs).memWf = true := by
  unfold State.slotWrite
  extract_lets x y z t
  have ht : t.memWf = true := hs
  have hf := State.issueFence_mw t p ht
  (repeat' split) <;> first | exact hs | (rename_i he; rw [he] at hf; exact hf)

@[simp] theorem State.refusePacket_mw (s : State) (p : Port) (k : InPacket) (st : Nat) (pay : List Byte) : (State.refusePacket s p k st pay).memWf = s.memWf := by
  unfold State.refusePacket; try dsimp only
  (repeat' split) <;> simp [mw_foldl]

@[simp] theorem State.refuseSeq_mw (s : State) (p : Port) (k : InPacket) (st : Nat) : (State.refuseSeq s p k st).memWf = s.memWf := by
  unfold State.refuseSeq; try dsimp only
  (repeat' split) <;> simp [mw_foldl]

@[simp] theorem State.journalPacket_mw (s : State) (p : Port) (k : InPacket) : (State.journalPacket s p k).memWf = s.memWf := by
  unfold State.journalPacket; try dsimp only
  (repeat' split) <;> simp [mw_foldl]

@[simp] theorem State.acceptPacket_mw (s : State) (p : Port) (k : InPacket) : (State.acceptPacket s p k).memWf = s.memWf := by
  unfold State.acceptPacket; try dsimp only
  (repeat' split) <;> simp [mw_foldl]

@[simp] theorem State.refuseHello_mw (s : State) (p : Port) (k : InPacket) : (State.refuseHello s p k).memWf = s.memWf := by
  unfold State.refuseHello; try dsimp only
  (repeat' split) <;> simp [mw_foldl]

@[simp] theorem State.takePacket_mw (s : State) (p : Port) (k : InPacket) : (State.takePacket s p k).memWf = s.memWf := by
  unfold State.takePacket; try dsimp only
  (repeat' split) <;> simp [mw_foldl]

@[simp] theorem State.packetTake_mw (s : State) (p : Port) : (State.packetTake s p).memWf = s.memWf := by
  unfold State.packetTake; try dsimp only
  (repeat' split) <;> simp [mw_foldl]

@[simp] theorem State.commandStart_mw (s : State) (n : Nat) : (State.commandStart s n).memWf = s.memWf := by
  unfold State.commandStart; try dsimp only
  (repeat' split) <;> simp [mw_foldl]

theorem State.cmd_mw (s : State) (n op : Nat) (used : List (Nat × Nat)) (ok : Entry → Bool) (f : Entry → State)
    (hf : ∀ e, (f e).memWf = true) (hs : s.memWf = true) : (s.cmd n op used ok f).memWf = true := by
  unfold State.cmd
  (repeat' split) <;> simp [hs, hf]

@[simp] theorem State.wait_mw (s : State) (e : Entry) : (State.wait s e).memWf = s.memWf := by
  unfold State.wait; try dsimp only
  (repeat' split) <;> simp [mw_foldl]

@[simp] theorem State.hostWrite_mw (s : State) (e : Entry) (haddr hlen : Nat) (data : List Byte) (pay : List Byte) : (State.hostWrite s e haddr hlen data pay).memWf = s.memWf := by
  unfold State.hostWrite; try dsimp only
  (repeat' split) <;> simp [mw_foldl]

/-! ### FwOps -/

@[simp] theorem State.dropUpdateIf_mw (s : State) (sel : UpdSrc → Bool) : (State.dropUpdateIf s sel).memWf = s.memWf := by
  unfold State.dropUpdateIf; try dsimp only
  (repeat' split) <;> simp [mw_foldl]

/-! ### Owner -/

@[simp] theorem State.dropSnaps_mw (s : State) (sel : Snap → Bool) : (State.dropSnaps s sel).memWf = s.memWf := by
  unfold State.dropSnaps; try dsimp only
  (repeat' split) <;> simp [mw_foldl]

@[simp] theorem State.sourceFollows_mw (s : State) (p : Port) : (State.sourceFollows s p).memWf = s.memWf := by
  unfold State.sourceFollows; try dsimp only
  (repeat' split) <;> simp [mw_foldl]

@[simp] theorem State.sourceOfOwner_mw (s : State) : (State.sourceOfOwner s).memWf = s.memWf := by
  unfold State.sourceOfOwner; try dsimp only
  (repeat' split) <;> simp [mw_foldl]

@[simp] theorem State.setOwner_mw (s : State) (new : Option (Port × Nat)) : (State.setOwner s new).memWf = s.memWf := by
  unfold State.setOwner; try dsimp only
  (repeat' split) <;> simp [mw_foldl]

@[simp] theorem State.grantClaim_mw (s : State) (e : Entry) : (State.grantClaim s e).memWf = s.memWf := by
  unfold State.grantClaim; try dsimp only
  (repeat' split) <;> simp [mw_foldl]

@[simp] theorem State.releaseOwner_mw (s : State) : (State.releaseOwner s).memWf = s.memWf := by
  unfold State.releaseOwner; try dsimp only
  (repeat' split) <;> simp [mw_foldl]

@[simp] theorem State.abortSession_mw (s : State) (p : Port) (n : Nat) (claims : Bool) : (State.abortSession s p n claims).memWf = s.memWf := by
  unfold State.abortSession; try dsimp only
  (repeat' split) <;> simp [mw_foldl]

@[simp] theorem State.closeSessionWindows_mw (s : State) (p : Port) (n : Nat) : (State.closeSessionWindows s p n).memWf = s.memWf := by
  unfold State.closeSessionWindows; try dsimp only
  (repeat' split) <;> simp [mw_foldl]

@[simp] theorem State.endSession_mw (s : State) (p : Port) (n : Nat) : (State.endSession s p n).memWf = s.memWf := by
  unfold State.endSession; try dsimp only
  (repeat' split) <;> simp [mw_foldl]

@[simp] theorem State.endPort_mw (s : State) (p : Port) : (State.endPort s p).memWf = s.memWf := by
  unfold State.endPort; try dsimp only
  (repeat' split) <;> simp [mw_foldl]

/-! ### Sessions -/

@[simp] theorem State.retire_mw (s : State) (e : Entry) (status : Nat) : (State.retire s e status).memWf = s.memWf := by
  unfold State.retire; try dsimp only
  (repeat' split) <;> simp [mw_foldl]

@[simp] theorem State.helloRefused_mw (s : State) (e : Entry) (st : Nat) : (State.helloRefused s e st).memWf = s.memWf := by
  unfold State.helloRefused; try dsimp only
  (repeat' split) <;> simp [mw_foldl]

@[simp] theorem State.openSession_mw (s : State) (e : Entry) (k : Nat) : (State.openSession s e k).memWf = s.memWf := by
  unfold State.openSession; try dsimp only
  (repeat' split) <;> simp [mw_foldl]

@[simp] theorem State.hello_mw (s : State) (e : Entry) : (State.hello s e).memWf = s.memWf := by
  unfold State.hello; try dsimp only
  (repeat' split) <;> simp [mw_foldl]

@[simp] theorem State.helloCmd_mw (s : State) (e : Entry) : (State.helloCmd s e).memWf = s.memWf := by
  unfold State.helloCmd; try dsimp only
  (repeat' split) <;> simp [mw_foldl]

@[simp] theorem State.bye_mw (s : State) (e : Entry) : (State.bye s e).memWf = s.memWf := by
  unfold State.bye; try dsimp only
  (repeat' split) <;> simp [mw_foldl]

@[simp] theorem State.claim_mw (s : State) (e : Entry) : (State.claim s e).memWf = s.memWf := by
  unfold State.claim; try dsimp only
  (repeat' split) <;> simp [mw_foldl]

@[simp] theorem State.yieldOwner_mw (s : State) (e : Entry) : (State.yieldOwner s e).memWf = s.memWf := by
  unfold State.yieldOwner; try dsimp only
  (repeat' split) <;> simp [mw_foldl]

@[simp] theorem State.sessionStatus_mw (s : State) (e : Entry) : (State.sessionStatus s e).memWf = s.memWf := by
  unfold State.sessionStatus; try dsimp only
  (repeat' split) <;> simp [mw_foldl]

@[simp] theorem State.openWindow_mw (s : State) (e : Entry) : (State.openWindow s e).memWf = s.memWf := by
  unfold State.openWindow; try dsimp only
  (repeat' split) <;> simp [mw_foldl]

@[simp] theorem State.closeWindow_mw (s : State) (e : Entry) : (State.closeWindow s e).memWf = s.memWf := by
  unfold State.closeWindow; try dsimp only
  (repeat' split) <;> simp [mw_foldl]

@[simp] theorem State.allocCmd_mw (s : State) (e : Entry) (hs : s.memWf = true) : (State.allocCmd s e).memWf = true := by
  unfold State.allocCmd; try dsimp only
  (repeat' split) <;> simp +contextual (maxDischargeDepth := 30) [hs]

@[simp] theorem State.freeCmd_mw (s : State) (e : Entry) : (State.freeCmd s e).memWf = s.memWf := by
  unfold State.freeCmd; try dsimp only
  (repeat' split) <;> simp [mw_foldl]

@[simp] theorem State.setMemmode_mw (s : State) (e : Entry) (hs : s.memWf = true) : (s.setMemmode e).memWf = true := by
  unfold State.setMemmode
  split
  · exact (State.complete_mw _ _ _ _).trans hs
  · refine (State.complete_mw _ _ _ _).trans (memOk_mapStk s _ hs (fun k hk => ?_))
    split
    · exact hk
    · exact codeWf_nil

@[simp] theorem State.waitExp_mw (s : State) (e : Entry) : (State.waitExp s e).memWf = s.memWf := by
  unfold State.waitExp; try dsimp only
  (repeat' split) <;> simp [mw_foldl]

/-! ### Jobs -/

@[simp] theorem State.storeMain_mw (s : State) (off size : Nat) (bs : List Byte) (hs : s.memWf = true) : (State.storeMain s off size bs).memWf = true := by
  unfold State.storeMain; try dsimp only
  (repeat' split) <;> simp +contextual (maxDischargeDepth := 30) [hs]

@[simp] theorem State.loadInto_mw (s : State) (e : Entry) (im : JobImage) (off : Nat) (hs : s.memWf = true) :
    (s.loadInto e im off).memWf = true := by
  unfold State.loadInto
  rw [State.jobEvent_mw, State.complete_mw]
  exact State.storeMain_mw _ _ _ _ (State.allocRegion_mw _ _ _ _ _ _ hs)

@[simp] theorem State.loadAt_mw (s : State) (e : Entry) (im : JobImage) (off : Option Nat) (hs : s.memWf = true) :
    (s.loadAt e im off).memWf = true := by
  cases off with
  | none => exact (State.complete_mw s e stNoResource []).trans hs
  | some off => exact State.loadInto_mw s e im off hs

@[simp] theorem State.hostReads_mw (s : State) (e : Entry) (haddr hlen : Nat) : (State.hostReads s e haddr hlen).memWf = s.memWf := by
  unfold State.hostReads; try dsimp only
  (repeat' split) <;> simp [mw_foldl]

@[simp] theorem State.imageReads_mw (s : State) (e : Entry) : (State.imageReads s e).memWf = s.memWf := by
  unfold State.imageReads; try dsimp only
  (repeat' split) <;> simp [mw_foldl]

@[simp] theorem State.loadJob_mw (s : State) (e : Entry) (r : HostRead JobImage) (hs : s.memWf = true) :
    (s.loadJob e r).memWf = true := by
  unfold State.loadJob
  split
  · rw [State.complete_mw]; exact hs
  · extract_lets b t
    have ht : t.memWf = true := (State.imageReads_mw s e).trans hs
    clear_value b t
    split
    · rw [State.complete_mw]; exact ht
    · rw [State.complete_mw]; exact ht
    · exact State.loadAt_mw _ _ _ _ ht

@[simp] theorem State.withdrawSnap_mw (s : State) (j : Nat) : (State.withdrawSnap s j).memWf = s.memWf := by
  unfold State.withdrawSnap; try dsimp only
  (repeat' split) <;> simp [mw_foldl]

@[simp] theorem State.emptySlot_mw (s : State) (j : Nat) : (State.emptySlot s j).memWf = s.memWf := by
  unfold State.emptySlot; try dsimp only
  (repeat' split) <;> simp [mw_foldl]

@[simp] theorem State.unloadJob_mw (s : State) (e : Entry) : (State.unloadJob s e).memWf = s.memWf := by
  unfold State.unloadJob; try dsimp only
  (repeat' split) <;> simp [mw_foldl]

@[simp] theorem State.placeJob_mw (s : State) (j : Nat) (work spare : List Nat) (stuck : Stuck) (hs : s.memWf = true) : (State.placeJob s j work spare stuck).memWf = true := by
  unfold State.placeJob; try dsimp only
  (repeat' split) <;> simp +contextual (maxDischargeDepth := 30) [hs]

@[simp] theorem State.startJob_mw (s : State) (e : Entry) (stuck : Stuck) (hs : s.memWf = true) : (State.startJob s e stuck).memWf = true := by
  unfold State.startJob; try dsimp only
  (repeat' split) <;> simp +contextual (maxDischargeDepth := 30) [hs]

@[simp] theorem State.pauseCmd_mw (s : State) (e : Entry) : (State.pauseCmd s e).memWf = s.memWf := by
  unfold State.pauseCmd; try dsimp only
  (repeat' split) <;> simp [mw_foldl]

@[simp] theorem State.resumeCmd_mw (s : State) (e : Entry) (hs : s.memWf = true) : (State.resumeCmd s e).memWf = true := by
  unfold State.resumeCmd; try dsimp only
  (repeat' split) <;> simp +contextual (maxDischargeDepth := 30) [hs]

@[simp] theorem State.preemptCmd_mw (s : State) (e : Entry) : (State.preemptCmd s e).memWf = s.memWf := by
  unfold State.preemptCmd; try dsimp only
  (repeat' split) <;> simp [mw_foldl]

@[simp] theorem State.snapCore_mw (s : State) (lf : Nat) (c : CoreId) (hs : s.memWf = true) : (s.snapCore lf c).1.memWf = true := by
  unfold State.snapCore
  extract_lets k out kn head
  split
  · exact hs
  · generalize List.range 1024 = l1
    generalize List.range k.words = l2
    have h1 := readRun_mw (fun s i => s.readBlock c (8 * i)) (fun t i ht => State.readBlock_mw t c _ ht) l1 s hs
    exact readRun_mw (fun s i => s.readPad c i) (fun t i ht => State.readPad_mw t c i ht) l2 _ h1

/-- Reads that carry a state and bytes keep the canonical form if each of them does. -/
theorem readBytes_mw {β : Type} (f : State → β → State × List Byte) (hf : ∀ t b, t.memWf = true → (f t b).1.memWf = true) (s : State)
    (l : List β) (hs : s.memWf = true) : (readBytes f s l).1.memWf = true := by
  unfold readBytes
  generalize hr : (s, ([] : List Byte)) = r
  have h : r.1.memWf = true := by rw [← hr]; exact hs
  clear hr
  induction l generalizing r with
  | nil => exact h
  | cons b t ih => exact ih _ (hf _ b h)

@[simp] theorem State.snapField_mw (s : State) (lf f : Nat) (hs : s.memWf = true) : (s.snapField lf f).1.memWf = true := by
  unfold State.snapField
  generalize List.range 12288 = l
  exact readBytes_mw _ (fun t _ ht => State.snapCore_mw t lf _ ht) s l hs

@[simp] theorem State.snapLogical_mw (q : Job) (s : State) (lf : Nat) (hs : s.memWf = true) : (State.snapLogical q s lf).1.memWf = true := by
  unfold State.snapLogical
  exact State.snapField_mw s lf _ hs

@[simp] theorem State.snapBody_mw (s : State) (j mask : Nat) (hs : s.memWf = true) : (s.snapBody j mask).1.memWf = true := by
  unfold State.snapBody
  exact readBytes_mw (State.snapLogical (s.job j)) (State.snapLogical_mw (s.job j)) s _ hs

@[simp] theorem State.snapshotOf_mw (s : State) (j mask killTick expires : Nat) (hs : s.memWf = true) :
    (s.snapshotOf j mask killTick expires).1.memWf = true := by
  unfold State.snapshotOf
  exact State.snapBody_mw s j mask hs

@[simp] theorem State.takeSnap_mw (s : State) (j killTick : Nat) (hs : s.memWf = true) : (s.takeSnap j killTick).memWf = true := by
  unfold State.takeSnap
  split
  · exact State.snapshotOf_mw s _ _ _ _ hs
  · exact hs

@[simp] theorem State.killStop_mw (s : State) (j : Nat) : (State.killStop s j).memWf = s.memWf := by
  unfold State.killStop; try dsimp only
  (repeat' split) <;> simp [mw_foldl]

@[simp] theorem State.killEnd_mw (s : State) (e : Entry) (killTick : Nat) (stuck : Stuck) (hs : s.memWf = true) : (State.killEnd s e killTick stuck).memWf = true := by
  unfold State.killEnd; try dsimp only
  (repeat' split) <;> simp +contextual (maxDischargeDepth := 30) [hs]

@[simp] theorem State.killCmd_mw (s : State) (e : Entry) (stuck : Stuck) (hs : s.memWf = true) : (State.killCmd s e stuck).memWf = true := by
  unfold State.killCmd; try dsimp only
  (repeat' split) <;> simp +contextual (maxDischargeDepth := 30) [hs]

@[simp] theorem State.loadOverlay_mw (s : State) (e : Entry) (r : HostRead Overlay) : (State.loadOverlay s e r).memWf = s.memWf := by
  unfold State.loadOverlay; try dsimp only
  (repeat' split) <;> simp [mw_foldl]

@[simp] theorem State.applyMode_mw (s : State) (e : Entry) : (State.applyMode s e).memWf = s.memWf := by
  unfold State.applyMode; try dsimp only
  (repeat' split) <;> simp [mw_foldl]

@[simp] theorem State.commitCmd_mw (s : State) (e : Entry) : (State.commitCmd s e).memWf = s.memWf := by
  unfold State.commitCmd; try dsimp only
  (repeat' split) <;> simp [mw_foldl]

@[simp] theorem State.jobStatus_mw (s : State) (e : Entry) : (State.jobStatus s e).memWf = s.memWf := by
  unfold State.jobStatus; try dsimp only
  (repeat' split) <;> simp [mw_foldl]

@[simp] theorem State.jobInput_mw (s : State) (e : Entry) (hs : s.memWf = true) : (State.jobInput s e).memWf = true := by
  unfold State.jobInput; try dsimp only
  (repeat' split) <;> simp +contextual (maxDischargeDepth := 30) [hs]

@[simp] theorem State.setProofing_mw (s : State) (e : Entry) : (State.setProofing s e).memWf = s.memWf := by
  unfold State.setProofing; try dsimp only
  (repeat' split) <;> simp [mw_foldl]

@[simp] theorem State.readOverrun_mw (s : State) (e : Entry) : (State.readOverrun s e).memWf = s.memWf := by
  unfold State.readOverrun; try dsimp only
  (repeat' split) <;> simp [mw_foldl]

@[simp] theorem State.setDebugHold_mw (s : State) (e : Entry) : (State.setDebugHold s e).memWf = s.memWf := by
  unfold State.setDebugHold; try dsimp only
  (repeat' split) <;> simp [mw_foldl]

@[simp] theorem State.askSnapshot_mw (s : State) (e : Entry) : (State.askSnapshot s e).memWf = s.memWf := by
  unfold State.askSnapshot; try dsimp only
  (repeat' split) <;> simp [mw_foldl]

@[simp] theorem State.readSnapshot_mw (s : State) (e : Entry) : (State.readSnapshot s e).memWf = s.memWf := by
  unfold State.readSnapshot; try dsimp only
  (repeat' split) <;> simp [mw_foldl]

end Sys2Proof.Machine
end

