-- ==== Sys2Proof/Laws/WfModule.lean ====
section
/-! SUPPORT. The canonical form of the memories under clocks, power, resets, the management side and the sequencers:
one lemma per operation, each by unfolding it and citing the lemmas of what it calls. -/

namespace Sys2Proof.Machine

set_option linter.unusedSimpArgs false
set_option linter.unusedTactic false
set_option linter.unreachableTactic false
set_option linter.unnecessarySeqFocus false
set_option linter.unusedVariables false

/-! ### Clocks -/

@[simp] theorem State.switchClock_mw (s : State) (f : Nat) : (State.switchClock s f).memWf = s.memWf := by
  unfold State.switchClock; try dsimp only
  (repeat' split) <;> simp [mw_foldl]

@[simp] theorem State.setClockOne_mw (s : State) (code f : Nat) : (State.setClockOne s code f).memWf = s.memWf := by
  unfold State.setClockOne; try dsimp only
  (repeat' split) <;> simp [mw_foldl]

@[simp] theorem State.setClock_mw (s : State) (e : Entry) : (State.setClock s e).memWf = s.memWf := by
  unfold State.setClock; try dsimp only
  (repeat' split) <;> simp [mw_foldl]

@[simp] theorem State.refSettle_mw (s : State) (p : Port) : (State.refSettle s p).memWf = s.memWf := by
  unfold State.refSettle; try dsimp only
  (repeat' split) <;> simp [mw_foldl]

@[simp] theorem State.stopTime_mw (s : State) (hs : s.memWf = true) : s.stopTime.memWf = true :=
  memOk_mapStk s _ hs (fun _ hk => hk)

@[simp] theorem State.peerEvent_mw (s : State) (p : Port) : (State.peerEvent s p).memWf = s.memWf := by
  unfold State.peerEvent; try dsimp only
  (repeat' split) <;> simp [mw_foldl]

@[simp] theorem State.loseLink_mw (s : State) (p : Port) : (State.loseLink s p).memWf = s.memWf := by
  unfold State.loseLink; try dsimp only
  (repeat' split) <;> simp [mw_foldl]

@[simp] theorem State.refLost_mw (s : State) (p : Port) (hs : s.memWf = true) : (State.refLost s p).memWf = true := by
  unfold State.refLost; try dsimp only
  (repeat' split) <;> simp +contextual (maxDischargeDepth := 30) [hs]

@[simp] theorem State.resumeTime_mw (s : State) (hs : s.memWf = true) : s.resumeTime.memWf = true :=
  memOk_mapStk s _ hs (fun k hk => by split <;> exact hk)

@[simp] theorem State.clockRecovery_mw (s : State) (hs : s.memWf = true) : (State.clockRecovery s).memWf = true := by
  unfold State.clockRecovery; try dsimp only
  (repeat' split) <;> simp +contextual (maxDischargeDepth := 30) [hs]

@[simp] theorem State.lockControl_mw (s : State) : (State.lockControl s).memWf = s.memWf := by
  unfold State.lockControl; try dsimp only
  (repeat' split) <;> simp [mw_foldl]

@[simp] theorem State.clockLock_mw (s : State) (d : ClockDomain) (hs : s.memWf = true) : (State.clockLock s d).memWf = true := by
  unfold State.clockLock; try dsimp only
  (repeat' split) <;> simp +contextual (maxDischargeDepth := 30) [hs]

@[simp] theorem State.standbyTrim_mw (s : State) (eth : Bool) : (State.standbyTrim s eth).memWf = s.memWf := by
  unfold State.standbyTrim; try dsimp only
  (repeat' split) <;> simp [mw_foldl]

/-! ### Selftest -/

@[simp] theorem State.testRecord_mw (s : State) (f : Nat) (t : TestFail) : (State.testRecord s f t).memWf = s.memWf := by
  unfold State.testRecord; try dsimp only
  (repeat' split) <;> simp [mw_foldl]

@[simp] theorem State.testFailed_mw (s : State) (f : Nat) (t : TestFail) : (State.testFailed s f t).memWf = s.memWf := by
  unfold State.testFailed; try dsimp only
  (repeat' split) <;> simp [mw_foldl]

@[simp] theorem State.testGroup_mw (s : State) (f h : Nat) (fails : List TestFail) : (State.testGroup s f h fails).memWf = s.memWf := by
  unfold State.testGroup; try dsimp only
  (repeat' split) <;> simp [mw_foldl]

@[simp] theorem State.testField_mw (s : State) (f : Nat) (fails : List TestFail) : (State.testField s f fails).memWf = s.memWf := by
  unfold State.testField; try dsimp only
  (repeat' split) <;> simp [mw_foldl]

@[simp] theorem State.runTest_mw (s : State) (e : Entry) (fails : List TestFail) : (State.runTest s e fails).memWf = s.memWf := by
  unfold State.runTest; try dsimp only
  (repeat' split) <;> simp [mw_foldl]

@[simp] theorem State.endTestHold_mw (s : State) (j : Nat) : (State.endTestHold s j).memWf = s.memWf := by
  unfold State.endTestHold; try dsimp only
  (repeat' split) <;> simp [mw_foldl]

@[simp] theorem State.testDueAt_mw (s : State) (f h : Nat) (fails : List TestFail) : (State.testDueAt s f h fails).memWf = s.memWf := by
  unfold State.testDueAt; try dsimp only
  (repeat' split) <;> simp [mw_foldl]

@[simp] theorem State.testExpiry_mw (s : State) (f h : Nat) : (State.testExpiry s f h).memWf = s.memWf := by
  unfold State.testExpiry; try dsimp only
  (repeat' split) <;> simp [mw_foldl]

@[simp] theorem State.dropField_mw (s : State) (f : Nat) (hs : s.memWf = true) : (s.dropField f).memWf = true := by
  rw [State.memWf_iff] at hs ⊢
  unfold State.dropField
  exact ⟨KMap.rising_delIf s.cores (fun k => coreField (coreOfKey k) == some f) hs.1,
    fun e he => hs.2.1 e (List.mem_filter.mp he).1, hs.2.2⟩

@[simp] theorem State.resetRoutes_mw (s : State) (f : Nat) : (State.resetRoutes s f).memWf = s.memWf := by
  unfold State.resetRoutes; try dsimp only
  (repeat' split) <;> simp [mw_foldl]

@[simp] theorem State.fieldReset_mw (s : State) (f : Nat) (stuck : Stuck) (fails : List TestFail) (hs : s.memWf = true) : (State.fieldReset s f stuck fails).memWf = true := by
  unfold State.fieldReset; try dsimp only
  (repeat' split) <;> simp +contextual (maxDischargeDepth := 30) [hs]

@[simp] theorem State.sweepOne_mw (s : State) (f : Nat) (c : CoreId) : (State.sweepOne s f c).memWf = s.memWf := by
  unfold State.sweepOne; try dsimp only
  (repeat' split) <;> simp [mw_foldl]

@[simp] theorem State.sweepLink_mw (s : State) (f : Nat) (c : CoreId) : (State.sweepLink s f c).memWf = s.memWf := by
  unfold State.sweepLink; try dsimp only
  (repeat' split) <;> simp [mw_foldl]

@[simp] theorem State.sweepField_mw (s : State) (f : Nat) : (State.sweepField s f).memWf = s.memWf := by
  unfold State.sweepField; try dsimp only
  (repeat' split) <;> simp [mw_foldl]

/-! ### Power -/

@[simp] theorem State.supplyWarning_mw (s : State) (mv : Nat) : (State.supplyWarning s mv).memWf = s.memWf := by
  unfold State.supplyWarning; try dsimp only
  (repeat' split) <;> simp [mw_foldl]

@[simp] theorem State.syncFlash_mw (s : State) : (State.syncFlash s).memWf = s.memWf := by
  unfold State.syncFlash; try dsimp only
  (repeat' split) <;> simp [mw_foldl]

@[simp] theorem State.supplyClear_mw (s : State) (mv : Nat) : (State.supplyClear s mv).memWf = s.memWf := by
  unfold State.supplyClear; try dsimp only
  (repeat' split) <;> simp [mw_foldl]

@[simp] theorem State.powerPause_mw (s : State) (j : Nat) (hs : s.memWf = true) : (State.powerPause s j).memWf = true := by
  unfold State.powerPause; try dsimp only
  (repeat' split) <;> simp +contextual (maxDischargeDepth := 30) [hs]

@[simp] theorem State.openSwitch_mw (s : State) (f cause : Nat) (hs : s.memWf = true) : (State.openSwitch s f cause).memWf = true := by
  unfold State.openSwitch; try dsimp only
  (repeat' split) <;> simp +contextual (maxDischargeDepth := 30) [hs]

@[simp] theorem State.railFault_mw (s : State) (f cause : Nat) (hs : s.memWf = true) : (State.railFault s f cause).memWf = true := by
  unfold State.railFault; try dsimp only
  (repeat' split) <;> simp +contextual (maxDischargeDepth := 30) [hs]

@[simp] theorem State.fieldLostNow_mw (s : State) (f : Nat) (hs : s.memWf = true) : (State.fieldLostNow s f).memWf = true := by
  unfold State.fieldLostNow; try dsimp only
  (repeat' split) <;> simp +contextual (maxDischargeDepth := 30) [hs]

@[simp] theorem State.parkField_mw (s : State) (f : Nat) : (State.parkField s f).memWf = s.memWf := by
  unfold State.parkField; try dsimp only
  (repeat' split) <;> simp [mw_foldl]

@[simp] theorem State.fieldOff_mw (s : State) (f : Nat) (hs : s.memWf = true) : (State.fieldOff s f).memWf = true := by
  unfold State.fieldOff; try dsimp only
  (repeat' split) <;> simp +contextual (maxDischargeDepth := 30) [hs]

@[simp] theorem State.startClock_mw (s : State) (f : Nat) : (State.startClock s f).memWf = s.memWf := by
  unfold State.startClock; try dsimp only
  (repeat' split) <;> simp [mw_foldl]

@[simp] theorem State.fieldOn_mw (s : State) (f : Nat) (stuck : Stuck) (hs : s.memWf = true) : (State.fieldOn s f stuck).memWf = true := by
  unfold State.fieldOn; try dsimp only
  (repeat' split) <;> simp +contextual (maxDischargeDepth := 30) [hs]

@[simp] theorem State.setPowerOne_mw (s : State) (v : Nat) (stuck : Stuck) (f : Nat) (hs : s.memWf = true) : (State.setPowerOne s v stuck f).memWf = true := by
  unfold State.setPowerOne; try dsimp only
  (repeat' split) <;> simp +contextual (maxDischargeDepth := 30) [hs]

@[simp] theorem State.setFieldPower_mw (s : State) (e : Entry) (stuck : Stuck) (hs : s.memWf = true) : (State.setFieldPower s e stuck).memWf = true := by
  unfold State.setFieldPower; try dsimp only
  (repeat' split) <;> simp +contextual (maxDischargeDepth := 30) [hs]

@[simp] theorem State.tempSample_mw (s : State) (f : Nat) (temps : List Int) : (State.tempSample s f temps).memWf = s.memWf := by
  unfold State.tempSample; try dsimp only
  (repeat' split) <;> simp [mw_foldl]

@[simp] theorem State.throttleStep_mw (s : State) (f : Nat) : (State.throttleStep s f).memWf = s.memWf := by
  unfold State.throttleStep; try dsimp only
  (repeat' split) <;> simp [mw_foldl]

@[simp] theorem State.thermalRestart_mw (s : State) (f : Nat) (stuck : Stuck) (hs : s.memWf = true) : (State.thermalRestart s f stuck).memWf = true := by
  unfold State.thermalRestart; try dsimp only
  (repeat' split) <;> simp +contextual (maxDischargeDepth := 30) [hs]

@[simp] theorem State.coolantRecord_mw (s : State) : (State.coolantRecord s).memWf = s.memWf := by
  unfold State.coolantRecord; try dsimp only
  (repeat' split) <;> simp [mw_foldl]

@[simp] theorem State.coolantChange_mw (s : State) (flow : Bool) : (State.coolantChange s flow).memWf = s.memWf := by
  unfold State.coolantChange; try dsimp only
  (repeat' split) <;> simp [mw_foldl]

@[simp] theorem State.takeDraws_mw (s : State) (draws : List (Nat × Nat × Nat)) (hs : s.memWf = true) : (State.takeDraws s draws).memWf = true := by
  unfold State.takeDraws; try dsimp only
  (repeat' split) <;> simp +contextual (maxDischargeDepth := 30) [hs]

@[simp] theorem State.powerShare_mw (s : State) (fixed : Nat) (draws : List (Nat × Nat × Nat)) (hs : s.memWf = true) : (State.powerShare s fixed draws).memWf = true := by
  unfold State.powerShare; try dsimp only
  (repeat' split) <;> simp +contextual (maxDischargeDepth := 30) [hs]

@[simp] theorem State.powerStep_mw (s : State) (f : Nat) : (State.powerStep s f).memWf = s.memWf := by
  unfold State.powerStep; try dsimp only
  (repeat' split) <;> simp [mw_foldl]

/-! ### Reset -/

@[simp] theorem State.wiped_mw (s : State) (cold : Bool) (hs : s.memWf = true) : (s.wiped cold).memWf = true := by
  unfold State.wiped
  extract_lets m
  rw [State.memWf_mk]
  refine Bool.and_eq_true_iff.mpr ⟨rfl, List.all_eq_true.mpr fun k hk => ?_⟩
  simp only [Vector.toList_map, List.mem_map] at hk
  obtain ⟨k', hk', rfl⟩ := hk
  cases cold with
  | true => rfl
  | false => exact ((State.memWf_iff s).1 hs).2.2 k' hk'

@[simp] theorem State.unpowered_mw (s : State) (v : Supply) (hs : s.memWf = true) : (State.unpowered s v).memWf = true := by
  unfold State.unpowered; try dsimp only
  (repeat' split) <;> simp +contextual (maxDischargeDepth := 30) [hs]

@[simp] theorem State.coldOn_mw (s : State) (a b : Straps) (hs : s.memWf = true) : (State.coldOn s a b).memWf = true := by
  unfold State.coldOn; try dsimp only
  (repeat' split) <;> simp +contextual (maxDischargeDepth := 30) [hs]

@[simp] theorem State.presentMate_mw (s : State) : (State.presentMate s).memWf = s.memWf := by
  unfold State.presentMate; try dsimp only
  (repeat' split) <;> simp [mw_foldl]

@[simp] theorem State.presentBreak_mw (s : State) (hs : s.memWf = true) : (State.presentBreak s).memWf = true := by
  unfold State.presentBreak; try dsimp only
  (repeat' split) <;> simp +contextual (maxDischargeDepth := 30) [hs]

@[simp] theorem State.supplyReset_mw (s : State) (mv : Nat) (hs : s.memWf = true) : (State.supplyReset s mv).memWf = true := by
  unfold State.supplyReset; try dsimp only
  (repeat' split) <;> simp +contextual (maxDischargeDepth := 30) [hs]

@[simp] theorem State.supplyReturn_mw (s : State) (mv : Nat) : (State.supplyReturn s mv).memWf = s.memWf := by
  unfold State.supplyReturn; try dsimp only
  (repeat' split) <;> simp [mw_foldl]

@[simp] theorem State.standbyLoss_mw (s : State) (hs : s.memWf = true) : (State.standbyLoss s).memWf = true := by
  unfold State.standbyLoss; try dsimp only
  (repeat' split) <;> simp +contextual (maxDischargeDepth := 30) [hs]

@[simp] theorem State.bootCps_mw (s : State) (dead : List Port) : (State.bootCps s dead).memWf = s.memWf := by
  unfold State.bootCps; try dsimp only
  (repeat' split) <;> simp [mw_foldl]

@[simp] theorem State.startField_mw (s : State) (stuck : Stuck) (fails : List (Nat × TestFail)) (f : Nat) (hs : s.memWf = true) : (State.startField s stuck fails f).memWf = true := by
  unfold State.startField; try dsimp only
  (repeat' split) <;> simp +contextual (maxDischargeDepth := 30) [hs]

@[simp] theorem State.startStacks_mw (s : State) (hs : s.memWf = true) : s.startStacks.memWf = true :=
  memOk_mapStk s _ hs (fun k hk => by split <;> exact hk)

@[simp] theorem State.openPorts_mw (s : State) (dead : List Port) : (State.openPorts s dead).memWf = s.memWf := by
  unfold State.openPorts; try dsimp only
  (repeat' split) <;> simp [mw_foldl]

@[simp] theorem State.startEnd_mw (s : State) (stuck : Stuck) (fails : List (Nat × TestFail)) (dead : List Port) (hs : s.memWf = true) : (State.startEnd s stuck fails dead).memWf = true := by
  unfold State.startEnd; try dsimp only
  (repeat' split) <;> simp +contextual (maxDischargeDepth := 30) [hs]

@[simp] theorem State.warmReset_mw (s : State) (hs : s.memWf = true) : (State.warmReset s).memWf = true := by
  unfold State.warmReset; try dsimp only
  (repeat' split) <;> simp +contextual (maxDischargeDepth := 30) [hs]

@[simp] theorem State.endGrace_mw (s : State) (p : Port) : (State.endGrace s p).memWf = s.memWf := by
  unfold State.endGrace; try dsimp only
  (repeat' split) <;> simp [mw_foldl]

@[simp] theorem State.resetPort_mw (s : State) (p : Port) (flr : Bool) : (State.resetPort s p flr).memWf = s.memWf := by
  unfold State.resetPort; try dsimp only
  (repeat' split) <;> simp [mw_foldl]

@[simp] theorem State.trainLink_mw (s : State) (p : Port) (rate width : Nat) : (State.trainLink s p rate width).memWf = s.memWf := by
  unfold State.trainLink; try dsimp only
  (repeat' split) <;> simp [mw_foldl]

@[simp] theorem State.returnLink_mw (s : State) (p : Port) : (State.returnLink s p).memWf = s.memWf := by
  unfold State.returnLink; try dsimp only
  (repeat' split) <;> simp [mw_foldl]

@[simp] theorem State.graceEnds_mw (s : State) (p : Port) : (State.graceEnds s p).memWf = s.memWf := by
  unfold State.graceEnds; try dsimp only
  (repeat' split) <;> simp [mw_foldl]

@[simp] theorem State.prefEnds_mw (s : State) : (State.prefEnds s).memWf = s.memWf := by
  unfold State.prefEnds; try dsimp only
  (repeat' split) <;> simp [mw_foldl]

/-! ### Reliability -/

@[simp] theorem State.stackWriteIn_mw (s : State) (p : Packet) (hs : s.memWf = true) : (State.stackWriteIn s p).memWf = true := by
  unfold State.stackWriteIn; try dsimp only
  (repeat' split) <;> simp +contextual (maxDischargeDepth := 30) [hs]

@[simp] theorem State.stackReadIn_mw (s : State) (p : Packet) (hs : s.memWf = true) : (s.stackReadIn p).memWf = true := by
  unfold State.stackReadIn
  extract_lets n m e one
  split
  · simp [hs]
  · generalize List.range p.len = l
    have h : (readRun s one l).1.memWf = true := by
      refine readRun_mw one (fun t i ht => ?_) l s hs
      show (match t.stackWordAt p i with
        | none => (t, none)
        | some w => ((t.stackFetch n w).1, some (t.stackFetch n w).2)).1.memWf = true
      split <;> simp [ht]
    generalize readRun s one l = r at h ⊢
    simp [h]

@[simp] theorem State.atStack_mw (s : State) (k ty : Nat) (f : State → Packet → State)
    (hf : ∀ t p, t.memWf = true → (f t p).memWf = true) (hs : s.memWf = true) : (s.atStack k ty f).memWf = true := by
  unfold State.atStack
  split
  · exact hs
  · split
    · exact State.arrive_mw s k _ _ f hf hs
    · exact hs

@[simp] theorem State.takeBack_mw (s : State) (n : Nat) (hs : s.memWf = true) : (State.takeBack s n).memWf = true := by
  unfold State.takeBack; try dsimp only
  (repeat' split) <;> simp +contextual (maxDischargeDepth := 30) [hs]

@[simp] theorem State.stackReturn_mw (s : State) (n : Nat) (hs : s.memWf = true) : (State.stackReturn s n).memWf = true := by
  unfold State.stackReturn; try dsimp only
  (repeat' split) <;> simp +contextual (maxDischargeDepth := 30) [hs]

@[simp] theorem State.rebuildOne_mw (s : State) (n w : Nat) (hs : s.memWf = true) : (State.rebuildOne s n w).memWf = true := by
  unfold State.rebuildOne; try dsimp only
  (repeat' split) <;> simp +contextual (maxDischargeDepth := 30) [hs]

@[simp] theorem State.rebuildUnits_mw (s : State) (n u : Nat) (upTo : Nat → Bool) (hs : s.memWf = true) :
    (s.rebuildUnits n u upTo).memWf = true := by
  unfold State.rebuildUnits
  exact memWf_foldl _ _ _ hs (fun t w ht => by simp [ht])

@[simp] theorem State.rebuildOn_mw (s : State) (n : Nat) (hs : s.memWf = true) : (State.rebuildOn s n).memWf = true := by
  unfold State.rebuildOn; try dsimp only
  (repeat' split) <;> simp +contextual (maxDischargeDepth := 30) [hs]

@[simp] theorem State.rebuildDone_mw (s : State) (n : Nat) (hs : s.memWf = true) : (State.rebuildDone s n).memWf = true := by
  unfold State.rebuildDone; try dsimp only
  (repeat' split) <;> simp +contextual (maxDischargeDepth := 30) [hs]

@[simp] theorem State.readErrors_mw (s : State) (e : Entry) : (State.readErrors s e).memWf = s.memWf := by
  unfold State.readErrors; try dsimp only
  (repeat' split) <;> simp [mw_foldl]

@[simp] theorem State.setPolicy_mw (s : State) (e : Entry) : (State.setPolicy s e).memWf = s.memWf := by
  unfold State.setPolicy; try dsimp only
  (repeat' split) <;> simp [mw_foldl]

/-! ### Firmware -/

@[simp] theorem State.fwStep_mw (s : State) (e : Entry) (r : FwState × Nat) : (State.fwStep s e r).memWf = s.memWf := by
  unfold State.fwStep; try dsimp only
  (repeat' split) <;> simp [mw_foldl]

@[simp] theorem State.fwEnd_mw (s : State) (e : Entry) : (State.fwEnd s e).memWf = s.memWf := by
  unfold State.fwEnd; try dsimp only
  (repeat' split) <;> simp [mw_foldl]

@[simp] theorem State.restartMcs_mw (s : State) : (State.restartMcs s).memWf = s.memWf := by
  unfold State.restartMcs; try dsimp only
  (repeat' split) <;> simp [mw_foldl]

@[simp] theorem State.activate_mw (s : State) (arg : Nat) (entry : Option Nat) : (State.activate s arg entry).1.memWf = s.memWf := by
  unfold State.activate; try dsimp only
  (repeat' split) <;> simp [mw_foldl]

@[simp] theorem State.fwActivate_mw (s : State) (e : Entry) : (s.fwActivate e).memWf = s.memWf := by
  unfold State.fwActivate
  have h := State.activate_mw s (e.p 0 1) (some e.id)
  generalize s.activate (e.p 0 1) (some e.id) = r at h ⊢
  split
  · rw [State.complete_mw]; exact h
  · rw [State.wait_mw]; exact h

@[simp] theorem State.switchBanks_mw (s : State) (hs : s.memWf = true) : s.switchBanks.memWf = true :=
  memOk_mapStk s _ hs (fun _ hk => hk)

@[simp] theorem State.endActivation_mw (s : State) (u : Update) (st : Nat) : (State.endActivation s u st).memWf = s.memWf := by
  unfold State.endActivation; try dsimp only
  (repeat' split) <;> simp [mw_foldl]

@[simp] theorem State.moveRole_mw (s : State) (p : Port) : (State.moveRole s p).memWf = s.memWf := by
  unfold State.moveRole; try dsimp only
  (repeat' split) <;> simp [mw_foldl]

@[simp] theorem State.handover_mw (s : State) (hs : s.memWf = true) : (State.handover s).memWf = true := by
  unfold State.handover; try dsimp only
  (repeat' split) <;> simp +contextual (maxDischargeDepth := 30) [hs]

@[simp] theorem State.passModule_mw (s : State) : (State.passModule s).memWf = s.memWf := by
  unfold State.passModule; try dsimp only
  (repeat' split) <;> simp [mw_foldl]

@[simp] theorem State.trialPass_mw (s : State) (t : TrialOf) : (State.trialPass s t).memWf = s.memWf := by
  unfold State.trialPass; try dsimp only
  (repeat' split) <;> simp [mw_foldl]

@[simp] theorem State.updTakeover_mw (s : State) : (State.updTakeover s).memWf = s.memWf := by
  unfold State.updTakeover; try dsimp only
  (repeat' split) <;> simp [mw_foldl]

@[simp] theorem State.takeover_mw (s : State) : (State.takeover s).memWf = s.memWf := by
  unfold State.takeover; try dsimp only
  (repeat' split) <;> simp [mw_foldl]

@[simp] theorem State.svcReply_mw (s : State) (cmd seq st : Nat) (pay : List Byte) : (State.svcReply s cmd seq st pay).memWf = s.memWf := by
  unfold State.svcReply; try dsimp only
  (repeat' split) <;> simp [mw_foldl]

@[simp] theorem State.spdmCmd_mw (s : State) (e : Entry) : (State.spdmCmd s e).memWf = s.memWf := by
  unfold State.spdmCmd; try dsimp only
  (repeat' split) <;> simp [mw_foldl]

/-! ### Manage -/

@[simp] theorem State.mgmtSend_mw (s : State) (m : Mgmt) (b : List Byte) : (State.mgmtSend s m b).memWf = s.memWf := by
  unfold State.mgmtSend; try dsimp only
  (repeat' split) <;> simp [mw_foldl]

@[simp] theorem State.vendor_mw (s : State) (m : Mgmt) (cmd st : Nat) (pay : List Byte) : (State.vendor s m cmd st pay).memWf = s.memWf := by
  unfold State.vendor; try dsimp only
  (repeat' split) <;> simp [mw_foldl]

@[simp] theorem State.vendorSet_mw (s : State) (m : Mgmt) (cmd : Nat) (ok : Bool) (f : MgmtState → MgmtState) : (State.vendorSet s m cmd ok f).memWf = s.memWf := by
  unfold State.vendorSet; try dsimp only
  (repeat' split) <;> simp [mw_foldl]

@[simp] theorem State.getHealth_mw (s : State) (m : Mgmt) : (State.getHealth s m).memWf = s.memWf := by
  unfold State.getHealth; try dsimp only
  (repeat' split) <;> simp [mw_foldl]

@[simp] theorem State.getRecords_mw (s : State) (m : Mgmt) (n : Nat) : (State.getRecords s m n).memWf = s.memWf := by
  unfold State.getRecords; try dsimp only
  (repeat' split) <;> simp [mw_foldl]

@[simp] theorem State.setEid_mw (s : State) (m : Mgmt) (eid : Nat) : (State.setEid s m eid).memWf = s.memWf := by
  unfold State.setEid; try dsimp only
  (repeat' split) <;> simp [mw_foldl]

@[simp] theorem State.setReceiver_mw (s : State) (m : Mgmt) (recv : Nat) : (State.setReceiver s m recv).memWf = s.memWf := by
  unfold State.setReceiver; try dsimp only
  (repeat' split) <;> simp [mw_foldl]

@[simp] theorem State.sensorPoll_mw (s : State) (vals : List (Nat × Int)) : (State.sensorPoll s vals).memWf = s.memWf := by
  unfold State.sensorPoll; try dsimp only
  (repeat' split) <;> simp [mw_foldl]

@[simp] theorem State.recordDelivery_mw (s : State) (p : Port) (acked : Bool) : (State.recordDelivery s p acked).memWf = s.memWf := by
  unfold State.recordDelivery; try dsimp only
  (repeat' split) <;> simp [mw_foldl]

@[simp] theorem State.pldm_mw (s : State) (m : Mgmt) (st : Nat) : (State.pldm s m st).memWf = s.memWf := by
  unfold State.pldm; try dsimp only
  (repeat' split) <;> simp [mw_foldl]

@[simp] theorem State.pldmUpdate_mw (s : State) (m : Mgmt) (u : PldmReq) : (State.pldmUpdate s m u).memWf = s.memWf := by
  unfold State.pldmUpdate; try dsimp only
  (repeat' split) <;> simp [mw_foldl]

@[simp] theorem State.pldmActivate_mw (s : State) (m : Mgmt) (self_ : Bool) (hs : s.memWf = true) : (s.pldmActivate m self_).memWf = true := by
  unfold State.pldmActivate
  have h := State.activate_mw s (b2n self_) none
  generalize s.activate (b2n self_) none = r at h ⊢
  split
  · exact hs
  · split
    · simp [hs]
    · split
      · simp [hs]
      · split
        · rw [State.pldm_mw]; exact h.trans hs
        · exact h.trans hs

@[simp] theorem State.pldmCancel_mw (s : State) (m : Mgmt) : (State.pldmCancel s m).memWf = s.memWf := by
  unfold State.pldmCancel; try dsimp only
  (repeat' split) <;> simp [mw_foldl]

/-! ### SeqOps -/

/-- A change of a core that leaves its scratchpad alone, done as an instruction ends. -/
theorem State.finish_same (s : State) (c : CoreId) (i : Inst128) (f : CoreState → CoreState) (hf : ∀ d, (f d).mem = d.mem)
    (hs : s.memWf = true) : (s.finish c i f).memWf = true :=
  State.finish_mw s c i f (fun d hd => (congrArg codeWf (hf d)).trans hd) hs

theorem nopBody_keeps : BodyKeeps nopBody := by
  intro s c i hs
  unfold nopBody
  exact State.finish_same s c i _ (fun d => by simp) hs

@[simp] theorem CoreState.setAddr_mem (c : CoreState) (r : Nat) (str : Bool) (v : BitVec 13) : (CoreState.setAddr c r str v).mem = c.mem := by
  unfold CoreState.setAddr
  split <;> simp

theorem mxSetaBody_keeps : BodyKeeps mxSetaBody := by
  intro s c i hs
  unfold mxSetaBody
  exact State.finish_same s c i _ (fun d => by simp) hs

theorem vxSetaBody_keeps : BodyKeeps vxSetaBody := by
  intro s c i hs
  unfold vxSetaBody
  exact State.finish_same s c i _ (fun d => by simp) hs

theorem vxSetuBody_keeps : BodyKeeps vxSetuBody := by
  intro s c i hs
  unfold vxSetuBody
  exact State.finish_same s c i _ (fun d => by simp) hs

@[simp] theorem CoreState.setSc_mem (c : CoreState) (r : Nat) (v : BitVec 32) : (CoreState.setSc c r v).mem = c.mem := rfl

theorem mxSetscBody_keeps : BodyKeeps mxSetscBody := by
  intro s c i hs
  unfold mxSetscBody
  extract_lets r x w
  split
  · have h := (congrArg codeWf (CoreState.fetchWords_mem Kind.mx x [w] x.pc.toNat 0)).trans (State.memWf_core s c hs)
    generalize CoreState.fetchWords Kind.mx x [w] x.pc.toNat 0 = y at h ⊢
    obtain ⟨y, b⟩ := y
    cases b with
    | false => exact State.memWf_setCore s c y hs h
    | true => exact State.finish_same _ c i _ (fun d => by simp) (State.memWf_setCore s c y hs h)
  · exact State.finish_same s c i _ (fun d => by simp) hs

theorem loopBody_keeps (lvl count len : Nat) (adv : BitVec 8) : BodyKeeps (loopBody lvl count len adv) := by
  intro s c i hs
  unfold loopBody
  split
  · exact State.finish_same s c i _ (fun d => by simp) hs
  · simp [hs]

theorem mxLoopBody_keeps : BodyKeeps mxLoopBody := fun s c i hs => loopBody_keeps _ _ _ _ s c i hs

theorem vxLoopBody_keeps : BodyKeeps vxLoopBody := fun s c i hs => loopBody_keeps _ _ _ _ s c i hs

theorem qwaitBody_keeps (q n : Nat) : BodyKeeps (qwaitBody q n) := by
  intro s c i hs
  unfold qwaitBody
  extract_lets x
  split
  · simp [x, hs]
  · split
    · exact State.finish_same s c i _ (fun d => by simp) hs
    · simp [hs]

theorem qrelBody_keeps (q n : Nat) : BodyKeeps (qrelBody q n) := by
  intro s c i hs
  unfold qrelBody
  extract_lets x
  split
  · simp [hs]
  · split
    · simp [x, hs]
    · split
      · simp [hs]
      · exact State.finish_same _ c i _ (fun d => by simp) (State.release_mw s c q n hs)

theorem haltBody_keeps : BodyKeeps haltBody := by
  intro s c i hs
  unfold haltBody
  exact State.finish_same s c i _ (fun d => by simp) hs

theorem mxQwaitBody_keeps : BodyKeeps mxQwaitBody := fun s c i hs => qwaitBody_keeps _ _ s c i hs

theorem mxQrelBody_keeps : BodyKeeps mxQrelBody := fun s c i hs => qrelBody_keeps _ _ s c i hs

theorem vxQwaitBody_keeps : BodyKeeps vxQwaitBody := fun s c i hs => qwaitBody_keeps _ _ s c i hs

theorem vxQrelBody_keeps : BodyKeeps vxQrelBody := fun s c i hs => qrelBody_keeps _ _ s c i hs

theorem engineBody_keeps : BodyKeeps engineBody := fun s c i hs => State.enqueue_mw s c i hs

theorem bodyOf_keeps (k : Kind) (opc : Nat) : BodyKeeps (bodyOf k opc) := by
  unfold bodyOf
  split
  · exact nopBody_keeps
  · split; exacts [mxSetaBody_keeps, vxSetaBody_keeps]
  · split; exacts [mxSetscBody_keeps, vxSetuBody_keeps]
  · split; exacts [mxLoopBody_keeps, vxLoopBody_keeps]
  · split; exacts [mxQwaitBody_keeps, vxQwaitBody_keeps]
  · split; exacts [mxQrelBody_keeps, vxQrelBody_keeps]
  · exact haltBody_keeps
  · exact engineBody_keeps

/-! ### Sync -/

@[simp] theorem State.takeSeq_mw (s : State) (c : CoreId) (hs : s.memWf = true) : (s.takeSeq c).memWf = true := by
  unfold State.takeSeq
  dsimp only
  have h1 : (s.countStall c true false).memWf = true := by simp [hs]
  generalize s.countStall c true false = t at h1 ⊢
  split
  · split
    · exact bodyOf_keeps _ _ _ _ _ (by simp [h1])
    · exact hs
  · exact hs

@[simp] theorem State.takeEngine_mw (s : State) (c : CoreId) (e : Nat) (hs : s.memWf = true) : (State.takeEngine s c e).memWf = true := by
  unfold State.takeEngine; try dsimp only
  (repeat' split) <;> simp +contextual (maxDischargeDepth := 30) [hs]

@[simp] theorem State.takeThread_mw (s : State) (c : CoreId) (t : Nat) (hs : s.memWf = true) : (State.takeThread s c t).memWf = true := by
  unfold State.takeThread; try dsimp only
  (repeat' split) <;> simp +contextual (maxDischargeDepth := 30) [hs]

@[simp] theorem State.semTake_mw (s : State) (c : CoreId) (e : Nat) (hs : s.memWf = true) : (State.semTake s c e).memWf = true := by
  unfold State.semTake; try dsimp only
  (repeat' split) <;> simp +contextual (maxDischargeDepth := 30) [hs]

@[simp] theorem CoreState.completed_mem (k : Kind) (x : CoreState) (e n : Nat) (cmd : Cmd)  (hx : codeWf x.mem = true) : codeWf (CoreState.completed k x e n cmd).mem = true := by
  unfold CoreState.completed; try dsimp only
  (repeat' split) <;> simp +contextual (maxDischargeDepth := 30) [hx]

@[simp] theorem State.cmdComplete_mw (s : State) (c : CoreId) (e n : Nat) (hs : s.memWf = true) : (State.cmdComplete s c e n).memWf = true := by
  unfold State.cmdComplete; try dsimp only
  (repeat' split) <;> simp +contextual (maxDischargeDepth := 30) [hs]

@[simp] theorem CoreState.raiseDeadlock_mem (k : Kind) (x : CoreState) : (CoreState.raiseDeadlock k x).mem = x.mem := by
  unfold CoreState.raiseDeadlock; try dsimp only
  (repeat' split) <;> simp [mem_foldl]

@[simp] theorem State.queueWaitEnd_mw (s : State) (c : CoreId) (e : Nat) (hs : s.memWf = true) : (s.queueWaitEnd c e).memWf = true := by
  unfold State.queueWaitEnd
  dsimp only
  split
  · exact hs
  · split
    · split
      · exact State.memWf_modCore s c _ hs (CoreState.qwaitEnd_mem _ e (State.memWf_core s c hs))
      · exact hs
    · split
      · split
        · exact State.finish_same s c _ _ (fun d => by simp) hs
        · exact hs
      · exact hs

@[simp] theorem State.queueRoom_mw (s : State) (c : CoreId) (e : Nat) (hs : s.memWf = true) : (State.queueRoom s c e).memWf = true := by
  unfold State.queueRoom; try dsimp only
  (repeat' split) <;> simp +contextual (maxDischargeDepth := 30) [hs]

/-! ### Tick -/

@[simp] theorem State.advance_mw (s : State) (hs : s.memWf = true) : s.advance.memWf = true :=
  memOk_mapStk s _ hs (fun _ hk => hk)

@[simp] theorem State.tickJob_mw (s : State) (j : Nat) (hs : s.memWf = true) : (State.tickJob s j).memWf = true := by
  unfold State.tickJob; try dsimp only
  (repeat' split) <;> simp +contextual (maxDischargeDepth := 30) [hs]

@[simp] theorem State.tick_mw (s : State) (hs : s.memWf = true) : (State.tick s).memWf = true := by
  unfold State.tick; try dsimp only
  (repeat' split) <;> simp +contextual (maxDischargeDepth := 30) [hs]

end Sys2Proof.Machine
end

