-- ==== Sys2Proof/Laws/WfExec.lean ====
section
/-! SUPPORT. The canonical form of the memories under each command: if the meaning answers a next state, that state's memories are in the
canonical form. -/

namespace Sys2Proof.Machine

set_option linter.unusedSimpArgs false
set_option linter.unusedTactic false
set_option linter.unreachableTactic false
set_option linter.unnecessarySeqFocus false
set_option linter.unusedVariables false

/-- An answer keeps the canonical form. -/
def OutKeeps (o : Out) : Prop := ∀ t, o = .next t → t.memWf = true

theorem outKeeps_next {s : State} (h : s.memWf = true) : OutKeeps (.next s) := by
  intro t e
  cases e
  exact h

@[simp] theorem State.inboxParts_mw (s : State) (p : Port) (n off : Nat) (bs : List Byte) (hs : s.memWf = true) :
    (s.inboxParts p n off bs).memWf = true := by
  induction n generalizing s off bs with
  | zero => exact hs
  | succ n ih =>
    unfold State.inboxParts
    split
    · exact hs
    · exact ih _ _ _ (by simp [hs])

theorem State.retryRelease_mw (s : State) (c : CoreId) (k : Kind) (d : State) (hs : s.memWf = true) (hd : d.memWf = true) :
    ((s.retryRelease c k).getD d).memWf = true := by
  unfold State.retryRelease
  extract_lets x
  generalize (coreKind c == k && s.coreRuns c && x.run && _) = b
  cases b with
  | true => exact bodyOf_keeps k 0x14 s c _ hs
  | false => exact hd

theorem execMxnop_keeps (c : CoreId) (s : State) (hk : s.memWf = true) : OutKeeps (execMxnop c s) := by
  unfold execMxnop
  exact outKeeps_next (State.issue_mw s c _ _ _ nopBody_keeps hk)

theorem execMxlds_keeps (c : CoreId) (s : State) (hk : s.memWf = true) : OutKeeps (execMxlds c s) := by
  unfold execMxlds
  exact outKeeps_next (State.issue_mw s c _ _ _ engineBody_keeps hk)

theorem execMxmma_keeps (c : CoreId) (s : State) (hk : s.memWf = true) : OutKeeps (execMxmma c s) := by
  unfold execMxmma
  exact outKeeps_next (State.issue_mw s c _ _ _ engineBody_keeps hk)

theorem execMxcvt_keeps (c : CoreId) (s : State) (hk : s.memWf = true) : OutKeeps (execMxcvt c s) := by
  unfold execMxcvt
  exact outKeeps_next (State.issue_mw s c _ _ _ engineBody_keeps hk)

theorem execMxldacc_keeps (c : CoreId) (s : State) (hk : s.memWf = true) : OutKeeps (execMxldacc c s) := by
  unfold execMxldacc
  exact outKeeps_next (State.issue_mw s c _ _ _ engineBody_keeps hk)

theorem execMxclracc_keeps (c : CoreId) (s : State) (hk : s.memWf = true) : OutKeeps (execMxclracc c s) := by
  unfold execMxclracc
  exact outKeeps_next (State.issue_mw s c _ _ _ engineBody_keeps hk)

theorem execMxmove_keeps (c : CoreId) (s : State) (hk : s.memWf = true) : OutKeeps (execMxmove c s) := by
  unfold execMxmove
  exact outKeeps_next (State.issue_mw s c _ _ _ engineBody_keeps hk)

theorem execMxseta_keeps (c : CoreId) (s : State) (hk : s.memWf = true) : OutKeeps (execMxseta c s) := by
  unfold execMxseta
  exact outKeeps_next (State.issue_mw s c _ _ _ mxSetaBody_keeps hk)

theorem execMxsetsc_keeps (c : CoreId) (s : State) (hk : s.memWf = true) : OutKeeps (execMxsetsc c s) := by
  unfold execMxsetsc
  exact outKeeps_next (State.issue_mw s c _ _ _ mxSetscBody_keeps hk)

theorem execMxloop_keeps (c : CoreId) (s : State) (hk : s.memWf = true) : OutKeeps (execMxloop c s) := by
  unfold execMxloop
  exact outKeeps_next (State.issue_mw s c _ _ _ mxLoopBody_keeps hk)

theorem execMxqwait_keeps (c : CoreId) (s : State) (hk : s.memWf = true) : OutKeeps (execMxqwait c s) := by
  unfold execMxqwait
  exact outKeeps_next (State.issue_mw s c _ _ _ mxQwaitBody_keeps hk)

theorem execMxqrel_keeps (c : CoreId) (s : State) (hk : s.memWf = true) : OutKeeps (execMxqrel c s) := by
  unfold execMxqrel
  exact outKeeps_next (State.retryRelease_mw s c _ _ hk (State.issue_mw s c _ _ _ mxQrelBody_keeps hk))

theorem execMxhalt_keeps (c : CoreId) (s : State) (hk : s.memWf = true) : OutKeeps (execMxhalt c s) := by
  unfold execMxhalt
  exact outKeeps_next (State.issue_mw s c _ _ _ haltBody_keeps hk)

theorem execVnop_keeps (c : CoreId) (s : State) (hk : s.memWf = true) : OutKeeps (execVnop c s) := by
  unfold execVnop
  exact outKeeps_next (State.issue_mw s c _ _ _ nopBody_keeps hk)

theorem execVmove_keeps (c : CoreId) (s : State) (hk : s.memWf = true) : OutKeeps (execVmove c s) := by
  unfold execVmove
  exact outKeeps_next (State.issue_mw s c _ _ _ engineBody_keeps hk)

theorem execVseta_keeps (c : CoreId) (s : State) (hk : s.memWf = true) : OutKeeps (execVseta c s) := by
  unfold execVseta
  exact outKeeps_next (State.issue_mw s c _ _ _ vxSetaBody_keeps hk)

theorem execVsetu_keeps (c : CoreId) (s : State) (hk : s.memWf = true) : OutKeeps (execVsetu c s) := by
  unfold execVsetu
  exact outKeeps_next (State.issue_mw s c _ _ _ vxSetuBody_keeps hk)

theorem execVloop_keeps (c : CoreId) (s : State) (hk : s.memWf = true) : OutKeeps (execVloop c s) := by
  unfold execVloop
  exact outKeeps_next (State.issue_mw s c _ _ _ vxLoopBody_keeps hk)

theorem execVqwait_keeps (c : CoreId) (s : State) (hk : s.memWf = true) : OutKeeps (execVqwait c s) := by
  unfold execVqwait
  exact outKeeps_next (State.issue_mw s c _ _ _ vxQwaitBody_keeps hk)

theorem execVqrel_keeps (c : CoreId) (s : State) (hk : s.memWf = true) : OutKeeps (execVqrel c s) := by
  unfold execVqrel
  exact outKeeps_next (State.retryRelease_mw s c _ _ hk (State.issue_mw s c _ _ _ vxQrelBody_keeps hk))

theorem execVhalt_keeps (c : CoreId) (s : State) (hk : s.memWf = true) : OutKeeps (execVhalt c s) := by
  unfold execVhalt
  exact outKeeps_next (State.issue_mw s c _ _ _ haltBody_keeps hk)

theorem execVld_keeps (c : CoreId) (s : State) (hk : s.memWf = true) : OutKeeps (execVld c s) := by
  unfold execVld
  exact outKeeps_next (State.issue_mw s c _ _ _ engineBody_keeps hk)

theorem execVst_keeps (c : CoreId) (s : State) (hk : s.memWf = true) : OutKeeps (execVst c s) := by
  unfold execVst
  exact outKeeps_next (State.issue_mw s c _ _ _ engineBody_keeps hk)

theorem execVop_keeps (c : CoreId) (s : State) (hk : s.memWf = true) : OutKeeps (execVop c s) := by
  unfold execVop
  exact outKeeps_next (State.issue_mw s c _ _ _ engineBody_keeps hk)

theorem execVfma_keeps (c : CoreId) (s : State) (hk : s.memWf = true) : OutKeeps (execVfma c s) := by
  unfold execVfma
  exact outKeeps_next (State.issue_mw s c _ _ _ engineBody_keeps hk)

theorem execVcmp_keeps (c : CoreId) (s : State) (hk : s.memWf = true) : OutKeeps (execVcmp c s) := by
  unfold execVcmp
  exact outKeeps_next (State.issue_mw s c _ _ _ engineBody_keeps hk)

theorem execVsel_keeps (c : CoreId) (s : State) (hk : s.memWf = true) : OutKeeps (execVsel c s) := by
  unfold execVsel
  exact outKeeps_next (State.issue_mw s c _ _ _ engineBody_keeps hk)

theorem execVred_keeps (c : CoreId) (s : State) (hk : s.memWf = true) : OutKeeps (execVred c s) := by
  unfold execVred
  exact outKeeps_next (State.issue_mw s c _ _ _ engineBody_keeps hk)

theorem execVtr_keeps (c : CoreId) (s : State) (hk : s.memWf = true) : OutKeeps (execVtr c s) := by
  unfold execVtr
  exact outKeeps_next (State.issue_mw s c _ _ _ engineBody_keeps hk)

theorem execVcvt_keeps (c : CoreId) (s : State) (hk : s.memWf = true) : OutKeeps (execVcvt c s) := by
  unfold execVcvt
  exact outKeeps_next (State.issue_mw s c _ _ _ engineBody_keeps hk)

theorem execVcvtx_keeps (c : CoreId) (s : State) (hk : s.memWf = true) : OutKeeps (execVcvtx c s) := by
  unfold execVcvtx
  exact outKeeps_next (State.issue_mw s c _ _ _ engineBody_keeps hk)

theorem execVkey_keeps (c : CoreId) (s : State) (hk : s.memWf = true) : OutKeeps (execVkey c s) := by
  unfold execVkey
  exact outKeeps_next (State.issue_mw s c _ _ _ engineBody_keeps hk)

theorem execViota_keeps (c : CoreId) (s : State) (hk : s.memWf = true) : OutKeeps (execViota c s) := by
  unfold execViota
  exact outKeeps_next (State.issue_mw s c _ _ _ engineBody_keeps hk)

theorem execSvcfg_keeps (c : CoreId) (s : State) (hk : s.memWf = true) : OutKeeps (execSvcfg c s) := by
  unfold execSvcfg
  exact outKeeps_next (State.issue_mw s c _ _ _ engineBody_keeps hk)

theorem execSvclr_keeps (c : CoreId) (s : State) (hk : s.memWf = true) : OutKeeps (execSvclr c s) := by
  unfold execSvclr
  exact outKeeps_next (State.issue_mw s c _ _ _ engineBody_keeps hk)

theorem execSvins_keeps (c : CoreId) (s : State) (hk : s.memWf = true) : OutKeeps (execSvins c s) := by
  unfold execSvins
  exact outKeeps_next (State.issue_mw s c _ _ _ engineBody_keeps hk)

theorem execSvinsw_keeps (c : CoreId) (s : State) (hk : s.memWf = true) : OutKeeps (execSvinsw c s) := by
  unfold execSvinsw
  exact outKeeps_next (State.issue_mw s c _ _ _ engineBody_keeps hk)

theorem execAlu_keeps (c : CoreId) (t : Fin 4) (s : State) (hk : s.memWf = true) : OutKeeps (execAlu c t s) := by
  unfold execAlu
  exact outKeeps_next (State.sxIssueOp_mw s c t _ _ (by apply aluBody_keeps) hk)

theorem execAddi_keeps (c : CoreId) (t : Fin 4) (s : State) (hk : s.memWf = true) : OutKeeps (execAddi c t s) := by
  unfold execAddi
  exact outKeeps_next (State.sxIssueOp_mw s c t _ _ (by apply immBody_keeps) hk)

theorem execAndi_keeps (c : CoreId) (t : Fin 4) (s : State) (hk : s.memWf = true) : OutKeeps (execAndi c t s) := by
  unfold execAndi
  exact outKeeps_next (State.sxIssueOp_mw s c t _ _ (by apply immBody_keeps) hk)

theorem execOri_keeps (c : CoreId) (t : Fin 4) (s : State) (hk : s.memWf = true) : OutKeeps (execOri c t s) := by
  unfold execOri
  exact outKeeps_next (State.sxIssueOp_mw s c t _ _ (by apply immBody_keeps) hk)

theorem execXori_keeps (c : CoreId) (t : Fin 4) (s : State) (hk : s.memWf = true) : OutKeeps (execXori c t s) := by
  unfold execXori
  exact outKeeps_next (State.sxIssueOp_mw s c t _ _ (by apply immBody_keeps) hk)

theorem execSlti_keeps (c : CoreId) (t : Fin 4) (s : State) (hk : s.memWf = true) : OutKeeps (execSlti c t s) := by
  unfold execSlti
  exact outKeeps_next (State.sxIssueOp_mw s c t _ _ (by apply immBody_keeps) hk)

theorem execSltiu_keeps (c : CoreId) (t : Fin 4) (s : State) (hk : s.memWf = true) : OutKeeps (execSltiu c t s) := by
  unfold execSltiu
  exact outKeeps_next (State.sxIssueOp_mw s c t _ _ (by apply immBody_keeps) hk)

theorem execShi_keeps (c : CoreId) (t : Fin 4) (s : State) (hk : s.memWf = true) : OutKeeps (execShi c t s) := by
  unfold execShi
  exact outKeeps_next (State.sxIssueOp_mw s c t _ _ (by apply shiBody_keeps) hk)

theorem execLui_keeps (c : CoreId) (t : Fin 4) (s : State) (hk : s.memWf = true) : OutKeeps (execLui c t s) := by
  unfold execLui
  exact outKeeps_next (State.sxIssueOp_mw s c t _ _ (by apply luiBody_keeps) hk)

theorem execLb_keeps (c : CoreId) (t : Fin 4) (s : State) (hk : s.memWf = true) : OutKeeps (execLb c t s) := by
  unfold execLb
  exact outKeeps_next (State.sxIssueOp_mw s c t _ _ (by apply loadBody_keeps) hk)

theorem execLbu_keeps (c : CoreId) (t : Fin 4) (s : State) (hk : s.memWf = true) : OutKeeps (execLbu c t s) := by
  unfold execLbu
  exact outKeeps_next (State.sxIssueOp_mw s c t _ _ (by apply loadBody_keeps) hk)

theorem execLh_keeps (c : CoreId) (t : Fin 4) (s : State) (hk : s.memWf = true) : OutKeeps (execLh c t s) := by
  unfold execLh
  exact outKeeps_next (State.sxIssueOp_mw s c t _ _ (by apply loadBody_keeps) hk)

theorem execLhu_keeps (c : CoreId) (t : Fin 4) (s : State) (hk : s.memWf = true) : OutKeeps (execLhu c t s) := by
  unfold execLhu
  exact outKeeps_next (State.sxIssueOp_mw s c t _ _ (by apply loadBody_keeps) hk)

theorem execLw_keeps (c : CoreId) (t : Fin 4) (s : State) (hk : s.memWf = true) : OutKeeps (execLw c t s) := by
  unfold execLw
  exact outKeeps_next (State.sxIssueOp_mw s c t _ _ (by apply loadBody_keeps) hk)

theorem execLd_keeps (c : CoreId) (t : Fin 4) (s : State) (hk : s.memWf = true) : OutKeeps (execLd c t s) := by
  unfold execLd
  exact outKeeps_next (State.sxIssueOp_mw s c t _ _ (by apply ldBody_keeps) hk)

theorem execLx_keeps (c : CoreId) (t : Fin 4) (s : State) (hk : s.memWf = true) : OutKeeps (execLx c t s) := by
  unfold execLx
  exact outKeeps_next (State.sxIssueOp_mw s c t _ _ (by apply lxBody_keeps) hk)

theorem execSb_keeps (c : CoreId) (t : Fin 4) (s : State) (hk : s.memWf = true) : OutKeeps (execSb c t s) := by
  unfold execSb
  exact outKeeps_next (State.sxIssueOp_mw s c t _ _ (by apply storeBody_keeps) hk)

theorem execSh_keeps (c : CoreId) (t : Fin 4) (s : State) (hk : s.memWf = true) : OutKeeps (execSh c t s) := by
  unfold execSh
  exact outKeeps_next (State.sxIssueOp_mw s c t _ _ (by apply storeBody_keeps) hk)

theorem execSw_keeps (c : CoreId) (t : Fin 4) (s : State) (hk : s.memWf = true) : OutKeeps (execSw c t s) := by
  unfold execSw
  exact outKeeps_next (State.sxIssueOp_mw s c t _ _ (by apply storeBody_keeps) hk)

theorem execSd_keeps (c : CoreId) (t : Fin 4) (s : State) (hk : s.memWf = true) : OutKeeps (execSd c t s) := by
  unfold execSd
  exact outKeeps_next (State.sxIssueOp_mw s c t _ _ (by apply sdBody_keeps) hk)

theorem execBeq_keeps (c : CoreId) (t : Fin 4) (s : State) (hk : s.memWf = true) : OutKeeps (execBeq c t s) := by
  unfold execBeq
  exact outKeeps_next (State.sxIssueOp_mw s c t _ _ (by apply branchBody_keeps) hk)

theorem execBne_keeps (c : CoreId) (t : Fin 4) (s : State) (hk : s.memWf = true) : OutKeeps (execBne c t s) := by
  unfold execBne
  exact outKeeps_next (State.sxIssueOp_mw s c t _ _ (by apply branchBody_keeps) hk)

theorem execBlt_keeps (c : CoreId) (t : Fin 4) (s : State) (hk : s.memWf = true) : OutKeeps (execBlt c t s) := by
  unfold execBlt
  exact outKeeps_next (State.sxIssueOp_mw s c t _ _ (by apply branchBody_keeps) hk)

theorem execBge_keeps (c : CoreId) (t : Fin 4) (s : State) (hk : s.memWf = true) : OutKeeps (execBge c t s) := by
  unfold execBge
  exact outKeeps_next (State.sxIssueOp_mw s c t _ _ (by apply branchBody_keeps) hk)

theorem execBltu_keeps (c : CoreId) (t : Fin 4) (s : State) (hk : s.memWf = true) : OutKeeps (execBltu c t s) := by
  unfold execBltu
  exact outKeeps_next (State.sxIssueOp_mw s c t _ _ (by apply branchBody_keeps) hk)

theorem execBgeu_keeps (c : CoreId) (t : Fin 4) (s : State) (hk : s.memWf = true) : OutKeeps (execBgeu c t s) := by
  unfold execBgeu
  exact outKeeps_next (State.sxIssueOp_mw s c t _ _ (by apply branchBody_keeps) hk)

theorem execJal_keeps (c : CoreId) (t : Fin 4) (s : State) (hk : s.memWf = true) : OutKeeps (execJal c t s) := by
  unfold execJal
  exact outKeeps_next (State.sxIssueOp_mw s c t _ _ (by apply jalBody_keeps) hk)

theorem execJalr_keeps (c : CoreId) (t : Fin 4) (s : State) (hk : s.memWf = true) : OutKeeps (execJalr c t s) := by
  unfold execJalr
  exact outKeeps_next (State.sxIssueOp_mw s c t _ _ (by apply jalrBody_keeps) hk)

theorem execSemw_keeps (c : CoreId) (t : Fin 4) (s : State) (hk : s.memWf = true) : OutKeeps (execSemw c t s) := by
  unfold execSemw
  exact outKeeps_next (State.sxIssueOp_mw s c t _ _ (by apply semwBody_keeps) hk)

theorem execSems_keeps (c : CoreId) (t : Fin 4) (s : State) (hk : s.memWf = true) : OutKeeps (execSems c t s) := by
  unfold execSems
  exact outKeeps_next (State.sxIssueOp_mw s c t _ _ (by apply semsBody_keeps) hk)

theorem execSxQwait_keeps (c : CoreId) (t : Fin 4) (s : State) (hk : s.memWf = true) : OutKeeps (execSxQwait c t s) := by
  unfold execSxQwait
  exact outKeeps_next (State.sxIssueOp_mw s c t _ _ (by apply qwaitSx_keeps) hk)

theorem execSxQrel_keeps (c : CoreId) (t : Fin 4) (s : State) (hk : s.memWf = true) : OutKeeps (execSxQrel c t s) := by
  unfold execSxQrel
  exact outKeeps_next (State.sxIssueOp_mw s c t _ _ (by apply qrelSx_keeps) hk)

theorem execSteer_keeps (c : CoreId) (t : Fin 4) (s : State) (hk : s.memWf = true) : OutKeeps (execSteer c t s) := by
  unfold execSteer
  exact outKeeps_next (State.sxIssueOp_mw s c t _ _ (by apply steerBody_keeps) hk)

theorem execSend_keeps (c : CoreId) (t : Fin 4) (s : State) (hk : s.memWf = true) : OutKeeps (execSend c t s) := by
  unfold execSend
  exact outKeeps_next (State.sxIssueOp_mw s c t _ _ (by apply sendBody_keeps) hk)

theorem execMove_keeps (c : CoreId) (t : Fin 4) (s : State) (hk : s.memWf = true) : OutKeeps (execMove c t s) := by
  unfold execMove
  exact outKeeps_next (State.sxIssueOp_mw s c t _ _ (by apply moveBody_keeps) hk)

theorem execMvsync_keeps (c : CoreId) (t : Fin 4) (s : State) (hk : s.memWf = true) : OutKeeps (execMvsync c t s) := by
  unfold execMvsync
  exact outKeeps_next (State.sxIssueOp_mw s c t _ _ (by apply mvsyncBody_keeps) hk)

theorem execCsrr_keeps (c : CoreId) (t : Fin 4) (s : State) (hk : s.memWf = true) : OutKeeps (execCsrr c t s) := by
  unfold execCsrr
  exact outKeeps_next (State.sxIssueOp_mw s c t _ _ (by apply csrrBody_keeps) hk)

theorem execTstart_keeps (c : CoreId) (t : Fin 4) (s : State) (hk : s.memWf = true) : OutKeeps (execTstart c t s) := by
  unfold execTstart
  exact outKeeps_next (State.sxIssueOp_mw s c t _ _ (by apply tstartBody_keeps) hk)

theorem execThalt_keeps (c : CoreId) (t : Fin 4) (s : State) (hk : s.memWf = true) : OutKeeps (execThalt c t s) := by
  unfold execThalt
  exact outKeeps_next (State.sxIssueOp_mw s c t _ _ (by apply thaltBody_keeps) hk)

theorem execSemaphoreTake_keeps (c : CoreId) (e : Nat) (s : State) (hk : s.memWf = true) : OutKeeps (execSemaphoreTake c e s) := by
  unfold execSemaphoreTake
  refine outKeeps_next ?_
  (repeat' split) <;> simp +contextual (maxDischargeDepth := 30) [hk]

theorem execCommandComplete_keeps (c : CoreId) (e k : Nat) (s : State) (hk : s.memWf = true) : OutKeeps (execCommandComplete c e k s) := by
  unfold execCommandComplete
  refine outKeeps_next ?_
  (repeat' split) <;> simp +contextual (maxDischargeDepth := 30) [hk]

theorem execSemDeadlock_keeps (c : CoreId) (s : State) (hk : s.memWf = true) : OutKeeps (execSemDeadlock c s) := by
  unfold execSemDeadlock
  refine outKeeps_next ?_
  (repeat' split) <;> simp +contextual (maxDischargeDepth := 30) [hk]

theorem execQueueWaitEnd_keeps (c : CoreId) (e : Nat) (s : State) (hk : s.memWf = true) : OutKeeps (execQueueWaitEnd c e s) := by
  unfold execQueueWaitEnd
  refine outKeeps_next ?_
  (repeat' split) <;> simp +contextual (maxDischargeDepth := 30) [hk]

theorem execSequencerQueueRoom_keeps (c : CoreId) (e : Nat) (s : State) (hk : s.memWf = true) : OutKeeps (execSequencerQueueRoom c e s) := by
  unfold execSequencerQueueRoom
  refine outKeeps_next ?_
  (repeat' split) <;> simp +contextual (maxDischargeDepth := 30) [hk]

theorem execCoreError_keeps (c : CoreId) (s : State) (hk : s.memWf = true) : OutKeeps (execCoreError c s) := by
  unfold execCoreError
  refine outKeeps_next ?_
  (repeat' split) <;> simp +contextual (maxDischargeDepth := 30) [hk]

theorem execInboundCommit_keeps (c : CoreId) (s : State) (hk : s.memWf = true) : OutKeeps (execInboundCommit c s) := by
  unfold execInboundCommit
  refine outKeeps_next ?_
  (repeat' split) <;> simp +contextual (maxDischargeDepth := 30) [hk]

theorem execCorrectionRewrite_keeps (c : CoreId) (bank : Nat) (s : State) (hk : s.memWf = true) : OutKeeps (execCorrectionRewrite c bank s) := by
  unfold execCorrectionRewrite
  refine outKeeps_next ?_
  (repeat' split) <;> simp +contextual (maxDischargeDepth := 30) [hk]

theorem execPatrolScrub_keeps (c : CoreId) (s : State) (hk : s.memWf = true) : OutKeeps (execPatrolScrub c s) := by
  unfold execPatrolScrub
  refine outKeeps_next ?_
  (repeat' split) <;> simp +contextual (maxDischargeDepth := 30) [hk]

theorem execWash_keeps (c : CoreId) (stuck : List (Nat × Code)) (s : State) (hk : s.memWf = true) : OutKeeps (execWash c stuck s) := by
  unfold execWash
  refine outKeeps_next ?_
  (repeat' split) <;> simp +contextual (maxDischargeDepth := 30) [hk]

theorem execCoreReset_keeps (c : CoreId) (s : State) (hk : s.memWf = true) : OutKeeps (execCoreReset c s) := by
  unfold execCoreReset
  refine outKeeps_next ?_
  (repeat' split) <;> simp +contextual (maxDischargeDepth := 30) [hk]

theorem execWriteArrival_keeps (k : Nat) (s : State) (hk : s.memWf = true) : OutKeeps (execWriteArrival k s) := by
  unfold execWriteArrival
  refine outKeeps_next ?_
  (repeat' split) <;> simp +contextual (maxDischargeDepth := 30) [hk]

theorem execQsendArrival_keeps (k : Nat) (s : State) (hk : s.memWf = true) : OutKeeps (execQsendArrival k s) := by
  unfold execQsendArrival
  refine outKeeps_next ?_
  (repeat' split) <;> simp +contextual (maxDischargeDepth := 30) [hk]

theorem execCreditArrival_keeps (k : Nat) (s : State) (hk : s.memWf = true) : OutKeeps (execCreditArrival k s) := by
  unfold execCreditArrival
  refine outKeeps_next ?_
  (repeat' split) <;> simp +contextual (maxDischargeDepth := 30) [hk]

theorem execReadArrival_keeps (k : Nat) (s : State) (hk : s.memWf = true) : OutKeeps (execReadArrival k s) := by
  unfold execReadArrival
  refine outKeeps_next ?_
  (repeat' split) <;> simp +contextual (maxDischargeDepth := 30) [hk]

theorem execRdataArrival_keeps (k : Nat) (s : State) (hk : s.memWf = true) : OutKeeps (execRdataArrival k s) := by
  unfold execRdataArrival
  refine outKeeps_next ?_
  (repeat' split) <;> simp +contextual (maxDischargeDepth := 30) [hk]

theorem execNakReceive_keeps (k : Nat) (s : State) (hk : s.memWf = true) : OutKeeps (execNakReceive k s) := by
  unfold execNakReceive
  refine outKeeps_next (State.arrive_mw s k _ _ _ (fun t p ht => ?_) hk)
  split <;> simp [ht]

theorem execPotCombine_keeps (c : CoreId) (s : State) (hk : s.memWf = true) : OutKeeps (execPotCombine c s) := by
  unfold execPotCombine
  refine outKeeps_next ?_
  (repeat' split) <;> simp +contextual (maxDischargeDepth := 30) [hk]

theorem execPotIdentityWrite_keeps (c : CoreId) (q : Nat) (s : State) (hk : s.memWf = true) : OutKeeps (execPotIdentityWrite c q s) := by
  unfold execPotIdentityWrite
  refine outKeeps_next ?_
  (repeat' split) <;> simp +contextual (maxDischargeDepth := 30) [hk]

theorem execNetrd1Write_keeps (c : CoreId) (v : Word) (s : State) (hk : s.memWf = true) : OutKeeps (execNetrd1Write c v s) := by
  unfold execNetrd1Write
  refine outKeeps_next ?_
  (repeat' split) <;> simp +contextual (maxDischargeDepth := 30) [hk]

theorem execHubReadCombine_keeps (k hx hy : Nat) (s : State) (hk : s.memWf = true) : OutKeeps (execHubReadCombine k hx hy s) := by
  unfold execHubReadCombine
  refine outKeeps_next ?_
  (repeat' split) <;> simp +contextual (maxDischargeDepth := 30) [hk]

theorem execLinkDown_keeps (l : LinkId) (s : State) (hk : s.memWf = true) : OutKeeps (execLinkDown l s) := by
  unfold execLinkDown
  refine outKeeps_next ?_
  (repeat' split) <;> simp +contextual (maxDischargeDepth := 30) [hk]

theorem execRouteArm_keeps (f : Nat) (tabs : List Tables) (s : State) (hk : s.memWf = true) : OutKeeps (execRouteArm f tabs s) := by
  unfold execRouteArm
  refine outKeeps_next ?_
  (repeat' split) <;> simp +contextual (maxDischargeDepth := 30) [hk]

theorem execRouteSwap_keeps (f : Nat) (s : State) (hk : s.memWf = true) : OutKeeps (execRouteSwap f s) := by
  unfold execRouteSwap
  refine outKeeps_next ?_
  (repeat' split) <;> simp +contextual (maxDischargeDepth := 30) [hk]

theorem execXpdone_keeps (c : CoreId) (eng : Nat) (s : State) (hk : s.memWf = true) : OutKeeps (execXpdone c eng s) := by
  unfold execXpdone
  refine outKeeps_next ?_
  (repeat' split) <;> simp +contextual (maxDischargeDepth := 30) [hk]

theorem execXpdoneDeferred_keeps (c : CoreId) (s : State) (hk : s.memWf = true) : OutKeeps (execXpdoneDeferred c s) := by
  unfold execXpdoneDeferred
  refine outKeeps_next ?_
  (repeat' split) <;> simp +contextual (maxDischargeDepth := 30) [hk]

theorem execDevelopPoint_keeps (j : Nat) (stuck : Stuck) (s : State) (hk : s.memWf = true) : OutKeeps (execDevelopPoint j stuck s) := by
  unfold execDevelopPoint
  refine outKeeps_next ?_
  (repeat' split) <;> simp +contextual (maxDischargeDepth := 30) [hk]

theorem execOverrun_keeps (j : Nat) (s : State) (hk : s.memWf = true) : OutKeeps (execOverrun j s) := by
  unfold execOverrun
  refine outKeeps_next ?_
  (repeat' split) <;> simp +contextual (maxDischargeDepth := 30) [hk]

theorem execSafelightDrainEnd_keeps (j : Nat) (s : State) (hk : s.memWf = true) : OutKeeps (execSafelightDrainEnd j s) := by
  unfold execSafelightDrainEnd
  refine outKeeps_next ?_
  (repeat' split) <;> simp +contextual (maxDischargeDepth := 30) [hk]

theorem execSafelightStart_keeps (j : Nat) (s : State) (hk : s.memWf = true) : OutKeeps (execSafelightStart j s) := by
  unfold execSafelightStart
  refine outKeeps_next ?_
  (repeat' split) <;> simp +contextual (maxDischargeDepth := 30) [hk]

theorem execRollBack_keeps (j : Nat) (stuck : Stuck) (s : State) (hk : s.memWf = true) : OutKeeps (execRollBack j stuck s) := by
  unfold execRollBack
  exact outKeeps_next (State.rollBack_mw s j stuck hk)

theorem execRollbackRestart_keeps (j : Nat) (s : State) (hk : s.memWf = true) : OutKeeps (execRollbackRestart j s) := by
  unfold execRollbackRestart
  refine outKeeps_next ?_
  (repeat' split) <;> simp +contextual (maxDischargeDepth := 30) [hk]

theorem execFaultReport_keeps (f : Nat) (s : State) (hk : s.memWf = true) : OutKeeps (execFaultReport f s) := by
  unfold execFaultReport
  refine outKeeps_next ?_
  (repeat' split) <;> simp +contextual (maxDischargeDepth := 30) [hk]

theorem execTickCompare_keeps (h : TickCopy) (s : State) (hk : s.memWf = true) : OutKeeps (execTickCompare h s) := by
  unfold execTickCompare
  refine outKeeps_next ?_
  (repeat' split) <;> simp +contextual (maxDischargeDepth := 30) [hk]

theorem execPrfmarkBegin_keeps (c : CoreId) (d : BitVec 8) (s : State) (hk : s.memWf = true) : OutKeeps (execPrfmarkBegin c d s) := by
  unfold execPrfmarkBegin
  refine outKeeps_next ?_
  (repeat' split) <;> simp +contextual (maxDischargeDepth := 30) [hk]

theorem execPrfmarkEnd_keeps (c : CoreId) (s : State) (hk : s.memWf = true) : OutKeeps (execPrfmarkEnd c s) := by
  unfold execPrfmarkEnd
  refine outKeeps_next ?_
  (repeat' split) <;> simp +contextual (maxDischargeDepth := 30) [hk]

theorem execPrfrun_keeps (c : CoreId) (s : State) (hk : s.memWf = true) : OutKeeps (execPrfrun c s) := by
  unfold execPrfrun
  refine outKeeps_next ?_
  (repeat' split) <;> simp +contextual (maxDischargeDepth := 30) [hk]

theorem execProofRunStart_keeps (c : CoreId) (s : State) (hk : s.memWf = true) : OutKeeps (execProofRunStart c s) := by
  unfold execProofRunStart
  refine outKeeps_next ?_
  (repeat' split) <;> simp +contextual (maxDischargeDepth := 30) [hk]

theorem execPrfcmp_keeps (c : CoreId) (v : Word) (s : State) (hk : s.memWf = true) : OutKeeps (execPrfcmp c v s) := by
  unfold execPrfcmp
  refine outKeeps_next ?_
  (repeat' split) <;> simp +contextual (maxDischargeDepth := 30) [hk]

theorem execVoteComplete_keeps (f : Nat) (s : State) (hk : s.memWf = true) : OutKeeps (execVoteComplete f s) := by
  unfold execVoteComplete
  refine outKeeps_next ?_
  (repeat' split) <;> simp +contextual (maxDischargeDepth := 30) [hk]

theorem execJoback_keeps (c : CoreId) (v : Word) (s : State) (hk : s.memWf = true) : OutKeeps (execJoback c v s) := by
  unfold execJoback
  refine outKeeps_next ?_
  (repeat' split) <;> simp +contextual (maxDischargeDepth := 30) [hk]

theorem execRegisterWrite_keeps (p : RegPath) (c : CoreId) (addr : Nat) (v : Word) (s : State) (hk : s.memWf = true) : OutKeeps (execRegisterWrite p c addr v s) := by
  unfold execRegisterWrite
  refine outKeeps_next ?_
  (repeat' split) <;> simp +contextual (maxDischargeDepth := 30) [hk]

theorem execClearingRead_keeps (p : RegPath) (tag addr : Nat) (s : State) (hk : s.memWf = true) : OutKeeps (execClearingRead p tag addr s) := by
  unfold execClearingRead
  refine outKeeps_next ?_
  (repeat' split) <;> simp +contextual (maxDischargeDepth := 30) [hk]

theorem execXptickloRead_keeps (p : RegPath) (f : Nat) (s : State) (hk : s.memWf = true) : OutKeeps (execXptickloRead p f s) := by
  unfold execXptickloRead
  refine outKeeps_next ?_
  (repeat' split) <;> simp +contextual (maxDischargeDepth := 30) [hk]

theorem execCtldataRead_keeps (p : Port) (tag : Nat) (s : State) (hk : s.memWf = true) : OutKeeps (execCtldataRead p tag s) := by
  unfold execCtldataRead
  refine outKeeps_next ?_
  (repeat' split) <;> simp +contextual (maxDischargeDepth := 30) [hk]

theorem execConfigRequest_keeps (p : Port) (tag off : Nat) (w : Option (BitVec 32)) (s : State) (hk : s.memWf = true) : OutKeeps (execConfigRequest p tag off w s) := by
  unfold execConfigRequest
  refine outKeeps_next ?_
  (repeat' split) <;> simp +contextual (maxDischargeDepth := 30) [hk]

theorem execWindowWriteTlp_keeps (p : Port) (req : BitVec 16) (off : Nat) (bytes : List (Option Byte)) (poison : Bool) (s : State) (hk : s.memWf = true) : OutKeeps (execWindowWriteTlp p req off bytes poison s) := by
  unfold execWindowWriteTlp
  refine outKeeps_next ?_
  (repeat' split) <;> simp +contextual (maxDischargeDepth := 30) [hk]

theorem execWindowReadTlp_keeps (p : Port) (req : BitVec 16) (tag off len : Nat) (s : State) (hk : s.memWf = true) : OutKeeps (execWindowReadTlp p req tag off len s) := by
  unfold execWindowReadTlp
  refine outKeeps_next ?_
  (repeat' split) <;> simp +contextual (maxDischargeDepth := 30) [hk]

theorem execInboundReadTimeout_keeps (p : Port) (tag : Nat) (s : State) (hk : s.memWf = true) : OutKeeps (execInboundReadTimeout p tag s) := by
  unfold execInboundReadTimeout
  refine outKeeps_next ?_
  (repeat' split) <;> simp +contextual (maxDischargeDepth := 30) [hk]

theorem execOutboundWrite_keeps (k : Nat) (s : State) (hk : s.memWf = true) : OutKeeps (execOutboundWrite k s) := by
  unfold execOutboundWrite
  refine outKeeps_next ?_
  (repeat' split) <;> simp +contextual (maxDischargeDepth := 30) [hk]

theorem execOutboundRead_keeps (k : Nat) (s : State) (hk : s.memWf = true) : OutKeeps (execOutboundRead k s) := by
  unfold execOutboundRead
  refine outKeeps_next ?_
  (repeat' split) <;> simp +contextual (maxDischargeDepth := 30) [hk]

theorem execOutboundCompletion_keeps (p : Port) (tag : Nat) (data : Option (List (Word × Bool))) (s : State) (hk : s.memWf = true) : OutKeeps (execOutboundCompletion p tag data s) := by
  unfold execOutboundCompletion
  refine outKeeps_next ?_
  (repeat' split) <;> simp +contextual (maxDischargeDepth := 30) [hk]

theorem execFenceComplete_keeps (p : Port) (s : State) (hk : s.memWf = true) : OutKeeps (execFenceComplete p s) := by
  unfold execFenceComplete
  refine outKeeps_next ?_
  (repeat' split) <;> simp +contextual (maxDischargeDepth := 30) [hk]

theorem execMsixHoldoffEnd_keeps (p : Port) (v : Nat) (s : State) (hk : s.memWf = true) : OutKeeps (execMsixHoldoffEnd p v s) := by
  unfold execMsixHoldoffEnd
  refine outKeeps_next ?_
  (repeat' split) <;> simp +contextual (maxDischargeDepth := 30) [hk]

theorem execInboxWrite_keeps (p : Port) (off : Nat) (bytes : List Byte) (s : State) (hk : s.memWf = true) : OutKeeps (execInboxWrite p off bytes s) := by
  unfold execInboxWrite
  refine outKeeps_next ?_
  (repeat' split) <;> simp +contextual (maxDischargeDepth := 30) [hk]

theorem execInboxctlAbort_keeps (p : Port) (mask : BitVec 8) (s : State) (hk : s.memWf = true) : OutKeeps (execInboxctlAbort p mask s) := by
  unfold execInboxctlAbort
  refine outKeeps_next ?_
  (repeat' split) <;> simp +contextual (maxDischargeDepth := 30) [hk]

theorem execPacketTake_keeps (p : Port) (s : State) (hk : s.memWf = true) : OutKeeps (execPacketTake p s) := by
  unfold execPacketTake
  refine outKeeps_next ?_
  (repeat' split) <;> simp +contextual (maxDischargeDepth := 30) [hk]

theorem execCommandStart_keeps (n : Nat) (s : State) (hk : s.memWf = true) : OutKeeps (execCommandStart n s) := by
  unfold execCommandStart
  refine outKeeps_next ?_
  (repeat' split) <;> simp +contextual (maxDischargeDepth := 30) [hk]

theorem execKeptReplyPost_keeps (p : Port) (n : Nat) (s : State) (hk : s.memWf = true) : OutKeeps (execKeptReplyPost p n s) := by
  unfold execKeptReplyPost
  refine outKeeps_next ?_
  (repeat' split) <;> simp +contextual (maxDischargeDepth := 30) [hk]

theorem execHello_keeps (n : Nat) (s : State) (hk : s.memWf = true) : OutKeeps (execHello n s) := by
  unfold execHello
  refine outKeeps_next ?_
  (repeat' split) <;> simp [hk]

theorem execBye_keeps (n : Nat) (s : State) (hk : s.memWf = true) : OutKeeps (execBye n s) := by
  unfold execBye
  exact outKeeps_next (State.cmd_mw s n _ _ _ _ (fun e => by simp [hk]) hk)

theorem execClaim_keeps (n : Nat) (s : State) (hk : s.memWf = true) : OutKeeps (execClaim n s) := by
  unfold execClaim
  exact outKeeps_next (State.cmd_mw s n _ _ _ _ (fun e => by simp [hk]) hk)

theorem execYield_keeps (n : Nat) (s : State) (hk : s.memWf = true) : OutKeeps (execYield n s) := by
  unfold execYield
  exact outKeeps_next (State.cmd_mw s n _ _ _ _ (fun e => by simp [hk]) hk)

theorem execSessionStatus_keeps (n : Nat) (s : State) (hk : s.memWf = true) : OutKeeps (execSessionStatus n s) := by
  unfold execSessionStatus
  exact outKeeps_next (State.cmd_mw s n _ _ _ _ (fun e => by simp [hk]) hk)

theorem execNop_keeps (n : Nat) (s : State) (hk : s.memWf = true) : OutKeeps (execNop n s) := by
  unfold execNop
  exact outKeeps_next (State.cmd_mw s n _ _ _ _ (fun e => by simp [hk]) hk)

theorem execOpenWindow_keeps (n : Nat) (s : State) (hk : s.memWf = true) : OutKeeps (execOpenWindow n s) := by
  unfold execOpenWindow
  exact outKeeps_next (State.cmd_mw s n _ _ _ _ (fun e => by simp [hk]) hk)

theorem execCloseWindow_keeps (n : Nat) (s : State) (hk : s.memWf = true) : OutKeeps (execCloseWindow n s) := by
  unfold execCloseWindow
  exact outKeeps_next (State.cmd_mw s n _ _ _ _ (fun e => by simp [hk]) hk)

theorem execAllocRegion_keeps (n : Nat) (s : State) (hk : s.memWf = true) : OutKeeps (execAllocRegion n s) := by
  unfold execAllocRegion
  exact outKeeps_next (State.cmd_mw s n _ _ _ _ (fun e => by simp [hk]) hk)

theorem execFreeRegion_keeps (n : Nat) (s : State) (hk : s.memWf = true) : OutKeeps (execFreeRegion n s) := by
  unfold execFreeRegion
  exact outKeeps_next (State.cmd_mw s n _ _ _ _ (fun e => by simp [hk]) hk)

theorem execSetMemmode_keeps (n : Nat) (s : State) (hk : s.memWf = true) : OutKeeps (execSetMemmode n s) := by
  unfold execSetMemmode
  exact outKeeps_next (State.cmd_mw s n _ _ _ _ (fun e => by simp [hk]) hk)

theorem execLoadJob_keeps (n : Nat) (r : HostRead JobImage) (s : State) (hk : s.memWf = true) : OutKeeps (execLoadJob n r s) := by
  unfold execLoadJob
  exact outKeeps_next (State.cmd_mw s n _ _ _ _ (fun e => by simp [hk]) hk)

theorem execUnloadJob_keeps (n : Nat) (s : State) (hk : s.memWf = true) : OutKeeps (execUnloadJob n s) := by
  unfold execUnloadJob
  exact outKeeps_next (State.cmd_mw s n _ _ _ _ (fun e => by simp [hk]) hk)

theorem execStart_keeps (n : Nat) (stuck : Stuck) (s : State) (hk : s.memWf = true) : OutKeeps (execStart n stuck s) := by
  unfold execStart
  exact outKeeps_next (State.cmd_mw s n _ _ _ _ (fun e => by simp [hk]) hk)

theorem execPause_keeps (n : Nat) (s : State) (hk : s.memWf = true) : OutKeeps (execPause n s) := by
  unfold execPause
  exact outKeeps_next (State.cmd_mw s n _ _ _ _ (fun e => by simp [hk]) hk)

theorem execResume_keeps (n : Nat) (s : State) (hk : s.memWf = true) : OutKeeps (execResume n s) := by
  unfold execResume
  exact outKeeps_next (State.cmd_mw s n _ _ _ _ (fun e => by simp [hk]) hk)

theorem execPreempt_keeps (n : Nat) (s : State) (hk : s.memWf = true) : OutKeeps (execPreempt n s) := by
  unfold execPreempt
  exact outKeeps_next (State.cmd_mw s n _ _ _ _ (fun e => by simp [hk]) hk)

theorem execKill_keeps (n : Nat) (stuck : Stuck) (s : State) (hk : s.memWf = true) : OutKeeps (execKill n stuck s) := by
  unfold execKill
  exact outKeeps_next (State.cmd_mw s n _ _ _ _ (fun e => by simp [hk]) hk)

theorem execLoadOverlay_keeps (n : Nat) (r : HostRead Overlay) (s : State) (hk : s.memWf = true) : OutKeeps (execLoadOverlay n r s) := by
  unfold execLoadOverlay
  exact outKeeps_next (State.cmd_mw s n _ _ _ _ (fun e => by simp [hk]) hk)

theorem execApplyMode_keeps (n : Nat) (s : State) (hk : s.memWf = true) : OutKeeps (execApplyMode n s) := by
  unfold execApplyMode
  exact outKeeps_next (State.cmd_mw s n _ _ _ _ (fun e => by simp [hk]) hk)

theorem execCommit_keeps (n : Nat) (s : State) (hk : s.memWf = true) : OutKeeps (execCommit n s) := by
  unfold execCommit
  exact outKeeps_next (State.cmd_mw s n _ _ _ _ (fun e => by simp [hk]) hk)

theorem execJobStatus_keeps (n : Nat) (s : State) (hk : s.memWf = true) : OutKeeps (execJobStatus n s) := by
  unfold execJobStatus
  exact outKeeps_next (State.cmd_mw s n _ _ _ _ (fun e => by simp [hk]) hk)

theorem execJobInput_keeps (n : Nat) (s : State) (hk : s.memWf = true) : OutKeeps (execJobInput n s) := by
  unfold execJobInput
  exact outKeeps_next (State.cmd_mw s n _ _ _ _ (fun e => by simp [hk]) hk)

theorem execGetTick_keeps (n : Nat) (s : State) (hk : s.memWf = true) : OutKeeps (execGetTick n s) := by
  unfold execGetTick
  exact outKeeps_next (State.cmd_mw s n _ _ _ _ (fun e => by simp [hk]) hk)

theorem execSetFallback_keeps (n : Nat) (s : State) (hk : s.memWf = true) : OutKeeps (execSetFallback n s) := by
  unfold execSetFallback
  exact outKeeps_next (State.cmd_mw s n _ _ _ _ (fun e => by simp [hk]) hk)

theorem execWaitExp_keeps (n : Nat) (s : State) (hk : s.memWf = true) : OutKeeps (execWaitExp n s) := by
  unfold execWaitExp
  exact outKeeps_next (State.cmd_mw s n _ _ _ _ (fun e => by simp [hk]) hk)

theorem execSetProofing_keeps (n : Nat) (s : State) (hk : s.memWf = true) : OutKeeps (execSetProofing n s) := by
  unfold execSetProofing
  exact outKeeps_next (State.cmd_mw s n _ _ _ _ (fun e => by simp [hk]) hk)

theorem execSetSdcPolicy_keeps (n : Nat) (s : State) (hk : s.memWf = true) : OutKeeps (execSetSdcPolicy n s) := by
  unfold execSetSdcPolicy
  exact outKeeps_next (State.cmd_mw s n _ _ _ _ (fun e => by simp [hk]) hk)

theorem execGetNegative_keeps (n : Nat) (s : State) (hk : s.memWf = true) : OutKeeps (execGetNegative n s) := by
  unfold execGetNegative
  exact outKeeps_next (State.cmd_mw s n _ _ _ _ (fun e => by simp [hk]) hk)

theorem execReadErrors_keeps (n : Nat) (s : State) (hk : s.memWf = true) : OutKeeps (execReadErrors n s) := by
  unfold execReadErrors
  exact outKeeps_next (State.cmd_mw s n _ _ _ _ (fun e => by simp [hk]) hk)

theorem execReadOverrun_keeps (n : Nat) (s : State) (hk : s.memWf = true) : OutKeeps (execReadOverrun n s) := by
  unfold execReadOverrun
  exact outKeeps_next (State.cmd_mw s n _ _ _ _ (fun e => by simp [hk]) hk)

theorem execRunTest_keeps (n : Nat) (fails : List TestFail) (s : State) (hk : s.memWf = true) : OutKeeps (execRunTest n fails s) := by
  unfold execRunTest
  exact outKeeps_next (State.cmd_mw s n _ _ _ _ (fun e => by simp [hk]) hk)

theorem execSetPowerCap_keeps (n : Nat) (s : State) (hk : s.memWf = true) : OutKeeps (execSetPowerCap n s) := by
  unfold execSetPowerCap
  exact outKeeps_next (State.cmd_mw s n _ _ _ _ (fun e => by simp [hk]) hk)

theorem execSetClock_keeps (n : Nat) (s : State) (hk : s.memWf = true) : OutKeeps (execSetClock n s) := by
  unfold execSetClock
  exact outKeeps_next (State.cmd_mw s n _ _ _ _ (fun e => by simp [hk]) hk)

theorem execSetFieldPower_keeps (n : Nat) (stuck : Stuck) (s : State) (hk : s.memWf = true) : OutKeeps (execSetFieldPower n stuck s) := by
  unfold execSetFieldPower
  exact outKeeps_next (State.cmd_mw s n _ _ _ _ (fun e => by simp [hk]) hk)

theorem execReadSensors_keeps (n : Nat) (s : State) (hk : s.memWf = true) : OutKeeps (execReadSensors n s) := by
  unfold execReadSensors
  exact outKeeps_next (State.cmd_mw s n _ _ _ _ (fun e => by simp [hk]) hk)

theorem execFwBegin_keeps (n : Nat) (s : State) (hk : s.memWf = true) : OutKeeps (execFwBegin n s) := by
  unfold execFwBegin
  exact outKeeps_next (State.cmd_mw s n _ _ _ _ (fun e => by simp [hk]) hk)

theorem execFwBlock_keeps (n : Nat) (s : State) (hk : s.memWf = true) : OutKeeps (execFwBlock n s) := by
  unfold execFwBlock
  exact outKeeps_next (State.cmd_mw s n _ _ _ _ (fun e => by simp [hk]) hk)

theorem execFwEnd_keeps (n : Nat) (s : State) (hk : s.memWf = true) : OutKeeps (execFwEnd n s) := by
  unfold execFwEnd
  exact outKeeps_next (State.cmd_mw s n _ _ _ _ (fun e => by simp [hk]) hk)

theorem execFwActivate_keeps (n : Nat) (s : State) (hk : s.memWf = true) : OutKeeps (execFwActivate n s) := by
  unfold execFwActivate
  exact outKeeps_next (State.cmd_mw s n _ _ _ _ (fun e => by simp [hk]) hk)

theorem execFwStatus_keeps (n : Nat) (s : State) (hk : s.memWf = true) : OutKeeps (execFwStatus n s) := by
  unfold execFwStatus
  exact outKeeps_next (State.cmd_mw s n _ _ _ _ (fun e => by simp [hk]) hk)

theorem execGetIdentity_keeps (n : Nat) (s : State) (hk : s.memWf = true) : OutKeeps (execGetIdentity n s) := by
  unfold execGetIdentity
  exact outKeeps_next (State.cmd_mw s n _ _ _ _ (fun e => by simp [hk]) hk)

theorem execSpdm_keeps (n : Nat) (s : State) (hk : s.memWf = true) : OutKeeps (execSpdm n s) := by
  unfold execSpdm
  exact outKeeps_next (State.cmd_mw s n _ _ _ _ (fun e => by simp [hk]) hk)

theorem execSetDebugHold_keeps (n : Nat) (s : State) (hk : s.memWf = true) : OutKeeps (execSetDebugHold n s) := by
  unfold execSetDebugHold
  exact outKeeps_next (State.cmd_mw s n _ _ _ _ (fun e => by simp [hk]) hk)

theorem execSnapshot_keeps (n : Nat) (s : State) (hk : s.memWf = true) : OutKeeps (execSnapshot n s) := by
  unfold execSnapshot
  exact outKeeps_next (State.cmd_mw s n _ _ _ _ (fun e => by simp [hk]) hk)

theorem execReadSnapshot_keeps (n : Nat) (s : State) (hk : s.memWf = true) : OutKeeps (execReadSnapshot n s) := by
  unfold execReadSnapshot
  exact outKeeps_next (State.cmd_mw s n _ _ _ _ (fun e => by simp [hk]) hk)

theorem execSnapshotExpiry_keeps (j : Nat) (s : State) (hk : s.memWf = true) : OutKeeps (execSnapshotExpiry j s) := by
  unfold execSnapshotExpiry
  refine outKeeps_next ?_
  (repeat' split) <;> simp +contextual (maxDischargeDepth := 30) [hk]

theorem execHeartbeat_keeps (s : State) (hk : s.memWf = true) : OutKeeps (execHeartbeat s) := by
  unfold execHeartbeat
  refine outKeeps_next ?_
  (repeat' split) <;> simp +contextual (maxDischargeDepth := 30) [hk]

theorem execTakeover_keeps (s : State) (hk : s.memWf = true) : OutKeeps (execTakeover s) := by
  unfold execTakeover
  refine outKeeps_next ?_
  (repeat' split) <;> simp +contextual (maxDischargeDepth := 30) [hk]

theorem execRingBreak_keeps (off : List Nat) (s : State) (hk : s.memWf = true) : OutKeeps (execRingBreak off s) := by
  unfold execRingBreak
  refine outKeeps_next ?_
  (repeat' split) <;> simp +contextual (maxDischargeDepth := 30) [hk]

theorem execPerstAssert_keeps (p : Port) (s : State) (hk : s.memWf = true) : OutKeeps (execPerstAssert p s) := by
  unfold execPerstAssert
  refine outKeeps_next ?_
  (repeat' split) <;> simp +contextual (maxDischargeDepth := 30) [hk]

theorem execPortReset_keeps (p : Port) (s : State) (hk : s.memWf = true) : OutKeeps (execPortReset p s) := by
  unfold execPortReset
  refine outKeeps_next ?_
  (repeat' split) <;> simp +contextual (maxDischargeDepth := 30) [hk]

theorem execModuleWarmReset_keeps (s : State) (hk : s.memWf = true) : OutKeeps (execModuleWarmReset s) := by
  unfold execModuleWarmReset
  refine outKeeps_next ?_
  (repeat' split) <;> simp +contextual (maxDischargeDepth := 30) [hk]

theorem execFunctionLevelReset_keeps (p : Port) (s : State) (hk : s.memWf = true) : OutKeeps (execFunctionLevelReset p s) := by
  unfold execFunctionLevelReset
  refine outKeeps_next ?_
  (repeat' split) <;> simp +contextual (maxDischargeDepth := 30) [hk]

theorem execCprsntChange_keeps (p : Port) (mated : Bool) (t : Straps) (s : State) (hk : s.memWf = true) : OutKeeps (execCprsntChange p mated t s) := by
  unfold execCprsntChange State.cableChange
  refine outKeeps_next ?_
  (repeat' split) <;> simp +contextual (maxDischargeDepth := 30) [hk]

theorem execLinkLoss_keeps (p : Port) (s : State) (hk : s.memWf = true) : OutKeeps (execLinkLoss p s) := by
  unfold execLinkLoss
  refine outKeeps_next ?_
  (repeat' split) <;> simp +contextual (maxDischargeDepth := 30) [hk]

theorem execLinkReturn_keeps (p : Port) (s : State) (hk : s.memWf = true) : OutKeeps (execLinkReturn p s) := by
  unfold execLinkReturn
  refine outKeeps_next ?_
  (repeat' split) <;> simp +contextual (maxDischargeDepth := 30) [hk]

theorem execGraceExpiry_keeps (p : Port) (s : State) (hk : s.memWf = true) : OutKeeps (execGraceExpiry p s) := by
  unfold execGraceExpiry
  refine outKeeps_next ?_
  (repeat' split) <;> simp +contextual (maxDischargeDepth := 30) [hk]

theorem execD3hotEntry_keeps (p : Port) (s : State) (hk : s.memWf = true) : OutKeeps (execD3hotEntry p s) := by
  unfold execD3hotEntry
  refine outKeeps_next ?_
  (repeat' split) <;> simp +contextual (maxDischargeDepth := 30) [hk]

theorem execD0Return_keeps (p : Port) (s : State) (hk : s.memWf = true) : OutKeeps (execD0Return p s) := by
  unfold execD0Return
  refine outKeeps_next ?_
  (repeat' split) <;> simp +contextual (maxDischargeDepth := 30) [hk]

theorem execOwnerPrefExpiry_keeps (s : State) (hk : s.memWf = true) : OutKeeps (execOwnerPrefExpiry s) := by
  unfold execOwnerPrefExpiry
  refine outKeeps_next ?_
  (repeat' split) <;> simp +contextual (maxDischargeDepth := 30) [hk]

theorem execRefclkPresent_keeps (p : Port) (s : State) (hk : s.memWf = true) : OutKeeps (execRefclkPresent p s) := by
  unfold execRefclkPresent
  refine outKeeps_next ?_
  (repeat' split) <;> simp +contextual (maxDischargeDepth := 30) [hk]

theorem execRefclkSettled_keeps (p : Port) (s : State) (hk : s.memWf = true) : OutKeeps (execRefclkSettled p s) := by
  unfold execRefclkSettled
  refine outKeeps_next ?_
  (repeat' split) <;> simp +contextual (maxDischargeDepth := 30) [hk]

theorem execRefclkLost_keeps (p : Port) (s : State) (hk : s.memWf = true) : OutKeeps (execRefclkLost p s) := by
  unfold execRefclkLost
  refine outKeeps_next ?_
  (repeat' split) <;> simp +contextual (maxDischargeDepth := 30) [hk]

theorem execClockLock_keeps (d : ClockDomain) (s : State) (hk : s.memWf = true) : OutKeeps (execClockLock d s) := by
  unfold execClockLock
  refine outKeeps_next ?_
  (repeat' split) <;> simp +contextual (maxDischargeDepth := 30) [hk]

theorem execClockRecovery_keeps (s : State) (hk : s.memWf = true) : OutKeeps (execClockRecovery s) := by
  unfold execClockRecovery
  refine outKeeps_next ?_
  (repeat' split) <;> simp +contextual (maxDischargeDepth := 30) [hk]

theorem execStandbyTrim_keeps (eth : Bool) (s : State) (hk : s.memWf = true) : OutKeeps (execStandbyTrim eth s) := by
  unfold execStandbyTrim
  refine outKeeps_next ?_
  (repeat' split) <;> simp +contextual (maxDischargeDepth := 30) [hk]

theorem execClockSwitch_keeps (f : Nat) (s : State) (hk : s.memWf = true) : OutKeeps (execClockSwitch f s) := by
  unfold execClockSwitch
  refine outKeeps_next ?_
  (repeat' split) <;> simp +contextual (maxDischargeDepth := 30) [hk]

theorem execClockGate_keeps (f : Nat) (s : State) (hk : s.memWf = true) : OutKeeps (execClockGate f s) := by
  unfold execClockGate
  refine outKeeps_next ?_
  (repeat' split) <;> simp +contextual (maxDischargeDepth := 30) [hk]

theorem execClockUngate_keeps (f : Nat) (s : State) (hk : s.memWf = true) : OutKeeps (execClockUngate f s) := by
  unfold execClockUngate
  refine outKeeps_next ?_
  (repeat' split) <;> simp +contextual (maxDischargeDepth := 30) [hk]

theorem execSupplyWarning_keeps (mv : Nat) (s : State) (hk : s.memWf = true) : OutKeeps (execSupplyWarning mv s) := by
  unfold execSupplyWarning
  refine outKeeps_next ?_
  (repeat' split) <;> simp +contextual (maxDischargeDepth := 30) [hk]

theorem execSupplyWarningClear_keeps (mv : Nat) (s : State) (hk : s.memWf = true) : OutKeeps (execSupplyWarningClear mv s) := by
  unfold execSupplyWarningClear
  refine outKeeps_next ?_
  (repeat' split) <;> simp +contextual (maxDischargeDepth := 30) [hk]

theorem execPowerHoldPause_keeps (j : Nat) (s : State) (hk : s.memWf = true) : OutKeeps (execPowerHoldPause j s) := by
  unfold execPowerHoldPause
  refine outKeeps_next ?_
  (repeat' split) <;> simp +contextual (maxDischargeDepth := 30) [hk]

theorem execSupplyReset_keeps (mv : Nat) (s : State) (hk : s.memWf = true) : OutKeeps (execSupplyReset mv s) := by
  unfold execSupplyReset
  refine outKeeps_next ?_
  (repeat' split) <;> simp +contextual (maxDischargeDepth := 30) [hk]

theorem execSupplyReturn_keeps (mv : Nat) (s : State) (hk : s.memWf = true) : OutKeeps (execSupplyReturn mv s) := by
  unfold execSupplyReturn
  refine outKeeps_next ?_
  (repeat' split) <;> simp +contextual (maxDischargeDepth := 30) [hk]

theorem execRailFault_keeps (f cause : Nat) (s : State) (hk : s.memWf = true) : OutKeeps (execRailFault f cause s) := by
  unfold execRailFault
  refine outKeeps_next ?_
  (repeat' split) <;> simp +contextual (maxDischargeDepth := 30) [hk]

theorem execFieldLost_keeps (f : Nat) (s : State) (hk : s.memWf = true) : OutKeeps (execFieldLost f s) := by
  unfold execFieldLost
  refine outKeeps_next ?_
  (repeat' split) <;> simp +contextual (maxDischargeDepth := 30) [hk]

theorem execTempSample_keeps (f : Nat) (temps : List Int) (s : State) (hk : s.memWf = true) : OutKeeps (execTempSample f temps s) := by
  unfold execTempSample
  refine outKeeps_next ?_
  (repeat' split) <;> simp +contextual (maxDischargeDepth := 30) [hk]

theorem execThrottleStep_keeps (f : Nat) (s : State) (hk : s.memWf = true) : OutKeeps (execThrottleStep f s) := by
  unfold execThrottleStep
  refine outKeeps_next ?_
  (repeat' split) <;> simp +contextual (maxDischargeDepth := 30) [hk]

theorem execThermalRestart_keeps (f : Nat) (stuck : Stuck) (s : State) (hk : s.memWf = true) : OutKeeps (execThermalRestart f stuck s) := by
  unfold execThermalRestart
  refine outKeeps_next ?_
  (repeat' split) <;> simp +contextual (maxDischargeDepth := 30) [hk]

theorem execCoolantStateChange_keeps (flow : Bool) (s : State) (hk : s.memWf = true) : OutKeeps (execCoolantStateChange flow s) := by
  unfold execCoolantStateChange
  refine outKeeps_next ?_
  (repeat' split) <;> simp +contextual (maxDischargeDepth := 30) [hk]

theorem execPowerShare_keeps (fixed : Nat) (draws : List (Nat × Nat × Nat)) (s : State) (hk : s.memWf = true) : OutKeeps (execPowerShare fixed draws s) := by
  unfold execPowerShare
  refine outKeeps_next ?_
  (repeat' split) <;> simp +contextual (maxDischargeDepth := 30) [hk]

theorem execPowerLimitStep_keeps (f : Nat) (s : State) (hk : s.memWf = true) : OutKeeps (execPowerLimitStep f s) := by
  unfold execPowerLimitStep
  refine outKeeps_next ?_
  (repeat' split) <;> simp +contextual (maxDischargeDepth := 30) [hk]

theorem execErrorCountSweep_keeps (f : Nat) (s : State) (hk : s.memWf = true) : OutKeeps (execErrorCountSweep f s) := by
  unfold execErrorCountSweep
  refine outKeeps_next ?_
  (repeat' split) <;> simp +contextual (maxDischargeDepth := 30) [hk]

theorem execTestDue_keeps (f h : Nat) (fails : List TestFail) (s : State) (hk : s.memWf = true) : OutKeeps (execTestDue f h fails s) := by
  unfold execTestDue
  refine outKeeps_next ?_
  (repeat' split) <;> simp +contextual (maxDischargeDepth := 30) [hk]

theorem execTestDeferExpiry_keeps (f h : Nat) (s : State) (hk : s.memWf = true) : OutKeeps (execTestDeferExpiry f h s) := by
  unfold execTestDeferExpiry
  refine outKeeps_next ?_
  (repeat' split) <;> simp +contextual (maxDischargeDepth := 30) [hk]

theorem execStackWrite_keeps (k : Nat) (s : State) (hk : s.memWf = true) : OutKeeps (execStackWrite k s) := by
  unfold execStackWrite
  refine outKeeps_next ?_
  (repeat' split) <;> simp +contextual (maxDischargeDepth := 30) [hk]

theorem execStackRead_keeps (k : Nat) (s : State) (hk : s.memWf = true) : OutKeeps (execStackRead k s) := by
  unfold execStackRead
  refine outKeeps_next ?_
  (repeat' split) <;> simp +contextual (maxDischargeDepth := 30) [hk]

theorem execStackLost_keeps (n : Nat) (s : State) (hk : s.memWf = true) : OutKeeps (execStackLost n s) := by
  unfold execStackLost
  refine outKeeps_next ?_
  (repeat' split) <;> simp +contextual (maxDischargeDepth := 30) [hk]

theorem execStackReturn_keeps (n : Nat) (s : State) (hk : s.memWf = true) : OutKeeps (execStackReturn n s) := by
  unfold execStackReturn
  refine outKeeps_next ?_
  (repeat' split) <;> simp +contextual (maxDischargeDepth := 30) [hk]

theorem execStackRebuildComplete_keeps (n : Nat) (s : State) (hk : s.memWf = true) : OutKeeps (execStackRebuildComplete n s) := by
  unfold execStackRebuildComplete
  refine outKeeps_next ?_
  (repeat' split) <;> simp +contextual (maxDischargeDepth := 30) [hk]

theorem execFieldReset_keeps (f : Nat) (stuck : Stuck) (fails : List TestFail) (s : State) (hk : s.memWf = true) : OutKeeps (execFieldReset f stuck fails s) := by
  unfold execFieldReset
  refine outKeeps_next ?_
  (repeat' split) <;> simp +contextual (maxDischargeDepth := 30) [hk]

theorem execColdPowerOn_keeps (a b : Straps) (s : State) (hk : s.memWf = true) : OutKeeps (execColdPowerOn a b s) := by
  unfold execColdPowerOn
  refine outKeeps_next ?_
  (repeat' split) <;> simp +contextual (maxDischargeDepth := 30) [hk]

theorem execStartSequenceEnd_keeps (stuck : Stuck) (fails : List (Nat × TestFail)) (dead : List Port) (s : State) (hk : s.memWf = true) :
    OutKeeps (execStartSequenceEnd stuck fails dead s) := by
  unfold execStartSequenceEnd
  refine outKeeps_next ?_
  (repeat' split) <;> simp +contextual (maxDischargeDepth := 30) [hk]

theorem execPresentMate_keeps (s : State) (hk : s.memWf = true) : OutKeeps (execPresentMate s) := by
  unfold execPresentMate
  refine outKeeps_next ?_
  (repeat' split) <;> simp +contextual (maxDischargeDepth := 30) [hk]

theorem execPresentBreak_keeps (s : State) (hk : s.memWf = true) : OutKeeps (execPresentBreak s) := by
  unfold execPresentBreak
  refine outKeeps_next ?_
  (repeat' split) <;> simp +contextual (maxDischargeDepth := 30) [hk]

theorem execTrialPass_keeps (t : TrialOf) (s : State) (hk : s.memWf = true) : OutKeeps (execTrialPass t s) := by
  unfold execTrialPass
  refine outKeeps_next ?_
  (repeat' split) <;> simp +contextual (maxDischargeDepth := 30) [hk]

theorem execSvcHello_keeps (seq baud : Nat) (s : State) (hk : s.memWf = true) : OutKeeps (execSvcHello seq baud s) := by
  unfold execSvcHello
  refine outKeeps_next ?_
  (repeat' split) <;> simp +contextual (maxDischargeDepth := 30) [hk]

theorem execSvcBegin_keeps (seq target size : Nat) (s : State) (hk : s.memWf = true) : OutKeeps (execSvcBegin seq target size s) := by
  unfold execSvcBegin
  refine outKeeps_next ?_
  (repeat' split) <;> simp +contextual (maxDischargeDepth := 30) [hk]

theorem execSvcBlock_keeps (seq off : Nat) (data : List Byte) (s : State) (hk : s.memWf = true) : OutKeeps (execSvcBlock seq off data s) := by
  unfold execSvcBlock
  refine outKeeps_next ?_
  (repeat' split) <;> simp +contextual (maxDischargeDepth := 30) [hk]

theorem execSvcEnd_keeps (seq : Nat) (s : State) (hk : s.memWf = true) : OutKeeps (execSvcEnd seq s) := by
  unfold execSvcEnd
  refine outKeeps_next ?_
  (repeat' split) <;> simp +contextual (maxDischargeDepth := 30) [hk]

theorem execSvcActivate_keeps (seq arg : Nat) (s : State) (hk : s.memWf = true) : OutKeeps (execSvcActivate seq arg s) := by
  unfold execSvcActivate
  refine outKeeps_next ?_
  have h := State.activate_mw s 0 none
  generalize s.activate 0 none = r at h
  split
  · exact hk
  · split
    · rw [State.svcReply_mw]; exact hk
    · split
      · rw [State.svcReply_mw]; exact h.trans hk
      · exact h.trans hk

theorem execSvcStatus_keeps (seq : Nat) (s : State) (hk : s.memWf = true) : OutKeeps (execSvcStatus seq s) := by
  unfold execSvcStatus
  refine outKeeps_next ?_
  (repeat' split) <;> simp +contextual (maxDischargeDepth := 30) [hk]

theorem execGetHealth_keeps (m : Mgmt) (s : State) (hk : s.memWf = true) : OutKeeps (execGetHealth m s) := by
  unfold execGetHealth
  refine outKeeps_next ?_
  (repeat' split) <;> simp +contextual (maxDischargeDepth := 30) [hk]

theorem execGetRecords_keeps (m : Mgmt) (n : Nat) (s : State) (hk : s.memWf = true) : OutKeeps (execGetRecords m n s) := by
  unfold execGetRecords
  refine outKeeps_next ?_
  (repeat' split) <;> simp +contextual (maxDischargeDepth := 30) [hk]

theorem execSetTest_keeps (m : Mgmt) (period defer_ : Nat) (s : State) (hk : s.memWf = true) : OutKeeps (execSetTest m period defer_ s) := by
  unfold execSetTest
  refine outKeeps_next ?_
  (repeat' split) <;> simp +contextual (maxDischargeDepth := 30) [hk]

theorem execModuleReset_keeps (m : Mgmt) (key : BitVec 32) (s : State) (hk : s.memWf = true) : OutKeeps (execModuleReset m key s) := by
  unfold execModuleReset
  refine outKeeps_next ?_
  (repeat' split) <;> simp +contextual (maxDischargeDepth := 30) [hk]

theorem execSetAcl_keeps (m : Mgmt) (i kind addr : Nat) (s : State) (hk : s.memWf = true) : OutKeeps (execSetAcl m i kind addr s) := by
  unfold execSetAcl
  refine outKeeps_next ?_
  (repeat' split) <;> simp +contextual (maxDischargeDepth := 30) [hk]

theorem execSetAddr_keeps (m : Mgmt) (mode ip pre gw : Nat) (s : State) (hk : s.memWf = true) : OutKeeps (execSetAddr m mode ip pre gw s) := by
  unfold execSetAddr
  refine outKeeps_next ?_
  (repeat' split) <;> simp +contextual (maxDischargeDepth := 30) [hk]

theorem execGetJobs_keeps (m : Mgmt) (s : State) (hk : s.memWf = true) : OutKeeps (execGetJobs m s) := by
  unfold execGetJobs
  refine outKeeps_next ?_
  (repeat' split) <;> simp +contextual (maxDischargeDepth := 30) [hk]

theorem execSetEndpointId_keeps (m : Mgmt) (eid : Nat) (s : State) (hk : s.memWf = true) : OutKeeps (execSetEndpointId m eid s) := by
  unfold execSetEndpointId
  refine outKeeps_next ?_
  (repeat' split) <;> simp +contextual (maxDischargeDepth := 30) [hk]

theorem execSetEventReceiver_keeps (m : Mgmt) (recv : Nat) (s : State) (hk : s.memWf = true) : OutKeeps (execSetEventReceiver m recv s) := by
  unfold execSetEventReceiver
  refine outKeeps_next ?_
  (repeat' split) <;> simp +contextual (maxDischargeDepth := 30) [hk]

theorem execSensorPoll_keeps (vals : List (Nat × Int)) (s : State) (hk : s.memWf = true) : OutKeeps (execSensorPoll vals s) := by
  unfold execSensorPoll
  refine outKeeps_next ?_
  (repeat' split) <;> simp +contextual (maxDischargeDepth := 30) [hk]

theorem execRecordDelivery_keeps (p : Port) (acked : Bool) (s : State) (hk : s.memWf = true) : OutKeeps (execRecordDelivery p acked s) := by
  unfold execRecordDelivery
  refine outKeeps_next ?_
  (repeat' split) <;> simp +contextual (maxDischargeDepth := 30) [hk]

theorem execPldmUpdate_keeps (m : Mgmt) (u : PldmReq) (s : State) (hk : s.memWf = true) : OutKeeps (execPldmUpdate m u s) := by
  unfold execPldmUpdate
  refine outKeeps_next ?_
  (repeat' split) <;> simp +contextual (maxDischargeDepth := 30) [hk]

theorem execActivateFirmware_keeps (m : Mgmt) (self_ : Bool) (s : State) (hk : s.memWf = true) : OutKeeps (execActivateFirmware m self_ s) := by
  unfold execActivateFirmware
  refine outKeeps_next ?_
  (repeat' split) <;> simp +contextual (maxDischargeDepth := 30) [hk]

theorem execCancelUpdate_keeps (m : Mgmt) (s : State) (hk : s.memWf = true) : OutKeeps (execCancelUpdate m s) := by
  unfold execCancelUpdate
  refine outKeeps_next ?_
  (repeat' split) <;> simp +contextual (maxDischargeDepth := 30) [hk]

theorem execPerstDeassert_keeps (p : Port) (t : Straps) (s : State) (hk : s.memWf = true) : OutKeeps (execPerstDeassert p t s) := by
  unfold execPerstDeassert
  refine outKeeps_next ?_
  (repeat' split) <;> simp +contextual (maxDischargeDepth := 30) [hk]

theorem execLinkUp_keeps (p : Port) (rate width : Nat) (s : State) (hk : s.memWf = true) : OutKeeps (execLinkUp p rate width s) := by
  unfold execLinkUp
  refine outKeeps_next ?_
  (repeat' split) <;> simp +contextual (maxDischargeDepth := 30) [hk]

theorem execStandbyPowerLoss_keeps (s : State) (hk : s.memWf = true) : OutKeeps (execStandbyPowerLoss s) := by
  unfold execStandbyPowerLoss
  refine outKeeps_next ?_
  (repeat' split) <;> simp +contextual (maxDischargeDepth := 30) [hk]

theorem execFlitReplay_keeps (l : LinkId) (far : Bool) (s : State) (hk : s.memWf = true) : OutKeeps (execFlitReplay l far s) := by
  unfold execFlitReplay
  refine outKeeps_next ?_
  (repeat' split) <;> simp +contextual (maxDischargeDepth := 30) [hk]

theorem execDevelopHold_keeps (j : Nat) (s : State) (hk : s.memWf = true) : OutKeeps (execDevelopHold j s) := by
  unfold execDevelopHold
  refine outKeeps_next ?_
  (repeat' split) <;> simp +contextual (maxDischargeDepth := 30) [hk]

theorem execHandover_keeps (s : State) (hk : s.memWf = true) : OutKeeps (execHandover s) := by
  unfold execHandover
  refine outKeeps_next ?_
  (repeat' split) <;> simp +contextual (maxDischargeDepth := 30) [hk]

end Sys2Proof.Machine
end

