-- ==== Sys2Proof/WellFormed.lean ====
section
/-! DEFINITION. Well-formed commands: each operand within the range the spec gives it. Which packet, journal entry or tag is at
hand is a matter of the state, so `k`, `n` and tags in flight are not bounded here. -/

namespace Sys2Proof

open Sys2Proof.Machine

/-- A core exists at the position (spec/01 R27). -/
def isCore (c : CoreId) : Bool := (coreField c).isSome

/-- A core of one kind exists at the position (spec/01 Table 1.4): only cores of its kind run a kind's instructions. -/
def onKind (k : Kind) (c : CoreId) : Bool := isCore c && coreKind c == k

/-- Field numbers 0 to 59 (spec/01 R26). -/
def isField (f : Nat) : Bool := decide (f < 60)

/-- Hub groups 0 to 47 of a field (spec/01 R28). -/
def isGroup (h : Nat) : Bool := decide (h < 48)

/-- A hub exists at the hub coordinates (spec/01 R28). -/
def isHub (hx hy : Nat) : Bool := (fieldAt (hx / 6) (hy / 8)).isSome

/-- Job slots 0 to 15 (spec/09 R224). -/
def isSlot (j : Nat) : Bool := decide (j < 16)

/-- Engines with a command queue (spec/06 R148). -/
def isEngine (c : CoreId) (e : Nat) : Bool :=
  match coreKind c with
  | .mx => e == 1 || e == 2
  | .vx => e == 1 || e == 2 || e == 3
  | .sx => e == 2

/-- Waiters on a queue, for room or on an exposure: the sequencer, or a thread (spec/06 R149, spec/07 R169, spec/09 R229). -/
def waiterOk (c : CoreId) (e : Nat) : Bool := if coreKind c == .sx then decide (e < 4) else e == 0

/-- Waiters on a semaphore: the sequencer and the engines, or a thread (spec/06 R150, R154). -/
def engineOk (c : CoreId) (e : Nat) : Bool := if coreKind c == .sx then decide (e < 4) else e == 0 || isEngine c e

/-- Words that a core's wash leaves bad lie in its scratchpad (spec/05 R147, Table 5.1). -/
def stuckOk (c : CoreId) (l : List (Nat × Code)) : Bool := l.all (fun e => decide (e.1 < (coreKind c).words))

/-- The same for every core named. -/
def washOk (l : Stuck) : Bool := l.all (fun e => isCore e.1 && stuckOk e.1 e.2)

/-- Shadow tables of a router or hub of the field, within its sizes: 16 exception entries, and 16 or 64 fork entries
(spec/08 Tables 8.12, 8.13). -/
def tablesOk (f : Nat) : Tables → Bool
  | .router c ex fk => coreField c == some f && decide (ex.length ≤ 16 ∧ fk.length ≤ 16)
  | .hub hx hy ex fk => fieldAt (hx / 6) (hy / 8) == some f && decide (ex.length ≤ 16 ∧ fk.length ≤ 64)

/-- A holder of a TICK copy exists (spec/09 R221). -/
def tickCopyOk : TickCopy → Bool
  | .field f => isField f
  | .stack n => decide (n < 16)
  | .die _ => true

/-- What a test fails exists (spec/15 R411). -/
def failOk : TestFail → Bool
  | .core c => isCore c
  | .router c => isCore c
  | .hub h => isGroup h

/-- A clock domain exists (spec/14 Table 14.1). -/
def domainOk : ClockDomain → Bool
  | .control => true
  | .field f => isField f
  | .stack n => decide (n < 16)

/-- A register write is 64 bits on a natural boundary (spec/00 R12): in BAR0 or BAR4, or in the low 20 bits of a control block's
addresses. -/
def registerOk (p : RegPath) (c : CoreId) (addr : Nat) : Bool :=
  addr % 8 == 0 &&
    match p with
    | .bar0 _ => decide (addr < 0x10000)
    | .bar4 _ => decide (addr < 0x4000)
    | _ => isCore c && decide (addr < 2 ^ 20)

/-- A read that clears is of 64 bits on a natural boundary (spec/00 R12, R13). -/
def pathReadOk (p : RegPath) (addr : Nat) : Bool :=
  addr % 8 == 0 &&
    match p with
    | .bar0 _ => decide (addr < 0x10000)
    | .bar4 _ => decide (addr < 0x4000)
    | _ => decide (addr < 2 ^ 48)

/-- A tag of a request of PCI Express: 14 bits (spec/12 Table 12.1). -/
def tagOk (t : Nat) : Bool := decide (t < 16384)

/-- A configuration register: 4 bytes on a boundary of 4 within 4 KiB (spec/12 R301). -/
def configOk (off : Nat) : Bool := off % 4 == 0 && decide (off < 4096)

/-- A memory read TLP: 1 to 4,096 bytes across no 4 KiB boundary (spec/12 Table 12.1, R315). -/
def readOk (off len : Nat) : Bool := decide (1 ≤ len ∧ off % 4096 + len ≤ 4096)

/-- A memory write TLP: as a read, its payload at most 512 bytes; byte enables may leave out bytes of its first and last
doubleword only (spec/12 Table 12.1, R315). -/
def writeOk (off : Nat) (bytes : List (Option Byte)) : Bool :=
  decide (1 ≤ bytes.length ∧ off % 4096 + bytes.length ≤ 4096 ∧ bytes.length ≤ 512) &&
    bytes.zipIdx.all (fun e => e.1.isSome || (off + e.2) / 4 == off / 4 || (off + e.2) / 4 == (off + bytes.length - 1) / 4)

/-- A write of the inbox lies in its eight slots of 4 KiB and carries at most 512 bytes (spec/13 R335, R336). -/
def inboxOk (off : Nat) (bytes : List Byte) : Bool :=
  decide (1 ≤ bytes.length ∧ off + bytes.length ≤ 32768 ∧ bytes.length ≤ 512)

/-- The cores of an image lie in its working fields (spec/09 R241). -/
def imageOk (i : JobImage) : Bool :=
  i.cores.all (fun c => decide (c.at_.lf < i.working.length ∧ c.at_.pos < 12288))

/-- An image that could be read. -/
def readImageOk : HostRead JobImage → Bool
  | .ok i => imageOk i
  | _ => true

/-- The changes of an overlay that could be read name cores by field and position (spec/09 Table 9.6). -/
def readOverlayOk : HostRead Overlay → Bool
  | .ok o => o.changes.all (fun c => decide (c.at_.lf < 60 ∧ c.at_.pos < 12288))
  | _ => true

/-- A service-port frame: its sequence number is one byte (spec/17 R448). -/
def seqOk (q : Nat) : Bool := decide (q < 256)

/-- A block of data: 1 to 1,024 bytes (spec/17 Table 17.8, spec/18 R467). -/
def blockOk (off : Nat) (data : List Byte) : Bool := decide (off < 2 ^ 32 ∧ data.length ≤ 1024)

/-- An address of the allow list: IPv4, or IPv6 above 2^128 (spec/18 R459, Table 18.2; log 65). -/
def ipOk (a : Nat) : Bool := decide (a < 2 ^ 129)

/-- Where a management request comes from. -/
def mgmtOk : Mgmt → Bool
  | .udp _ a => ipOk a
  | _ => true

/-- A PLDM update request. -/
def pldmOk : PldmReq → Bool
  | .start t n => decide (t < 256 ∧ n < 2 ^ 32)
  | .block off data => blockOk off data
  | .verify => true

/-- A link's rate in GT/s (2 stands for 2.5) and its width in lanes (spec/12 Table 12.1). -/
def linkOk (rate width : Nat) : Bool :=
  (rate == 2 || rate == 5 || rate == 8 || rate == 16 || rate == 32 || rate == 64) &&
    (width == 1 || width == 2 || width == 4 || width == 8)

/-- A supply voltage in mV: below 2^16 (spec/14 Table 14.4). -/
def railOk (mv : Nat) : Bool := decide (mv < 2 ^ 16)

/-- A command is well formed. -/
def Instr.wf (i : Instr) : Bool :=
  match i with
  | .mxnop c => onKind .mx c
  | .mxlds c => onKind .mx c
  | .mxmma c => onKind .mx c
  | .mxcvt c => onKind .mx c
  | .mxldacc c => onKind .mx c
  | .mxclracc c => onKind .mx c
  | .mxmove c => onKind .mx c
  | .mxseta c => onKind .mx c
  | .mxsetsc c => onKind .mx c
  | .mxloop c => onKind .mx c
  | .mxqwait c => onKind .mx c
  | .mxqrel c => onKind .mx c
  | .mxhalt c => onKind .mx c
  | .vnop c => onKind .vx c
  | .vmove c => onKind .vx c
  | .vseta c => onKind .vx c
  | .vsetu c => onKind .vx c
  | .vloop c => onKind .vx c
  | .vqwait c => onKind .vx c
  | .vqrel c => onKind .vx c
  | .vhalt c => onKind .vx c
  | .vld c => onKind .vx c
  | .vst c => onKind .vx c
  | .vop c => onKind .vx c
  | .vfma c => onKind .vx c
  | .vcmp c => onKind .vx c
  | .vsel c => onKind .vx c
  | .vred c => onKind .vx c
  | .vtr c => onKind .vx c
  | .vcvt c => onKind .vx c
  | .vcvtx c => onKind .vx c
  | .vkey c => onKind .vx c
  | .viota c => onKind .vx c
  | .svcfg c => onKind .vx c
  | .svclr c => onKind .vx c
  | .svins c => onKind .vx c
  | .svinsw c => onKind .vx c
  | .alu c _ => onKind .sx c
  | .addi c _ => onKind .sx c
  | .andi c _ => onKind .sx c
  | .ori c _ => onKind .sx c
  | .xori c _ => onKind .sx c
  | .slti c _ => onKind .sx c
  | .sltiu c _ => onKind .sx c
  | .shi c _ => onKind .sx c
  | .lui c _ => onKind .sx c
  | .lb c _ => onKind .sx c
  | .lbu c _ => onKind .sx c
  | .lh c _ => onKind .sx c
  | .lhu c _ => onKind .sx c
  | .lw c _ => onKind .sx c
  | .ld c _ => onKind .sx c
  | .lx c _ => onKind .sx c
  | .sb c _ => onKind .sx c
  | .sh c _ => onKind .sx c
  | .sw c _ => onKind .sx c
  | .sd c _ => onKind .sx c
  | .beq c _ => onKind .sx c
  | .bne c _ => onKind .sx c
  | .blt c _ => onKind .sx c
  | .bge c _ => onKind .sx c
  | .bltu c _ => onKind .sx c
  | .bgeu c _ => onKind .sx c
  | .jal c _ => onKind .sx c
  | .jalr c _ => onKind .sx c
  | .semw c _ => onKind .sx c
  | .sems c _ => onKind .sx c
  | .sxQwait c _ => onKind .sx c
  | .sxQrel c _ => onKind .sx c
  | .steer c _ => onKind .sx c
  | .send c _ => onKind .sx c
  | .move c _ => onKind .sx c
  | .mvsync c _ => onKind .sx c
  | .csrr c _ => onKind .sx c
  | .tstart c _ => onKind .sx c
  | .thalt c _ => onKind .sx c
  | .semaphoreTake c e => isCore c && engineOk c e
  | .commandComplete c e _ => isCore c && isEngine c e
  | .semDeadlock c => isCore c
  | .queueWaitEnd c e => isCore c && waiterOk c e
  | .sequencerQueueRoom c e => isCore c && waiterOk c e
  | .coreError c => isCore c
  | .inboundCommit c => isCore c
  | .correctionRewrite c bank => isCore c && decide (bank < (coreKind c).banks)
  | .patrolScrub c => isCore c
  | .wash c stuck => isCore c && stuckOk c stuck
  | .coreReset c => isCore c
  | .writeArrival _ => true
  | .qsendArrival _ => true
  | .creditArrival _ => true
  | .readArrival _ => true
  | .rdataArrival _ => true
  | .nakReceive _ => true
  | .potCombine c => isCore c
  | .potIdentityWrite c q => isCore c && decide (q < 16)
  | .netrd1Write c _ => isCore c
  | .hubReadCombine _ hx hy => isHub hx hy
  | .linkDown l => linkExists l
  | .routeArm f tabs => isField f && tabs.all (tablesOk f)
  | .routeSwap f => isField f
  | .xpdone c eng => isCore c && waiterOk c eng
  | .xpdoneDeferred c => isCore c
  | .developPoint j stuck => isSlot j && washOk stuck
  | .overrun j => isSlot j
  | .safelightDrainEnd j => isSlot j
  | .safelightStart j => isSlot j
  | .rollBack j stuck => isSlot j && washOk stuck
  | .rollbackRestart j => isSlot j
  | .faultReport f => isField f
  | .tickCompare h => tickCopyOk h
  | .prfmarkBegin c _ => isCore c
  | .prfmarkEnd c => isCore c
  | .prfrun c => isCore c
  | .proofRunStart c => isCore c
  | .prfcmp c _ => isCore c
  | .voteComplete f => isField f
  | .joback c _ => isCore c
  | .registerWrite p c addr _ => registerOk p c addr
  | .clearingRead p tag addr => tagOk tag && pathReadOk p addr
  | .xptickloRead _ f => isField f
  | .ctldataRead _ tag => tagOk tag
  | .configRequest _ tag off _ => tagOk tag && configOk off
  | .windowWriteTlp _ _ off bytes _ => writeOk off bytes
  | .windowReadTlp _ _ tag off len => tagOk tag && readOk off len
  | .inboundReadTimeout _ tag => tagOk tag
  | .outboundWrite _ => true
  | .outboundRead _ => true
  | .outboundCompletion _ tag data => tagOk tag && (data.getD []).length ≤ 2049
  | .fenceComplete _ => true
  | .msixHoldoffEnd _ v => decide (v < 64)
  | .inboxWrite _ off bytes => inboxOk off bytes
  | .inboxctlAbort _ _ => true
  | .packetTake _ => true
  | .commandStart _ => true
  | .keptReplyPost _ s => decide (s < 16)
  | .hello _ => true
  | .bye _ => true
  | .claim _ => true
  | .yield _ => true
  | .sessionStatus _ => true
  | .nop _ => true
  | .openWindow _ => true
  | .closeWindow _ => true
  | .allocRegion _ => true
  | .freeRegion _ => true
  | .setMemmode _ => true
  | .loadJob _ r => readImageOk r
  | .unloadJob _ => true
  | .start _ stuck => washOk stuck
  | .pause _ => true
  | .resume _ => true
  | .preempt _ => true
  | .kill _ stuck => washOk stuck
  | .loadOverlay _ r => readOverlayOk r
  | .applyMode _ => true
  | .commit _ => true
  | .jobStatus _ => true
  | .jobInput _ => true
  | .getTick _ => true
  | .setFallback _ => true
  | .waitExp _ => true
  | .setProofing _ => true
  | .setSdcPolicy _ => true
  | .getNegative _ => true
  | .readErrors _ => true
  | .readOverrun _ => true
  | .runTest _ fails => fails.all failOk
  | .setPowerCap _ => true
  | .setClock _ => true
  | .setFieldPower _ stuck => washOk stuck
  | .readSensors _ => true
  | .fwBegin _ => true
  | .fwBlock _ => true
  | .fwEnd _ => true
  | .fwActivate _ => true
  | .fwStatus _ => true
  | .getIdentity _ => true
  | .spdm _ => true
  | .setDebugHold _ => true
  | .snapshot _ => true
  | .readSnapshot _ => true
  | .snapshotExpiry j => isSlot j
  | .heartbeat => true
  | .takeover => true
  | .ringBreak off => off.all isField
  | .perstAssert _ => true
  | .portReset _ => true
  | .moduleWarmReset => true
  | .functionLevelReset _ => true
  | .cprsntChange _ _ _ => true
  | .linkLoss _ => true
  | .linkReturn _ => true
  | .graceExpiry _ => true
  | .d3hotEntry _ => true
  | .d0Return _ => true
  | .ownerPrefExpiry => true
  | .refclkPresent _ => true
  | .refclkSettled _ => true
  | .refclkLost _ => true
  | .clockLock d => domainOk d
  | .clockRecovery => true
  | .standbyTrim _ => true
  | .clockSwitch f => isField f
  | .clockGate f => isField f
  | .clockUngate f => isField f
  | .supplyWarning mv => railOk mv
  | .supplyWarningClear mv => railOk mv
  | .powerHoldPause j => isSlot j
  | .supplyReset mv => railOk mv
  | .supplyReturn mv => railOk mv
  | .railFault f cause => isField f && decide (1 ≤ cause ∧ cause ≤ 3)
  | .fieldLost f => isField f
  | .tempSample f temps => isField f && decide (temps.length = 48)
  | .throttleStep f => isField f
  | .thermalRestart f stuck => isField f && washOk stuck
  | .coolantStateChange _ => true
  | .powerShare _ draws => draws.all (fun d => isField d.1)
  | .powerLimitStep f => isField f
  | .errorCountSweep f => isField f
  | .testDue f h fails => isField f && isGroup h && fails.all failOk
  | .testDeferExpiry f h => isField f && isGroup h
  | .stackWrite _ => true
  | .stackRead _ => true
  | .stackLost s => decide (s < 16)
  | .stackReturn s => decide (s < 16)
  | .stackRebuildComplete s => decide (s < 16)
  | .fieldReset f stuck fails => isField f && washOk stuck && fails.all failOk
  | .coldPowerOn _ _ => true
  | .startSequenceEnd stuck fails _ => washOk stuck && fails.all (fun e => isField e.1 && failOk e.2)
  | .presentMate => true
  | .presentBreak => true
  | .trialPass _ => true
  | .svcHello seq baud => seqOk seq && decide (baud < 256)
  | .svcBegin seq target size => seqOk seq && decide (target < 256 ∧ size < 2 ^ 32)
  | .svcBlock seq off data => seqOk seq && blockOk off data
  | .svcEnd seq => seqOk seq
  | .svcActivate seq arg => seqOk seq && decide (arg < 256)
  | .svcStatus seq => seqOk seq
  | .getHealth m => mgmtOk m
  | .getRecords m from_ => mgmtOk m && decide (from_ < 2 ^ 32)
  | .setTest m period defer_ => mgmtOk m && decide (period < 2 ^ 32 ∧ defer_ < 2 ^ 16)
  | .moduleReset m _ => mgmtOk m
  | .setAcl m i kind addr => mgmtOk m && decide (i < 256 ∧ kind < 256) && ipOk addr
  | .setAddr m mode ip pre gw => mgmtOk m && decide (mode < 256 ∧ ip < 2 ^ 32 ∧ pre < 256 ∧ gw < 2 ^ 32)
  | .getJobs m => mgmtOk m
  | .setEndpointId m eid => mgmtOk m && decide (eid < 256)
  | .setEventReceiver m recv => mgmtOk m && decide (recv < 256)
  | .sensorPoll vals => vals.all (fun v => decide (v.1 < 2 ^ 16))
  | .recordDelivery _ _ => true
  | .pldmUpdate m u => mgmtOk m && pldmOk u
  | .activateFirmware m _ => mgmtOk m
  | .cancelUpdate m => mgmtOk m
  | .perstDeassert _ _ => true
  | .linkUp _ rate width => linkOk rate width
  | .standbyPowerLoss => true
  | .flitReplay l _ => linkExists l
  | .developHold j => isSlot j
  | .handover => true

end Sys2Proof
end

