-- ==== Sys2Proof/Tests/Slice0.lean ====
section
/-! SUPPORT. Tests: for each clause of each obligation a concrete state that meets its hypotheses, worked examples of the
spec, and one ill-formed command for each check of WellFormed. -/

namespace Sys2Proof.Tests

open Sys2Proof.Machine Sys2Proof.Claims

set_option Elab.async false


/-- Fields 0 and 1 run job 0. -/
def base : State :=
  { fields := ((Vector.replicate 60 {}).set 0 { job := some 0, run := true, lock := true }).set 1 { job := some 0, run := true, logical := 1 }
    jobs := (Vector.replicate 16 {}).set 0 { state := .running, fields := [some 0, some 1] }
    mod := { tsPresent := true, supply := .normal, coolantOk := true } }

def sxC : CoreId := { x := 96, y := 0 }
def mxC : CoreId := { x := 97, y := 0 }
def vxC : CoreId := { x := 99, y := 0 }

/-- A scratchpad with words from address 0 on. -/
def pad (ws : List Word) : KMap Code := ws.zipIdx.foldl (fun m e => KMap.set 0 m e.2 (eccEncode e.1 false)) []

/-- A word of fields (lowest bit, value). -/
def fields (n : Nat) (l : List (Nat × Nat)) : BitVec n := BitVec.ofNat n ((l.map (fun e => e.2 * 2 ^ e.1)).sum)

/-- An MX or VX instruction of opcode `op`. -/
def inI (op : Nat) (l : List (Nat × Nat)) : Inst128 := fields 128 ((0, op) :: l)

/-! ### SX -/

/-- Thread 0 of the SX core stands at a 32-bit instruction at byte 0, with registers `g`. -/
def sxS (x : CoreState) (g : List (Nat × BitVec 32)) (i : Inst32) : State :=
  base.setCore sxC { x with
    run := true
    mem := pad [i.setWidth 64]
    th := x.th.set 0 (g.foldl (fun t e => t.setG e.1 e.2) { x.th.get 0 with run := true }) }

/-- Queue 0 (PLAIN, depth 4, one-word entries), paired with queue 1 where `pen`, holding `n` entries; queue 1 alike. -/
def twoQ (pen : Bool) (n : Nat) : CoreState :=
  { q := ((Vector.replicate 16 {}).set 0 { d := { base := 8, depth := 4, esize := 1, state := 1, pair := 1, pen := pen }, count := n }).set 1
      { d := { base := 16, depth := 4, esize := 1, state := 1, pair := 0, pen := pen }, count := n } }

/-- Opcode `op` with its operands: GD at 6, GA at 10, GB at 14. -/
def sxI (op : Nat) (l : List (Nat × Nat)) : Inst32 := fields 32 ((0, op) :: l)

/-- Integer instructions and taken and untaken branches, at operand 0. -/
theorem hyp_sx_integer : ∀ op ∈ [0, 1, 2, 3, 4, 5, 6, 7, 8, 0x20, 0x21, 0x22, 0x23, 0x24, 0x25, 0x26, 0x27, 0x32, 0x38, 0x3E],
    SxAt (sxS {} [] (sxI op [])) sxC 0 op (sxI op []) ∧ SxRoom (sxS {} [] (sxI op [])) sxC 0 := by
  simp only [SxAt, SxRoom, sxPc]; decide +kernel

/-- A branch and a jump to the last slot, 0x7FFC, and a JALR to it through a register. -/
theorem hyp_sx_jump_end :
    (let i := sxI 0x20 [(14, 0x1FFF)]
     SxAt (sxS {} [] i) sxC 0 0x20 i ∧ ((0 : BitVec 15).setWidth 32 + (i.extractLsb' 14 18).signExtend 32 * 4 : BitVec 32).toNat = 0x7FFC) ∧
    (let i := sxI 0x26 [(10, 0x1FFF)]
     SxAt (sxS {} [] i) sxC 0 0x26 i ∧ ((0 : BitVec 15).setWidth 32 + (i.extractLsb' 10 22).signExtend 32 * 4 : BitVec 32).toNat = 0x7FFC) ∧
    (let i := sxI 0x27 [(10, 1)]
     let s := sxS {} [(1, 0x7FFC)] i
     SxAt s sxC 0 0x27 i ∧ (sxA s sxC 0 i + (i.extractLsb' 14 18).signExtend 32).toNat = 0x7FFC) := by
  simp only [SxAt]; decide +kernel

/-- Loads and stores at the last aligned address of the scratchpad. -/
theorem hyp_sx_memory : ∀ e ∈ [(0x10, 1), (0x11, 1), (0x12, 2), (0x13, 2), (0x14, 4), (0x15, 8), (0x18, 1), (0x19, 2), (0x1A, 4), (0x1B, 8)],
    let i := sxI e.1 [(10, 1), (14, 0x3FFFF)]
    let s := sxS {} [(1, BitVec.ofNat 32 (0x8001 - e.2))] i
    SxAt s sxC 0 e.1 i ∧ SxRoom s sxC 0 ∧ s.memWf = true ∧ SxMem (s.core sxC) (sxEa s sxC 0 i) e.2 ∧
      (sxEa s sxC 0 i).toNat = 0x8000 - e.2 := by
  simp only [SxAt, SxRoom, sxPc, SxMem]; decide +kernel

/-- LD and SD at 0x8000, LX of four bytes at 0x7FFE, and a JALR to 0x102. -/
theorem hyp_sx_bad :
    (∀ op ∈ [0x15, 0x1B],
      let i := sxI op [(10, 1)]
      let s := sxS {} [(1, 0x8000)] i
      SxAt s sxC 0 op i ∧ (s.core sxC).err = false ∧ (sxEa s sxC 0 i).toNat = 0x8000) ∧
    (let i := sxI 0x16 [(10, 1), (20, 2)]
     let s := sxS {} [(1, 0x7FFE)] i
     SxAt s sxC 0 0x16 i ∧ (sxA s sxC 0 i + (sxB s sxC 0 i <<< sfld i 18 2)).toNat = 0x7FFE ∧ 2 ^ sfld i 20 2 = 4) ∧
    (let i := sxI 0x27 [(10, 1)]
     let s := sxS {} [(1, 0x102)] i
     SxAt s sxC 0 0x27 i ∧ (sxEa s sxC 0 i).toNat = 0x102) := by
  simp only [SxAt]; refine ⟨?_, ?_, ?_⟩ <;> decide +kernel

/-- LD at 0x7FFF. -/
theorem hyp_sx_misaligned :
    (let i := sxI 0x15 [(10, 1)]
     let s := sxS {} [(1, 0x7FFF)] i
     SxAt s sxC 0 0x15 i ∧ (sxEa s sxC 0 i).toNat = 0x7FFF) := by
  simp only [SxAt]; decide +kernel

/-- Each code at the boundary of its range. -/
theorem hyp_sx_bad_addr : SxBadAddr 0x7FFF 8 0x08 ∧ SxBadAddr 0x7FFE 4 0x08 ∧ SxBadAddr 0x8000 8 0x02 := by
  simp only [SxBadAddr]; decide

/-- LX of each size at index 1. -/
theorem hyp_sx_lx : ∀ z ∈ [0, 1, 2],
    let i := sxI 0x16 [(10, 1), (14, 2), (18, z), (20, z)]
    let s := sxS {} [(1, 0x100), (2, 1)] i
    SxAt s sxC 0 0x16 i ∧ SxMem (s.core sxC) (sxA s sxC 0 i + (sxB s sxC 0 i <<< sfld i 18 2)) (2 ^ sfld i 20 2) := by
  simp only [SxAt, SxMem]; decide +kernel

/-- SEMW with a count of 1 and of 0; SEMS at 254. -/
theorem hyp_sx_semaphores :
    (let i := sxI 0x28 []
     SxAt (sxS { sem := (Vector.replicate 16 0).set 0 1 } [] i) sxC 0 0x28 i ∧ SxAt (sxS {} [] i) sxC 0 0x28 i ∧
       ((sxS {} [] i).core sxC).semCount 0 = 0) ∧
    (let i := sxI 0x29 []
     let s := sxS { sem := (Vector.replicate 16 0).set 0 254 } [] i
     SxAt s sxC 0 0x29 i ∧ (s.core sxC).semCount (sGa i) < 255) := by
  simp only [SxAt]; decide +kernel

/-- QWAIT for 4 entries of a queue of depth 4 that holds 4, and 3; QREL of all 4. -/
theorem hyp_sx_queues :
    (let i := sxI 0x2A [(20, 4)]
     SxAt (sxS (twoQ false 4) [] i) sxC 0 0x2A i ∧ SxAt (sxS (twoQ false 3) [] i) sxC 0 0x2A i ∧ nfld i.toNat 20 12 = 4) ∧
    (let i := sxI 0x2B [(20, 4)]
     let s := sxS (twoQ false 4) [] i
     let q := (s.core sxC).q.get (BitVec.ofNat 4 (sGa i))
     SxAt s sxC 0 0x2B i ∧ q.d.state ≠ 0 ∧ q.d.mode = 0 ∧ q.d.pen = false ∧ q.d.cren = false ∧ q.count = 4 ∧ q.d.depth = 4 ∧
       q.d.esize ≠ 0) := by
  simp only [SxAt]; decide +kernel

/-- STEER of two paired queues of one entry each. -/
theorem hyp_sx_steer :
    let i := sxI 0x2C [(14, 1), (18, 2)]
    let s := sxS (twoQ true 1) [] i
    let q := (s.core sxC).q.get (BitVec.ofNat 4 (sGa i))
    let p := (s.core sxC).q.get (BitVec.ofNat 4 (sGb i))
    SxAt s sxC 0 0x2C i ∧ SxRoom s sxC 0 ∧ sGa i ≠ sGb i ∧ q.d.state ≠ 0 ∧ p.d.state ≠ 0 ∧ q.d.pen = true ∧ p.d.pen = true ∧
      q.d.pair.toNat = sGb i ∧ p.d.pair.toNat = sGa i ∧ 0 < q.count ∧ 0 < p.count ∧ i.getLsbD 22 = false ∧
      (s.core sxC).clean (q.entryAddr q.head) = true ∧ (s.core sxC).clean (p.entryAddr p.head) = true := by
  simp only [SxAt, SxRoom, sxPc]; decide +kernel

/-- SEND to the MX core of the field; MOVE of the last word behind a busy move engine; MVSYNC with one move left. -/
theorem hyp_sx_send_move :
    (let i := sxI 0x30 [(10, 2), (14, 4)]
     let s := sxS {} [(2, BitVec.ofNat 32 (97 * 2 ^ 34 + 5)), (3, BitVec.ofNat 32 (97 * 2 ^ 2))] i
     let da := (pairOf s sxC 0 (sGa i)).toNat % 2 ^ 48
     SxAt s sxC 0 0x30 i ∧ nfld da 44 4 = 0 ∧ nfld da 16 8 = 0 ∧ daTarget da = mxC ∧ (coreField sxC).isSome = true ∧
       coreField (daTarget da) = coreField sxC ∧ (s.core sxC).held = [] ∧ (s.core sxC).xpdWait = []) ∧
    (let i := sxI 0x31 [(10, 1)]
     let s := sxS { e2 := { prog := [{}] }, th := (Vector.replicate 4 {}).set 0 { moves := 1 } } [(1, 0x7FF8)] i
     let src := (s.core sxC).gReg 0 (sGa i)
     SxAt s sxC 0 0x31 i ∧ src.toNat % 8 = 0 ∧ src.toNat < 0x8000 ∧ (s.core sxC).e2.queue.length < 8 ∧ (s.core sxC).e2.prog ≠ [] ∧
       (s.core sxC).e1.queue = [] ∧ (s.core sxC).e3.queue = []) ∧
    (let i := sxI 0x32 []
     let s := sxS { th := (Vector.replicate 4 {}).set 0 { moves := 1 } } [] i
     SxAt s sxC 0 0x32 i ∧ ((s.core sxC).thread 0).moves ≠ 0) := by
  simp only [SxAt]; decide +kernel

/-- CSRR of each register that is claimed; TSTART of thread 3. -/
theorem hyp_sx_threads :
    (∀ n ∈ [0, 1, 2, 0x10, 0x11, 0x20], let i := sxI 0x38 [(14, n)]
      SxAt (sxS {} [] i) sxC 0 0x38 i ∧ nfld i.toNat 14 18 = n) ∧
    (let i := sxI 0x3C [(10, 1), (14, 2)]
     let s := sxS {} [(1, 3), (2, 0x7FFC)] i
     SxAt s sxC 0 0x3C i ∧ ((s.core sxC).thread 3).run = false ∧ ((s.core sxC).gReg 0 (sGb i)).toNat = 0x7FFC) := by
  simp only [SxAt]; decide +kernel

/-! ### Sequencers and engines -/

/-- The sequencer of `c` stands at the 128-bit instruction `i` at word 0. -/
def seqS (c : CoreId) (x : CoreState) (i : Inst128) : State :=
  base.setCore c { x with run := true, mem := pad [i.extractLsb' 0 64, i.extractLsb' 64 64] }

/-- Every sequencer instruction and engine command at one legal word (opcode, engine or 0, fields above the header). -/
def mxWords : List (Nat × Nat × List (Nat × Nat)) :=
  [(0x00, 0, []), (0x1F, 0, []), (0x10, 0, [(24, 0x1FFF)]), (0x10, 0, [(20, 7), (23, 1), (24, 0x1FFF)]), (0x11, 0, [(20, 7), (24, 0xFFFFFFFF)]),
   (0x11, 0, [(23, 1), (27, 0x17FF)]), (0x12, 0, [(20, 1), (21, 0xFFFF), (37, 255), (46, 127)]), (0x12, 0, [(37, 3)]), (0x13, 0, [(24, 1)]),
   (0x14, 0, [(24, 1)]), (0x01, 1, []), (0x02, 1, []), (0x03, 1, []), (0x04, 1, []), (0x05, 1, [(20, 1), (26, 63)]),
   (0x08, 2, [(36, 2), (64, 97 * 2 ^ 34)])]
def vxWords : List (Nat × Nat × List (Nat × Nat)) :=
  [(0x00, 0, []), (0x1F, 0, []), (0x10, 0, [(96, 0x1FFF)]), (0x10, 0, [(45, 7), (48, 1)]), (0x11, 0, [(68, 7), (96, 0xFFFFFFFF)]),
   (0x12, 0, [(45, 1), (96, 0xFFFF), (112, 255), (121, 127)]), (0x12, 0, [(112, 3)]), (0x13, 0, [(76, 1)]), (0x14, 0, [(76, 1)]),
   (0x08, 2, [(36, 2), (64, 99 * 2 ^ 34)]), (0x20, 1, []), (0x21, 1, []), (0x30, 1, [(40, 3), (45, 13)]), (0x31, 1, []), (0x32, 1, [(45, 3)]),
   (0x33, 1, []), (0x34, 1, [(40, 3)]), (0x35, 1, [(45, 4)]), (0x36, 1, []), (0x37, 1, []), (0x38, 1, []), (0x39, 1, [(40, 3)]),
   (0x50, 3, []), (0x51, 3, []), (0x52, 3, []), (0x53, 3, [(76, 1)])]

/-- Each stands ready at reset registers; an engine command finds its engine free, whatever words it reads are clean. -/
theorem hyp_mx_words : ∀ e ∈ mxWords, let i := inI e.1 e.2.2
    SeqAt (seqS mxC {} i) mxC .mx e.1 i ∧ NoSem i ∧ (e.2.1 ≠ 0 → EngineAt (seqS mxC {} i) mxC .mx e.2.1 e.1 i) := by
  simp only [EngineAt, SeqAt, SeqHas, NoSem, SemFree]; decide +kernel
theorem hyp_vx_words : ∀ e ∈ vxWords, let i := inI e.1 e.2.2
    SeqAt (seqS vxC {} i) vxC .vx e.1 i ∧ NoSem i ∧ (e.2.1 ≠ 0 → EngineAt (seqS vxC {} i) vxC .vx e.2.1 e.1 i) ∧
      (seqS vxC {} i).core vxC = { (seqS vxC {} i).core vxC with acc := [] } ∧ ((seqS vxC {} i).core vxC).memWf = true := by
  simp only [EngineAt, SeqAt, SeqHas, NoSem, SemFree]; decide +kernel

/-- A no-op with WEN and SEN on one semaphore: counts 1, 255 (taken to 254 first) and 0. -/
theorem hyp_seq_semaphores : ∀ n ∈ [(1 : BitVec 8), 255, 0],
    let i := inI 0 [(8, 15), (12, 1), (13, 15), (17, 1)]
    let s := seqS mxC { sem := (Vector.replicate 16 0).set 15 n } i
    SeqAt s mxC .mx 0 i ∧ iWen i = true ∧ iSen i = true ∧ (n ≠ 0 → 0 < (s.core mxC).semCount (iWsem i)) ∧
      (n ≠ 0 → (semTaken (s.core mxC) i).get (BitVec.ofNat 4 (iSsem i)) ≠ 255) ∧ (n = 0 → (s.core mxC).semCount (iWsem i) = 0) := by
  simp only [SeqAt, SeqHas]; decide +kernel

/-- A no-op that a queue wait has replaced, and may have been fetched before. -/
theorem hyp_seq_replaced :
    let i := inI 0x13 [(24, 4)]
    let e : Stale := { thread := 0, pc := 0, lo := eccEncode ((inI 0 []).extractLsb' 0 64) false, hi := eccEncode ((inI 0 []).extractLsb' 64 64) false }
    let s := seqS mxC { stale := [e] } i
    let x := s.core mxC
    let old := (eccDecode e.hi).data ++ (eccDecode e.lo).data
    coreKind mxC = .mx ∧ s.seqReady mxC = true ∧ x.pc.toNat = 0 ∧ x.earlier 0 0 = [e] ∧ x.clean 0 = true ∧ x.clean 1 = true ∧
      (eccDecode e.lo).bad = false ∧ (eccDecode e.hi).bad = false ∧ iOpc old = 0 ∧ x.decodes .mx old = true ∧ NoSem old ∧
      iOpc (x.data 1 ++ x.data 0) = 0x13 := by
  simp only [NoSem]; decide +kernel

/-- Spec/03 R87: a write on the third instruction ahead keeps what it held; one on the fifth does not. -/
theorem test_write_over_program :
    let x : CoreState := { run := true, pc := 8, mem := [(12, 77)] }
    let y := CoreState.writeBeat .mx x [{ w := 13, data := 1, mask := 0xFF, poison := false }, { w := 16, data := 1, mask := 0xFF, poison := false }]
    y.stale = [{ thread := 0, pc := 12, lo := 77, hi := 0 }] := by decide +kernel

/-- The first no-op is a loop's body of one instruction: the last pass, and one before it. MXSETSC of the last word;
both loop instructions nest legally, and a COUNT of 0. -/
theorem hyp_seq_loops :
    (∀ n ∈ [(1 : BitVec 16), 2], let s := seqS mxC { loop0 := some { start := 0, len := 1, adv := 0xFE }, lc0 := n } (inI 0 [])
      SeqAt s mxC .mx 0 (inI 0 []) ∧ (s.core mxC).loop1 = none ∧ ∃ l, (s.core mxC).loop0 = some l ∧
        (s.core mxC).pc + 2 = l.start + BitVec.ofNat 13 (2 * l.len)) ∧
    (let i := inI 0x11 [(23, 1), (27, 0x17FF)]
     CleanRun .mx ((seqS mxC {} i).core mxC) [0x17FF]) ∧
    ((seqS mxC {} (inI 0x12 [(20, 0), (21, 0xFFFF), (37, 255)])).core mxC).loopLegal 0 255 = true ∧
    ((seqS vxC { loop0 := some { start := 0, len := 255, adv := 0 } } (inI 0x12 [(45, 1), (96, 0xFFFF), (112, 254)])).core vxC).loopLegal 1 254 = true := by
  refine ⟨?_, ?_, ?_, ?_⟩
  · simp only [SeqAt, SeqHas]
    intro n h
    fin_cases h <;> exact ⟨by decide +kernel, by decide +kernel, _, rfl, by decide +kernel⟩
  · simp only [CleanRun]; decide +kernel
  · decide +kernel
  · decide +kernel

/-- QWAIT of all 4 entries of a queue of depth 4, with 4 and with 3 there; QREL of them, and behind a busy engine. -/
theorem hyp_seq_queues :
    let i := inI 0x13 [(24, 4)]
    let r := inI 0x14 [(24, 4)]
    SeqAt (seqS mxC (twoQ false 4) i) mxC .mx 0x13 i ∧ SeqAt (seqS mxC (twoQ false 3) i) mxC .mx 0x13 i ∧
      SeqAt (seqS mxC (twoQ false 4) r) mxC .mx 0x14 r ∧ SeqAt (seqS mxC { twoQ false 4 with e1 := { prog := [{}] } } r) mxC .mx 0x14 r ∧
      (let q := ((seqS mxC (twoQ false 4) r).core mxC).q.get 0
       q.d.state ≠ 0 ∧ q.d.mode = 0 ∧ q.d.esize ≠ 0 ∧ q.d.pen = false ∧ q.d.cren = false ∧ q.count = 4 ∧ q.d.depth = 4) := by
  simp only [SeqAt, SeqHas]; decide +kernel

/-- MXLDS of a full 8-bit tile (8 rows of 16) with its data, MXLDACC of rows 62 and 63, MXCLRACC of rows 1 to 63 in both kinds. -/
theorem hyp_mx_loads :
    (let i := inI 1 [(27, 2), (40, 2), (48, 8), (52, 16)]
     let s := seqS mxC {} i
     let o : Operand := { base := (s.core mxC).addrOf 0 2, pitch := 2, tr := false, fmt := 0 }
     EngineAt s mxC .mx 1 1 i ∧ (s.core mxC).shadow = none ∧ ∀ r < 8, ∀ n < 16, o.word r n < 6144 ∧ (s.core mxC).clean (o.word r n) = true) ∧
    (let i := inI 4 [(20, 62), (26, 2), (33, 1), (37, 2), (50, 32)]
     let s := seqS mxC {} i
     EngineAt s mxC .mx 1 4 i ∧ KMap.rising (s.core mxC).acc = true ∧
       ∀ r < 2, ∀ j < 32, 2 + r * 32 + j < 6144 ∧ (s.core mxC).clean (2 + r * 32 + j) = true) ∧
    (let i := inI 5 [(20, 1), (26, 63), (33, 1)]
     let s := seqS mxC { acc := [(0, 1), (1023, 2)] } i
     EngineAt s mxC .mx 1 5 i ∧ (s.core mxC).memWf = true ∧ KMap.rising (s.core mxC).acc = true) := by
  simp only [EngineAt, SeqAt, SeqHas, SemFree]; refine ⟨?_, ?_, ?_⟩ <;> decide +kernel

/-- MXMMA: weight-stationary with SWAP and START over one row, and without START; output-stationary over two steps. -/
theorem hyp_mx_mma :
    (∀ st ∈ [0, 1],
     let i := inI 2 [(29, 8), (42, 2), (50, 1), (57, 63), (63, st), (64, 1)]
     let s := seqS mxC { shadow := some { fmt := 0, kv := 2, nv := 1, el := [1, 2] } } i
     EngineAt s mxC .mx 1 2 i ∧ (s.core mxC).shadow.isSome = true ∧ pairingOk 0 0 = true ∧ KMap.rising (s.core mxC).acc = true ∧
       (s.core mxC).rowFp 63 = false ∧
       (let o : Operand := { base := (s.core mxC).addrOf 0 8, pitch := 2, tr := false, fmt := 0 }
        CleanRun .mx (s.core mxC) [o.word 0 0, o.word 0 1])) ∧
    (let i := inI 2 [(20, 2), (29, 8), (42, 1), (50, 2), (63, 1), (73, 16), (86, 1), (94, 2), (98, 3)]
     let s := seqS mxC {} i
     EngineAt s mxC .mx 1 2 i ∧ pairingOk 0 0 = true ∧
       (let b : Operand := { base := (s.core mxC).addrOf 0 8, pitch := 1, tr := false, fmt := 0 }
        let f : Operand := { base := (s.core mxC).addrOf 0 16, pitch := 1, tr := false, fmt := 0 }
        (∀ r < 2, ∀ j < 2, CleanRun .mx (s.core mxC) [b.word j r]) ∧ ∀ j < 2, ∀ n < 3, CleanRun .mx (s.core mxC) [f.word j n])) := by
  simp only [EngineAt, SeqAt, SeqHas, SemFree, CleanRun]; refine ⟨?_, ?_⟩ <;> decide +kernel

/-- MXCVT of two integer rows to 16 XACC entries, and of one floating-point row to 8 FP32 entries. -/
theorem hyp_mx_cvt :
    ∀ e ∈ [([(20, 0), (26, 2), (33, 16), (38, 7), (53, 4), (66, 32)], false), ([(20, 63), (26, 1), (33, 8), (38, 5), (53, 4)], true)],
    let i := inI 3 e.1
    let s := seqS mxC { accFp := Vector.replicate 64 e.2 } i
    EngineAt s mxC .mx 1 3 i ∧ ((s.core mxC).rowFp 63 = true → DFmt.ofCode (nfld i.toNat 38 3) ≠ .xacc ∧ nfld i.toNat 33 5 ≤ 8) ∧
      ∀ r < nfld i.toNat 26 7, ∀ w ∈ packWords ((s.core mxC).addrOf 0 4 + r * 32) (DFmt.ofCode (nfld i.toNat 38 3)).width
        ((List.range (nfld i.toNat 33 5)).map (fun e => (cvtEntry (DFmt.ofCode (nfld i.toNat 38 3)) false ((s.core mxC).rowFp r)
          ((s.core mxC).accGet r e) 0x3F80_0000).bits)), w.w < 6144 := by
  simp only [EngineAt, SeqAt, SeqHas, SemFree]; decide +kernel

/-- MXCVT of nine entries of an FP32 row, which is illegal. -/
theorem hyp_mx_cvt_illegal :
    let i := inI 3 [(20, 63), (26, 1), (33, 9), (38, 5), (53, 4)]
    let s := seqS mxC { accFp := Vector.replicate 64 true } i
    SeqHas s mxC .mx 3 i ∧ instLegal .mx i = true ∧ (s.core mxC).e1.queue = [] ∧ 8 < nfld i.toNat 33 5 ∧ 0 < nfld i.toNat 26 7 ∧
      (s.core mxC).rowFp (nfld i.toNat 20 6 + 0) = true ∧ (s.core mxC).err = false := by
  simp only [SeqHas]; decide +kernel

/-- Operand words: VLD and VST across the end of the scratchpad, VCVTX of 32 entries, a list of two pairs at word 8,191, a window of
two candidates, a new list beside a valid one. -/
theorem hyp_vx_operands :
    (let i := inI 0x21 [(55, 8191)]
     let s := seqS vxC {} i
     EngineAt s vxC .vx 1 0x21 i ∧ (s.core vxC).memWf = true ∧ CleanRun .vx (s.core vxC) (wordsFrom (vxWord (s.core vxC) i) 16)) ∧
    (let i := inI 0x37 [(55, 100)]
     let s := seqS vxC {} i
     EngineAt s vxC .vx 1 0x37 i ∧ CleanRun .vx (s.core vxC) (wordsFrom (vxWord (s.core vxC) i) 64)) ∧
    (let i := inI 0x53 [(55, 64), (76, 2)]
     let s := seqS vxC { lists := (Vector.replicate 16 {}).set 0 { base := 8191, km1 := 1, valid := true } } i
     EngineAt s vxC .vx 3 0x53 i ∧ ((s.core vxC).lists.get 0).valid = true ∧ (s.core vxC).memWf = true ∧
       CleanRun .vx (s.core vxC) [8191, 0] ∧ CleanRun .vx (s.core vxC) (wordsFrom (vxWord (s.core vxC) i) 2)) ∧
    (let i := inI 0x50 [(55, 62), (72, 1), (96, 1)]
     let s := seqS vxC { lists := (Vector.replicate 16 {}).set 0 { base := 64, km1 := 1, valid := true } } i
     EngineAt s vxC .vx 3 0x50 i ∧ vxWord (s.core vxC) i + 1 + 1 ≤ 8192 ∧
       ∀ m : Fin 16, m.val ≠ 1 → ((s.core vxC).lists.get (BitVec.ofNat 4 m.val)).valid = true →
         64 ≤ ((s.core vxC).lists.get (BitVec.ofNat 4 m.val)).base.toNat) := by
  simp only [EngineAt, SeqAt, SeqHas, SemFree, CleanRun]; refine ⟨?_, ?_, ?_, ?_⟩ <;> decide +kernel

/-- A move of two words to another core of the field. -/
theorem hyp_moves :
    ∀ e ∈ [(Kind.mx, mxC, vxC), (Kind.vx, vxC, mxC)],
    let i := inI 8 [(36, 2), (64, e.2.2.x * 2 ^ 34)]
    let s := seqS e.2.1 {} i
    EngineAt s e.2.1 e.1 2 8 i ∧ CleanRun e.1 (s.core e.2.1) (wordsFrom ((s.core e.2.1).addrOf 0 0) 2) ∧
      (let da := nfld i.toNat 64 48
       nfld da 44 4 = 0 ∧ nfld da 16 8 = 0 ∧ daTarget da = e.2.2 ∧ (coreField e.2.1).isSome = true ∧
         coreField (daTarget da) = coreField e.2.1 ∧ (s.core e.2.1).prf.requests = []) := by
  simp only [EngineAt, SeqAt, SeqHas, SemFree, CleanRun]; decide +kernel

/-! ### Core events -/

/-- A running core. -/
def coreS (c : CoreId) (x : CoreState) : State := base.setCore c { x with run := true }

/-- Its field is clocked, its engines work, it issues: what the core events assume. -/
theorem hyp_runs (c : CoreId) (x : CoreState) (hc : coreField c = some 0) (he : x.err = false) (hs : x.stopped = false) :
    Clocked (coreS c x) c ∧ Works (coreS c x) c ∧ Runs (coreS c x) c := by
  have hw : Works (coreS c x) c := ⟨0, 0, hc, rfl, rfl, rfl, rfl, rfl, by simp [coreS, he]⟩
  refine ⟨⟨0, hc, rfl, rfl, rfl⟩, hw, hw, fun j h => ?_, by simp [coreS, hs]⟩
  rw [State.coreJob, hc] at h
  obtain rfl : j = 0 := by
    have h' : (some 0 : Option Nat) = some j := h
    cases h'; rfl
  rfl

/-- An array command with SEN at a count of 254 in progress; a move of an SX thread; the same with part of it not committed. -/
def doneCmd : Cmd := { inst := inI 5 [(13, 15), (17, 1)] }
def ownRow : Row := { words := [], kind := .plain, send := 0, own := true, staged := false, src := { ptype := 0 } }
theorem hyp_completion :
    (let x := (coreS mxC { e1 := { prog := [doneCmd] }, sem := (Vector.replicate 16 0).set 15 254 }).core mxC
     NoQueued x ∧ x.prf.running = none ∧ (x.engine 1).prog[0]? = some doneCmd ∧ iSen doneCmd.inst = true ∧ x.semCount (iSsem doneCmd.inst) < 255) ∧
    (let x := (coreS vxC { e2 := { prog := [{}] }, e3 := { prog := [{}] } }).core vxC
     NoQueued x ∧ (x.engine 2).prog[0]? = some ({} : Cmd) ∧ (x.engine 3).prog[0]? = some ({} : Cmd) ∧ x.sendPending 2 = false) ∧
    (let x := (coreS sxC { e2 := { prog := [{ thread := 3 }] } }).core sxC
     NoQueued x ∧ x.prf.running = none ∧ (x.engine 2).prog[0]? = some ({ thread := 3 } : Cmd) ∧ x.sendPending 4 = false) ∧
    (let x := (coreS mxC { e2 := { prog := [{}] }, rows := [ownRow] }).core mxC
     NoQueued x ∧ (x.engine 2).prog[0]? = some ({} : Cmd) ∧ x.sendPending 2 = true) := by
  simp only [NoQueued]; decide +kernel

/-- Threads 1 to 3 wait on semaphore 15, thread 0 on queue 0 for 4 entries. -/
def waiters : CoreState :=
  { twoQ false 4 with
    th := (Vector.replicate 4 { run := true, wait := .sem 15 }).set 0 { run := true, wait := .queue 0 4 }
    sem := (Vector.replicate 16 0).set 15 1 }

theorem hyp_waits :
    (let x := (coreS mxC { hold := .sem 15, sem := (Vector.replicate 16 0).set 15 1 }).core mxC
     x.prf.running = none ∧ x.hold = .sem 15 ∧ iOpc x.heldInst = 0 ∧ iSen x.heldInst = false ∧ 0 < x.semCount 15) ∧
    (let s := coreS sxC waiters
     let x := s.core sxC
     (x.thread 1).run = true ∧ (x.thread 1).wait = .sem 15 ∧ 0 < x.semCount 15 ∧ (∀ d : Fin 4, (x.thread d.val).wait = .sem 15 → (1 + 3 - x.sxLast.toNat) % 4 ≤ (d.val + 3 - x.sxLast.toNat) % 4) ∧
       SxRoom s sxC 1 ∧ (sxPc s sxC 1).toNat % 4 = 0 ∧ (x.thread 0).run = true ∧ (x.thread 0).wait = .queue 0 4 ∧ 4 ≤ (x.q.get 0).count ∧
       SxRoom s sxC 0) ∧
    (let cmd : Cmd := { inst := inI 5 [(8, 15), (12, 1), (20, 63), (26, 1)] }
     let x := (coreS mxC { e1 := { queue := [cmd], waiting := true }, sem := (Vector.replicate 16 0).set 15 1 }).core mxC
     x.e1 = { queue := [cmd], prog := [], waiting := true } ∧ iOpc cmd.inst = 5 ∧ iWsem cmd.inst = 15 ∧ iWen cmd.inst = true ∧
       0 < x.semCount 15 ∧ x.hold ≠ .sem 15 ∧ nfld cmd.inst.toNat 20 6 + nfld cmd.inst.toNat 26 7 = 64 ∧ KMap.rising x.acc = true) ∧
    (∀ n ∈ [3, 4], let x := (coreS mxC { twoQ false n with hold := .queue 0 4 }).core mxC
     x.hold = .queue 0 4 ∧ (x.q.get 0).count = n ∧ iSen x.heldInst = false) ∧
    (let x := (coreS mxC { hold := .full, heldInst := inI 5 [], e1 := { queue := List.replicate 7 {}, waiting := true } }).core mxC
     x.hold = .full ∧ iOpc x.heldInst = 5 ∧ x.e1.waiting = true ∧ x.e1.queue.length = 7) ∧
    (let x := (coreS sxC { e2 := { queue := List.replicate 7 {} }, th := (Vector.replicate 4 {}).set 3 { run := true, wait := .room } }).core sxC
     (x.thread 3).wait = .room ∧ x.e2.queue.length = 7) := by
  simp only [SxRoom, sxPc]; refine ⟨?_, ?_, ?_, ?_, ?_, ?_⟩ <;> decide +kernel

/-- Every thread waits on semaphore 0; and thread 3 does not. -/
theorem hyp_deadlock :
    (let x := (coreS sxC { th := Vector.replicate 4 { run := true, wait := .sem 0 } }).core sxC
     (∀ d : Fin 4, (x.thread d.val).run = true ∧ (x.thread d.val).wait = .sem 0) ∧ x.semCount 0 = 0) ∧
    (let x := (coreS sxC { th := (Vector.replicate 4 { run := true, wait := .sem 0 }).set 3 { run := true } }).core sxC
     (x.thread 3).run = true ∧ ∀ p, (x.thread 3).wait ≠ .sem p) := by
  refine ⟨by decide +kernel, by decide +kernel, fun p h => ?_⟩
  exact absurd h (by rw [show ((coreS sxC { th := (Vector.replicate 4 { run := true, wait := .sem 0 }).set 3 { run := true } }).core sxC).thread 3
    = { run := true } by decide +kernel]; simp)

/-- One word of a row at the last word of the SX scratchpad. -/
def rowW (k : RowKind) (w : Nat) (m : BitVec 8) (st : Bool) : Row :=
  { words := [{ w := w, data := 5, mask := m, poison := true }], kind := k, send := 0, own := false, staged := st, src := { ptype := 0 } }

theorem hyp_scratchpad :
    (let x := (coreS sxC { rows := [rowW .plain 4095 1 false] }).core sxC
     (coreS sxC { rows := [rowW .plain 4095 1 false] }).memWf = true ∧ 4095 < (coreKind sxC).words ∧ x.clean 4095 = true) ∧
    (∀ st ∈ [true, false],
     let x0 : CoreState := twoQ false 0
     let q0 := x0.q.get 0
     let x : CoreState := { x0 with rows := [rowW (.entries 0 7) 8 0xFF st], q := x0.q.set 0 { q0 with rsv := [{ id := 7, entries := 1, staged := st }] } }
     (x.q.get 0).d.mode = 0 ∧ (x.q.get 0).d.esize = 1 ∧ (x.q.get 0).rsv = [{ id := 7, entries := 1, done := 0, counted := 0, staged := st }] ∧
       (coreS sxC x).memWf = true) ∧
    (let x : CoreState := { rewrites := [(0, (4, 9)), (3, (7, 9))] }
     (coreS sxC x).memWf = true ∧ KMap.has x.rewrites 3 = true ∧ KMap.get (0, 0) x.rewrites 3 = (7, 9) ∧ KMap.rising x.rewrites = true ∧
       KMap.has x.rewrites 1 = false) ∧
    (let x : CoreState := { sp := { scrubRow := (coreKind sxC).rows - 1 } }
     x.sp.scrubEn = true ∧ ∀ i < (coreKind sxC).banks, x.clean (x.sp.scrubRow * (coreKind sxC).banks + i) = true) ∧
    (let x : CoreState := { mem := [(2, 4)] }
     (coreS sxC x).memWf = true ∧ x.sp.scrubEn = true ∧ (∀ d < (coreKind sxC).banks, d ≠ 2 → x.clean d = true) ∧
       (x.dec 2).outcome = .corrected1 ∧ (x.dec 2).poison = false ∧ KMap.has x.rewrites 2 = false) := by
  refine ⟨?_, ?_, ?_, ?_, ?_⟩ <;> decide +kernel

/-- A core error (POISON, 5, and another) in the running job; a wash and a reset in a field that runs no job. -/
theorem hyp_errors :
    (∀ n ∈ [(5 : BitVec 8), 0x41], let s := base.setCore mxC { err := true, errCode := n }
     s.coreJob mxC = some 0 ∧ (s.job 0).state = .running ∧ (s.core mxC).err = true ∧ (s.core mxC).errTaken = false ∧
       (mxC, (s.job 0).expNo) ∉ (s.job 0).poisonAt) ∧
    (let s : State := { fields := (Vector.replicate 60 {}).set 0 { run := true } }
     coreField mxC = some 0 ∧ (s.field 0).job = none ∧ (s.field 0).power = 0 ∧ KMap.rising s.cores = true ∧ mxC ∉ (s.field 0).pendFence ∧
       (s.field 0).run = true ∧ 6143 < (coreKind mxC).words ∧ s.code mxC = 0) := by
  decide +kernel

/-- A pot slot with room for one contribution, with none left, and with an identity to write. -/
def potQ (n : Nat) (ids : List Nat) : Queue :=
  { d := { base := 64, depth := 2, esize := 1, mode := 2, state := 1, expect := 2 }
    head := 1
    slots := [(1, { contrib := n })]
    idWrites := ids }
def potS (n : Nat) (ids : List Nat) (rows : List Row) : State :=
  coreS mxC { rows := rows, q := (Vector.replicate 16 {}).set 15 (potQ n ids) }
theorem hyp_pots :
    ∀ n ∈ [1, 2],
    let s := potS n [] [rowW (.pot 15 1) 65 0xFF false]
    let q := (s.core mxC).q.get 15
    s.memWf = true ∧ q.d.mode = 2 ∧ 1 < q.d.depth.toNat ∧ q.d.base.toNat + 1 < (coreKind mxC).words ∧ (KMap.get {} q.slots 1).contrib = n ∧
      1 ∉ q.idWrites ∧ q.d.expect = 2 ∧ (s.core mxC).clean 65 = true ∧ (s.core mxC).err = false ∧
      (rowW (.pot 15 1) 65 0xFF false).src.counted = false ∧ (KMap.get {} q.slots 1).staged = false ∧
      ((potS n [1] []).core mxC).q.get 15 = { q with idWrites := [1] } := by
  decide +kernel

/-! ### The network -/

/-- A packet in flight to the core `c` of field 0. -/
def netS (c : CoreId) (x : CoreState) (p : Packet) : State := { coreS c x with net := [p] }
def fromVx (ty : Nat) (c : CoreId) (h1 : Nat) : Packet :=
  { ptype := ty, dx := c.x, dy := c.y, sx := 99, sy := 0, len := 1, h1 := BitVec.ofNat 64 h1, pay := [(7, true)] }

/-- A core address: position and word. -/
def da (c : CoreId) (w : Nat) : Nat := c.x * 2 ^ 34 + c.y * 2 ^ 24 + 8 * w

/-- WRITE to the last word and one past it, uncounted and counted from a stack; READ of the last word. -/
theorem hyp_writes :
    (∀ w ∈ [6143, 6144], let p := fromVx 0 mxC (da mxC w + 2 ^ 48)
     Lands (netS mxC {} p) 0 0 p mxC ∧ p.pay = [(7, true)] ∧ daDest p.da = some (0, mxC.x, mxC.y) ∧ nfld p.da 44 4 = 0 ∧
       nfld p.da 0 16 / 8 = w ∧ p.counted = false) ∧
    (let p := { fromVx 0 mxC (da mxC 6143) with sx := 192, counted := true, slot := 15 }
     Lands (netS mxC {} p) 0 0 p mxC ∧ p.slot < 16 ∧ p.srcEnd ≠ some (.field 0)) ∧
    (let p := fromVx 3 mxC (da mxC 6143)
     Lands (netS mxC {} p) 0 3 p mxC ∧ p.sx < 784 ∧ ((netS mxC {} p).field 0).gated = false ∧ ((netS mxC {} p).core mxC).clean 6143 = true) := by
  simp only [Lands]; refine ⟨?_, ?_, ?_⟩ <;> decide +kernel

/-- A queue send into the last free entry, of another EPOCH, and to a closed queue; credits up to the depth. -/
theorem hyp_queue_sends :
    (let p := fromVx 1 mxC (da mxC 0)
     let s := netS mxC (twoQ false 3) p
     let q := (s.core mxC).q.get 0
     Lands s 0 1 p mxC ∧ nfld p.da 44 4 = 0 ∧ nfld p.da 16 8 = 0 ∧ p.len = 1 ∧ nfld p.da 0 16 = 0 ∧ p.epoch = q.d.epoch ∧ q.d.state = 1 ∧ q.d.mode = 0 ∧ q.d.esize = 1 ∧ q.rsv = [] ∧
       q.count + 1 = q.d.depth.toNat) ∧
    (let p := { fromVx 1 mxC (da mxC 0) with epoch := 1 }
     Lands (netS mxC {} p) 0 1 p mxC ∧ p.epoch ≠ (((netS mxC {} p).core mxC).q.get 0).d.epoch) ∧
    (let p := fromVx 1 mxC (da mxC 0)
     let s := netS mxC { q := (Vector.replicate 16 {}).set 0 { d := { state := 2 } } } p
     Lands s 0 1 p mxC ∧ p.epoch = ((s.core mxC).q.get 0).d.epoch ∧ ((s.core mxC).q.get 0).d.state = 2) ∧
    (let p := { fromVx 2 mxC 3 with qid := 15, pay := [], len := 0 }
     let s := netS mxC { q := (Vector.replicate 16 {}).set 15 { d := { depth := 4, state := 1 }, count := 1 } } p
     Lands s 0 2 p mxC ∧ p.epoch = ((s.core mxC).q.get 15).d.epoch ∧ ((s.core mxC).q.get 15).count + 3 = ((s.core mxC).q.get 15).d.depth.toNat) ∧
    (let p := fromVx 1 mxC (da mxC 0 + 2 ^ 23)
     Lands (netS mxC {} p) 0 1 p mxC ∧ nfld p.da 16 8 ≠ 0) ∧
    (let p := { fromVx 2 mxC 3 with epoch := 3, pay := [], len := 0 }
     Lands (netS mxC {} p) 0 2 p mxC ∧ p.epoch ≠ (((netS mxC {} p).core mxC).q.get 0).d.epoch) := by
  simp only [Lands]; refine ⟨?_, ?_, ?_, ?_, ?_, ?_⟩ <;> decide +kernel

/-- RDATA to a scratchpad word, NAKs with reason 5 and reason 8, a write of NETRD word 1 for another core of the field. -/
theorem hyp_replies :
    (let p := fromVx 4 mxC (da mxC 6143)
     Lands (netS mxC {} p) 0 4 p mxC ∧ (netS mxC {} p).hubs = [] ∧ p.h1.getLsbD 48 = false) ∧
    (∀ r ∈ [5, 8], let p := { fromVx 5 mxC r with pay := [], len := 0 }
     let s := { netS mxC {} p with fields := (Vector.replicate 60 {}).set 0 { job := some 0, run := true, nakNoted := true } }
     Lands s 0 5 p mxC ∧ nfld p.h1.toNat 0 4 = r ∧ (s.field 0).nakNoted = true ∧ (s.core mxC).netValid = false) ∧
    (let s := (coreS mxC {}).setRouter mxC { netrd0 := BitVec.ofNat 64 (da vxC 5 + 2 ^ 48) }
     let d := nfld (s.router mxC).netrd0.toNat 0 48
     nfld d 44 4 = 0 ∧ nfld d 16 8 = 0 ∧ daTarget d = vxC ∧ coreField vxC = coreField mxC) := by
  simp only [Lands]; refine ⟨?_, ?_, ?_⟩ <;> decide +kernel

/-- Two READs of one address that pass a hub, the later with and without the combine bit. -/
theorem hyp_hub_reads :
    ∀ n ∈ [0, 1],
    let p (x : Nat) : Packet := { fromVx 3 mxC (2 ^ 44 + n * 2 ^ 62) with sx := x, dkind := 1, dx := 0, dy := 0, pay := [] }
    let s : State := { base with net := [p 99, p 100] }
    let hs := [(s.route (p 100)).hubs]
    s.net[1]? = some (p 100) ∧ (p 100).ptype = 3 ∧ (∀ o ∈ s.net.take 1, samePath (p 100) o = false) ∧ (p 100).dkind ≤ 2 ∧ (p 100).srcCore.isSome = true ∧
      (∃ h ∈ hs.flatten, s.passes (p 100) h.1 h.2 = true) ∧ p 99 ≠ p 100 ∧ (p 99).da = (p 100).da ∧
      (p 100).h1.getLsbD 62 = decide (n = 1) := by
  decide +kernel

/-- A fine link inside the wafer and one at its edge; a route load for a router; a swap with and without a packet of the field. -/
theorem hyp_links_and_routes :
    ((stepDir mxC.x mxC.y 1).isSome = true ∧ (coreField { x := 98, y := 0 }).isSome = true ∧ (stepDir mxC.x mxC.y 0).isNone = true ∧
       base.coreJob mxC = some 0 ∧ (base.job 0).state = .running) ∧
    centralOf { x := 103, y := 7 } = { x := 103, y := 7 } ∧
    (∀ n ∈ [0, 1], let c := coreAtPos 59 0
     let s : State := { fields := (Vector.replicate 60 {}).set 59 { run := true, rtArmed := true, rtHeld := true }
                        net := List.replicate n { fromVx 0 c 0 with sx := c.x, sy := c.y, out := true } }
     (s.field 59).rtArmed = true ∧ (s.field 59).rtHeld = true ∧
       (∀ p ∈ s.net, s.entryField p = some 59 → p.out = true ∨ ∃ q, p.pos = some q ∧ q.at_.field ≠ some 59)) ∧
    (let s : State := { fields := (Vector.replicate 60 {}).set 0 { run := true, rtArmed := true }, net := [fromVx 0 vxC 0] }
     (s.field 0).rtArmed = true ∧ ∃ p ∈ s.net, s.entryField p = some 0 ∧ p.out = false ∧ p.pos = none) := by
  refine ⟨by decide +kernel, by decide +kernel, ?_, by decide +kernel⟩
  intro n hn
  refine ⟨rfl, rfl, fun p hp _ => .inl ?_⟩
  exact (List.eq_of_mem_replicate hp) ▸ rfl

/-! ### Exposures -/

/-- Job 0 changed by `f`, with one scheduled core in field 0. -/
def jobS (x : CoreState) (f : Job → Job) : State :=
  let s := base.setCore mxC { x with run := true, sched := true, part := true, done := true }
  { s with jobs := s.jobs.set 0 (f { state := .running, fields := [some 0, some 1], image := { cores := [{ at_ := { lf := 0, pos := 1 } }] } }) }

/-- A write of XPDONE with DONE 0, and 1; the deferred one of a sequencer and of a thread. -/
theorem hyp_xpdone :
    ((coreS mxC {}).core mxC).done = false ∧ ((coreS mxC { done := true, xpdWait := [4] }).core mxC).done = true ∧
    ((coreS mxC { stopat := true, xpdWait := [4, 4] }).core mxC).xpdWait = [4, 4] ∧
    (let x := (coreS sxC { xpdWait := [3], th := (Vector.replicate 4 {}).set 3 { run := true, wait := .xpdone } }).core sxC
     x.xpdWait = [(3 : Fin 4).val] ∧ x.done = false ∧ (x.thread 3).wait = .xpdone) := by
  decide +kernel

/-- A develop point that falls; ones held back by PAUSE and by a count; an overrun and one tick less. -/
theorem hyp_develop :
    (let x0 : CoreState := twoQ false 0
     let s := jobS { x0 with q := x0.q.set 0 { x0.q.get 0 with rsv := [{ id := 3, entries := 1, done := 1, staged := true }] } } id
     RunningJob s 0 ∧ NoHold s 0 ∧ TreeShows s 0 ∧ (s.job 0).safelight = .idle ∧ (s.job 0).sched ≤ s.now ∧ (s.job 0).pauseReq = false ∧
       (s.job 0).preemptReq = false ∧ s.mod.replace = false ∧ (s.job 0).commitReq = false ∧ s.schedCores 0 = [mxC] ∧
       ((s.core mxC).q.get 0).rsv = [{ id := 3, entries := 1, done := 1, counted := 0, staged := true }]) ∧
    (let s := jobS {} (fun q => { q with pauseReq := true })
     RunningJob s 0 ∧ NoHold s 0 ∧ TreeShows s 0 ∧ (s.job 0).held = false ∧ (s.job 0).sched ≤ s.now ∧ (s.job 0).pauseReq = true ∧
       (s.job 0).allFields.Nodup) ∧
    (let s := { jobS {} id with dieDelta := { a := Vector.replicate 16 1, b := Vector.replicate 16 0 } }
     RunningJob s 0 ∧ s.deltaSum 0 ≠ 0 ∧ (s.job 0).sched ≤ s.now ∧ (s.job 0).allFields.Nodup) ∧
    (∀ n ∈ [7, 8], let s := jobS {} (fun q => { q with held := true, holdMax := 7, lateTicks := n })
     RunningJob s 0 ∧ (s.job 0).held = true ∧ (s.job 0).lateTicks = n ∧ (s.job 0).holdMax = 7) := by
  simp only [RunningJob, NoHold, TreeShows]; refine ⟨?_, ?_, ?_, ?_⟩ <;> decide +kernel

/-- The same state with an active CP and a REFCLK. -/
def withCp (s : State) : State := { s with cp := { active := some .a }, ports := { a := { refPresent := true }, b := {} } }

/-- A roll-back in place, none without a CP, none while a vote is open, one that lacks its fault overlay, and the restart after one. -/
theorem hyp_roll_back :
    (let s := withCp (jobS {} (fun q => { q with inPlace := true }))
     s.cpRuns = true ∧ (s.job 0).state = .running ∧ (∀ f ∈ (s.job 0).workFields, (s.field f).votes = []) ∧ (s.job 0).faultFields = [] ∧
       (s.job 0).inPlace = true ∧ (s.job 0).noCover = false) ∧
    ((jobS {} id).cpRuns = false ∧ ((jobS {} id).job 0).state = .running) ∧
    (let s := (jobS {} id).modField 1 (fun x => { x with votes := [{ primary := mxC, proofer := vxC, voter := sxC, d := 0 }] })
     ∃ f ∈ (s.job 0).workFields, (s.field f).votes ≠ []) ∧
    (let s := withCp (jobS {} (fun q => { q with faultFields := [1] }))
     let q := s.job 0
     s.cpRuns = true ∧ (∀ f ∈ q.workFields, (s.field f).votes = []) ∧ q.faultFields = [1] ∧ some 1 ∈ q.fields ∧ some 1 ∉ q.spareFields ∧ q.ovActive = [] ∧ q.noCover = false ∧ q.safelight = .idle) ∧
    (let s := withCp (jobS {} (fun q => { q with rolled := true }))
     s.cpRuns = true ∧ (s.job 0).rolled = true ∧ (s.job 0).faultFields = [] ∧ (s.job 0).inPlace = false ∧ (s.job 0).log = [] ∧ s.schedCores 0 = [mxC]) := by
  decide +kernel

/-! ### Proofing -/

/-- Marks with PRFCFG.EN 0 and 1, off, in an open unsampled tile, and in a sampled one (seed 1, one tile in four). -/
theorem hyp_marks :
    ((coreS mxC {}).core mxC).prf.en = false ∧
    (let s := coreS mxC { prf := { en := true, isOpen := true } }
     (s.core mxC).prf.en = true ∧ (s.job 0).proof = [] ∧ (s.core mxC).prf.isOpen = true ∧ (s.core mxC).prf.sampled = false ∧
       (s.field 0).job = some 0) ∧
    (let s0 := coreS mxC { prf := { en := true, px := 99, table := 8191 } }
     let s := { s0 with jobs := s0.jobs.set 0 { state := .running, fields := [some 0, some 1], proof := [(0, 5, 1)] } }
     let x := s.core mxC
     x.prf.en = true ∧ (s.job 0).proof = [(0, 5, 1)] ∧ x.prf.tileExpo = (s.job 0).expNo ∧
       proofSampled (s.field 0).logical (mxC.y % 128) (mxC.x % 96) 0 x.prf.tileno.toNat 5 1 = true ∧ x.clean 8191 = true ∧ x.clean 0 = true ∧
       nfld (x.data 8191).toNat 13 13 = 0 ∧ nfld (x.data 8191).toNat 39 13 = 0 ∧ x.prf.px.toNat < 768 ∧
       coreField { x := x.prf.px.toNat, y := x.prf.py.toNat } = some 0) := by
  refine ⟨?_, ?_, ?_⟩ <;> decide +kernel

def aRun : RunReq := { entry := 64, cx := 97, cy := 0, d := 2 }

/-- Run requests with three and with four waiting at the proofer; a start on a halted proofer; one behind a run. -/
theorem hyp_runs_of_proofs :
    (∀ n ∈ [3, 4], let s := (coreS mxC { prf := { requests := [(vxC, aRun)] } }).setCore vxC { prf := { runq := List.replicate n aRun } }
     NoQueued (s.core mxC) ∧ (s.core mxC).prf.requests = [(vxC, aRun)] ∧ coreField vxC = coreField mxC ∧ coreHub vxC = coreHub mxC ∧
       (s.core vxC).prf.runq.length = n) ∧
    (let x := (coreS vxC { halted := true, prf := { runq := [aRun] } }).core vxC
     NoQueued x ∧ x.prf.runq = [aRun] ∧ x.prf.held = false ∧ x.prf.running = none ∧ x.halted = true ∧ x.e1.prog = [] ∧ x.e2.prog = [] ∧
       x.e3.prog = []) ∧
    (let x := (coreS vxC { prf := { running := some aRun } }).core vxC
     NoQueued x ∧ x.prf.running.isSome = true) := by
  simp only [NoQueued]; refine ⟨?_, ?_, ?_⟩ <;> decide +kernel

/-- Comparisons of 256 words that agree, of one word that does not, of the voter; and a vote with its result. -/
theorem hyp_comparisons :
    (let s := coreS vxC { prf := { running := some aRun } }
     (s.core vxC).prf.running = some aRun ∧ (s.field 0).votes = [] ∧
       ∀ i < 256, (s.core vxC).clean ((8000 + i) % 8192) = true ∧ (s.core vxC).data ((8000 + i) % 8192) = (s.core vxC).data (0 + i)) ∧
    (let x := (coreS vxC { mem := pad [1], prf := { running := some aRun } }).core vxC
     x.clean 0 = true ∧ x.clean 1 = true ∧ x.data 0 ≠ x.data 1) ∧
    (let w : Vote := { primary := mxC, proofer := sxC, voter := vxC, d := aRun.d }
     let s0 := coreS vxC { prf := { running := some aRun } }
     let s := { s0 with fields := s0.fields.set 0 { s0.field 0 with votes := [w] } }
     (s.field 0).votes = [w] ∧ w.result = none ∧ w.voter = vxC ∧ w.primary = { x := aRun.cx.toNat, y := aRun.cy.toNat } ∧ w.d = aRun.d) ∧
    (∀ r ∈ [true, false], let w : Vote := { primary := mxC, proofer := sxC, voter := vxC, d := aRun.d, result := some r }
     let s0 := coreS vxC { prf := { running := some aRun } }
     let s := { s0 with fields := s0.fields.set 0 { s0.field 0 with votes := [w] } }
     (s.field 0).votes = [w] ∧ w.result = some r ∧ s.code w.proofer = 0 ∧ s.code w.primary = 0 ∧ w.proofer ≠ w.primary ∧
       (coreField w.proofer).isSome = true ∧ (coreField w.primary).isSome = true) := by
  refine ⟨?_, ?_, ?_, ?_⟩ <;> decide +kernel

/-- JOBACK for the one input in progress, with reason 0 and with reason 9. -/
theorem hyp_joback :
    ∀ r ∈ [0, 9],
    let v : Word := BitVec.ofNat 64 (6 + r * 2 ^ 32)
    let p : Packet := { ptype := 0, dkind := 3, dx := 0, sx := 97, len := 1, h1 := BitVec.ofNat 64 (3 * 2 ^ 44 + 0x1F00), pay := [(v, false)] }
    let i : InputSent := { num := 6, input := 0, entry := 2, dest := { lf := 0, pos := 1 }, queue := 0 }
    let e : Entry := { id := 2, port := .a, sess := 1, seq := 1, tag := 0, opcode := 0x020D, quiet := false, param := [], started := true }
    let s : State := { base with net := [p], cp := { active := some .a, journal := [e] }
                                 jobs := base.jobs.set 0 { state := .running, fields := [some 0, some 1], inputs := [i] } }
    s.net = [p] ∧ p.sx = mxC.x ∧ coreField mxC = some 0 ∧ p.wellFormed = true ∧ nfld p.da 44 4 = 3 ∧ nfld p.da 0 17 = 0x1F00 ∧
      (s.route p).fin = .arrive ∧ (s.field 0).job = some 0 ∧ (s.job 0).inputs = [i] ∧ nfld v.toNat 0 32 = i.num ∧
      nfld v.toNat 32 16 = r ∧ s.entry i.entry = some e := by
  decide +kernel

/-! ### Host traffic -/

/-- Port A with a live, ready link; `f` changes it. -/
def portS (own : Bool) (f : PortState → PortState) : State :=
  { base with
    ports := { a := f { linkUp := true, ready := true, refPresent := true, busMaster := true }, b := {} }
    cp := { active := some .a, owner := if own then some (.a, 1) else none } }

/-- A port that serves, of an owner and of none; CTLADDR at a core's CECOUNT and at a core's scratchpad; a port not ready. -/
theorem hyp_registers :
    (∀ own ∈ [true, false], let s := portS own (fun y => { y with ctlAddr := BitVec.ofNat 48 (2 ^ 45 + da mxC 34) })
     Serves s .a ∧ (own = true → s.cp.owner = some (.a, 1)) ∧ (own = false → s.cp.owner = none) ∧
       daDest (s.port .a).ctlAddr.toNat = some (0, mxC.x, mxC.y) ∧ nfld (s.port .a).ctlAddr.toNat 44 4 = 2 ∧
       nfld (s.port .a).ctlAddr.toNat 0 13 = 0x110) ∧
    (let s := portS true id
     Serves s .a ∧ nfld (s.port .a).ctlAddr.toNat 44 4 = 0 ∧ (s.port .a).linkUp = true ∧ s.fw.grade = 0) ∧
    (let s := portS true (fun y => { y with ready := false })
     (s.port .a).linkUp = true ∧ (s.port .a).ready = false) ∧ (coreField mxC).isSome = true := by
  simp only [Serves]; refine ⟨?_, ?_, ?_, ?_⟩ <;> decide +kernel

/-- Window 63: the first page of BAR2, read and write, to region 1 of stack 15 of job 1. -/
def stackWin : InWin :=
  { base := 0, size := 4096, kind := 1, job := 1, perm := 3, shared := false, reqId := 0, reqMask := 0, epoch := 2, region := 1,
    stack := 15, by_ := (.a, 1) }
/-- Window 0: one word of the core at logical field 1, position (95, 127), of job 0. -/
def coreWin : InWin :=
  { base := 4096, size := 4096, kind := 0, job := 0, perm := 3, shared := false, reqId := 0, reqMask := 0, epoch := 0, lf := 1, lx0 := 95,
    ly0 := 127, stride := 4096, by_ := (.a, 1) }
def winS (own : Bool) (i : Nat) (w : InWin) : State :=
  let s := portS own (fun y => { y with inWin := tset y.inWin i (some w) })
  { s with jobs := s.jobs.set 1 { state := .loaded, regions := [{ id := 1, stack := 15, off := 1048576, size := 1048576 }] } }

theorem hyp_window_writes :
    (∀ own ∈ [true, false], let s := winS own 63 stackWin
     Serves s .a ∧ (own = true ↔ s.cp.owner = some (.a, 1)) ∧ (own = false ↔ s.cp.owner = none) ∧ OnlyWindow (s.port .a) 63 stackWin ∧
       WindowHolds stackWin 0 4088 8 ∧ ¬ WindowHolds stackWin 0 4089 8 ∧
       (s.job 1).region 1 15 = some { id := 1, stack := 15, off := 1048576, size := 1048576 } ∧ (s.job 1).holdsPartition = false ∧
       (2 ^ 44 + 15 * 2 ^ 37 + (1048576 + 0 + (4088 - 0))) % 8 = 0 ∧ (s.port .a).viaPeer = false ∧ (s.job 1).rolled = false ∧
       (s.job 1).replayTo = none ∧ (s.port .a).fenceTab = []) ∧
    (let s := winS true 0 coreWin
     Serves s .a ∧ OnlyWindow (s.port .a) 0 coreWin ∧ WindowHolds coreWin 0 4096 8 ∧ (s.job 0).state = .running ∧
       (s.job 0).fields[1]? = some (some 1) ∧ 96 * 127 + 95 < 12288 ∧ (s.job 0).log = [] ∧ (s.port .a).fenceTab = []) ∧
    (let s := portS true id
     ∀ m < 64, tget none (s.port .a).inWin m = none ∧ tget none (s.port .b).inWin m = none) := by
  simp only [Serves, OnlyWindow, WindowHolds]; refine ⟨?_, ?_, ?_⟩ <;> decide +kernel

/-- An inbound read at exactly its limit, and a tick before; one that waits behind a replay at its limit; a window whose job's log replays, and
one whose job is rolled back. -/
theorem hyp_read_timeout :
    (∀ n ∈ [99999, 100000],
     let s0 := portS true (fun y => { y with inReads := [{ tag := 5, at_ := 0, win := none, parts := [] }] })
     let s := { s0 with mod := { s0.mod with ctl := n } }
     (s.port .a).inReads = [{ tag := 5, at_ := 0, win := none, parts := [] }] ∧ s.mod.ctl = n) ∧
    (let s0 := portS true (fun y => { y with heldReads := [{ tag := 5, at_ := 0, win := (.a, 0), off := 4096, len := 8 }] })
     let s := { s0 with mod := { s0.mod with ctl := 100000 } }
     (s.port .a).inReads = [] ∧ (s.port .a).heldReads = [{ tag := 5, at_ := 0, win := (.a, 0), off := 4096, len := 8 }] ∧ s.mod.ctl = 100000) ∧
    (∀ b ∈ [true, false], let s := (winS true 0 coreWin).modJob 0 (fun q => { q with rolled := b, replayTo := if b then none else some 3 })
     Serves s .a ∧ OnlyWindow (s.port .a) 0 coreWin ∧ WindowHolds coreWin 0 4096 8 ∧ coreWin.perm.getLsbD 0 = true ∧ (s.port .a).viaPeer = false ∧
       ((s.job 0).rolled = true ∨ (s.job 0).replayTo.isSome = true)) := by
  simp only [Serves, OnlyWindow, WindowHolds]; refine ⟨?_, ?_, ?_⟩ <;> decide +kernel

/-- Port A with one outbound window over host memory at 4,096, and a packet of job 0's core to it: inside the window, outside it, and with
the link down; a READ with 255 and with 256 read requests outstanding. -/
def outS (ty off : Nat) (f : PortState → PortState) : State :=
  let p := { fromVx ty mxC (2 ^ 46 + off) with dkind := 2, dx := 0, dy := 0 }
  let p := if ty = 0 then { p with h1 := BitVec.ofNat 64 (2 ^ 46 + off + 0xFF * 2 ^ 48) } else { p with pay := [] }
  let s := portS true (fun y => f { y with outWin := tset y.outWin 0 (some { base := 0, size := 4096, haddr := 4096, perm := 3, by_ := (.a, 1) }) })
  { s with net := [p]
           fields := Vector.replicate 60 { job := some 0, run := true }
           jobs := s.jobs.set 0 { state := .running, fields := (List.range 60).map some } }
theorem hyp_outbound :
    (∀ e ∈ [(0, 4088, true), (0, 4096, true), (0, 0, false), (3, 0, true)],
     let s := outS e.1 e.2.1 (fun y => { y with linkUp := e.2.2 })
     ∃ p ∈ s.net, LandsAtDie s 0 e.1 p .a ∧ p.len = 1 ∧ nfld p.da 44 4 = 4 ∧ nfld p.da 0 43 = e.2.1 ∧ (s.port .a).viaPeer = false ∧
       (s.port .a).linkUp = e.2.2 ∧ (s.port .a).d3 = false ∧ (s.port .a).busMaster = true ∧ 8 ≤ (s.port .a).maxPayload ∧
       (4096 + (e.2.1 - 0)) % 4096 ≤ 4088 ∧ 8 ≤ (s.port .a).maxReadReq ∧ (s.job p.slot).replayTo = none ∧ p.counted = false ∧
       (e.1 = 0 → p.pay = [(7, true)] ∧ nfld p.h1.toNat 48 8 = 0xFF)) ∧
    (∀ n ∈ [255, 256], let y : PortState := { outReads := (List.range n).map (fun t => { tag := t, pkt := { ptype := 3 } }) }
     y.outReads.length = n) ∧
    (let s := outS 3 0 id
     ∀ m < 64, tget none (s.port .a).outWin m = if m = 0 then some { base := 0, size := 4096, haddr := 4096, perm := 3, by_ := (.a, 1) } else none) := by
  simp only [LandsAtDie]; refine ⟨?_, ?_, ?_⟩ <;> decide +kernel

/-- A message held back, at 100 ticks after the vector's last and a tick before; a fence that waits for a reply, and none. -/
theorem hyp_messages :
    (∀ n ∈ [99, 100], let s0 := portS true (fun y => { y with msixEn := true, msix := tset y.msix 63 { masked := false, heldBack := true, last := some 0 } })
     let s := { s0 with mod := { s0.mod with ctl := n } }
     ((s.port .a).vec 63).heldBack = true ∧ ((s.port .a).vec 63).last = some 0 ∧ ((s.port .a).vec 63).masked = false ∧
       (s.port .a).msixEn = true ∧ (s.port .a).msixMask = false ∧ s.mod.ctl = n) ∧
    (portS true id).ports.a.await = [] ∧
    (let s := portS true (fun y => { y with await := [(128, .fence .a 0)] })
     (s.port .a).viaPeer = false ∧ (s.port .a).await = [(128, .fence .a 0)] ∧ (s.port .a).fenceTab = []) := by
  refine ⟨?_, ?_, ?_⟩ <;> decide +kernel

/-! ### Journaled commands -/

/-- Parameter bytes from values (first byte, bytes, value), `n` bytes long. -/
def par (n : Nat) (l : List (Nat × Nat × Nat)) : List Byte :=
  (List.range n).map (fun k => BitVec.ofNat 8 ((l.map (fun v => if v.1 ≤ k ∧ k < v.1 + v.2.1 then v.2.2 / 256 ^ (k - v.1) % 256 else 0)).sum))

def ent (op : Nat) (l : List (Nat × Nat × Nat)) : Entry :=
  { id := 3, port := .a, sess := 1, seq := 1, tag := 9, opcode := op, quiet := true, started := true,
    param := par ((l.map (fun v => v.1 + v.2.1)).foldl max 0) l }
def aSession : Session := { rbase := 0, rlog2 := 4, esize := 0, vector := 1, hist := [(1, none)], nextSeq := 2 }
def region1 : Region := { id := 1, stack := 15, off := 0, size := 1048576 }

/-- Port A's session 1, which owns the module, has one started command. Job 0 runs, job 1 is LOADED, job 2 is empty. -/
def cmdS (op : Nat) (l : List (Nat × Nat × Nat)) : State :=
  let s := portS true (fun y => { y with sess := tset y.sess 1 (some aSession) })
  { s with cp := { active := some .a, owner := some (.a, 1), journal := [ent op l] }
           jobs := s.jobs.set 1 { state := .loaded, regions := [region1] } }

/-- A command, the header bytes it uses, its parameters, a change of `cmdS` and what a clause asks of the state. -/
structure Case where
  op : Nat
  used : List (Nat × Nat)
  par : List (Nat × Nat × Nat) := []
  f : State → State := id
  ok : State → Bool := fun _ => true

def Case.holds (c : Case) : Prop :=
  let s := c.f (cmdS c.op c.par)
  Started s 3 c.op (ent c.op c.par) ∧ (ent c.op c.par).clean c.used = true ∧ HasSession s .a 1 aSession ∧ s.cp.journal = [ent c.op c.par] ∧
    c.ok s = true

def noWin (x : PortState) : Bool := (List.range 64).all (fun m => decide (tget none x.inWin m = none ∧ tget none x.outWin m = none))
def setJob (j : Nat) (q : Job) (s : State) : State := s.modJob j (fun _ => q)
/-- A packet of 12 bytes into a free slot, 4,096 into a BUSY one, a wrong MAGIC, a whole packet, aborts of both. -/
theorem hyp_inbox :
    (let s := portS true id
     Serves s .a ∧ tget {} (s.port .a).slots 7 = {} ∧ s.cp.active.isSome = true ∧ (s.port .a).fenceTab = []) ∧
    (let h := par 32 [(0, 4, 0x4E494641), (4, 2, 1), (6, 2, 5), (16, 2, 32)]
     h.length = 32 ∧ bytesAt h 0 4 = 0x4E494641 ∧ bytesAt h 4 2 = 1 ∧ bytesAt h 16 2 = 32 ∧ bytesAt (par 32 []) 0 4 ≠ 0x4E494641) ∧
    (∀ b ∈ [true, false], let s := portS true (fun y => { y with slots := tset y.slots 7 { bytes := [(0, 1)], busy := b }, logValid := true })
     Serves s .a ∧ (tget {} (s.port .a).slots 7).busy = b ∧ (tget {} (s.port .a).slots 7).bytes ≠ [] ∧ (s.port .a).logValid = true) := by
  simp only [Serves]; refine ⟨?_, ?_, ?_⟩ <;> decide +kernel

/-- A NOP in slot 7 with the session's next sequence number, 2; with 1; with 3; commands at and behind the head of a journal. -/
def takeS (n : Nat) : State :=
  let y : InSlot := { busy := true, bytes := ((par 32 [(0, 4, 0x4E494641), (4, 2, 1), (6, 2, 5), (16, 2, 32), (18, 2, 1), (20, 4, n)]).zipIdx.filter
    (fun b => b.1 ≠ 0)).map (fun b => (b.2, b.1)) }
  let s := portS true (fun z => { z with slots := tset z.slots 7 y, order := [7], sess := tset z.sess 1 (some aSession) })
  s
theorem hyp_packet_take :
    (∀ n ∈ [1, 2, 3], let s := takeS n
     let y := tget {} (s.port .a).slots 7
     s.cpRuns = true ∧ HasSession s .a 1 aSession ∧ (s.port .a).order = [7] ∧ y.num 6 2 = 5 ∧ y.num 18 2 = 1 ∧ y.num 16 2 = 32 ∧
       aSession.kept.length < 64 ∧ s.cp.journal = [] ∧ y.num 20 4 = n ∧ aSession.nextSeq = 2) ∧
    (let d := { ent 5 [] with id := 2, started := false }
     let e := { ent 5 [] with started := false }
     let s := { takeS 2 with cp := { active := some .a, journal := [d, e] } }
     s.cpRuns = true ∧ d.id < e.id ∧ d.port = e.port ∧ d.sess = e.sess ∧ d.deaf = e.deaf ∧ d.started = false ∧ e.fence = []) := by
  simp only [HasSession]; refine ⟨?_, ?_⟩ <;> decide +kernel

/-- A NOP that asks for a reply: with room in the ring for one entry, with none, with kept entries. -/
theorem hyp_replies_of_commands :
    ∀ n ∈ [15, 16], ∀ k ∈ [[], [({} : RingEntry)], [{ event := true }]],
    let q := { aSession with posted := n, kept := k, lost := k.length }
    let s := cmdS 5 []
    let s := { s with ports := { a := { s.ports.a with sess := tset s.ports.a.sess 1 (some q) }, b := s.ports.b } }
    Started s 3 5 (ent 5 []) ∧ (ent 5 []).quiet = true ∧ (ent 5 []).param = [] ∧ HasSession s .a 1 q ∧ (s.port .a).linkUp = true ∧
      (s.port .a).d3 = false ∧ (s.port .a).grace = none ∧ (q.posted + 65536 - (tget 0 (s.port .a).ringCons 1).toNat) % 65536 = n ∧
      2 ^ q.rlog2 = 16 := by
  simp only [Started, HasSession]; decide +kernel

def sessionCases : List Case := [
  { op := 0, used := [(0, 12)], par := [(0, 8, 64), (8, 1, 12), (9, 1, 6), (10, 1, 63), (11, 1, 3)]
    ok := fun s => decide (tget none (s.port .a).sess 2 = none ∧ (tget none (s.port .a).sess 1).isSome = true) },
  { op := 1, used := [], ok := fun s => noWin (s.port .a) && noWin (s.port .b) && (s.port .a).linkUp },
  { op := 2, used := [(0, 1)], par := [(0, 1, 0)], f := fun s => { s with cp := { s.cp with owner := none } }
    ok := fun s => s.cp.owner == none && decide (s.mod.prefPort ≠ some .b) },
  { op := 2, used := [(0, 1)], par := [(0, 1, 0)], ok := fun s => s.cp.owner == some (.a, 1) },
  { op := 2, used := [(0, 1)], par := [(0, 1, 1)], f := fun s => { s with cp := { s.cp with owner := some (.b, 2) } }
    ok := fun s => s.cp.owner == some (.b, 2) && s.cp.claim == none },
  { op := 2, used := [(0, 1)], par := [(0, 1, 0)], f := fun s => { s with cp := { s.cp with owner := none }, mod := { s.mod with prefPort := some .b } }
    ok := fun s => s.cp.owner == none && s.cp.claim == none && s.mod.prefPort == some .b },
  { op := 2, used := [(0, 1)], par := [(0, 1, 0)]
    f := fun s => { s with cp := { s.cp with owner := some (.b, 2) }, mod := { s.mod with prefPort := some .b } }
    ok := fun s => s.cp.owner == some (.b, 2) && s.cp.claim == none && s.mod.prefPort == some .b },
  { op := 2, used := [(0, 1)], par := [(0, 1, 2)] },
  { op := 3, used := [], ok := fun s => s.cp.owner == some (.a, 1) && s.cp.claim == none },
  { op := 3, used := [], f := fun s => { s with cp := { s.cp with owner := none } }, ok := fun s => s.cp.claim == none },
  { op := 4, used := [] },
  { op := 0x300, used := [] }]
theorem hyp_session_commands : ∀ c ∈ sessionCases, c.holds := by
  simp only [Case.holds, Started, HasSession]; decide +kernel

def openPar : List (Nat × Nat × Nat) :=
  [(1, 1, 63), (2, 1, 1), (3, 1, 0x33), (4, 1, 1), (5, 1, 1), (8, 8, 0xBFFFFF000), (16, 8, 4096), (40, 1, 1), (41, 1, 15), (48, 8, 0xFF000)]
def withWin (p : Port) (i : Nat) (w : InWin) (s : State) : State := s.modPort p (fun y => { y with inWin := tset y.inWin i (some w) })
def windowCases : List Case := [
  { op := 0x100, used := [(0, 6), (8, 16), (24, 4), (40, 2), (48, 8)], par := openPar
    ok := fun s => noWin (s.port .b) && (s.job 1).region 1 15 == some region1 && decide ((s.job 1).state ≠ .empty) },
  { op := 0x100, used := [(0, 6), (8, 16), (24, 4), (40, 2), (48, 8)], par := openPar
    f := withWin .b 0 { coreWin with base := 0xBFFFFE000, size := 8192 }
    ok := fun s => decide ((tget none (s.port .b).inWin 0).map (fun w => w.base + w.size) = some 0xC00000000) },
  { op := 0x100, used := [(0, 2), (3, 1), (5, 1), (8, 16), (32, 8)]
    par := [(0, 1, 1), (1, 1, 63), (3, 1, 3), (8, 8, 2 ^ 43 - 4096), (16, 8, 4096), (32, 8, 4096)], ok := fun s => noWin (s.port .a) },
  { op := 0x101, used := [(0, 3)], par := [(1, 1, 63), (2, 1, 1)], f := withWin .b 63 coreWin
    ok := fun s => s.net.isEmpty && s.ports.a.inReads.isEmpty && s.ports.b.inReads.isEmpty && decide (tget none (s.port .b).inWin 63 = some coreWin) },
  { op := 0x101, used := [(0, 3)], par := [(1, 1, 63), (2, 1, 1)]
    f := fun s => { withWin .b 63 coreWin s with net := [{ ptype := 0, sx := 784, tag := 127 }] }
    ok := fun s => decide (tget none (s.port .b).inWin 63 = some coreWin) },
  { op := 0x101, used := [(0, 3)], par := [(0, 1, 1), (1, 1, 63), (2, 1, 0)]
    f := fun s => s.modPort .a (fun y => { y with outWin := tset y.outWin 63 (some { base := 0, size := 4096, haddr := 0, perm := 3, by_ := (.a, 1) }) })
    ok := fun s => (tget none (s.port .a).outWin 63).isSome && s.net.isEmpty },
  { op := 0x101, used := [(0, 3)], par := [(1, 1, 63), (2, 1, 1)], ok := fun s => decide (tget none (s.port .b).inWin 63 = none) }]
theorem hyp_window_commands : ∀ c ∈ windowCases, c.holds := by
  simp only [Case.holds, Started, HasSession]; decide +kernel

/-- A die's attachment is whole; both are cut. -/
def reaches (s : State) : Bool := !(s.port .a).viaPeer || !(s.port .b).viaPeer
def cutBoth (s : State) : State := (s.modPort .a (fun y => { y with viaPeer := true })).modPort .b (fun y => { y with viaPeer := true })
def posts (s : State) : Bool := (s.port .a).linkUp && !(s.port .a).d3 && (s.port .a).busMaster

def memoryCases : List Case := [
  { op := 0x102, used := [(0, 4), (8, 8)], par := [(0, 1, 1), (1, 1, 15), (2, 2, 0x7FFF), (8, 8, 1048576)]
    ok := fun s => s.freeAt (List.range 15) 0 1048576 && decide ((s.job 1).state ≠ .empty ∧ ∀ r ∈ (s.job 1).regions, r.id ≠ 15) && reaches s },
  { op := 0x102, used := [(0, 4), (8, 8)], par := [(0, 1, 1), (1, 1, 15), (2, 2, 0x7FFF), (8, 8, 1048576)], f := cutBoth
    ok := fun s => !reaches s && decide ((s.job 1).state ≠ .empty ∧ ∀ r ∈ (s.job 1).regions, r.id ≠ 15) },
  { op := 0x102, used := [(0, 4), (8, 8)], par := [(0, 1, 1), (1, 1, 15), (2, 2, 1), (8, 8, 2 ^ 40)], ok := fun s => decide (s.dataBytes < 2 ^ 40) && reaches s },
  { op := 0x103, used := [(0, 2)], par := [(0, 1, 1), (1, 1, 1)]
    ok := fun s => decide ((s.job 1).state = .loaded ∧ region1 ∈ (s.job 1).regions ∧ region1.id = 1) },
  { op := 0x104, used := [(0, 1)], par := [(0, 1, 1)], f := setJob 1 {}, ok := fun s => (List.range 16).all (fun k => decide ((s.job k).regions = [])) },
  { op := 0x104, used := [(0, 1)], par := [(0, 1, 1)], ok := fun s => decide ((s.job 1).regions ≠ []) },
  { op := 0x301, used := [(0, 1)], par := [(0, 1, 1)] },
  { op := 0x302, used := [(0, 1), (8, 8)], par := [(0, 1, 0), (8, 8, 0)], ok := fun s => decide ((s.job 0).expNo = 0) },
  { op := 0x302, used := [(0, 1), (8, 8)], par := [(0, 1, 0), (8, 8, 1)], ok := fun s => decide ((s.job 0).expNo = 0) },
  { op := 0x302, used := [(0, 1), (8, 8)], par := [(0, 1, 15)], ok := fun s => decide ((s.job 15).state = .empty) }]
theorem hyp_memory_commands : ∀ c ∈ memoryCases, c.holds := by
  simp only [Case.holds, Started, HasSession]; decide +kernel
theorem hyp_no_room (s : State) (h : s.dataBytes < 2 ^ 40) (o : Nat) : s.freeAt [0] o (2 ^ 40) = false := by
  unfold State.freeAt
  rw [Bool.and_eq_false_iff]; left
  simp only [decide_eq_false_iff_not]; omega

/-- A loaded job of two working fields and a spare. -/
def loaded : Job :=
  { state := .loaded, image := { working := [(0, 0), (1, 0)], spares := [(0, 1)], cores := [{ at_ := { lf := 1, pos := 12287 } }] } }
def idle60 (s : State) : State := { s with fields := Vector.replicate 60 { run := true } }
def mayRead (s : State) : Bool := reaches s && posts s && decide (0 < (s.port .a).maxReadReq)
/-- What START asks of a job with the shape of `loaded`, placed at corner 11. -/
def placed (s : State) : Bool :=
  decide ((s.job 1).inForce = []) && s.regionsOk 1 && !s.drain &&
    (match placeShape 11 [(0, 0), (1, 0), (0, 1)] with
     | some l => l.length == 3 && l.all (fun f => s.fieldOk f && (s.field f).job == none) && s.code (coreAtPos (l.getD 1 0) 12287) == 0 &&
         !s.hubOut ((coreAtPos (l.getD 1 0) 12287).x / 16) ((coreAtPos (l.getD 1 0) 12287).y / 16)
     | none => false) && configBad (s.job 1).image [] == none
def loadCases : List Case := [
  { op := 0x200, used := [(0, 1), (8, 16)], par := [(0, 1, 15), (8, 8, 64), (16, 8, 5000)]
    ok := fun s => (s.job 15).state == .empty && mayRead s && s.freeAt (List.range 16) 1048576 1048576 && !s.freeAt (List.range 16) 0 1048576 },
  { op := 0x200, used := [(0, 1), (8, 16)], par := [(0, 1, 15), (8, 8, 64)], f := cutBoth, ok := fun s => (s.job 15).state == .empty && !reaches s },
  { op := 0x200, used := [(0, 1), (8, 16)], par := [(0, 1, 15), (8, 8, 64)], f := fun s => s.modPort .a (fun y => { y with busMaster := false })
    ok := fun s => (s.job 15).state == .empty && reaches s && !posts s },
  { op := 0x200, used := [(0, 1), (8, 16)], par := [(0, 1, 1), (8, 8, 64)], ok := fun s => decide ((s.job 1).state ≠ .empty) },
  { op := 0x201, used := [(0, 1)], par := [(0, 1, 1)], ok := fun s => (s.job 1).state == .loaded },
  { op := 0x201, used := [(0, 1)], par := [(0, 1, 1)], f := setJob 1 { state := .suspended }, ok := fun s => (s.job 1).state == .suspended },
  { op := 0x201, used := [(0, 1)], par := [(0, 1, 0)], ok := fun s => (s.job 0).state == .running },
  { op := 0x202, used := [(0, 2)], par := [(0, 1, 1), (1, 1, 11)], f := fun s => idle60 (setJob 1 loaded s)
    ok := fun s => (s.job 1).state == .loaded && placed s },
  { op := 0x202, used := [(0, 2)], par := [(0, 1, 1), (1, 1, 11)], f := fun s => idle60 (setJob 1 { loaded with state := .suspended, lastCkpt := 7 } s)
    ok := fun s => (s.job 1).state == .suspended && (s.job 1).lastCkpt == 7 && placed s },
  { op := 0x202, used := [(0, 2)], par := [(0, 1, 0), (1, 1, 59)], ok := fun s => (s.job 0).state == .running }]
theorem hyp_load_commands : ∀ c ∈ loadCases, c.holds := by
  simp only [Case.holds, Started, HasSession]; decide +kernel

def runningJob (f : Job → Job) (s : State) : State :=
  s.modJob 0 (fun _ => f { state := .running, fields := [some 0, some 1], image := { kernelIn := [(15, { lf := 1, pos := 0 }, 3)] } })
def anOverlay : Overlay := { id := 4 }
def aRecord : OverrunRec :=
  { flags := 0, expNo := 6, sched := 0, stopTick := 0, holdMax := 0, sum := 0, notReady := 1, entries := [5] }
def developCases : List Case := [
  { op := 0x203, used := [(0, 1)], ok := fun s => (s.job 0).state == .running },
  { op := 0x203, used := [(0, 1)], par := [(0, 1, 1)], ok := fun s => (s.job 1).state == .loaded },
  { op := 0x205, used := [(0, 1)], ok := fun s => (s.job 0).state == .running },
  { op := 0x205, used := [(0, 1)], par := [(0, 1, 1)], ok := fun s => (s.job 1).state == .loaded },
  { op := 0x208, used := [(0, 2)], par := [(1, 1, 63)], f := runningJob (fun q => { q with ovActive := [(63, anOverlay)] })
    ok := fun s => (s.job 0).safelight == .idle && (s.job 0).ovActive.find? (fun v => v.1 == 63) == some (63, anOverlay) && anOverlay.fault.isNone },
  { op := 0x208, used := [(0, 2)], par := [(0, 1, 1)], ok := fun s => (s.job 1).state == .loaded },
  { op := 0x208, used := [(0, 2)], f := runningJob (fun q => { q with safelight := .staged anOverlay })
    ok := fun s => (s.job 0).safelight == .staged anOverlay },
  { op := 0x204, used := [(0, 1)], f := setJob 0 { state := .paused }
    ok := fun s => (s.job 0).faultFields.isEmpty && !(s.job 0).rolled && s.mod.supply == .normal },
  { op := 0x204, used := [(0, 1)], ok := fun s => (s.job 0).state == .running },
  { op := 0x209, used := [(0, 1)], ok := fun s => (s.job 0).state == .running },
  { op := 0x209, used := [(0, 1)], f := setJob 0 { state := .paused, faultFields := [3] }
    ok := fun s => (s.job 0).state == .paused && !(s.job 0).noCover && (s.job 0).faultFields == [3] },
  { op := 0x209, used := [(0, 1)], f := setJob 0 { state := .paused, faultFields := [3], noCover := true }
    ok := fun s => (s.job 0).state == .paused && (s.job 0).noCover },
  { op := 0x209, used := [(0, 1)], par := [(0, 1, 1)]
    ok := fun s => (s.job 1).state == .loaded && (s.job 1).faultFields.isEmpty && !(s.job 1).inPlace },
  { op := 0x209, used := [(0, 1)], par := [(0, 1, 15)], ok := fun s => (s.job 15).state == .empty }]
theorem hyp_develop_commands : ∀ c ∈ developCases, c.holds := by
  simp only [Case.holds, Started, HasSession]; decide +kernel

def reportCases : List Case := [
  { op := 0x207, used := [(0, 2), (8, 16)], par := [(0, 1, 1), (1, 1, 63), (8, 8, 64)]
    ok := fun s => mayRead s && (s.job 1).inForce.isEmpty && (s.job 1).overlayOk anOverlay && actionsBad (s.job 1).image [] anOverlay == none && configBad (s.job 1).image [anOverlay] == none },
  { op := 0x207, used := [(0, 2), (8, 16)], par := [(0, 1, 1), (8, 8, 64)], f := fun s => s.modPort .a (fun y => { y with busMaster := false })
    ok := fun s => reaches s && !posts s && (s.job 1).state == .loaded },
  { op := 0x207, used := [(0, 2), (8, 16)], par := [(0, 1, 1), (8, 8, 64)], f := cutBoth, ok := fun s => !reaches s && (s.job 1).state == .loaded },
  { op := 0x207, used := [(0, 2), (8, 16)], par := [(0, 1, 15), (8, 8, 64)], ok := fun s => (s.job 15).state == .empty },
  { op := 0x20A, used := [(0, 1)], ok := fun s => (s.job 0).state == .running && !(s.job 0).held && decide ((s.job 0).expNo < 2 ^ 64) },
  { op := 0x20B, used := [(0, 2), (8, 4056)], par := [(1, 1, 15), (8, 8, 77)], f := runningJob id
    ok := fun s => (s.job 0).place { lf := 1, pos := 0 } == some (coreAtPos 1 0) && !(s.port .a).viaPeer && (s.job 0).log.isEmpty &&
      (s.job 0).replayTo.isNone && (ent 0x20B [(1, 1, 15), (8, 8, 77)]).param.length == 16 &&
      s.cp.journal.all (fun d => d.opcode != 0x20B || !d.waiting) },
  { op := 0x20B, used := [(0, 2), (8, 4056)], par := [(0, 1, 1), (8, 8, 0)], ok := fun s => (s.job 1).state == .loaded },
  { op := 0x400, used := [(0, 2), (8, 8)], par := [(1, 1, 5), (8, 8, 2 ^ 64 - 1)], ok := fun s => (s.job 0).state == .running },
  { op := 0x400, used := [(0, 2), (8, 8)], par := [(0, 1, 1), (8, 8, 0)], ok := fun s => (s.job 1).state == .loaded },
  { op := 0x400, used := [(0, 2), (8, 8)], par := [(0, 1, 15), (8, 8, 0)], ok := fun s => (s.job 15).state == .empty },
  { op := 0x404, used := [(0, 1), (8, 12)], par := [(8, 8, 64), (16, 4, 80)], f := setJob 0 { state := .stopped, overrun := some aRecord }
    ok := fun s => (s.job 0).overrun == some aRecord && (s.port .a).linkUp && !(s.port .a).d3 && (s.port .a).busMaster },
  { op := 0x404, used := [(0, 1), (8, 12)], par := [(8, 8, 64), (16, 4, 79)], f := setJob 0 { state := .stopped, overrun := some aRecord }
    ok := fun s => (s.job 0).overrun == some aRecord },
  { op := 0x404, used := [(0, 1), (8, 12)], ok := fun s => (s.job 0).state == .running }]
theorem hyp_report_commands : ∀ c ∈ reportCases, c.holds := by
  simp only [Case.holds, Started, HasSession]; decide +kernel

def setSnap (n : Snap) (s : State) : State := { s with snaps := tset s.snaps 0 n }
def killCases : List Case := [
  { op := 0x206, used := [(0, 1)], f := fun s => { s with net := [{ ptype := 0, slot := 0, counted := true }] } },
  { op := 0x206, used := [(0, 1)], ok := fun s => s.net.isEmpty && noWin (s.port .a) && noWin (s.port .b) && decide (tget Snap.none s.snaps 0 = .none) },
  { op := 0x206, used := [(0, 1)], par := [(0, 1, 1)], ok := fun s => (s.job 1).state == .loaded },
  { op := 0x800, used := [(0, 2), (4, 4)], par := [(1, 1, 1), (4, 4, 3600)], ok := fun s => decide (tget Snap.none s.snaps 0 = .none) },
  { op := 0x800, used := [(0, 2), (4, 4)], par := [(0, 1, 15), (4, 4, 1)], ok := fun s => (s.job 15).state == .empty },
  { op := 0x801, used := [(0, 1), (8, 8)], par := [(8, 8, 1)], f := runningJob (fun q => { q with debugHold := true })
    ok := fun s => (s.job 0).debugHold && !(s.stack 0).lost && s.freeAt [0] 0 752877568 },
  { op := 0x801, used := [(0, 1), (8, 8)], par := [(8, 8, 1)], ok := fun s => !(s.job 0).debugHold },
  { op := 0x802, used := [(0, 1), (8, 16)], par := [(8, 8, 64), (16, 8, 2)], f := setSnap (.held .a 5 [] [1, 2])
    ok := fun s => decide (tget Snap.none s.snaps 0 = .held .a 5 [] [1, 2] ∧ s.now < 5) && posts s && reaches s },
  { op := 0x802, used := [(0, 1), (8, 16)], par := [(8, 8, 64), (16, 8, 2)], f := fun s => cutBoth (setSnap (.held .a 5 [] [1, 2]) s)
    ok := fun s => decide (tget Snap.none s.snaps 0 = .held .a 5 [] [1, 2]) && !reaches s },
  { op := 0x802, used := [(0, 1), (8, 16)], par := [(8, 8, 64), (16, 8, 2)], f := setSnap (.held .b 0 [] [1, 2])
    ok := fun s => decide (tget Snap.none s.snaps 0 = .held .b 0 [] [1, 2] ∧ 0 ≤ s.now) },
  { op := 0x802, used := [(0, 1), (8, 16)], par := [(8, 8, 64), (16, 8, 2)], f := setSnap .expired
    ok := fun s => decide (tget Snap.none s.snaps 0 = .expired) }]
theorem hyp_kill_commands : ∀ c ∈ killCases, c.holds := by
  simp only [Case.holds, Started, HasSession]; decide +kernel

def moduleCases : List Case := [
  { op := 0x401, used := [(0, 1)], par := [(0, 1, 1)] },
  { op := 0x500, used := [(0, 4)], par := [(0, 4, 5000)] }, { op := 0x500, used := [(0, 4)], par := [(0, 4, 27000)] },
  { op := 0x500, used := [(0, 4)], par := [(0, 4, 4999)] }, { op := 0x500, used := [(0, 4)], par := [(0, 4, 27001)] },
  { op := 0x700, used := [] },
  { op := 0x402, used := [(0, 12)], par := [(8, 4, 369600)], ok := posts }, { op := 0x402, used := [(0, 12)], par := [(8, 4, 369599)], ok := posts },
  { op := 0x503, used := [(0, 12)], par := [(8, 4, 1664)], ok := posts }, { op := 0x503, used := [(0, 12)], par := [(8, 4, 1663)], ok := posts },
  { op := 0x403, used := [(0, 20)], par := [(0, 8, 5), (16, 4, 64)], f := fun s => { s with errs := [{ cls := 1, seqno := 5 }] }, ok := posts },
  { op := 0x403, used := [(0, 20)], par := [(0, 8, 6), (16, 4, 64)], f := fun s => { s with errs := [{ cls := 1, seqno := 5 }] }, ok := posts },
  { op := 0x701, used := [(0, 12), (16, 4096)], par := [(8, 4, 4096), (16, 1, 16)], ok := posts },
  { op := 0x402, used := [(0, 12)], par := [(0, 8, 4), (8, 4, 369600)] }, { op := 0x503, used := [(0, 12)], par := [(0, 8, 4)] },
  { op := 0x701, used := [(0, 12), (16, 4096)], par := [(0, 8, 4), (16, 1, 16)] }, { op := 0x403, used := [(0, 20)], par := [(8, 8, 4), (16, 4, 64)] }]
theorem hyp_module_commands : ∀ c ∈ moduleCases, c.holds := by
  simp only [Case.holds, Started, HasSession]; decide +kernel

/-- Field 59, in no partition, changed by `f`. -/
def field59 (f : FieldState → FieldState) (s : State) : State :=
  let s := s.modField 59 (fun x => f { x with run := true })
  { s with mod := { s.mod with coolantOk := true } }
def noLimit (s : State) : Bool := decide (s.mod.supply = .normal ∧ s.mod.coolantOk = true ∧ (s.field 59).thermLim = 20 ∧ (s.field 59).powLim = 20)
def fieldCases : List Case := [
  { op := 0x501, used := [(0, 9)], par := [(0, 8, 2 ^ 59), (8, 1, 20)], f := field59 (fun x => { x with run := false })
    ok := fun s => !(s.field 59).run && !(s.field 59).busy && (s.field 59).job.isNone },
  { op := 0x501, used := [(0, 9)], par := [(0, 8, 2 ^ 59), (8, 1, 18)], f := field59 id
    ok := fun s => noLimit s && (s.field 59).clkEff == 18 && (s.field 59).clkLimit == 0 && (s.field 59).power == 0 },
  { op := 0x501, used := [(0, 9)], par := [(0, 8, 2 ^ 59), (8, 1, 20)], f := field59 id, ok := fun s => noLimit s && (s.field 59).clkEff == 18 },
  { op := 0x501, used := [(0, 9)], par := [(0, 8, 1), (8, 1, 0)], ok := fun s => (s.field 0).job == some 0 && (s.job 0).state == .running },
  { op := 0x502, used := [(0, 9)], par := [(0, 8, 1), (8, 1, 2)], ok := fun s => (s.field 0).job.isSome && !(s.field 0).busy },
  { op := 0x502, used := [(0, 9)], par := [(0, 8, 2 ^ 59), (8, 1, 1)], f := field59 id, ok := fun s => (s.field 59).job.isNone && (s.field 59).power == 0 },
  { op := 0x502, used := [(0, 9)], par := [(0, 8, 2 ^ 59), (8, 1, 2)], f := field59 id
    ok := fun s => (s.field 59).power == 0 && (List.range 16).all (fun n => decide ((stackEdge n).1 ≠ 59)) },
  { op := 0x502, used := [(0, 9)], par := [(0, 8, 2 ^ 59), (8, 1, 0)], f := field59 (fun x => { x with power := 2 })
    ok := fun s => (s.field 59).power == 2 && !(s.field 59).lockout && !(s.field 59).tstop && KMap.rising s.cores },
  { op := 0x501, used := [(0, 9)], par := [(0, 8, 2 ^ 59), (8, 1, 20)], f := field59 (fun x => { x with busy := true }), ok := fun s => (s.field 59).busy },
  { op := 0x502, used := [(0, 9)], par := [(0, 8, 2 ^ 59), (8, 1, 1)], f := field59 (fun x => { x with busy := true })
    ok := fun s => (s.field 59).busy && (s.field 59).job.isNone && (s.field 59).power == 0 },
  { op := 0x405, used := [(0, 1)], par := [(0, 1, 59)], f := field59 id
    ok := fun s => s.fieldOk 59 && (s.field 59).job.isNone && (s.field 59).run && coreField (coreAtPos 59 0) == some 59 && s.code (coreAtPos 59 0) == 0 },
  { op := 0x405, used := [(0, 1)], ok := fun s => (s.field 0).job.isSome }]
theorem hyp_field_commands : ∀ c ∈ fieldCases, c.holds := by
  simp only [Case.holds, Started, HasSession]; decide +kernel

/-! ### Firmware and management -/

def withUpd (u : Update) (s : State) : State := { s with fw := { s.fw with upd := some u } }
def upd (src : UpdSrc) (st : Nat) : Update := { src := src, target := 0, size := 2, bytes := [(0, 7), (1, 9)], state := st, slot := 1 }
/-- Both MODULE slots hold an image of bytes `v`; the other CP is in service. -/
def handS (v : Byte) (s : State) : State :=
  let d (x : Flash) : Flash := { x with mod := Vector.replicate 2 { image := List.replicate 24 v } }
  { s with
    fw := { s.fw with upd := some (upd .service 3), flash := { a := d s.fw.flash.a, b := d s.fw.flash.b } }
    cp := { s.cp with up := { a := true, b := true } } }
def fwCases : List Case := [
  { op := 0x600, used := [(0, 1), (4, 4)], par := [(4, 4, 5744)], ok := fun s => s.fw.upd.isNone },
  { op := 0x600, used := [(0, 1), (4, 4)], par := [(4, 4, 33554432)], ok := fun s => s.fw.upd.isNone },
  { op := 0x600, used := [(0, 1), (4, 4)], par := [(0, 1, 2), (4, 4, 524296)], ok := fun s => s.fw.upd.isNone },
  { op := 0x600, used := [(0, 1), (4, 4)], par := [(0, 1, 2), (4, 4, 5744)], f := withUpd (upd .service 1) },
  { op := 0x601, used := [(0, 4), (8, 4096)], par := [(8, 8, 5)], f := withUpd { upd (.port .a 1) 1 with size := 8 }, ok := fun s => s.fw.upd.isSome },
  { op := 0x601, used := [(0, 4), (8, 4096)], par := [(8, 8, 5)], f := withUpd (upd .service 1) },
  { op := 0x602, used := [], f := withUpd (upd (.port .a 1) 1)
    ok := fun s => (upd (.port .a 1) 1).received == (upd (.port .a 1) 1).size && decide (s.mod.supply ≠ .warning) },
  { op := 0x602, used := [], f := withUpd { upd (.port .a 1) 1 with size := 3 }, ok := fun _ => decide ((upd (.port .a 1) 1).received < 3) },
  { op := 0x603, used := [(0, 1)], f := withUpd (upd .service 3), ok := fun s => decide (s.mod.supply ≠ .warning) },
  { op := 0x603, used := [(0, 1)], f := fun s => withUpd (upd .service 3) { s with mod := { s.mod with supply := .warning } } },
  { op := 0x603, used := [(0, 1)], par := [(0, 1, 1)], f := handS 1, ok := fun s => s.hitlessOk (upd .service 3) && s.fw.upd == some (upd .service 3) },
  { op := 0x603, used := [(0, 1)], par := [(0, 1, 1)], f := handS 0, ok := fun s => !s.hitlessOk (upd .service 3) },
  { op := 0x604, used := [], f := withUpd (upd .service 3) }, { op := 0x604, used := [], ok := fun s => s.fw.upd.isNone }]
theorem hyp_firmware_commands : ∀ c ∈ fwCases, c.holds := by
  simp only [Case.holds, Started, HasSession]; decide +kernel

/-- An MC that runs on die A, the active one; updates of the service port and of PLDM received whole, written, and under way. -/
def mcS : State :=
  { base with
    cp := { active := some .a }
    ports := { a := { linkUp := true, refPresent := true }, b := {} }
    mc := { a := { running := true, store := [({ cls := 1, seqno := 5 }, false)], receiver := some 9 }, b := {} } }
theorem hyp_service_and_pldm :
    mcS.mc.a.running = true ∧ mcS.cp.active.getD .a = .a ∧ mcS.fw.upd = none ∧ mcS.mod.supply ≠ .warning ∧ mcS.cp.owner = none ∧
      (mcS.port .a).linkUp = true ∧
    (∀ src ∈ [UpdSrc.service, .pldm], (withUpd (upd src 1) mcS).fw.upd = some (upd src 1) ∧ (upd src 1).received = (upd src 1).size ∧
      (withUpd (upd src 3) mcS).fw.upd = some (upd src 3) ∧ 0 + 8 ≤ ({ upd src 1 with size := 8 } : Update).size) ∧
    ({ mcS with mod := { mcS.mod with step := 10 } }.mod.step = 10) ∧ ((mcS.mc.get .a).store = [({ cls := 1, seqno := 5 }, false)]) ∧
    (mcS.mc.get .a).receiver.isSome = true ∧ (mcS.mc.get .a).sentAt = none ∧ (mcS.mc.get .a).lossy = false := by
  decide +kernel
theorem hyp_delivery : ∃ h, let s := { mcS with mc := mcS.mc.modify .a (fun x => { x with health := h }) }
    (s.mc.get .a).health = s.healthNow := ⟨mcS.healthNow, by decide +kernel⟩

/-! ### Ports, clocks and power -/

/-- A link that may train, with a settled REFCLK and without; mated connectors; D3hot and D0; the reset of an asserted PERST#. -/
theorem hyp_connectors :
    (let s := { portS false (fun y => { y with linkUp := false, cprsnt := false, refSettled := true }) with mod := { step := 3 } }
     (s.port .a).linkUp = false ∧ (s.port .a).reset = false ∧ (s.port .a).perst = false ∧ (s.port .a).cprsnt = false ∧
       (s.port .a).refPresent = true ∧ (s.port .a).refSettled = true ∧ (s.port .a).grace = none ∧ 3 ≤ s.mod.step) ∧
    (∀ b ∈ [true, false], let s := portS false (fun y => { y with linkUp := b, refPresent := b, cprsnt := b, d3 := b })
     (s.port .a).linkUp = b ∧ (s.port .a).refPresent = b ∧ (s.port .a).cprsnt = b ∧ (s.port .a).d3 = b) ∧
    (((portS true id).port .a).linkUp = true ∧ (portS true id).cp.owner = some (.a, 1)) ∧
    (let s := portS true (fun y => { y with perst := true, cprsnt := false })
     (s.port .a).perst = true ∧ (s.port .a).cprsnt = false ∧ (s.port .a).reset = false ∧ (s.port .a).linkUp = true ∧
       (s.port .a).ready = true ∧ s.cp.owner = some (.a, 1) ∧ s.cp.claim = none) := by
  refine ⟨?_, ?_, ?_, ?_⟩ <;> decide +kernel

/-- A grace period at its end and one tick before; the preference for a port likewise, with and without a waiting CLAIM; a link that is lost. -/
theorem hyp_grace :
    (∀ n ∈ [24999999, 25000000],
     let s0 := portS true (fun y => { y with linkUp := false, cprsnt := false, refSettled := true, grace := some 25000000 })
     let s := { s0 with mod := { s0.mod with ctl := n, prefPort := some .a, prefEnd := some 25000000 } }
     (s.port .a).grace = some 25000000 ∧ s.mod.ctl = n ∧ (s.port .a).cprsnt = false ∧ (s.port .a).perst = false ∧ (s.port .a).reset = false ∧ (s.port .a).refPresent = true ∧
       (s.port .a).refSettled = true ∧ s.mod.prefEnd = some 25000000 ∧
       s.cp.claim = none) ∧
    (let s0 := cmdS 2 [(0, 1, 1)]
     let s := { s0 with mod := { s0.mod with prefEnd := some 0 }, cp := { s0.cp with owner := none, claim := some 3 } }
     s.mod.prefEnd = some 0 ∧ s.cp.owner = none ∧ s.cp.claim = some (ent 2 [(0, 1, 1)]).id ∧ s.entry 3 = some (ent 2 [(0, 1, 1)])) ∧
    ((portS true id).port .a).linkUp = true ∧ ((portS true id).port .b).linkUp = false ∧ (portS false id).cp.owner = none := by
  refine ⟨?_, ?_, ?_⟩ <;> decide +kernel

/-- A CP with its partner in service, at 20,000 ticks without a heartbeat and one before; an update that activates; a partner out of service. -/
theorem hyp_control :
    (∀ n ∈ [19999, 20000], let s0 := portS true id
     let s := { s0 with cp := { s0.cp with up := { a := true, b := true } }, mod := { s0.mod with ctl := n } }
     s.cp.active = some .a ∧ s.cpRuns = true ∧ s.cp.up.get .b = true ∧ s.cp.lastBeat = 0 ∧ s.mod.ctl = n ∧ s.fw.upd = none) ∧
    (let u := { upd .service 4 with arg := 1 }
     let s := withUpd u (portS true id)
     s.cpRuns = true ∧ s.fw.upd = some u ∧ u.handsOver = true ∧ u.entry = none ∧ s.mod.supply ≠ .warning) ∧
    (portS true id).cp.up.get .b = false := by
  refine ⟨?_, ?_, ?_⟩ <;> decide +kernel

/-- A REFCLK before and at the end of its delay, for each strap, of the owner's port and with no owner; its loss as the time source and not,
with a link and without, as the last one. -/
theorem hyp_refclk :
    (∀ d ∈ [0, 1, 2, 3, 4, 5, 6, 7], ∀ n ∈ [0, 1], ∀ own ∈ [true, false],
     let w := [10000, 20000, 50000, 100000, 200000, 500000, 2000000, 10000000].getD d 0
     let s0 := portS own (fun y => { y with delaySel := d, refAt := 3 })
     let s := { s0 with mod := { s0.mod with standby := true, sby := w + 2 + n } }
     (s.port .a).refPresent = true ∧ (s.port .a).refSettled = false ∧ s.mod.tsPresent = true ∧
       (own = true → s.cp.owner = some (.a, 1)) ∧ (own = false → s.cp.owner = none) ∧
       [10000, 20000, 50000, 100000, 200000, 500000, 2000000, 10000000][(s.port .a).delaySel]? = some w ∧ (s.mod.sby < (s.port .a).refAt + w ↔ n = 0)) ∧
    (let s := { base with mod := { standby := true } }
     s.mod.standby = true ∧ (s.port .a).refPresent = false ∧ s.mgmt.mcPend = [] ∧ base.mod.standby = false) ∧
    (∀ l ∈ [true, false], let s0 := portS true (fun y => { y with linkUp := l })
     let s := s0.modPort .b (fun y => { y with linkUp := l, refPresent := true })
     s.mod.tsPresent = true ∧ s.mod.tsrc = .a ∧ (s.port .a).refPresent = true ∧ (s.port .b).refPresent = true ∧ s.cp.active.isSome = true ∧
       (s.port .b).linkUp = l) ∧
    ((mcS.port .a).refPresent = true ∧ (mcS.port .b).refPresent = false ∧ (mcS.mc.get .a).running = true) := by
  refine ⟨?_, ?_, ?_, ?_⟩ <;> decide +kernel

/-- A recovery from the same REFCLK with the other absent, not to be taken, and settled later; from the other, absent and settled later; none
where neither may be taken; the locks, of controllers loaded and not. -/
theorem hyp_recovery :
    (∀ src ∈ [Port.a, .b], ∀ fall ∈ [true, false], ∀ other ∈ [true, false], ∀ ld ∈ [true, false],
     let s0 := portS true (fun y => { y with refSettled := true, settledAt := 5 })
     let s0 := s0.modPort .b (fun y => { y with refPresent := other, refSettled := other, settledAt := 6 })
     let s := (s0.modField 59 (fun x => { x with loaded := ld })).modStack 15 (fun k => { k with loaded := ld })
     let s := { s with mod := { step := 5, tsrc := src, fallback := fall, ctlLock := true } }
     s.mod.tsPresent = false ∧ 5 ≤ s.mod.step ∧ s.mod.tsrc = src ∧ (s.port .a).refPresent = true ∧ (s.port .a).refSettled = true ∧
       (s.port .b).refPresent = other ∧ s.mod.fallback = fall ∧ s.mod.ctlLock = true ∧ (s.port .a).settledAt < (s.port .b).settledAt ∧
       (s.field 59).loaded = ld ∧ (s.field 59).power = 0 ∧ (s.field 59).swOpen = false ∧
       (s.field 59).tstop = false ∧ (s.stack 15).loaded = ld ∧ (s.stack 15).lost = false) ∧
    (let s0 := portS true (fun y => { y with refSettled := true })
     let s := { s0 with mod := { step := 3 } }
     s.mod.step = 3 ∧ s.ports.a.refPresent = true ∧ s.ports.a.refSettled = true ∧ s.ports.b.pref = false) ∧
    (mcS.mc.get .a).running = true ∧ mcS.mod.tsPresent = true ∧ (mcS.port .a).refPresent = true := by
  refine ⟨?_, ?_, ?_⟩ <;> decide +kernel

/-- A field of no partition that switches its clock, with no limit and in a supply warning; one that is idle, and one with a core that is
not; one with a packet bound for it. -/
theorem hyp_field_clocks :
    (∀ w ∈ [Supply.normal, .warning], let s0 := field59 id base
     let s := { s0 with mod := { s0.mod with supply := w } }
     (s.field 59).run = true ∧ (s.field 59).power = 0 ∧ (s.field 59).tstop = false ∧ (s.field 59).clkSet ≤ 20 ∧ s.mod.supply = w ∧ 0 < (s.field 59).clkSet ∧
       s.mod.coolantOk = true ∧ (s.field 59).thermLim = 20 ∧ (s.field 59).powLim = 20 ∧ (s.field 59).gated = false ∧ s.net = []) ∧
    (let s := field59 id { fields := Vector.replicate 60 { power := 2 } }
     s.fieldIdle 59 = true) ∧
    (coreS mxC { e1 := { prog := [{}] } }).fieldIdle 0 = false ∧
    (let q := { fromVx 0 mxC 0 with dx := (coreAtPos 59 0).x, dy := (coreAtPos 59 0).y }
     let s := { field59 (fun x => { x with gated := true }) base with net := [q] }
     q ∈ s.net ∧ q.dkind = 0 ∧ coreField { x := q.dx, y := q.dy } = some 59 ∧ (s.field 59).gated = true) := by
  refine ⟨?_, ?_, ?_, ?_⟩ <;> decide +kernel

/-- The supply's states at their limits, and what each part of the start sequence asks. -/
theorem hyp_supply :
    (∀ u ∈ [Supply.normal, .warning, .reset, .off], ∀ b ∈ [true, false], ∀ st ∈ [0, 3, 5],
     let s := { base with mod := { supply := u, present := b, standby := b, tsPresent := true, warmReq := b, step := st }
                          jobs := base.jobs.set 0 { state := .running, held := true, warnFrom := some 0 } }
     s.mod.supply = u ∧ s.mod.present = b ∧ s.mod.standby = b ∧ s.mod.warmReq = b ∧ s.mod.step = st ∧ s.fw.syncDue = false ∧
       s.mod.tsPresent = true ∧ (s.job 0).held = true ∧ (s.job 0).warnFrom = some 0 ∧ (s.job 15).held = false) ∧
    (∀ n ∈ [199999, 200000],
     let s := { base with mod := { supply := .warning, ctl := n }, ports := { a := { cprsnt := false, refPresent := true }, b := {} }
                          jobs := base.jobs.set 0 { state := .running, held := true, warnFrom := some 0 } }
     (s.job 0).state = .running ∧ (s.job 0).held = true ∧ s.mod.supply = .warning ∧ (s.job 0).warnFrom = some 0 ∧ s.mod.ctl = n ∧
       s.ports.a.refPresent = true ∧ s.mod.coolantOk = false ∧ s.mod.coolantNoted = false ∧
       s.ports.a.perst = false ∧ s.ports.a.cprsnt = false) := by
  refine ⟨?_, ?_⟩ <;> decide +kernel

/-- A rail fault just inside a second of closing; a lost field of a running partition; a stopped field that has cooled. -/
theorem hyp_rails :
    (let s := { field59 (fun x => { x with closedAt := some 0 }) base with mod := { ctl := 99999999 } }
     (s.field 59).swOpen = false ∧ (s.field 59).closedAt = some 0 ∧ s.mod.ctl < 0 + 100000000) ∧
    (let s := base.modField 1 (fun x => { x with swOpen := true, cause := 1 })
     (s.field 1).lost = false ∧ (s.field 1).swOpen = true ∧ (s.field 1).cause = 1 ∧ (s.field 1).job = some 0 ∧ (s.job 0).state = .running ∧
       (1 : Nat) ≠ 22 ∧ (1 : Nat) ≠ 37) ∧
    (let s := field59 (fun x => { x with tstop := true, coolSince := some 0, loaded := true }) (portS true id)
     let s := { s with mod := { s.mod with ctl := 100000 } }
     (s.field 59).tstop = true ∧ (s.field 59).swOpen = false ∧ (s.field 59).power = 0 ∧ (s.field 59).job = none ∧
       (s.field 59).coolSince = some 0 ∧ 0 + 100000 ≤ s.mod.ctl ∧ (s.field 59).loaded = true ∧ s.cpRuns = true ∧ s.mod.tsPresent = true ∧
       KMap.rising s.cores = true) := by
  refine ⟨?_, ?_, ?_⟩ <;> decide +kernel

/-- Throttling at 90, 89 and 87 °C, the power limit above the grant; the coolant's two states, recorded and not; a busy field and another. -/
theorem hyp_heat :
    (∀ t ∈ ([90, 89, 88, 87] : List Nat), let lim := if t = 87 then 16 else 20
     let up := if t = 87 then some 0 else none
     let s := field59 (fun x => { x with tempMax := BitVec.ofNat 8 t, thermLim := lim, thermUp := up, watts := 1 }) (portS true id)
     let s := { s with mod := { s.mod with ctl := 10000 } }
     (s.field 59).run = true ∧ (s.field 59).tempMax.toInt = (t : Int) ∧ (s.field 59).thermAt = none ∧
       0 < (if (s.field 59).thermLim = 20 then (s.field 59).clkSet else (s.field 59).thermLim) ∧
       (t = 87 → (s.field 59).thermLim + 1 < (s.field 59).clkSet ∧ (s.field 59).thermUp = some 0 ∧ 0 + 10000 ≤ s.mod.ctl) ∧
       (s.field 59).grant.toNat < (s.field 59).watts.toNat ∧ (s.field 59).powAt = none ∧
       0 < (if (s.field 59).powLim = 20 then (s.field 59).clkSet else (s.field 59).powLim)) ∧
    (let s := { field59 (fun x => { x with watts := 1, powAt := some 0 }) base with mod := { ctl := 999 } }
     (s.field 59).grant.toNat < (s.field 59).watts.toNat ∧ (s.field 59).powAt = some 0 ∧ s.mod.ctl < 0 + 1000) ∧
    (∀ b ∈ [true, false], ∀ n ∈ [true, false], let s0 := (portS true id).modField 59 (fun x => { x with busy := b })
     let s := { s0 with mod := { s0.mod with standby := true, coolantOk := b, coolantNoted := n } }
     s.mod.standby = true ∧ s.mod.coolantOk = b ∧ s.mod.coolantNoted = n ∧ s.cpRuns = true ∧ (s.field 59).busy = b ∧ (s.field 59).power = 0 ∧
       (s.field 59).watts.toNat ≤ (s.mod.cap - 0) / 60) := by
  refine ⟨?_, ?_, ?_⟩ <;> decide +kernel

/-! ### Stacks, tests, safelight, time -/

/-- A WRITE and a READ of the last word of stack 15's data. -/
def stackS (ty : Nat) (m : KMap Code) : State :=
  let p := { fromVx ty mxC (2 ^ 44 + 15 * 2 ^ 37 + 74999999992 + 0xFF * 2 ^ 48) with dkind := 1, dx := 15, dy := 0, sx := 97 }
  let p := if ty = 3 then { p with h1 := BitVec.ofNat 64 (2 ^ 44 + 15 * 2 ^ 37 + 74999999992), pay := [] } else { p with h1 := BitVec.ofNat 64 (2 ^ 44 + 15 * 2 ^ 37 + 74999999992 + 0xFF * 2 ^ 48) }
  { base with net := [p], stk := base.stk.set 15 { locked := true, mem := m }
              fields := Vector.replicate 60 { job := some 0, run := true }
              jobs := base.jobs.set 0 { state := .running, fields := (List.range 60).map some } }
theorem hyp_stack_packets : ∀ ty ∈ [0, 3],
    let s := stackS ty [(9374999999, eccEncode 7 true)]
    ∃ p ∈ s.net, s.net = [p] ∧ p.ptype = ty ∧ p.dkind = 1 ∧ p.dx = 15 ∧ (s.route p).fin = .arrive ∧ p.wellFormed = true ∧ p.counted = false ∧
      p.len = 1 ∧ nfld p.da 0 37 = 74999999992 ∧ (s.stack 15).locked = true ∧ (s.stack 15).selfRefresh = false ∧ (s.stack 15).lost = false ∧
      (s.stack 15).rebuild = none ∧ s.mod.memMode = false ∧ KMap.wf 0 (s.stack 15).mem = true ∧
      KMap.get 0 (s.stack 15).mem (nfld p.da 0 37 / 8) = eccEncode 7 true ∧ (ty = 0 → p.pay = [(7, true)] ∧ nfld p.h1.toNat 48 8 = 0xFF) := by
  decide +kernel

theorem hyp_stacks :
    (∀ b ∈ [true, false], ((base.modStack 15 (fun y => { y with failed := b })).stack 15).failed = b) ∧
    (let s := (idle60 base).modStack 15 (fun y => { y with lost := true })
     (s.stack 15).lost = true ∧ (s.stack 15).failed = false ∧ s.edgeBack 15 = true ∧ (∀ m < 15, (s.stack m).lost = false)) ∧
    ({ base with fields := Vector.replicate 60 { power := 2, swOpen := true, lost := true } }.edgeBack 15 = false) ∧
    (let s := base.modStack 15 (fun y => { y with rebuild := some 5 })
     (s.stack 15).rebuild = some 5 ∧ ∀ m < 16, (s.stack m).lost = false) := by
  refine ⟨?_, ?_, ?_, ?_⟩ <;> decide +kernel

/-- The last hub group of field 59 and of field 0: a tick before its first due point and at it, taken up already and not, in no partition and in
a running one; a deferral at its end and one tick past it; trials at 300 s and a tick before. -/
theorem hyp_tests :
    (∀ f ∈ [59, 0], ∀ b ∈ [0, 1], ∀ n ∈ [0, 1],
     let period := ({} : State).mgmt.testPeriod * 100000000
     let off := (48 * f + 47) * period / 2880
     let s := (if f = 59 then field59 id base else base).modField f (fun x =>
       { x with tick := BitVec.ofNat 64 (off - 1 + b), testLast := if n = 0 then [] else [(47, off + 1)] })
     s.fieldOk f = true ∧ (s.field f).run = true ∧ (s.field f).testDue = [] ∧ s.mgmt.testPeriod * 100000000 = period ∧
       (b = 0 → (s.field f).tick.toNat < off) ∧ (b = 1 → off = (s.field f).tick.toNat ∧ ((s.field f).tick.toNat - off) / period * period = 0) ∧
       KMap.get 0 (s.field f).testLast 47 = (if n = 0 then 0 else off + 1) ∧
       (s.field f).job = (if f = 59 then none else some 0)) ∧
    (∀ n ∈ [1000000000, 1000000001], let s0 := base.modField 0 (fun x => { x with testDue := [(47, 0)] })
     let s := { s0 with mod := { s0.mod with ctl := n } }
     (s.field 0).testDue = [(47, 0)] ∧ s.mod.ctl = n ∧ s.mgmt.testDefer * 100000000 = 1000000000) ∧
    (∀ n ∈ [29999999999, 30000000000], let s0 := portS true id
     let s := { s0 with mod := { s0.mod with ctl := n, sby := n }, fw := { s0.fw with trialAt := some 0, mcTrialAt := { a := some 0, b := none } }
                        mc := mcS.mc }
     s.fw.trialAt = some 0 ∧ s.cpRuns = true ∧ s.fw.runMod < 2 ∧ s.mod.ctl = n ∧ s.fw.mcTrialAt.get .a = some 0 ∧ (s.mc.get .a).running = true ∧
       s.fw.runMc.get .a < 2 ∧ s.mod.sby = n ∧ s.mod.supply ≠ .warning) := by
  refine ⟨?_, ?_, ?_⟩ <;> decide +kernel

/-- A sweep over a field's one changed core, at 4,096 and 4,097 corrected errors; over its one changed router at 65,537. -/
theorem hyp_sweep : (∀ n ∈ [4096, 4097],
    let s := base.setCore mxC { sp := { ceCount := BitVec.ofNat 32 n } }
    (s.field 0).run = true ∧ s.coresOf 0 = [mxC] ∧ s.routers = [] ∧ (s.field 0).last = [] ∧ s.code mxC = 0 ∧ (s.field 0).pendFence = [] ∧
      (s.core mxC).sp.ceCount.toNat = n ∧ (s.core mxC).sp.logValid = false) ∧
    (let s := (portS true id).setRouter mxC { linkCe := 65537 }
     (s.field 0).run = true ∧ s.coresOf 0 = [] ∧ s.routers = [(coreKey mxC, { linkCe := 65537 })] ∧ (s.field 0).last = [] ∧ s.cpRuns = true) := by
  refine ⟨?_, ?_⟩ <;> decide +kernel

/-- A safelight interval that drains, with a packet and without; one that starts, with a scheduled core; a report with and without a CP. -/
theorem hyp_safelight :
    (∀ n ∈ [0, 1], let s := { jobS {} (fun q => { q with safelight := .drain anOverlay }) with net := List.replicate n (fromVx 0 vxC 0) }
     (s.job 0).state = .running ∧ (s.job 0).safelight = .drain anOverlay ∧ s.net.length = n ∧ ∀ p ∈ s.net, p.slot = 0 ∧ (s.route p).pos = none) ∧
    (let p := { fromVx 0 mxC 0 with dx := (coreAtPos 1 0).x, dy := (coreAtPos 1 0).y }
     let s0 := (jobS {} (fun q => { q with safelight := .drain anOverlay })).modField 1 (fun x => { x with run := false })
     let s := { s0 with net := [p] }
     (s.job 0).safelight = .drain anOverlay ∧ ∀ p ∈ s.net, p.slot = 0 → (s.route p).pos.isSome = true) ∧
    (let s := jobS { stopat := true } (fun q => { q with safelight := .apply anOverlay })
     (s.job 0).safelight = .apply anOverlay ∧ anOverlay.changes = [] ∧ s.schedCores 0 = [mxC] ∧ (s.core mxC).e1.queue = [] ∧
       (s.core mxC).e2.queue = [] ∧ (s.core mxC).e3.queue = []) ∧
    (portS true id).cpRuns = true ∧ base.cpRuns = false := by
  refine ⟨?_, ?_, ?_, ?_, ?_⟩ <;> decide +kernel

/-- A field's TICK equal to the active die's, off by one either way, and off by two; a stack's off by one. -/
theorem hyp_ticks : ∀ d ∈ [0, 1, 2, 3, 4],
    let s0 := portS true (fun y => { y with tick := 7 })
    let s := (s0.modField 0 (fun x => { x with tick := BitVec.ofNat 64 (5 + d) })).modStack 15 (fun x => { x with tick := 8 })
    ((s.field 0).tick.toNat : Int) - ((s.port s.cp.cpact).tick.toNat : Int) = (d : Int) - 2 ∧ (s.stack 15).tick = (s.port s.cp.cpact).tick + 1 ∧
      (s.port s.cp.cpact).tick ≠ BitVec.allOnes 64 ∧ (s.port .a).tick = (s.port s.cp.cpact).tick ∧ s.pending = [] ∧ s.mod.tsPresent = true ∧
      (s.port .a).tickAdj = 0 ∧ (s.port .b).tickAdj = 0 ∧ (∀ f < 60, (s.field f).tickAdj = 0) ∧ (∀ n < 16, (s.stack n).tickAdj = 0) ∧
      (s.port .a).heldReads = [] ∧ (s.port .b).heldReads = [] ∧ (∀ n < 16, (s.stack n).rebuild = none) := by
  decide +kernel

/-- A step that answers a next state from a state whose memories are in form. -/
theorem hyp_step : State.reset.memWf = true ∧ ∃ t, step State.reset = .next t := ⟨by decide +kernel, _, rfl⟩

/-! ### One ill-formed command for each check of WellFormed -/

/-- Each line breaks one check: a core outside the wafer or of another kind, numbers past their range, and so on. -/
theorem test_wf_rejects : ∀ c ∈ ([
    .coreError { x := 0, y := 0 }, .mxnop vxC, .faultReport 60, .testDue 0 48 [], .hubReadCombine 0 0 0, .overrun 16,
    .commandComplete mxC 3 0, .queueWaitEnd mxC 1, .semaphoreTake sxC 4, .correctionRewrite mxC 99, .potIdentityWrite mxC 16,
    .wash mxC [(6144, 1)], .developPoint 0 [({ x := 0, y := 0 }, [])], .routeArm 0 [.router mxC (List.replicate 17 0) []],
    .linkDown (.fine mxC 0), .tickCompare (.stack 16), .runTest 0 [.hub 48], .clockLock (.stack 16), .registerWrite .wafer mxC 0x104 0,
    .clearingRead (.bar0 .a) 0 0x10000, .configRequest .a 0 2 none, .configRequest .a 16384 0 none, .windowReadTlp .a 0 0 4095 2,
    .windowWriteTlp .a 0 0 [none, none, none, none, none, some 1, some 1, some 1, some 1] false, .windowWriteTlp .a 0 0 (List.replicate 513 none) false,
    .inboxWrite .a 32767 [1, 2], .msixHoldoffEnd .a 64, .keptReplyPost .a 16, .loadJob 0 (.ok { cores := [{ at_ := { lf := 0, pos := 0 } }] }),
    .loadOverlay 0 (.ok { changes := [{ at_ := { lf := 60, pos := 0 } }] }), .outboundCompletion .a 0 (some (List.replicate 2050 (0, false))),
    .svcHello 256 0, .svcBlock 0 0 (List.replicate 1025 0), .setAcl (.smbus .a) 0 4 (2 ^ 129), .getHealth (.udp .a (2 ^ 129)),
    .pldmUpdate (.smbus .a) (.start 256 0), .linkUp .a 3 8, .linkUp .a 16 3, .supplyWarning 65536, .railFault 0 4, .tempSample 0 [20],
    .powerShare 0 [(60, 0)], .stackLost 16] : List Instr), c.wf = false := by
  decide +kernel

theorem test_wf_accepts : ∀ c ∈ ([
    .mxnop mxC, .semaphoreTake sxC 3, .commandComplete vxC 3 0, .wash mxC [(6143, 1)], .linkDown (.fine mxC 1), .clockLock (.stack 15),
    .registerWrite .wafer mxC 0x130 0, .windowReadTlp .a 0 16383 4095 1, .inboxWrite .a 32767 [1], .linkUp .a 16 8, .testDue 59 47 [],
    .windowWriteTlp .a 0 0 [none, some 1, some 1, some 1, some 1, none] false, .tempSample 0 (List.replicate 48 20)] : List Instr), c.wf = true := by
  decide +kernel

/-! ### Worked examples of the spec -/

/-- spec/01, locating a core: (421, 650) is a VX core of field 42, hub group 2. -/
theorem test_locate : coreField { x := 421, y := 650 } = some 42 ∧ coreHub { x := 421, y := 650 } = 2 ∧ coreKind { x := 421, y := 650 } = .vx := by
  decide +kernel

/-- spec/02, a mixed-sign product: 0x5C in E4M3 times 0xB6 in E5M2 is -9. -/
theorem test_mixed_product : xaccProduct (fpDecode fmtE4M3 0x5C) (fpDecode fmtE5M2 0xB6) = 0xFFFFFFFFFFFFFFF70000000000 := by decide +kernel

/-- spec/02 Table 2.10: three products in two orders leave the same accumulator. -/
theorem test_order : let p1 : Xacc := xaccOfInt (2 ^ 60)
    let p2 : Xacc := xaccOfInt (2 ^ 20)
    let p3 : Xacc := xaccOfInt (-2 ^ 60)
    xaccAdd (xaccAdd p1 p2) p3 = 0x100000 ∧ xaccAdd (xaccAdd p1 p3) p2 = 0x100000 := by decide +kernel

/-- spec/02, one rounding: 100 + 2^-29 times 0.5 is 52 in E4M3; scales 0.25 and 2.0 give 0.5. -/
theorem test_one_rounding : (convXacc .e4m3 false 0x640000000800 (mul32 0x3E800000 0x40000000)).bits = 0x65 := by decide +kernel

/-- spec/02, overflow in the two modes: 500 into E4M3, -70,000 into E5M2, and an XACC with PINF times -3. -/
theorem test_overflow :
    convXacc .e4m3 false (xaccOfInt (500 * 2 ^ 40)) 0x3F800000 = { bits := 0x7E, ev := evSat } ∧
    convXacc .e4m3 true (xaccOfInt (500 * 2 ^ 40)) 0x3F800000 = { bits := 0x7F, ev := evNanOut } ∧
    convXacc .e5m2 false (xaccOfInt (-70000 * 2 ^ 40)) 0x3F800000 = { bits := 0xFB, ev := evSat } ∧
    convXacc .e5m2 true (xaccOfInt (-70000 * 2 ^ 40)) 0x3F800000 = { bits := 0xFC, ev := evInfOut } ∧
    (convXacc .e5m2 false xaccPinf 0xC0400000).bits = 0xFC ∧ (convXacc .e4m3 false xaccPinf 0xC0400000).bits = 0xFE ∧
    (convXacc .e4m3 true xaccPinf 0xC0400000).bits = 0x7F := by decide +kernel

/-- spec/15: the code word of 1, and its decoding after positions 20 and 79 flip, and after position 20 alone. -/
theorem test_ecc : eccEncode 1 false = 0x80000000000000004377 ∧
    eccDecode 0x00000000000000104377 = { outcome := .corrected2, data := 1, poison := false } ∧
    eccDecode 0x80000000000000104377 = { outcome := .corrected1, data := 1, poison := false } := by decide +kernel

/-- spec/03, a 32 by 32 block: the word of instruction 2. -/
theorem test_mma_word : inI 2 [(22, 1), (29, 0x400), (42, 2), (50, 32), (63, 1), (64, 1)] = 0x00000000000000018080088000400002 ∧
    mxLegal 0x00000000000000018080088000400002 = true := by decide +kernel

/-- spec/04, one list, two orders: the SVINS word, and Table 4.16. -/
def batchP : List Word := [0xBF00000000000028, 0xBF40000000000011, 0x407FFFFF00000003, 0xFFC0000000000008]
def batchQ : List Word := [0xBF4000000000000C, 0xBF00000000000028, 0xC000000000000063]
def emptyFour : List Word := List.replicate 4 0x00000000FFFFFFFF
def bestFour : List Word := [0xC000000000000063, 0xBF4000000000000C, 0xBF40000000000011, 0xBF00000000000028]
theorem test_svins_word : inI 0x52 [(25, 4), (30, 5), (42, 1), (43, 1), (72, 3)] = 0x000000000000030000000C0148000052 ∧
    vxLegal 0x000000000000030000000C0148000052 = true := by decide +kernel
theorem test_sieve_orders :
    (let p := svProcedure false true emptyFour batchP
     let q := svProcedure false true p.list batchQ
     q.list = bestFour ∧ p.nan + q.nan = 1 ∧ p.dup + q.dup = 1 ∧ p.rej + q.rej = 0 ∧ p.ins + q.ins = 5) ∧
    (let q := svProcedure false true emptyFour batchQ
     let p := svProcedure false true q.list batchP
     p.list = bestFour ∧ p.nan + q.nan = 1 ∧ p.dup + q.dup = 1 ∧ p.rej + q.rej = 1 ∧ p.ins + q.ins = 4) := by decide +kernel

/-- spec/08, the farthest pair: a packet from (96, 0) to (671, 1023) arrives by hubs (6, 0) to (41, 63). -/
theorem test_farthest_pair :
    let s : State := { base with fields := Vector.replicate 60 { job := some 0, run := true }
                                 jobs := base.jobs.set 0 { state := .running, fields := (List.range 60).map some } }
    let w := s.route { ptype := 0, sx := 96, sy := 0, dx := 671, dy := 1023 }
    w.fin = .arrive ∧ w.hubs.contains (6, 0) = true ∧ w.hubs.contains (41, 0) = true ∧ w.hubs.contains (41, 63) = true ∧
      w.hubs.length = 99 := by decide +kernel

/-- The published check value of this CRC: "123456789" gives 0x29B1; and a STATUS-like frame whose payload byte is escaped. -/
theorem test_crc16 : crc16 ((List.range 9).map (fun i => BitVec.ofNat 8 (0x31 + i))) = 0x29B1 ∧
    (svcFrame 0x94 1 [0x7E]).take 7 = [0x7E, 3, 0, 0x94, 1, 0x7D, 0x5E] := by decide +kernel

end Sys2Proof.Tests
end

/-! SUPPORT. Registers as the host's paths, the cores and the control processor reach them. -/

namespace Sys2Proof.Machine

open Sys2Proof.Claims

/-! ### What an update of one part depends on -/

theorem State.modPort_congr {s : State} {p : Port} {f g : PortState → PortState} (h : f (s.port p) = g (s.port p)) :
    s.modPort p f = s.modPort p g := by
  unfold State.modPort Pair.modify
  rw [show f (s.ports.get p) = g (s.ports.get p) from h]

theorem State.modField_congr {s : State} {n : Nat} {f g : FieldState → FieldState} (h : f (s.field n) = g (s.field n)) :
    s.modField n f = s.modField n g := by
  unfold State.modField tmod
  by_cases hn : n < 60
  · have h' : f s.fields[n] = g s.fields[n] := by simpa [State.field, tget, hn] using h
    simp [hn, h']
  · simp [hn]

/-! ### The premises of the statements as the model tests them -/

theorem State.serves_of_Serves {s : State} {p : Port} (h : Serves s p) : s.serves p = true := by
  obtain ⟨hup, hready, hd3⟩ := h
  simp [State.serves, hup, hready, hd3]

theorem State.ownsPort_iff (s : State) (p : Port) : s.ownsPort p = true ↔ Owns s p := by
  unfold State.ownsPort Owns
  cases s.cp.owner with
  | none => simp
  | some o =>
    obtain ⟨q, n⟩ := o
    simp

theorem State.coreRuns_of_Runs {s : State} {c : CoreId} (h : Runs s c) : s.coreRuns c = true := by
  obtain ⟨⟨f, j, hf, hrun, hpow, hgate, hjob, hst, herr⟩, hidle, hstop⟩ := h
  have hj : s.coreJob c = some j := by simp [State.coreJob, State.fieldJob, hf, hjob]
  simp [State.coreRuns, State.fieldRuns, FieldState.clocked, Job.inSafelight, State.fieldJob, hf, hrun, hpow, hgate, hjob, hst,
    herr, hstop, hidle j hj]

/-! ### A core's own register block (spec/12 R495) -/

/-- The offset comes back out of the device address that names it in a core's block. -/
theorem nfld_blockAddr (x y off : Nat) (h : off < 2 ^ 13) :
    nfld (packFields [(44, 2), (34, x), (24, y), (0, off)]) 0 13 = off := by
  simp only [nfld, packFields, List.foldl]
  omega

theorem blockAddr_mod (x y off : Nat) : packFields [(44, 2), (34, x), (24, y), (0, off)] % 8 = off % 8 := by
  simp only [packFields, List.foldl]
  omega

/-- A program's write to a defined offset of its own block has that offset's action and no other. -/
theorem State.progWrite_defined (s : State) (c : CoreId) (off : Nat) (v : Word) (hr : s.coreRuns c = true)
    (hx : (s.core c).run = true) (h8 : off % 8 = 0) (hlt : off < 0x2000) (hd : (s.readCoreReg c off).isSome = true) :
    s.progWrite c off v = s.ownWrite c (ownEngine (coreKind c)) off (v, false) := by
  have hdef : s.ownDefined c off = true := by simp [State.ownDefined, hlt, hd]
  have ha := nfld_blockAddr c.x c.y off hlt
  have h8' := blockAddr_mod c.x c.y off
  rw [h8] at h8'
  simp [State.progWrite, State.ownBlock, blockWords, hr, hx, ha, h8', hdef]

/-- Offsets of a core's block whose write has an action of its own: XPDONE, NETRD, the proof mark and the comparison. -/
def actionOffsets : List Nat := [0xD00, 0xE40, 0xE48, 0x1408, 0x1420]

theorem State.ownWrite_plain (s : State) (c : CoreId) (eng off : Nat) (w : Word × Bool) (h : off ∉ actionOffsets) :
    s.ownWrite c eng off w = s.setCore c (CoreState.plainWrite (coreKind c) (s.core c) off w.1) := by
  unfold State.ownWrite
  split
  case h_6 => rfl
  all_goals exact absurd (by decide) h

/-- REGISTER_WRITE by a core's program at an offset whose write has no action of its own. -/
theorem State.registerWrite_wafer_plain (s : State) (c : CoreId) (off : Nat) (v : Word) (hr : Runs s c)
    (hx : (s.core c).run = true) (h8 : off % 8 = 0) (hlt : off < 0x2000) (hd : (s.readCoreReg c off).isSome = true)
    (hp : off ∉ actionOffsets) :
    s.registerWrite .wafer c off v = s.setCore c (CoreState.plainWrite (coreKind c) (s.core c) off v) := by
  rw [State.registerWrite, s.progWrite_defined c off v (State.coreRuns_of_Runs hr) hx h8 hlt hd, State.ownWrite_plain _ _ _ _ _ hp]

/-! ### A host's own BAR0 (spec/12 R306, Table 12.10) -/

theorem State.registerWrite_bar0 {s : State} {p : Port} (h : Serves s p) (c : CoreId) (off : Nat) (v : Word) :
    s.registerWrite (.bar0 p) c off v = s.modPort p (fun x => PortState.writeBar0 s.mod.ctl x off v) := by
  simp [State.registerWrite, State.serves_of_Serves h]

theorem State.modPort_id (s : State) (p : Port) : s.modPort p (fun x => x) = s := by
  cases p <;> rfl

theorem exec_registerWrite (q : RegPath) (c : CoreId) (off : Nat) (v : Word) (s : State) :
    exec (.registerWrite q c off v) s = .next (s.registerWrite q c off v) := rfl

/-- Settles O29, path by path: a host's BAR0 by its own register's write, a core's program by the action of the offset it names. -/
theorem registerWrites : Obligations.RegisterWrites := by
  unfold Obligations.RegisterWrites
  intro s p c v x
  simp only [exec_registerWrite]
  refine ⟨fun h => ?evt, fun h => ?evtEn, fun h => ?ctlAddr, fun h => ?readOnly, fun h a => ?view, fun h hx => ?scrub,
    fun h hx _ => ?nx, fun h hx => ?netrd, fun h => ?xmin⟩
  case evt | evtEn | ctlAddr => rw [State.registerWrite_bar0 h]; rfl
  case readOnly => rw [State.registerWrite_bar0 h]; exact congrArg _ (s.modPort_id p)
  case view => simp [State.registerWrite, State.serves_of_Serves h]
  case scrub => rw [s.registerWrite_wafer_plain c 0x130 v h hx rfl (by decide) rfl (by decide)]; rfl
  case nx => rw [s.registerWrite_wafer_plain c 0x180 v h hx rfl (by decide) rfl (by decide)]; rfl
  case netrd =>
    exact congrArg _ (s.progWrite_defined c 0xE40 v (State.coreRuns_of_Runs h) hx rfl (by decide) rfl)
  case xmin => simp [State.registerWrite, h]

/-! ### BAR0 and BAR4 -/

theorem State.clearingRead_bar0_owner {s : State} {p : Port} (h : Serves s p) (ho : Owns s p) (tag off : Nat) :
    s.clearingRead (.bar0 p) tag off =
      s.modPort p (fun x => (x.clearBar0 off).send (.cpl tag .sc [(BitVec.ofNat 64 (s.readBar0 p off), false)])) := by
  simp [State.clearingRead, State.serves_of_Serves h, (s.ownsPort_iff p).2 ho]

theorem State.clearingRead_bar0_other {s : State} {p : Port} (h : Serves s p) (ho : ¬ Owns s p) (tag off : Nat) :
    s.clearingRead (.bar0 p) tag off =
      s.modPort p (fun x => x.send (.cpl tag .sc [(BitVec.ofNat 64 (s.readBar0 p off), false)])) := by
  simp [State.clearingRead, State.serves_of_Serves h, mt (s.ownsPort_iff p).1 ho]

theorem State.clearingRead_bar4 {s : State} {p : Port} (h : Serves s p) (tag off : Nat) :
    s.clearingRead (.bar4 p) tag off = s.modPort p (fun x =>
      x.send (.cpl tag .sc [(BitVec.ofNat 64 (x.readBar4 off), false)])) := by
  simp [State.clearingRead, State.serves_of_Serves h]

/-- The MSI-X table shows a vector's address at 16 bytes per vector (log 37). -/
theorem PortState.readBar4_addr (x : PortState) (v : Nat) (h : v < 64) : x.readBar4 (16 * v) = (x.vec v).addr := by
  have hlt : 16 * v < 0x400 := by omega
  have hdiv : 16 * v / 16 = v := by omega
  simp [PortState.readBar4, hlt, hdiv]

/-- A count of WRDENY as a read of BAR0 returns it. -/
theorem State.readBar0_wrDeny (s : State) (p : Port) : s.readBar0 p 0x28 = (s.port p).wrDeny.toNat := rfl

/-! ### CTLDATA (spec/12 R334) -/

/-- The CECOUNT register of a core, as every read returns it. -/
theorem State.peekBlock_ceCount (s : State) (c : CoreId) : s.peekBlock c 0x110 = some ((s.core c).sp.ceCount.setWidth 64, false) := by
  rw [← BitVec.ofNat_toNat]
  rfl

theorem State.clearDa_ceCount (s : State) (c : CoreId) (a : Nat) (hd : daDest a = some (0, c.x, c.y)) (hs : nfld a 44 4 = 2)
    (ho : nfld a 0 13 = 0x110) :
    s.clearDa a = s.setCore c { s.core c with sp := { (s.core c).sp with ceCount := 0 } } := by
  simp [State.clearDa, hd, hs, ho, State.clearCoreReg, State.modCore]

/-- CTLDATA at a core's register: its value, which the owner's read clears. -/
theorem State.ctldataAt_core {s : State} {p : Port} (h : Serves s p) (tag : Nat) (c : CoreId) (a : Nat) (w : Word × Bool)
    (hd : daDest a = some (0, c.x, c.y)) (hs : nfld a 44 4 = 2) (hw : s.peekBlock c (nfld a 0 13) = some w) :
    s.ctldataAt p tag a = (if s.ownsPort p then s.clearDa a else s).modPort p (fun x => x.send (.cpl tag .sc [w])) := by
  have hr : s.ctlRead p a = (s, some w) := by simp [State.ctlRead, hd, hs, hw]
  simp [State.ctldataAt, State.serves_of_Serves h, hr]

/-- Outside the register spaces CTLDATA reads ones, which RDDENY counts. -/
theorem State.ctldataAt_reserved {s : State} {p : Port} (h : Serves s p) (tag a : Nat) (hs : nfld a 44 4 = 0) :
    s.ctldataAt p tag a = s.modPort p (fun x =>
      PortState.send { x with rdDeny := sat1 x.rdDeny } (.cpl tag .sc [(BitVec.allOnes 64, false)])) := by
  have hr : s.ctlRead p a = (s, none) := by simp [State.ctlRead, hs]
  simp [State.ctldataAt, State.serves_of_Serves h, hr]

/-- The control processor reads on the owner's behalf (spec/00 R13). -/
theorem State.clearingRead_cp (s : State) (tag a : Nat) (ho : s.cp.owner.isSome = true) (ha : s.cp.active.isSome = true) :
    s.clearingRead .cp tag a = s.clearDa a := by
  simp [State.clearingRead, ho, ha]

/-! ### Configuration space (spec/12 R301, R302) -/

/-- No capability lies in the type 0 header (log 19). -/
theorem le_capAt (n : Nat) : 0x40 ≤ capAt n := Nat.le_add_right _ _

/-- A register of the header is no part of the capabilities. -/
theorem capabilities_header (x : PortState) (serial : BitVec 64) (off : Nat) (h : off < 0x40) :
    (serialWord serial off).or (optionWord x off) = none := by
  have h0 := le_capAt 0
  have h2 := le_capAt 2
  have h3 := le_capAt 3
  have hs : serialWord serial off = none := by
    rw [serialWord, if_neg (by omega), if_neg (by omega)]
  have ho : optionWord x off = none := by
    rw [optionWord, if_neg (by omega), if_neg (by omega), if_neg (by omega)]
  rw [hs, ho]
  rfl

/-- The vendor and device IDs of a module of grade A. -/
theorem State.cfgRead_id (s : State) (p : Port) (h : s.fw.grade = 0) : s.cfgRead p 0 = 0x00601FB7 := by
  simp [State.cfgRead, capabilities_header, h]

theorem serialWord_low (serial : BitVec 64) : serialWord serial (capAt 2 + 4) = some (serial.extractLsb' 0 32) := by
  simp [serialWord]

theorem serialWord_high (serial : BitVec 64) : serialWord serial (capAt 2 + 8) = some (serial.extractLsb' 32 32) := by
  simp [serialWord]

/-- The Device Serial Number capability shows the serial number (spec/00 R7). -/
theorem State.cfgRead_serial (s : State) (p : Port) (off : Nat) (v : BitVec 32) (h : 0x40 ≤ off)
    (hv : serialWord s.fw.serial off = some v) : s.cfgRead p off = v := by
  unfold State.cfgRead
  dsimp only
  rw [if_neg (by omega), hv]
  rfl

theorem State.configRequest_notReady {s : State} {p : Port} (hup : (s.port p).linkUp = true) (hr : (s.port p).ready = false)
    (tag off : Nat) (w : Option (BitVec 32)) :
    s.configRequest p tag off w = s.modPort p (fun x => x.send (.cpl tag .rrs [])) := by
  simp [State.configRequest, hup, hr]

theorem State.configRequest_read {s : State} {p : Port} (hup : (s.port p).linkUp = true) (hr : (s.port p).ready = true) (tag off : Nat) :
    s.configRequest p tag off none = s.modPort p (fun x => x.send (.cpl tag .sc [((s.cfgRead p off).setWidth 64, false)])) := by
  simp [State.configRequest, hup, hr]

theorem State.configRequest_write {s : State} {p : Port} (hup : (s.port p).linkUp = true) (hr : (s.port p).ready = true) (tag off : Nat)
    (v : BitVec 32) :
    s.configRequest p tag off (some v) =
      s.modPort p (fun x => (PortState.cfgWrite s.mod.ctl x off v).send (.cpl tag .sc [])) := by
  simp [State.configRequest, hup, hr]

/-! ### The commands -/

theorem exec_clearingRead (q : RegPath) (tag off : Nat) (s : State) : exec (.clearingRead q tag off) s = .next (s.clearingRead q tag off) :=
  rfl

theorem exec_ctldataRead (p : Port) (tag : Nat) (s : State) :
    exec (.ctldataRead p tag) s = .next (s.ctldataAt p tag (s.port p).ctlAddr.toNat) := rfl

theorem exec_configRequest (p : Port) (tag off : Nat) (w : Option (BitVec 32)) (s : State) :
    exec (.configRequest p tag off w) s = .next (s.configRequest p tag off w) := rfl

/-- Settles O30: a read by each path, CTLDATA at a core's CECOUNT and at a reserved offset, and a configuration request before and after the
port is ready. -/
theorem registerReadsAndConfig : Obligations.RegisterReadsAndConfig := by
  unfold Obligations.RegisterReadsAndConfig
  refine ⟨fun s p c f tag hserves _ => ?reads, fun s p tag off w v hup => ?config⟩
  case reads =>
    intro x a deny
    simp only [exec_clearingRead, exec_ctldataRead]
    have hdata (hd : daDest a = some (0, c.x, c.y)) (hs : nfld a 44 4 = 2) (ho : nfld a 0 13 = 0x110) :=
      State.ctldataAt_core hserves tag c a (x.sp.ceCount.setWidth 64, false) hd hs (by rw [ho]; exact s.peekBlock_ceCount c)
    refine ⟨fun h => ?owner, fun h => ⟨?other, fun r => ?anyReg⟩, fun v hv => ?msix, ?ctl, fun r => ⟨rfl, rfl⟩, fun hd hs ho => ⟨fun h h' => ?cp,
      fun h => ?noOwner⟩, rfl, rfl, fun hd hs ho h => ?dataOwner, fun hd hs ho h => ?dataOther, fun hs => ?reserved⟩
    case owner =>
      rw [State.clearingRead_bar0_owner hserves h, s.readBar0_wrDeny, BitVec.ofNat_toNat]
      rfl
    case other =>
      rw [State.clearingRead_bar0_other hserves h, s.readBar0_wrDeny, BitVec.ofNat_toNat]
      rfl
    case anyReg => exact ⟨_, congrArg Host.Outcome.next (State.clearingRead_bar0_other hserves h tag r)⟩
    case msix =>
      rw [State.clearingRead_bar4 hserves]
      refine congrArg _ (State.modPort_congr ?_)
      simp only [PortState.readBar4_addr _ v hv]
      rfl
    case ctl => rfl
    case cp => rw [s.clearingRead_cp tag a h h', s.clearDa_ceCount c a hd hs ho]
    case noOwner => simp [State.clearingRead, h]
    case dataOwner =>
      rw [hdata hd hs ho, if_pos ((s.ownsPort_iff p).2 h), s.clearDa_ceCount c a hd hs ho]
      rfl
    case dataOther =>
      rw [hdata hd hs ho, if_neg (mt (s.ownsPort_iff p).1 h)]
      rfl
    case reserved => exact congrArg _ (State.ctldataAt_reserved hserves tag a hs)
  case config =>
    simp only [exec_configRequest]
    refine ⟨fun hr => ?rrs, fun hr hg => ?id, fun hr => ⟨?low, ?high⟩, fun hr => ?command⟩
    case rrs => rw [State.configRequest_notReady hup hr]; rfl
    case id => rw [State.configRequest_read hup hr, s.cfgRead_id p hg]; rfl
    case low =>
      rw [State.configRequest_read hup hr, s.cfgRead_serial p _ _ (by have := le_capAt 2; omega) (serialWord_low _)]; rfl
    case high =>
      rw [State.configRequest_read hup hr, s.cfgRead_serial p _ _ (by have := le_capAt 2; omega) (serialWord_high _)]; rfl
    case command => rw [State.configRequest_write hup hr]; rfl

end Sys2Proof.Machine

/-! SUPPORT. What a port's messages to its host and an error record change, and what they leave (spec/12 R323-R325, spec/13 R345-R348,
spec/15 R395). -/

namespace Sys2Proof.Machine

/-! ### What messages to a host leave of a port -/

/-- `y` is `x` after events and messages to its host: only the vectors, the transmit order and the sessions' rings have changed, and
PORTEVT shows no less. -/
def PortState.Told (x y : PortState) : Prop :=
  y = { x with evt := y.evt, msix := y.msix, tx := y.tx, sess := y.sess } ∧ ∀ i, x.evt.getLsbD i = true → y.evt.getLsbD i = true

theorem PortState.Told.refl (x : PortState) : x.Told x := ⟨rfl, fun _ h => h⟩

theorem PortState.Told.trans {x y z : PortState} (h : x.Told y) (k : y.Told z) : x.Told z := by
  refine ⟨?_, fun i hi => k.2 i (h.2 i hi)⟩
  rw [k.1, h.1]

/-- A change of the vectors, the transmit order and the sessions alone. -/
theorem PortState.told_of_eq {x y : PortState} (h : y = { x with msix := y.msix, tx := y.tx, sess := y.sess }) : x.Told y := by
  have he : y.evt = x.evt := by rw [h]
  exact ⟨by rw [he]; exact h, fun i hi => by rw [he]; exact hi⟩

theorem PortState.told_sendMsix (now : Nat) (x : PortState) (v : Nat) : x.Told (PortState.sendMsix now x v) := by
  unfold PortState.sendMsix
  dsimp only
  split
  · exact PortState.told_of_eq rfl
  · split
    · exact PortState.told_of_eq rfl
    · exact PortState.told_of_eq rfl

theorem PortState.told_write (now : Nat) (x : PortState) (n : Nat) (s : Session) (e : RingEntry) :
    x.Told (PortState.write now x n s e) := by
  unfold PortState.write
  dsimp only
  split
  · exact PortState.told_of_eq rfl
  · exact PortState.Told.trans (PortState.told_of_eq rfl) (PortState.told_sendMsix now _ _)

theorem PortState.told_flushKept (now fuel : Nat) (x : PortState) (n : Nat) : x.Told (PortState.flushKept now fuel x n) := by
  induction fuel generalizing x with
  | zero => exact PortState.Told.refl x
  | succ fuel ih =>
    unfold PortState.flushKept
    split
    · exact PortState.Told.refl x
    · split
      · exact PortState.Told.refl x
      · split
        · exact PortState.Told.refl x
        · split
          · exact PortState.Told.trans (PortState.told_write now x n _ _) (ih _)
          · exact PortState.Told.trans (PortState.told_write now x n _ _) (ih _)

theorem PortState.told_put (now : Nat) (x : PortState) (n : Nat) (e : RingEntry) : x.Told (PortState.put now x n e) := by
  unfold PortState.put
  split
  · exact PortState.Told.refl x
  · next s _ =>
    have hy : x.Told { x with sess := tset x.sess n (some { s with kept := s.kept ++ [e] }) } := PortState.told_of_eq rfl
    dsimp only
    split
    · exact hy.trans (PortState.told_flushKept now 2 _ n)
    · exact hy

theorem PortState.told_putEvent (now : Nat) (x : PortState) (n : Nat) (e : RingEntry) : x.Told (PortState.putEvent now x n e) := by
  unfold PortState.putEvent
  split
  · exact PortState.Told.refl x
  · split
    · exact PortState.told_of_eq rfl
    · exact PortState.told_put now x n e

theorem PortState.told_foldl {α : Type} (f : PortState → α → PortState) (h : ∀ (x : PortState) (a : α), x.Told (f x a)) (l : List α) (x : PortState) :
    x.Told (l.foldl f x) := by
  induction l generalizing x with
  | nil => exact PortState.Told.refl x
  | cons a l ih => exact (h x a).trans (ih _)

theorem PortState.told_eventTo (now : Nat) (x : PortState) (sel : Session → Bool) (e : RingEntry) :
    x.Told (PortState.eventTo now x sel e) := by
  unfold PortState.eventTo
  refine PortState.told_foldl _ (fun y n => ?_) _ x
  split
  · split
    · exact PortState.told_putEvent now y n e
    · exact PortState.Told.refl y
  · exact PortState.Told.refl y

/-! ### Events of both ports -/

/-- `t` is `s` after messages to the hosts of its ports. -/
def State.PortsTold (s t : State) : Prop := t = { s with ports := t.ports } ∧ ∀ q, (s.port q).Told (t.port q)

theorem State.PortsTold.trans {s t u : State} (h : s.PortsTold t) (k : t.PortsTold u) : s.PortsTold u := by
  refine ⟨?_, fun q => (h.2 q).trans (k.2 q)⟩
  rw [k.1, h.1]

theorem State.portsTold_modPort (s : State) (p : Port) (f : PortState → PortState) (h : (s.port p).Told (f (s.port p))) :
    s.PortsTold (s.modPort p f) := by
  refine ⟨rfl, fun q => ?_⟩
  rw [State.port_modPort]
  split
  · next hq => subst hq; exact h
  · exact PortState.Told.refl _

/-- PORTEVT takes a bit, and its vector may be sent. -/
theorem PortState.told_setEvt (now : Nat) (x : PortState) (bit : Nat) :
    x.Told (let y : PortState := { x with evt := x.evt ||| BitVec.ofNat 7 (2 ^ bit) }
      if y.evtEn.getLsbD bit then PortState.sendMsix now y 0 else y) := by
  have hy : x.Told { x with evt := x.evt ||| BitVec.ofNat 7 (2 ^ bit) } := ⟨rfl, fun i hi => by simp [hi]⟩
  dsimp only
  split
  · exact hy.trans (PortState.told_sendMsix now _ 0)
  · exact hy

theorem State.portsTold_portEvent (s : State) (p : Port) (bit : Nat) : s.PortsTold (s.portEvent p bit) :=
  s.portsTold_modPort p _ (PortState.told_setEvt _ _ _)

theorem State.portsTold_bothEvent (s : State) (bit : Nat) : s.PortsTold (s.bothEvent bit) :=
  (s.portsTold_portEvent .a bit).trans (State.portsTold_portEvent _ .b bit)

/-- The bit an event sets stands in PORTEVT. -/
theorem State.portEvent_shows (s : State) (p : Port) (bit : Nat) (h : bit < 7) : ((s.portEvent p bit).port p).evt.getLsbD bit = true := by
  have hset : (({ s.port p with evt := (s.port p).evt ||| BitVec.ofNat 7 (2 ^ bit) } : PortState)).evt.getLsbD bit = true := by
    rw [BitVec.getLsbD_or, BitVec.getLsbD_ofNat]
    simp [h, Nat.testBit_two_pow_self]
  unfold State.portEvent
  rw [State.port_modPort_same]
  dsimp only
  split
  · exact (PortState.told_sendMsix _ _ 0).2 _ hset
  · exact hset

/-! ### Error records -/

/-- `t` is `s` after an error record: the logs, the MCs' stores and the records they owe, the ports' messages and the module's advisory
flag. -/
def State.Recorded (s t : State) : Prop :=
  t = { s with
    errs := t.errs, errNext := t.errNext, flashErrs := t.flashErrs, flashWait := t.flashWait, ports := t.ports, mc := t.mc
    mgmt := t.mgmt, mod := { s.mod with advised := t.mod.advised } } ∧
  ∀ q, (s.port q).Told (t.port q)

theorem State.Recorded.refl (s : State) : s.Recorded s := ⟨rfl, fun _ => PortState.Told.refl _⟩

theorem State.Recorded.trans {s t u : State} (h : s.Recorded t) (k : t.Recorded u) : s.Recorded u := by
  refine ⟨?_, fun q => (h.2 q).trans (k.2 q)⟩
  rw [k.1, h.1]

theorem State.PortsTold.recorded {s t : State} (h : s.PortsTold t) : s.Recorded t := by
  refine ⟨?_, h.2⟩
  conv_lhs => rw [h.1]
  rw [h.1]

/-- A change of nothing but what a record is kept in. -/
theorem State.recorded_of_eq {s t : State} (h : t = { s with
    errs := t.errs, errNext := t.errNext, flashErrs := t.flashErrs, flashWait := t.flashWait, mc := t.mc
    mgmt := t.mgmt, mod := { s.mod with advised := t.mod.advised } }) : s.Recorded t := by
  have hp : t.ports = s.ports := by rw [h]
  refine ⟨by rw [hp]; exact h, fun q => ?_⟩
  have hq : t.port q = s.port q := by simp only [State.port, hp]
  rw [hq]
  exact PortState.Told.refl _

theorem State.recorded_errs (s : State) (l : List ErrRec) (n : Nat) : s.Recorded { s with errs := l, errNext := n } :=
  State.recorded_of_eq rfl

theorem State.recorded_deliverRec (s : State) (r : ErrRec) :
    s.Recorded (s.deliverRec r) ∧ (s.deliverRec r).errs = s.errs := by
  unfold State.deliverRec
  extract_lets e post s1 s2 _ s3
  have hpost (t : State) (p : Port) : t.PortsTold (post t p) := t.portsTold_modPort p _ (PortState.told_eventTo _ _ _ _)
  have h1 : s.PortsTold s1 := ((hpost s .a).trans (hpost _ .b)).trans (State.portsTold_bothEvent _ evErrRec)
  clear_value s1
  have h2 : s.Recorded s2 ∧ s2.errs = s.errs := ⟨h1.recorded.trans (State.recorded_of_eq rfl), by rw [show s2.errs = s1.errs from rfl, h1.1]⟩
  clear_value s2
  have h3 : s.Recorded s3 ∧ s3.errs = s.errs := by
    unfold s3
    split
    · exact ⟨h2.1.trans (State.recorded_of_eq rfl), h2.2⟩
    · exact h2
  clear_value s3
  split
  · exact h3
  · split
    · exact ⟨h3.1.trans (State.recorded_of_eq rfl), h3.2⟩
    · exact ⟨h3.1.trans (State.recorded_of_eq rfl), h3.2⟩

@[simp] theorem State.deliverRec_errs (s : State) (r : ErrRec) : (s.deliverRec r).errs = s.errs := (s.recorded_deliverRec r).2

/-- An event of severity 2 or more merges into no record (spec/15 R396). -/
theorem mergeRec_severe (r : ErrRec) (l : List ErrRec) (h : 2 ≤ r.severity) : mergeRec r l = none := by
  induction l with
  | nil => rfl
  | cons o l ih =>
    have : ¬ r.severity < 2 := by omega
    simp [mergeRec, ih, ErrRec.like, this]

/-- A record as its writer dates it: TICK, OWNGEN, the writer's clock and the job's exposure (spec/15 Table 15.3). -/
def ErrRec.dated (r : ErrRec) (s : State) : ErrRec :=
  { r with
    tick := s.now
    ownGen := s.cp.ownGen.toNat
    stamp := if s.cpRuns then s.mod.ctl else s.mod.sby
    expNo := if r.job < 16 then (tget {} s.jobs r.job).expNo else 0 }

/-- The record of an event of severity 2 or more joins the active CP's list, as the event gave it (spec/15 R395). -/
theorem State.errorRecord_severe (s : State) (r : ErrRec) (hcp : s.cpRuns = true) (hr : 2 ≤ r.severity) :
    s.errorRecord r = State.deliverRec
      { s with
        errs := (s.errs ++ [{ r.dated s with seqno := s.errNext }]).drop (s.errs.length + 1 - 4096)
        errNext := s.errNext + 1 }
      { r.dated s with seqno := s.errNext } := by
  have hm : mergeRec (r.dated s) s.errs = none := mergeRec_severe (r.dated s) s.errs hr
  unfold State.errorRecord
  rw [← ErrRec.dated, hcp]
  simp only [hm, List.length_append, List.length_singleton]

/-- The last record is never the one that gives way. -/
theorem mem_drop_append_singleton {α : Type} (l : List α) (a : α) (n : Nat) (h : 0 < n) :
    a ∈ (l ++ [a]).drop (l.length + 1 - n) := by
  rw [List.drop_append_of_le_length (by omega)]
  simp

theorem State.errorRecord_mem (s : State) (r : ErrRec) (hcp : s.cpRuns = true) (hr : 2 ≤ r.severity) :
    { r.dated s with seqno := s.errNext } ∈ (s.errorRecord r).errs := by
  simp only [s.errorRecord_severe r hcp hr, State.deliverRec_errs]
  exact mem_drop_append_singleton _ _ _ (by decide)

/-- An MC's own record (spec/18 R465): SOURCE 6 and a number of its own. -/
def ErrRec.own (r : ErrRec) (count : Nat) : ErrRec := { r with source := 6, seqno := 2 ^ 31 + count % 2 ^ 31 }

/-- A running MC stores a record of its own. -/
def McState.storeOwn (m : McState) (r : ErrRec) : McState :=
  if m.running then { m.storeRec (r.own m.ownCount) with ownCount := m.ownCount + 1 } else m

/-- A record is in an MC's store once the MC has stored it. -/
theorem McState.storeRec_mem (m : McState) (r : ErrRec) : (r, false) ∈ (m.storeRec r).store := by
  unfold McState.storeRec
  split
  · simp
  · split <;> simp

theorem McState.storeOwn_mem (m : McState) (r : ErrRec) (h : m.running = true) : (r.own m.ownCount, false) ∈ (m.storeOwn r).store := by
  rw [McState.storeOwn, if_pos h]
  exact m.storeRec_mem _

/-- While no CP runs, each running MC stores a record of its own classes, and the CP owes it as an event (spec/15 R395, spec/18
R465). -/
theorem State.errorRecord_noCp (s : State) (r : ErrRec) (hcp : s.cpRuns = false) (hc : mcClass r.cls = true) (hr : 2 ≤ r.severity) :
    s.errorRecord r = { s with
      mc := { a := s.mc.a.storeOwn (r.dated s), b := s.mc.b.storeOwn (r.dated s) }
      mgmt := { s.mgmt with mcPend := s.mgmt.mcPend ++
        [(r.dated s).own (if s.mc.a.running then s.mc.a.ownCount else s.mc.b.ownCount)] } } := by
  have hm (l : List ErrRec) : mergeRec { r.dated s with source := 6 } l = none := mergeRec_severe _ l hr
  unfold State.errorRecord
  rw [← ErrRec.dated, hcp]
  simp only [show mcClass (r.dated s).cls = true from hc, if_true, hm]
  rfl

/-- Every record, merged or new, changes only what records are kept in and tells the hosts. -/
theorem State.recorded_errorRecord (s : State) (r : ErrRec) : s.Recorded (s.errorRecord r) := by
  unfold State.errorRecord
  dsimp only
  split
  · split
    · exact State.recorded_of_eq rfl
    · exact State.Recorded.refl s
  · split
    · exact (s.recorded_errs _ _).trans (State.recorded_deliverRec _ _).1
    · exact (s.recorded_errs _ _).trans (State.recorded_deliverRec _ _).1

end Sys2Proof.Machine

/-! SUPPORT. The clock events (spec/14 R358-R369): what the loss of a REFCLK does to its connector's link, when time stops and resumes, and
which source a recovery takes. -/

namespace Sys2Proof.Machine

open Sys2Proof.Claims

theorem PortState.Told.linkUp {x y : PortState} (h : x.Told y) : y.linkUp = x.linkUp := by rw [h.1]

theorem PortState.Told.refPresent {x y : PortState} (h : x.Told y) : y.refPresent = x.refPresent := by rw [h.1]

theorem PortState.Told.refSettled {x y : PortState} (h : x.Told y) : y.refSettled = x.refSettled := by rw [h.1]

@[simp] theorem Port.other_other (p : Port) : p.other.other = p := by cases p <;> rfl

@[simp] theorem Port.other_ne (p : Port) : p.other ≠ p := by cases p <;> simp [Port.other]

@[simp] theorem State.port_modPort_other (s : State) (p : Port) (f : PortState → PortState) :
    (s.modPort p f).port p.other = s.port p.other := by
  simp [State.port_modPort]

theorem State.refUsable_iff (s : State) (p : Port) :
    s.refUsable p = true ↔ (s.port p).refPresent = true ∧ (s.port p).refSettled = true := by
  simp [State.refUsable]

/-! ### A REFCLK comes and settles (R361, Table 14.2) -/

/-- With no record owed, the MCs have none to post. -/
theorem State.postMc_nil (s : State) (h : s.mgmt.mcPend = []) : s.postMc = s := by
  simp [State.postMc, h]

theorem settleDelay_of_getElem? {sel d : Nat}
    (h : [10000, 20000, 50000, 100000, 200000, 500000, 2000000, 10000000][sel]? = some d) : settleDelay sel = d := by
  simp [settleDelay, List.getD_eq_getElem?_getD, h]

/-- A source that is not there, or that nobody owns, follows nobody. -/
theorem State.sourceOfOwner_none (s : State) (h : s.mod.tsPresent = false ∨ s.cp.owner = none) : s.sourceOfOwner = s := by
  unfold State.sourceOfOwner State.sourceFollows
  rcases h with h | h
  · simp only [h, Bool.and_false]
    split <;> rfl
  · rw [h]

theorem State.sourceOfOwner_usable (s : State) (p : Port) (m : Nat) (ho : s.cp.owner = some (p, m)) (ht : s.mod.tsPresent = true)
    (hu : s.refUsable p = true) : s.sourceOfOwner = { s with mod := { s.mod with tsrc := p } } := by
  simp [State.sourceOfOwner, State.sourceFollows, ho, ht, hu]

theorem State.sourceOfOwner_unusable (s : State) (p : Port) (m : Nat) (ho : s.cp.owner = some (p, m)) (hu : s.refUsable p = false) :
    s.sourceOfOwner = s := by
  simp [State.sourceOfOwner, State.sourceFollows, ho, hu]

/-- The source's own choice is the only thing that following the owner changes. -/
theorem State.sourceOfOwner_frame (s : State) :
    s.sourceOfOwner = { s with mod := { s.mod with tsrc := s.sourceOfOwner.mod.tsrc } } := by
  unfold State.sourceOfOwner State.sourceFollows
  split
  · split <;> rfl
  · rfl

theorem State.refSettle_due (s : State) (p : Port) (hp : (s.port p).refPresent = true) (hn : (s.port p).refSettled = false) (d : Nat)
    (hd : [10000, 20000, 50000, 100000, 200000, 500000, 2000000, 10000000][(s.port p).delaySel]? = some d)
    (hle : (s.port p).refAt + d ≤ s.mod.sby) :
    s.refSettle p = (s.modPort p (fun z => { z with refSettled := true, settledAt := s.mod.sby })).sourceOfOwner := by
  simp [State.refSettle, hp, hn, settleDelay_of_getElem? hd, hle]

theorem State.refSettle_early (s : State) (p : Port) (d : Nat)
    (hd : [10000, 20000, 50000, 100000, 200000, 500000, 2000000, 10000000][(s.port p).delaySel]? = some d)
    (hlt : s.mod.sby < (s.port p).refAt + d) : s.refSettle p = s := by
  simp [State.refSettle, settleDelay_of_getElem? hd, Nat.not_le.2 hlt]

/-! ### A REFCLK is lost (R364, R366, Table 14.1) -/

theorem State.loseLink_of_down (s : State) (p : Port) (h : (s.port p).linkUp = false) : s.loseLink p = s := by
  simp [State.loseLink, h]

/-- A port whose link has gone down, with the grace period it has then (spec/12 R328). -/
def PortState.cutLink (x : PortState) (g : Option Nat) : PortState :=
  { x with linkUp := false, inReads := [], heldReads := [], grace := g }

theorem PortState.Told.grace {x y : PortState} (h : x.Told y) (g : Option Nat) :
    PortState.Told { x with grace := g } { y with grace := g } :=
  ⟨by rw [h.1], h.2⟩

/-- A link that goes down: a grace period may begin, both hosts are told, and the other port shows PEERLINK (spec/12 R328, R332). -/
theorem State.loseLink_of_up (s : State) (p : Port) (h : (s.port p).linkUp = true) :
    s.loseLink p = { s with ports := (s.loseLink p).ports } ∧
    (∃ g, ((s.port p).cutLink g).Told ((s.loseLink p).port p)) ∧
    (s.port p.other).Told ((s.loseLink p).port p.other) ∧ ((s.loseLink p).port p.other).evt.getLsbD evPeerLink = true := by
  unfold State.loseLink
  rw [h]
  extract_lets down
  have hdown : (s.modPort p (fun x => { x with linkUp := false, inReads := [], heldReads := [] })).PortsTold down :=
    State.portsTold_portEvent _ p.other evPeerLink
  have hshow : (down.port p.other).evt.getLsbD evPeerLink = true := State.portEvent_shows _ p.other evPeerLink (by decide)
  clear_value down
  have hframe : down = { s with ports := down.ports } := hdown.1
  have hp : ((s.port p).cutLink (s.port p).grace).Told (down.port p) := by
    simpa [PortState.cutLink] using hdown.2 p
  have ho : (s.port p.other).Told (down.port p.other) := by simpa using hdown.2 p.other
  by_cases hown : down.ownsPort p = true
  · rw [if_neg (by simp), if_pos hown]
    generalize hg : some (down.mod.ctl + 25000000) = g
    have hboth := State.portsTold_bothEvent (down.modPort p (fun x => { x with grace := g })) evGraceStart
    have hbp := hboth.2 p
    have hbo := hboth.2 p.other
    rw [State.port_modPort_same] at hbp
    rw [State.port_modPort_other] at hbo
    refine ⟨?_, ⟨g, (hp.grace g).trans hbp⟩, ho.trans hbo, hbo.2 _ hshow⟩
    rw [hboth.1, hframe]
    rfl
  · rw [if_neg (by simp), if_neg hown]
    exact ⟨hframe, ⟨_, hp⟩, ho, hshow⟩

/-- The module once a connector's REFCLK is gone and its link is down. -/
def State.unplugged (s : State) (p : Port) : State :=
  (s.modPort p (fun x => { x with refPresent := false, refSettled := false })).loseLink p

theorem State.unplugged_of_down (s : State) (p : Port) (h : (s.port p).linkUp = false) :
    s.unplugged p = s.modPort p (fun x => { x with refPresent := false, refSettled := false }) := by
  unfold State.unplugged
  exact State.loseLink_of_down _ p (by simpa using h)

/-- Of the module around its ports nothing changes; the REFCLK and the link are gone; the other connector keeps its REFCLK. -/
theorem State.unplugged_spec (s : State) (p : Port) :
    s.unplugged p = { s with ports := (s.unplugged p).ports } ∧
    ((s.unplugged p).port p).refPresent = false ∧ ((s.unplugged p).port p).refSettled = false ∧
    ((s.unplugged p).port p).linkUp = false ∧
    ((s.unplugged p).port p.other).refPresent = (s.port p.other).refPresent := by
  by_cases h : (s.port p).linkUp = true
  · let gone := s.modPort p (fun x => { x with refPresent := false, refSettled := false })
    have hg : gone.port p = { s.port p with refPresent := false, refSettled := false } := s.port_modPort_same p _
    have ho : gone.port p.other = s.port p.other := s.port_modPort_other p _
    obtain ⟨hframe, ⟨g, hp⟩, hq, -⟩ := gone.loseLink_of_up p (by rw [hg]; exact h)
    rw [hg] at hp
    rw [ho] at hq
    refine ⟨?_, hp.refPresent, hp.refSettled, hp.linkUp, hq.refPresent⟩
    rw [State.unplugged, hframe]; rfl
  · rw [s.unplugged_of_down p (by simpa using h)]
    refine ⟨rfl, ?_⟩
    simpa using h

/-- The other port shows PEERLINK where the link was up (spec/12 R332). -/
theorem State.unplugged_peerLink (s : State) (p : Port) (h : (s.port p).linkUp = true) :
    ((s.unplugged p).port p.other).evt.getLsbD evPeerLink = true := by
  obtain ⟨-, -, -, hshow⟩ := (s.modPort p (fun x => { x with refPresent := false, refSettled := false })).loseLink_of_up p
    (by simpa using h)
  exact hshow

/-- The record of a lost REFCLK (R364, R366). -/
def refclkRec (p : Port) : ErrRec := { mkRec clsRefclk 2 5 with unit := p.num }

/-- REFCLK_LOST by its parts: the connector is unplugged, time stops where it was the source, and the loss is recorded where it was the
source or the last. -/
theorem State.refLost_eq (s : State) (p : Port) (hp : (s.port p).refPresent = true) :
    s.refLost p =
      let u := s.unplugged p
      let source := u.mod.tsPresent && u.mod.tsrc == p
      let v := if source then u.stopTime else u
      if source || !(v.port p.other).refPresent then v.errorRecord (refclkRec p) else v := by
  unfold State.refLost
  rw [hp]
  rfl

/-- The loss of the time source stops time and is recorded. -/
theorem State.refLost_source (s : State) (p : Port) (hp : (s.port p).refPresent = true) (ht : s.mod.tsPresent = true)
    (hs : s.mod.tsrc = p) : s.refLost p = (s.unplugged p).stopTime.errorRecord (refclkRec p) := by
  have hmod : (s.unplugged p).mod = s.mod := by rw [(s.unplugged_spec p).1]
  simp [s.refLost_eq p hp, hmod, ht, hs]

/-- The loss of a REFCLK that is not the source, while the other is there, stops nothing and is no error. -/
theorem State.refLost_spare (s : State) (p : Port) (hp : (s.port p).refPresent = true) (hs : s.mod.tsPresent = false ∨ s.mod.tsrc ≠ p)
    (ho : (s.port p.other).refPresent = true) : s.refLost p = s.unplugged p := by
  obtain ⟨hframe, -, -, -, hother⟩ := s.unplugged_spec p
  have hmod : (s.unplugged p).mod = s.mod := by rw [hframe]
  have hsrc : (s.mod.tsPresent && s.mod.tsrc == p) = false := by
    rcases hs with h | h <;> simp [h]
  simp [s.refLost_eq p hp, hmod, hsrc, hother, ho]

/-- The loss of the last REFCLK is recorded, whether or not it was the source. -/
theorem State.refLost_last (s : State) (p : Port) (hp : (s.port p).refPresent = true) (ho : (s.port p.other).refPresent = false) :
    ∃ u, (u = s.unplugged p ∨ u = (s.unplugged p).stopTime) ∧ s.refLost p = u.errorRecord (refclkRec p) := by
  obtain ⟨-, -, -, -, hother⟩ := s.unplugged_spec p
  rw [s.refLost_eq p hp]
  dsimp only
  split
  · exact ⟨_, .inr rfl, by simp_all⟩
  · exact ⟨_, .inl rfl, by simp_all⟩

theorem State.cpRuns_eq (s : State) (p : Port) :
    s.cpRuns = (s.cp.active.isSome && ((s.port p).refPresent || (s.port p.other).refPresent)) := by
  cases p with
  | a => rfl
  | b => simp [State.cpRuns, State.port, Pair.get, Port.other, Bool.or_comm]

theorem State.field_stopTime (s : State) (g : Nat) (h : g < 60) :
    s.stopTime.field g = { s.field g with lock := false, run := false } := by
  simp [State.stopTime, State.field, tget, h]

theorem State.stack_stopTime (s : State) (n : Nat) (h : n < 16) :
    s.stopTime.stack n = { s.stack n with locked := false, selfRefresh := true } := by
  simp [State.stopTime, State.stack, tget, h]

/-! ### Recovery (R365, Table 14.3) -/

theorem State.field_resumeTime (s : State) (g : Nat) (h : g < 60) :
    s.resumeTime.field g = if (s.field g).mayRun then { s.field g with lock := true, run := true } else s.field g := by
  simp [State.resumeTime, State.field, tget, h]

theorem State.stack_resumeTime (s : State) (n : Nat) (h : n < 16) :
    s.resumeTime.stack n =
      if (s.stack n).lost || !(s.stack n).loaded then s.stack n else { s.stack n with locked := true, selfRefresh := false } := by
  simp [State.resumeTime, State.stack, tget, h]

/-- Time runs again from a REFCLK, before the source follows the owner (spec/00 R2). -/
def State.resumedAt (s : State) (d : Port) : State := { s.resumeTime with mod := { s.resumeTime.mod with tsrc := d } }

theorem State.clockRecovery_of_source (s : State) (d : Port) (ht : s.mod.tsPresent = false) (h5 : 5 ≤ s.mod.step)
    (hd : s.recoverySource = some d) : s.clockRecovery = (s.resumedAt d).sourceOfOwner := by
  have : ¬ s.mod.step < 5 := by omega
  simp [State.clockRecovery, ht, this, hd, State.resumedAt]

theorem State.clockRecovery_of_none (s : State) (hd : s.recoverySource = none) : s.clockRecovery = s := by
  simp [State.clockRecovery, hd]

/-- The source of a recovered module: the owner's REFCLK where it is usable, else the one that recovered it. -/
theorem State.resumedAt_tsrc (s : State) (d : Port) :
    (s.cp.owner = none → (s.resumedAt d).sourceOfOwner.mod.tsrc = d) ∧
    ∀ q m, s.cp.owner = some (q, m) →
      ((s.port q).refPresent = true ∧ (s.port q).refSettled = true → (s.resumedAt d).sourceOfOwner.mod.tsrc = q) ∧
      (¬ ((s.port q).refPresent = true ∧ (s.port q).refSettled = true) → (s.resumedAt d).sourceOfOwner.mod.tsrc = d) := by
  simp only [← State.refUsable_iff]
  refine ⟨fun ho => ?_, fun q m ho => ⟨fun hu => ?_, fun hu => ?_⟩⟩
  · rw [(s.resumedAt d).sourceOfOwner_none (.inr ho)]; rfl
  · rw [(s.resumedAt d).sourceOfOwner_usable q m ho rfl hu]
  · rw [(s.resumedAt d).sourceOfOwner_unusable q m ho (Bool.eq_false_of_not_eq_true hu)]; rfl

/-- Table 14.3: the lost REFCLK, unless FALLBACK lets the other, settled before it, take over. -/
theorem State.recoverySource_same (s : State) (hu : s.refUsable s.mod.tsrc = true)
    (hf : s.mod.fallback = false ∨ s.refUsable s.mod.tsrc.other = false ∨
      (s.port s.mod.tsrc).settledAt ≤ (s.port s.mod.tsrc.other).settledAt) : s.recoverySource = some s.mod.tsrc := by
  rcases hf with h | h | h <;> simp [State.recoverySource, hu, h]

theorem State.recoverySource_fallback (s : State) (hf : s.mod.fallback = true) (hu : s.refUsable s.mod.tsrc.other = true)
    (h : s.refUsable s.mod.tsrc = false ∨ (s.port s.mod.tsrc.other).settledAt < (s.port s.mod.tsrc).settledAt) :
    s.recoverySource = some s.mod.tsrc.other := by
  rcases h with h | h <;> simp [State.recoverySource, hf, hu, h]

theorem State.recoverySource_none (s : State) (hu : s.refUsable s.mod.tsrc = false)
    (h : s.mod.fallback = false ∨ s.refUsable s.mod.tsrc.other = false) : s.recoverySource = none := by
  rcases h with h | h <;> simp [State.recoverySource, hu, h]

/-- A connector with its REFCLK is one of the two. -/
theorem State.refPresent_either (s : State) (p : Port) (h : (s.port p).refPresent = true) :
    ((s.port .a).refPresent || (s.port .b).refPresent) = true := by
  cases p <;> simp [h]

/-! ### Locks and field clocks (R359, R362, R363, R367, R368) -/

/-- A start locks to A's REFCLK where B's port is not the preferred one (R359). -/
theorem State.startSource_a (s : State) (ha : s.refUsable .a = true) (hb : s.ports.b.pref = false) : s.startSource = some .a := by
  cases h : s.ports.a.pref <;> simp [State.startSource, State.preferred, h, hb, ha]

/-- VCORE in ON lies within its range (R368). -/
theorem vcoreOn_range (f code : Nat) : 650 ≤ (vcoreOn f code).toNat ∧ (vcoreOn f code).toNat ≤ 850 := by
  have h : (Config.vcoreMv (32 * f + code)).toNat % 201 < 201 := Nat.mod_lt _ (by decide)
  rw [vcoreOn, BitVec.toNat_ofNat, Nat.mod_eq_of_lt (by omega)]
  omega

/-- No limit acts: the clock that was set. -/
theorem State.clockOf_noLimit (s : State) (f : Nat) (h : NoLimit s f) (h20 : (s.field f).clkSet ≤ 20) :
    s.clockOf f = ((s.field f).clkSet, 0) := by
  obtain ⟨hsup, hcool, hth, hpow⟩ := h
  simp [State.clockOf, hsup, hcool, hth, hpow, h20]

/-- A supply warning acts before any other limit. -/
theorem State.clockOf_warning (s : State) (f : Nat) (h : s.mod.supply = .warning) (h0 : 0 < (s.field f).clkSet) :
    s.clockOf f = (0, 3) := by
  simp [State.clockOf, h, h0]

/-- A running field switches to the effective clock, with a VCORE in its range. -/
theorem State.execClockSwitch_on (s : State) (f : Nat) (hf : f < 60) (hr : (s.field f).run = true) (hp : (s.field f).power = 0)
    (ht : (s.field f).tstop = false) :
    execClockSwitch f s = .next (s.modField f (fun x =>
      { x with clkEff := (s.clockOf f).1, clkLimit := (s.clockOf f).2, vcore := vcoreOn f (s.clockOf f).1 })) := by
  rw [execClockSwitch, if_pos ⟨hf, hr, hp⟩]
  exact congrArg _ (State.modField_congr (by simp [hp, ht]))

theorem State.standbyTrim_running (s : State) (p : Port) (eth : Bool) (h : (s.mc.get p).running = true) :
    s.standbyTrim eth = { s with mod := { s.mod with stbySrc :=
      if s.mod.tsPresent then 1
      else if (s.port .a).refPresent || (s.port .b).refPresent then 2
      else if eth then 3
      else s.mod.stbySrc } } := by
  have hr : (s.mc.a.running || s.mc.b.running) = true := by
    cases p <;> simp_all [Pair.get]
  simp [State.standbyTrim, hr]

/-- A packet in flight to a core of the field. -/
theorem State.packetFor_of_mem (s : State) (f : Nat) (q : Packet) (hq : q ∈ s.net) (hk : q.dkind = 0)
    (hf : coreField { x := q.dx, y := q.dy } = some f) : s.packetFor f = true :=
  List.any_eq_true.2 ⟨q, hq, by simp [hk, Packet.dstCore, hf]⟩

/-! ### The clock commands -/

theorem exec_refclkPresent (p : Port) (s : State) : exec (.refclkPresent p) s = execRefclkPresent p s := rfl
theorem exec_refclkSettled (p : Port) (s : State) : exec (.refclkSettled p) s = .next (s.refSettle p) := rfl
theorem exec_refclkLost (p : Port) (s : State) : exec (.refclkLost p) s = .next (s.refLost p) := rfl
theorem exec_clockRecovery (s : State) : exec .clockRecovery s = .next s.clockRecovery := rfl
theorem exec_clockLock (d : ClockDomain) (s : State) : exec (.clockLock d) s = .next (s.clockLock d) := rfl
theorem exec_standbyTrim (eth : Bool) (s : State) : exec (.standbyTrim eth) s = .next (s.standbyTrim eth) := rfl
theorem exec_clockSwitch (f : Nat) (s : State) : exec (.clockSwitch f) s = execClockSwitch f s := rfl
theorem exec_clockGate (f : Nat) (s : State) : exec (.clockGate f) s = execClockGate f s := rfl
theorem exec_clockUngate (f : Nat) (s : State) : exec (.clockUngate f) s = execClockUngate f s := rfl

/-! ### What a lost REFCLK leaves -/

/-- The loss of the time source: time and the domains stop at clean points, and no core, job or packet is lost (R364). -/
theorem State.refLost_source_stops (s : State) (p : Port) (hp : (s.port p).refPresent = true) (ht : s.mod.tsPresent = true)
    (hs : s.mod.tsrc = p) :
    let t := s.refLost p
    t.mod.tsPresent = false ∧ t.mod.ctlLock = false ∧ (t.port p).refPresent = false ∧ (t.port p).refSettled = false ∧
      (t.port p).linkUp = false ∧ t.cores = s.cores ∧ t.jobs = s.jobs ∧ t.net = s.net ∧
      (∀ g < 60, t.field g = { s.field g with lock := false, run := false }) ∧
      (∀ n < 16, t.stack n = { s.stack n with locked := false, selfRefresh := true }) := by
  intro t
  obtain ⟨hframe, hpres, hset, hlink, -⟩ := s.unplugged_spec p
  obtain ⟨hrec, htold⟩ : (s.unplugged p).stopTime.Recorded t := by
    unfold t
    rw [s.refLost_source p hp ht hs]
    exact State.recorded_errorRecord _ _
  have hfield (g : Nat) : (s.unplugged p).field g = s.field g := (congrArg (fun u => State.field u g) hframe :)
  have hstack (n : Nat) : (s.unplugged p).stack n = s.stack n := (congrArg (fun u => State.stack u n) hframe :)
  refine ⟨(congrArg (fun u => u.mod.tsPresent) hrec :), (congrArg (fun u => u.mod.ctlLock) hrec :), (htold p).refPresent.trans hpres,
    (htold p).refSettled.trans hset, (htold p).linkUp.trans hlink, (congrArg State.cores hrec :).trans (congrArg State.cores hframe :),
    (congrArg State.jobs hrec :).trans (congrArg State.jobs hframe :), (congrArg State.net hrec :).trans (congrArg State.net hframe :),
    fun g hg => ?field, fun n hn => ?stack⟩
  case field =>
    rw [← hfield g, ← State.field_stopTime _ g hg]
    exact (congrArg (fun u => State.field u g) hrec :)
  case stack =>
    rw [← hstack n, ← State.stack_stopTime _ n hn]
    exact (congrArg (fun u => State.stack u n) hrec :)

/-- With a CP that runs on the other REFCLK, the loss of the time source is in its records. -/
theorem State.refLost_source_record (s : State) (p : Port) (hp : (s.port p).refPresent = true) (ht : s.mod.tsPresent = true)
    (hs : s.mod.tsrc = p) (ha : s.cp.active.isSome = true) (ho : (s.port p.other).refPresent = true) :
    ∃ r ∈ (s.refLost p).errs, r.cls = 0xD ∧ r.unit = p.num := by
  obtain ⟨hframe, -, -, -, hother⟩ := s.unplugged_spec p
  have hcp : (s.unplugged p).stopTime.cpRuns = true := by
    have hact : (s.unplugged p).stopTime.cp = s.cp := (congrArg State.cp hframe :)
    have hpo : ((s.unplugged p).stopTime.port p.other).refPresent = true := hother.trans ho
    rw [State.cpRuns_eq _ p, hact, ha, hpo]
    simp
  rw [s.refLost_source p hp ht hs]
  exact ⟨_, State.errorRecord_mem _ _ hcp le_rfl, rfl, rfl⟩

/-- The loss of the last REFCLK is in the store of each MC that runs, and flash is as it was (R366). -/
theorem State.refLost_last_record (s : State) (p : Port) (hp : (s.port p).refPresent = true) (ho : (s.port p.other).refPresent = false) :
    (s.refLost p).fw = s.fw ∧
    ∀ q, (s.mc.get q).running = true → ∃ r, (r, false) ∈ ((s.refLost p).mc.get q).store ∧ r.cls = 0xD ∧ r.source = 6 := by
  obtain ⟨hframe, hpres, -, -, hother⟩ := s.unplugged_spec p
  obtain ⟨u, hu, hlost⟩ := s.refLost_last p hp ho
  have hports : u.ports = (s.unplugged p).ports := by rcases hu with rfl | rfl <;> rfl
  have hfw : u.fw = s.fw := by rcases hu with rfl | rfl <;> exact (congrArg State.fw hframe :)
  have hmc : u.mc = s.mc := by rcases hu with rfl | rfl <;> exact (congrArg State.mc hframe :)
  have hport (q : Port) : u.port q = (s.unplugged p).port q := congrArg (fun x => Pair.get x q) hports
  have hcp : u.cpRuns = false := by
    rw [State.cpRuns_eq _ p, hport, hport, hpres, hother, ho]
    simp
  rw [hlost, u.errorRecord_noCp (refclkRec p) hcp rfl le_rfl]
  refine ⟨hfw, fun q hq => ?_⟩
  rw [← hmc] at hq
  cases q with
  | a => exact ⟨_, McState.storeOwn_mem u.mc.a _ hq, rfl, rfl⟩
  | b => exact ⟨_, McState.storeOwn_mem u.mc.b _ hq, rfl, rfl⟩

/-! ### What a recovery resumes -/

/-- A module that time has resumed in: every loaded domain runs where it stood, and no core or job has changed (R365). -/
theorem State.clockRecovery_resumes (s : State) (d : Port) (ht : s.mod.tsPresent = false) (h5 : 5 ≤ s.mod.step)
    (hd : s.recoverySource = some d) :
    let t := s.clockRecovery
    t.mod.tsPresent = true ∧ t.mod.ctlLock = true ∧ t.cores = s.cores ∧ t.jobs = s.jobs ∧
      (∀ g < 60, t.field g = if (s.field g).mayRun then { s.field g with lock := true, run := true } else s.field g) ∧
      (∀ n < 16, t.stack n = if (s.stack n).lost || !(s.stack n).loaded then s.stack n
        else { s.stack n with locked := true, selfRefresh := false }) := by
  intro t
  have hframe : t = { s.resumedAt d with mod := { (s.resumedAt d).mod with tsrc := (s.resumedAt d).sourceOfOwner.mod.tsrc } } :=
    (s.clockRecovery_of_source d ht h5 hd).trans (State.sourceOfOwner_frame _)
  refine ⟨(congrArg (fun u => u.mod.tsPresent) hframe :), (congrArg (fun u => u.mod.ctlLock) hframe :), (congrArg State.cores hframe :),
    (congrArg State.jobs hframe :), fun g hg => ?field, fun n hn => ?stack⟩
  case field =>
    rw [← State.field_resumeTime _ g hg]
    exact (congrArg (fun u => State.field u g) hframe :)
  case stack =>
    rw [← State.stack_resumeTime _ n hn]
    exact (congrArg (fun u => State.stack u n) hframe :)

/-- Settles O50, event by event: presence and settling, the three ways to lose a REFCLK, the three outcomes of a recovery, the locks, the trim and
the field's clock. -/
theorem clockEvents : Obligations.ClockEvents := by
  unfold Obligations.ClockEvents
  intro s p f hf x y usable source
  simp only [exec_refclkPresent, exec_refclkSettled, exec_refclkLost, exec_clockRecovery, exec_clockLock, exec_standbyTrim,
    exec_clockSwitch, exec_clockGate, exec_clockUngate]
  have husable (q : Port) : s.refUsable q = true ↔ usable q := s.refUsable_iff q
  have hunusable (q : Port) (h : ¬ usable q) : s.refUsable q = false := Bool.eq_false_of_not_eq_true (mt (husable q).1 h)
  refine ⟨fun hst hno hpend => ?present, fun hst => ?noStandby, fun d hp hns hd => ⟨fun hle => ⟨fun h => ?settled, fun m ht ho => ?follows⟩,
    fun hlt => ?early⟩, fun hp => ⟨fun ht hs => ?lostSource, fun hs ho => ⟨fun hdown => ?lostDown, fun hup => ?lostUp⟩, fun ho => ?lostLast⟩,
    fun ht h5 => ⟨fun hs hu hfb => ?recoverSame, fun hs hfb hu hlt => ?recoverOther, fun hs hno h => ?noRecovery⟩, fun ht => ?notLost,
    fun h3 hp hset hpref => ?lockControl, fun hlk hpow hsw hst => ⟨fun hl => ?lockField, fun hl => ?noLockField⟩,
    fun n hlk hlost => ⟨fun hl => ?lockStack, fun hl => ?noLockStack⟩, fun eth hmc => ⟨fun ht => ?trim, fun ht hr => ?trimRef⟩,
    fun hr hpow hst h20 => ⟨fun hlim => ?switch, fun hw h0 => ?switchWarning⟩, fun hr => ?noSwitch, fun hr hpow hg hidle => ?gate,
    fun hidle => ?noGate, fun q hq hk hcf hg => ?ungate⟩
  case present => simp [execRefclkPresent, hst, show (s.port p).refPresent = false from hno, State.postMc_nil, hpend]
  case noStandby => simp [execRefclkPresent, hst]
  case settled =>
    rw [s.refSettle_due p hp hns d hd hle]
    exact congrArg _ (State.sourceOfOwner_none _ h)
  case follows =>
    rw [s.refSettle_due p hp hns d hd hle]
    refine congrArg _ (State.sourceOfOwner_usable _ p m ho ht ?_)
    rw [State.refUsable_iff, State.port_modPort_same]
    exact ⟨hp, rfl⟩
  case early => rw [s.refSettle_early p d hd hlt]
  case lostSource =>
    obtain ⟨hts, hlk, hpres, hset, hlink, hcores, hjobs, hnet, hfields, hstacks⟩ := s.refLost_source_stops p hp ht hs
    exact ⟨_, rfl, hts, hlk, hpres, hset, hlink, hcores, hjobs, hnet, hfields, hstacks,
      fun ha ho => s.refLost_source_record p hp ht hs ha ho⟩
  case lostDown => rw [s.refLost_spare p hp hs ho, s.unplugged_of_down p hdown]
  case lostUp =>
    obtain ⟨hframe, hpres, -, hlink, -⟩ := s.unplugged_spec p
    exact ⟨_, congrArg _ (s.refLost_spare p hp hs ho), hframe, hlink, hpres, s.unplugged_peerLink p hup⟩
  case lostLast =>
    obtain ⟨hfw, hmc⟩ := s.refLost_last_record p hp ho
    exact ⟨_, rfl, hfw, hmc⟩
  case recoverSame =>
    have hd : s.recoverySource = some p := by
      subst hs
      exact s.recoverySource_same ((husable _).2 hu) (hfb.imp_right (Or.imp_left (hunusable _)))
    obtain ⟨hts, hlk, hcores, hjobs, hfields, hstacks⟩ := s.clockRecovery_resumes p ht h5 hd
    refine ⟨_, rfl, hts, hlk, ?_, hcores, hjobs, fun g hg hl hpow hsw hst => ?_, fun n hn hl hlost => ?_⟩
    · rw [s.clockRecovery_of_source p ht h5 hd]
      exact s.resumedAt_tsrc p
    · rw [hfields g hg, if_pos (by simp [FieldState.mayRun, hl, hpow, hsw, hst])]
    · rw [hstacks n hn, if_neg (by simp [hl, hlost])]
  case recoverOther =>
    have hd : s.recoverySource = some p := by
      have h := s.recoverySource_fallback hfb
      rw [hs, Port.other_other] at h
      exact h ((husable _).2 hu) (hlt.imp_left (hunusable _))
    refine ⟨_, rfl, (s.clockRecovery_resumes p ht h5 hd).1, ?_⟩
    rw [s.clockRecovery_of_source p ht h5 hd]
    exact s.resumedAt_tsrc p
  case noRecovery =>
    have hd : s.recoverySource = none := by
      have h' := s.recoverySource_none
      rw [hs, Port.other_other] at h'
      exact h' (hunusable _ hno) (h.imp_right (hunusable _))
    rw [s.clockRecovery_of_none hd]
  case notLost => simp [State.clockRecovery, ht]
  case lockControl =>
    have ha : s.refUsable .a = true := (s.refUsable_iff .a).2 ⟨hp, hset⟩
    simp [State.clockLock, h3, State.lockControl, s.startSource_a ha hpref]
  case lockField =>
    have hm : y.mayRun = true := by simp [FieldState.mayRun, hl, hpow, hsw, hst]
    exact congrArg _ (if_pos ⟨hf, hlk, hm⟩)
  case noLockField =>
    have hm : ¬ y.mayRun = true := by simp [FieldState.mayRun, hl]
    exact congrArg _ (if_neg fun ⟨_, _, h⟩ => hm h)
  case lockStack => simp [State.clockLock, hlk, hl, hlost]
  case noLockStack => simp [State.clockLock, hl]
  case trim => rw [s.standbyTrim_running p eth hmc, if_pos ht]
  case trimRef =>
    rw [s.standbyTrim_running p eth hmc, if_neg (by simp [ht]), if_pos (s.refPresent_either p hr)]
  case switch =>
    refine ⟨vcoreOn f y.clkSet, ?_, vcoreOn_range f y.clkSet⟩
    rw [s.execClockSwitch_on f hf hr hpow hst, s.clockOf_noLimit f hlim h20]
    exact congrArg _ (State.modField_congr rfl)
  case switchWarning =>
    refine ⟨vcoreOn f 0, ?_, vcoreOn_range f 0⟩
    rw [s.execClockSwitch_on f hf hr hpow hst, s.clockOf_warning f hw h0]
  case noSwitch => simp [execClockSwitch, show (s.field f).run = false from hr]
  case gate =>
    have hck : y.clocked = true := by simp [FieldState.clocked, hr, hpow, hg]
    exact congrArg _ (if_pos ⟨hf, hck, hidle⟩)
  case noGate => simp [execClockGate, hidle]
  case ungate =>
    simp [execClockUngate, show (s.field f).gated = true from hg, s.packetFor_of_mem f q hq hk hcf]

end Sys2Proof.Machine

/-! SUPPORT. The control processors (spec/01 R19-R25, spec/17 R446): what the move of the active role changes, at a takeover and at a
handover. -/

namespace Sys2Proof.Machine

open Sys2Proof.Claims

/-! ### The active role moves (spec/01 R22, spec/17 R446) -/

/-- A CP that is active runs wherever the REFCLKs are the same. -/
theorem State.cpRuns_of_active {s t : State} (hs : s.cpRuns = true) (ha : t.cp.active.isSome = true)
    (hr : ∀ q, (t.port q).refPresent = (s.port q).refPresent) : t.cpRuns = true := by
  rw [State.cpRuns_eq _ .a] at hs ⊢
  rw [ha, hr, hr]
  simp only [Bool.and_eq_true] at hs
  simpa using hs.2

theorem State.bothEvent_shows (s : State) (bit : Nat) (h : bit < 7) (q : Port) : Shows (s.bothEvent bit) q bit := by
  cases q with
  | a => exact ((State.portsTold_portEvent _ .b bit).2 .a).2 _ (s.portEvent_shows .a bit h)
  | b => exact State.portEvent_shows _ .b bit h

/-- The CPs' state once `p` has the active role. -/
def State.roleAt (s : State) (p : Port) : State :=
  { s with cp := { s.cp with active := some p, cpact := p, lastBeat := s.mod.ctl } }

/-- The move of the role changes the CPs' state and tells both hosts of it (spec/12 Table 12.7). -/
theorem State.portsTold_moveRole (s : State) (p : Port) : (s.roleAt p).PortsTold (s.moveRole p) :=
  State.portsTold_bothEvent _ evTakeover

theorem State.moveRole_shows (s : State) (p q : Port) : Shows (s.moveRole p) q evTakeover :=
  State.bothEvent_shows _ evTakeover (by decide) q

@[simp] theorem State.moveRole_cp (s : State) (p : Port) : (s.moveRole p).cp = (s.roleAt p).cp :=
  (congrArg State.cp (s.portsTold_moveRole p).1 :)

@[simp] theorem State.moveRole_fw (s : State) (p : Port) : (s.moveRole p).fw = s.fw :=
  (congrArg State.fw (s.portsTold_moveRole p).1 :)

@[simp] theorem State.moveRole_jobs (s : State) (p : Port) : (s.moveRole p).jobs = s.jobs :=
  (congrArg State.jobs (s.portsTold_moveRole p).1 :)

/-! ### A takeover (spec/01 R22, R24, spec/13 Table 13.12) -/

/-- Discards fill the inbox's log, and a freed slot leaves the order: of a port's REFCLK nothing changes. -/
theorem PortState.foldl_forget (r : Nat) (l : List Nat) (x : PortState) :
    let y := l.foldl (fun x i => (x.discard i r).freeSlot i) x
    y.order = x.order.filter (· ∉ l) ∧ y.refPresent = x.refPresent := by
  induction l generalizing x with
  | nil => simp
  | cons i l ih =>
    have horder : (x.discard i r).order = x.order := by unfold PortState.discard; dsimp only; split <;> rfl
    have href : (x.discard i r).refPresent = x.refPresent := by unfold PortState.discard; dsimp only; split <;> rfl
    obtain ⟨ho, hr⟩ := ih ((x.discard i r).freeSlot i)
    refine ⟨ho.trans ?_, hr.trans href⟩
    simp only [PortState.freeSlot, horder, List.filter_filter]
    exact List.filter_congr fun k _ => by simp [Bool.and_comm]

/-- Packets not yet journaled leave the inbox (spec/01 R24). -/
@[simp] theorem PortState.forgetPackets_order (x : PortState) : x.forgetPackets.order = [] :=
  (PortState.foldl_forget inbTakeover x.order x).1.trans (List.filter_eq_nil_iff.2 fun _ h => by simp [h])

@[simp] theorem PortState.forgetPackets_refPresent (x : PortState) : x.forgetPackets.refPresent = x.refPresent :=
  (PortState.foldl_forget inbTakeover x.order x).2

/-- The module as the CP at `p` fails: it is out of service, and both inboxes are without packets. -/
def State.cpFails (s : State) (p : Port) : State :=
  { s with
    cp := { s.cp with up := s.cp.up.set p false }
    ports := { a := s.ports.a.forgetPackets, b := s.ports.b.forgetPackets } }

theorem State.port_cpFails (s : State) (p q : Port) : (s.cpFails p).port q = (s.port q).forgetPackets := by
  cases q <;> rfl

/-- The record of a takeover (spec/15 Table 15.4). -/
def takeoverRec (p : Port) : ErrRec := { mkRec clsTakeover 2 5 with unit := p.num, action := 8 }

/-- The module once the other CP has the role of the CP at `p`, before the record of it. -/
def State.takenOver (s : State) (p : Port) : State := ((s.cpFails p).moveRole p.other).updTakeover

theorem State.takeover_due (s : State) (p : Port) (hp : s.cp.active = some p) (hcp : s.cpRuns = true)
    (hup : s.cp.up.get p.other = true) (hbeat : s.cp.lastBeat + 20000 ≤ s.mod.ctl) :
    s.takeover = (s.takenOver p).errorRecord (takeoverRec p) := by
  have hlt : ¬ s.mod.ctl < s.cp.lastBeat + 20000 := Nat.not_lt.2 hbeat
  simp [State.takeover, hp, hcp, hup, hlt, State.takenOver, State.cpFails, takeoverRec]

theorem State.takeover_notDue (s : State) (p : Port) (hp : s.cp.active = some p)
    (h : s.cp.up.get p.other = false ∨ s.mod.ctl < s.cp.lastBeat + 20000) : s.takeover = s := by
  simp only [State.takeover, hp]
  exact if_pos (Or.inr h)

/-- With no update in progress a takeover touches the firmware's state alone (spec/17 Table 17.6). -/
theorem State.updTakeover_frame (s : State) (h : s.fw.upd = none) : s.updTakeover = { s with fw := s.updTakeover.fw } := by
  simp [State.updTakeover, h]

/-- With no update in progress, the role moves, the inboxes are empty, and both hosts are told; the jobs are as they were. -/
theorem State.takenOver_spec (s : State) (p : Port) (h : s.fw.upd = none) :
    (s.takenOver p).cp = ((s.cpFails p).roleAt p.other).cp ∧ (s.takenOver p).jobs = s.jobs ∧
    ∀ q, Shows (s.takenOver p) q evTakeover ∧ ((s.takenOver p).port q).order = [] ∧
      ((s.takenOver p).port q).refPresent = (s.port q).refPresent := by
  have hframe := ((s.cpFails p).moveRole p.other).updTakeover_frame (by rw [State.moveRole_fw]; exact h)
  have hport (q : Port) : (s.takenOver p).port q = ((s.cpFails p).moveRole p.other).port q :=
    (congrArg (fun u => State.port u q) hframe :)
  refine ⟨(congrArg State.cp hframe :).trans (State.moveRole_cp _ p.other),
    (congrArg State.jobs hframe :).trans (State.moveRole_jobs _ p.other), fun q => ?_⟩
  have htold : (s.port q).forgetPackets.Told ((s.takenOver p).port q) := by
    rw [hport, ← s.port_cpFails p q]
    exact (State.portsTold_moveRole _ p.other).2 q
  refine ⟨?_, ?_, ?_⟩
  · rw [Shows, hport]
    exact State.moveRole_shows _ _ _
  · rw [htold.1]
    exact PortState.forgetPackets_order _
  · rw [htold.refPresent, PortState.forgetPackets_refPresent]

/-! ### A hitless handover (spec/17 R446) -/

/-- The image that an update wrote runs as TRIAL, and the update has ended. -/
def State.newImageRuns (s : State) (u : Update) : State :=
  { s with fw := { s.fw.modSlots 0 u.slot (fun x => { x with state := slotTrial }) with
      runMod := u.slot, trialAt := some s.mod.ctl, upd := none } }

@[simp] theorem State.switchBanks_cp (s : State) : s.switchBanks.cp = s.cp := rfl
@[simp] theorem State.switchBanks_fw (s : State) : s.switchBanks.fw = s.fw := rfl
@[simp] theorem State.switchBanks_jobs (s : State) : s.switchBanks.jobs = s.jobs := rfl

/-- A handover for which no journaled command waits: the new image, the role, the banks. -/
theorem State.handover_due (s : State) (p : Port) (u : Update) (hp : s.cp.active = some p) (hcp : s.cpRuns = true)
    (hu : s.fw.upd = some u) (hands : u.handsOver = true) (he : u.entry = none) (hup : s.cp.up.get p.other = true)
    (hw : s.mod.supply ≠ .warning) : s.handover = ((s.newImageRuns u).moveRole p.other).switchBanks := by
  simp [State.handover, hu, hp, hands, hcp, hup, hw, State.warned, State.endActivation, he, State.newImageRuns]

theorem State.handover_noUpdate (s : State) (hu : s.fw.upd = none) : s.handover = s := by
  simp [State.handover, hu]

/-- A change of a slot's state changes no MODULE image. -/
theorem FwState.modSlots_image (fw : FwState) (slot st i : Nat) (q : Port) :
    (tget {} ((fw.modSlots 0 slot (fun x => { x with state := st })).flash.get q).mod i).image = (tget {} (fw.flash.get q).mod i).image := by
  cases q <;> simp only [FwState.modSlots, Pair.get, if_true, tget_tmod] <;> split <;> rfl

/-! ### The control ring (spec/01 R25) -/

/-- The module as the ring breaks, before the record: after a second break the fields `off` are reached over the express network alone. -/
def State.ringBroken (s : State) (off : List Nat) : State :=
  { s with mod := { s.mod with
      ringBreaks := s.mod.ringBreaks + 1
      expressOnly := if s.mod.ringBreaks = 0 then s.mod.expressOnly
        else (s.mod.expressOnly ++ off.filter (fun f => decide (f < 60))).eraseDups } }

/-- The record of a break: a second one requires service. -/
def ringRec (breaks : Nat) : ErrRec := mkRec clsRing (if breaks = 0 then 2 else 4) 5

theorem two_le_ringRec_severity (breaks : Nat) : 2 ≤ (ringRec breaks).severity := by
  unfold ringRec mkRec
  dsimp only
  split <;> decide

theorem mem_eraseDups_fields (l off : List Nat) (g : Nat) (h : g < 60) :
    g ∈ (l ++ off.filter (fun f => decide (f < 60))).eraseDups ↔ g ∈ l ∨ g ∈ off := by
  simp [h]

/-! ### The commands -/

theorem exec_heartbeat (s : State) : exec .heartbeat s = execHeartbeat s := rfl
theorem exec_takeover (s : State) : exec .takeover s = .next s.takeover := rfl
theorem exec_handover (s : State) : exec .handover s = .next s.handover := rfl
theorem exec_ringBreak (off : List Nat) (s : State) :
    exec (.ringBreak off) s = .next ((s.ringBroken off).errorRecord (ringRec s.mod.ringBreaks)) := rfl

/-- After the 10th missed heartbeat the other CP is active, with the journal, the owner and the jobs as they were; the packets in the
inboxes are gone, both hosts are told, and the failed CP has its record. -/
theorem State.takeover_spec (s : State) (p : Port) (hp : s.cp.active = some p) (hcp : s.cpRuns = true)
    (hup : s.cp.up.get p.other = true) (hbeat : s.cp.lastBeat + 20000 ≤ s.mod.ctl) (hu : s.fw.upd = none) :
    let t := s.takeover
    t.cp = ((s.cpFails p).roleAt p.other).cp ∧ t.jobs = s.jobs ∧ (∀ q, Shows t q evTakeover ∧ (t.port q).order = []) ∧
      ∃ r ∈ t.errs, r.cls = 0xC ∧ r.unit = p.num ∧ r.severity = 2 := by
  intro t
  obtain ⟨hrole, hjobs, hports⟩ := s.takenOver_spec p hu
  have ht : t = (s.takenOver p).errorRecord (takeoverRec p) := s.takeover_due p hp hcp hup hbeat
  obtain ⟨hrec, htold⟩ : (s.takenOver p).Recorded t := by rw [ht]; exact State.recorded_errorRecord _ _
  refine ⟨(congrArg State.cp hrec :).trans hrole, (congrArg State.jobs hrec :).trans hjobs, fun q => ?hosts, ?record⟩
  case hosts =>
    obtain ⟨hshows, horder, -⟩ := hports q
    refine ⟨(htold q).2 _ hshows, ?_⟩
    rw [(htold q).1]
    exact horder
  case record =>
    have hruns : (s.takenOver p).cpRuns = true :=
      State.cpRuns_of_active hcp (by rw [hrole]; rfl) fun q => (hports q).2.2
    rw [ht]
    exact ⟨_, State.errorRecord_mem _ _ hruns le_rfl, rfl, rfl, rfl⟩

/-- A break is counted and recorded; the CPs are as they were. -/
theorem State.ringBroken_recorded (s : State) (off : List Nat) (hcp : s.cpRuns = true) :
    let t := (s.ringBroken off).errorRecord (ringRec s.mod.ringBreaks)
    t.mod.ringBreaks = s.mod.ringBreaks + 1 ∧ t.cp = s.cp ∧ t.mod.expressOnly = (s.ringBroken off).mod.expressOnly ∧
      ∃ r ∈ t.errs, r.cls = 0x13 ∧ r.severity = (if s.mod.ringBreaks = 0 then 2 else 4) := by
  intro t
  obtain ⟨hrec, -⟩ : (s.ringBroken off).Recorded t := State.recorded_errorRecord _ _
  exact ⟨(congrArg (fun u => u.mod.ringBreaks) hrec :), (congrArg State.cp hrec :), (congrArg (fun u => u.mod.expressOnly) hrec :),
    _, State.errorRecord_mem _ _ hcp (two_le_ringRec_severity _), rfl, rfl⟩

/-- Settles O49, command by command: the heartbeat, a takeover that is due and the two reasons it is not, a handover with and without an
update, and a break of the ring. -/
theorem controlProcessors : Obligations.ControlProcessors := by
  unfold Obligations.ControlProcessors
  intro s p hp hcp
  simp only [exec_heartbeat, exec_takeover, exec_handover, exec_ringBreak]
  refine ⟨?beat, fun hup hbeat hu => ?takeover, fun hlt => ?early, fun hdown => ?alone, fun u hu hands he hup hw => ?handover,
    fun hu => ?noUpdate, fun off => ?ring⟩
  case beat => simp only [execHeartbeat, hcp, if_true]
  case takeover =>
    obtain ⟨hrole, hjobs, hports, hrec⟩ := s.takeover_spec p hp hcp hup hbeat hu
    refine ⟨_, rfl, ?_⟩
    rw [hrole]
    refine ⟨rfl, rfl, ?_, rfl, rfl, hjobs, hports, hrec⟩
    cases p <;> rfl
  case early => rw [s.takeover_notDue p hp (.inr hlt)]
  case alone => rw [s.takeover_notDue p hp (.inl hdown)]
  case handover =>
    rw [s.handover_due p u hp hcp hu hands he hup hw]
    refine ⟨_, rfl, ?_⟩
    rw [State.switchBanks_cp, State.switchBanks_fw, State.switchBanks_jobs, State.moveRole_cp, State.moveRole_fw, State.moveRole_jobs]
    exact ⟨rfl, rfl, rfl, rfl, rfl, rfl, (s.newImageRuns u).moveRole_shows p.other, s.fw.modSlots_image u.slot slotTrial u.slot⟩
  case noUpdate => rw [s.handover_noUpdate hu]
  case ring =>
    obtain ⟨hbreaks, hkeep, hreach, hrec⟩ := s.ringBroken_recorded off hcp
    refine ⟨_, rfl, hbreaks, hkeep, fun h0 => ?_, fun h0 g hg => ?_, hrec⟩
    · rw [hreach]
      exact if_pos h0
    · rw [hreach, State.ringBroken, if_neg h0]
      exact mem_eraseDups_fields _ off g hg

end Sys2Proof.Machine

/-! SUPPORT. SX threads: one issue of a thread whose instruction word is read clean, its next address, and what the integer
instructions, the branches, the jumps and the thread instructions leave (spec/04 R112-R121, Tables 4.10 to 4.12). -/

namespace Sys2Proof

@[simp] theorem RegFile.set_set {n : Nat} {α : Type} (r : RegFile n α) (i : BitVec n) (u v : α) :
    (r.set i u).set i v = r.set i v := Vector.set_set ..

@[simp] theorem RegFile.set_get {n : Nat} {α : Type} (r : RegFile n α) (i : BitVec n) : r.set i (r.get i) = r :=
  Vector.set_getElem_self ..

namespace Machine

open Sys2Proof.Claims

/-! ### One issue (spec/04 R113, R117) -/

/-- A thread that stands at a clean legal instruction runs its body. -/
theorem State.sxIssueOp_at {s : State} {c : CoreId} {t : Fin 4} {op : Nat} {i : Inst32} (h : SxAt s c t op i) (body : SxBody) :
    s.sxIssueOp c t op body = body (s.setCore c (s.core c)) c t.val i := by
  obtain ⟨hk, hready, hpc, hold, hclean, hi, hop, hlegal⟩ := h
  exact s.sxIssueOp_ready c t op body i hk hready hpc hold hclean hi hop hlegal

theorem State.sxIssueOp_core {s : State} {c : CoreId} {t : Fin 4} {op : Nat} {i : Inst32} (h : SxAt s c t op i)
    (f : CoreState → Nat → Inst32 → CoreState) : s.sxIssueOp c t op (sxCore f) = s.setCore c (f (s.core c) t.val i) := by
  rw [State.sxIssueOp_at h]
  simp [sxCore]

theorem sxPc_aligned {s : State} {c : CoreId} {t : Fin 4} {op : Nat} {i : Inst32} (h : SxAt s c t op i) :
    (sxPc s c t).toNat % 4 = 0 := h.2.2.1

/-- A core that runs has not failed (spec/04 R123). -/
theorem State.err_of_coreRuns {s : State} {c : CoreId} (h : s.coreRuns c = true) : (s.core c).err = false := by
  unfold State.coreRuns at h
  split at h
  · simp only [Bool.and_eq_true, Bool.not_eq_true'] at h
    exact h.1.2
  · exact absurd h (by decide)

/-- A thread that may issue is started, on a core that has not failed. -/
theorem sxAt_alive {s : State} {c : CoreId} {t : Fin 4} {op : Nat} {i : Inst32} (h : SxAt s c t op i) :
    (s.core c).err = false ∧ ((s.core c).thread t.val).run = true := by
  obtain ⟨-, hready, -⟩ := h
  simp only [State.sxReady, Bool.and_eq_true] at hready
  exact ⟨State.err_of_coreRuns hready.1.1.1, hready.1.2⟩

/-! ### The next address -/

/-- A thread that has issued goes to a legal address. -/
theorem CoreState.jump_issued (x : CoreState) (t : Fin 4) (f : Thread → Thread) (a : BitVec 32) (h4 : a.toNat % 4 = 0)
    (hr : a.toNat < 0x8000) : ((x.modThread t f).countIssue t).jump t a = sxDone x t (a.setWidth 15) f := by
  rw [CoreState.jump_ok _ _ _ h4 hr]
  simp [CoreState.modThread, CoreState.countIssue, CoreState.setThread, CoreState.thread, sxDone,
    BitVec.setWidth_eq_extractLsb' (show 15 ≤ 32 by decide)]

@[simp] theorem CoreState.modThread_id (x : CoreState) (t : Nat) : x.modThread t id = x := by
  simp [CoreState.modThread, CoreState.setThread, CoreState.thread]

theorem CoreState.jump_counted (x : CoreState) (t : Fin 4) (a : BitVec 32) (h4 : a.toNat % 4 = 0) (hr : a.toNat < 0x8000) :
    (x.countIssue t).jump t a = sxDone x t (a.setWidth 15) id := by
  simpa using x.jump_issued t id a h4 hr

/-- The next instruction's address. -/
theorem toNat_pcAfter (pc : BitVec 15) (hr : pc.toNat + 4 < 0x8000) :
    (BitVec.ofNat 32 (pc.toNat + 4)).toNat = pc.toNat + 4 ∧ (BitVec.ofNat 32 (pc.toNat + 4)).setWidth 15 = pc + 4 := by
  have h : (BitVec.ofNat 32 (pc.toNat + 4)).toNat = pc.toNat + 4 := by
    rw [BitVec.toNat_ofNat]; omega
  refine ⟨h, BitVec.eq_of_toNat_eq ?_⟩
  rw [BitVec.toNat_setWidth, h, BitVec.toNat_add]
  rfl

theorem CoreState.sxNext_eq (x : CoreState) (t : Fin 4) (f : Thread → Thread) (h4 : (x.thread t.val).pc.toNat % 4 = 0)
    (hr : (x.thread t.val).pc.toNat + 4 < 0x8000) : x.sxNext t f = sxDone x t ((x.thread t.val).pc + 4) f := by
  obtain ⟨hpc, hw⟩ := toNat_pcAfter _ hr
  rw [CoreState.sxNext, CoreState.jump_issued _ _ _ _ (by omega) (by omega), hw]

/-- An instruction that changes its thread's registers and goes on. -/
theorem State.sxIssueOp_next {s : State} {c : CoreId} {t : Fin 4} {op : Nat} {i : Inst32} (h : SxAt s c t op i)
    (hr : SxRoom s c t) (g : CoreState → Nat → Inst32 → Thread → Thread) :
    s.sxIssueOp c t op (sxCore (fun x u j => x.sxNext u (g x u j))) =
      s.setCore c (sxDone (s.core c) t (sxPc s c t + 4) (g (s.core c) t.val i)) := by
  rw [State.sxIssueOp_core h, CoreState.sxNext_eq _ _ _ (sxPc_aligned h) hr]
  rfl

/-- An instruction that writes GD and goes on. -/
theorem State.sxIssueOp_putGd {s : State} {c : CoreId} {t : Fin 4} {op : Nat} {i : Inst32} (h : SxAt s c t op i)
    (hr : SxRoom s c t) (g : CoreState → Nat → Inst32 → BitVec 32) :
    s.sxIssueOp c t op (sxCore (fun x u j => x.putGd u j (g x u j))) = sxPut s c t (sGd i) (g (s.core c) t.val i) :=
  State.sxIssueOp_next h hr (fun x u j y => y.setG (sGd j) (g x u j))

/-! ### Integer unit (Tables 4.10, 4.11) -/

theorem mulhu_eq (a b : BitVec 32) :
    BitVec.ofNat 32 (a.toNat * b.toNat / 2 ^ 32) = (a.setWidth 64 * b.setWidth 64).extractLsb' 32 32 := by
  have hab : a.toNat * b.toNat < 2 ^ 32 * 2 ^ 32 := Nat.mul_lt_mul'' a.isLt b.isLt
  apply BitVec.eq_of_toNat_eq
  simp only [BitVec.toNat_ofNat, BitVec.extractLsb'_toNat, BitVec.toNat_mul, BitVec.toNat_setWidth, Nat.shiftRight_eq_div_pow]
  rw [Nat.mod_eq_of_lt (a := a.toNat) (by omega), Nat.mod_eq_of_lt (a := b.toNat) (by omega)]
  omega

/-- The signed product of two words fits in two words. -/
theorem toInt_mul_signExtend (a b : BitVec 32) : (a.signExtend 64 * b.signExtend 64).toInt = a.toInt * b.toInt := by
  have ha := a.le_toInt
  have ha' := a.toInt_lt
  have hb := b.le_toInt
  have hb' := b.toInt_lt
  rw [BitVec.toInt_mul, BitVec.toInt_signExtend_of_le (by decide), BitVec.toInt_signExtend_of_le (by decide)]
  apply Int.bmod_eq_of_le <;> norm_num at * <;> nlinarith

/-- The upper word of a double word, as its signed value shows it. -/
theorem extractLsb'_high (p : BitVec 64) : p.extractLsb' 32 32 = BitVec.ofInt 32 (p.toInt / 2 ^ 32) := by
  have hp := p.isLt
  apply BitVec.eq_of_toNat_eq
  rw [BitVec.extractLsb'_toNat, Nat.shiftRight_eq_div_pow, BitVec.toNat_ofInt, BitVec.toInt_eq_toNat_cond]
  split <;> omega

theorem mulh_eq (a b : BitVec 32) :
    BitVec.ofInt 32 (a.toInt * b.toInt / 2 ^ 32) = (a.signExtend 64 * b.signExtend 64).extractLsb' 32 32 := by
  rw [extractLsb'_high, toInt_mul_signExtend]

/-- The model's integer unit computes Table 4.11. -/
theorem aluFn_eq (fn : Nat) (a b : BitVec 32) : aluFn fn a b = aluTable fn a b := by
  unfold aluFn aluTable
  simp only [mulhu_eq, mulh_eq, BitVec.slt_eq_decide, BitVec.ult_eq_decide, ← not_lt, ite_not]
  split <;> simp_all

/-- LUI's value: IMM22 with ten zeros below it. -/
theorem sLui_eq (i : Inst32) : sLui i = (i.extractLsb' 10 22).setWidth 32 <<< 10 := by
  apply BitVec.eq_of_getLsbD_eq
  intro j hj
  have hmask : (0xFFFF_FC00#32).getLsbD j = !decide (j < 10) := by
    revert j; decide
  by_cases h : j < 10
  · simp [sLui, hmask, h]
  · have h32 : j - 10 < 22 := by omega
    have hadd : 10 + (j - 10) = j := by omega
    simp [sLui, hmask, h, hj, h32, hadd]

/-- SHI selects among the three shifts (spec/04 Table 4.10). -/
theorem aluFn_shift (k z : Nat) (a : BitVec 32) (hk : k ≤ 2) (hz : z < 32) :
    aluFn (0x05 + k) a (BitVec.ofNat 32 z) =
      if k = 0 then a <<< z else if k = 1 then a >>> z else a.sshiftRight z := by
  obtain rfl | rfl | rfl : k = 0 ∨ k = 1 ∨ k = 2 := by omega
  all_goals simp [aluFn, Nat.mod_eq_of_lt hz]

/-! ### Branches and jumps (spec/04 Table 4.10) -/

/-- A word offset from the program counter, as the statements write it. -/
theorem pcOffset_eq (pc : BitVec 15) (off : BitVec 32) :
    BitVec.ofNat 32 pc.toNat + (off <<< 2) = pc.setWidth 32 + off * 4 := by
  rw [BitVec.ofNat_toNat, BitVec.shiftLeft_eq_mul_twoPow]
  rfl

theorem pcOffset_aligned (pc : BitVec 15) (off : BitVec 32) (h : pc.toNat % 4 = 0) :
    (pc.setWidth 32 + off * 4).toNat % 4 = 0 := by
  rw [BitVec.toNat_add, BitVec.toNat_mul, BitVec.toNat_setWidth, show (4 : BitVec 32).toNat = 4 from rfl]
  omega

theorem State.sxIssueOp_branch {s : State} {c : CoreId} {t : Fin 4} {op : Nat} {i : Inst32} (h : SxAt s c t op i)
    (hr : SxRoom s c t) (taken : BitVec 32 → BitVec 32 → Bool)
    (ht : ((sxPc s c t).setWidth 32 + (i.extractLsb' 14 18).signExtend 32 * 4 : BitVec 32).toNat < 0x8000) :
    s.sxIssueOp c t op (branchBody taken) = s.setCore c (sxDone (s.core c) t
      (if taken ((s.core c).gReg t.val (sGd i)) ((s.core c).gReg t.val (sGa i)) then
        ((sxPc s c t).setWidth 32 + (i.extractLsb' 14 18).signExtend 32 * 4 : BitVec 32).setWidth 15
       else sxPc s c t + 4) id) := by
  have h4 := sxPc_aligned h
  rw [branchBody, State.sxIssueOp_core h]
  cases taken ((s.core c).gReg t.val (sGd i)) ((s.core c).gReg t.val (sGa i)) with
  | false =>
    rw [if_neg (by decide), if_neg (by decide), CoreState.sxNext_eq _ _ _ h4 hr]
    rfl
  | true =>
    rw [if_pos rfl, if_pos rfl, pcOffset_eq]
    exact congrArg _ (CoreState.jump_counted _ _ _ (pcOffset_aligned _ _ h4) ht)

/-- The return address that JAL and JALR leave in GD. -/
theorem link_eq (pc : BitVec 15) : BitVec.ofNat 32 pc.toNat + 4 = pc.setWidth 32 + 4 := by
  rw [BitVec.ofNat_toNat]

theorem State.sxIssueOp_jal {s : State} {c : CoreId} {t : Fin 4} {i : Inst32} (h : SxAt s c t 0x26 i)
    (ht : ((sxPc s c t).setWidth 32 + (i.extractLsb' 10 22).signExtend 32 * 4 : BitVec 32).toNat < 0x8000) :
    s.sxIssueOp c t 0x26 jalBody = s.setCore c (sxDone (s.core c) t
      (((sxPc s c t).setWidth 32 + (i.extractLsb' 10 22).signExtend 32 * 4 : BitVec 32).setWidth 15)
      (fun y => y.setG (sGd i) ((sxPc s c t).setWidth 32 + 4))) := by
  rw [jalBody, State.sxIssueOp_core h]
  dsimp only
  rw [pcOffset_eq, link_eq]
  exact congrArg _ (CoreState.jump_issued _ _ _ _ (pcOffset_aligned _ _ (sxPc_aligned h)) ht)

@[simp] theorem CoreState.modThread_err (x : CoreState) (t : Nat) (f : Thread → Thread) : (x.modThread t f).err = x.err := rfl

theorem State.sxIssueOp_jalr {s : State} {c : CoreId} {t : Fin 4} {i : Inst32} (h : SxAt s c t 0x27 i)
    (hlt : (sxEa s c t i).toNat < 0x8000) (h4 : (sxEa s c t i).toNat % 4 = 0) :
    s.sxIssueOp c t 0x27 jalrBody = s.setCore c (sxDone (s.core c) t ((sxEa s c t i).setWidth 15)
      (fun y => y.setG (sGd i) ((sxPc s c t).setWidth 32 + 4))) := by
  have hdst : sxAddr (s.core c) t.val i = sxEa s c t i := rfl
  rw [jalrBody, State.sxIssueOp_core h]
  dsimp only
  rw [hdst, link_eq, CoreState.jump_ok _ _ _ h4 hlt, CoreState.modThread_err, (sxAt_alive h).1, if_neg (by decide)]
  exact congrArg _ (CoreState.jump_issued _ _ _ _ h4 hlt)

/-- Settles O2: an integer instruction writes what Table 4.11 computes; a branch or a jump goes to its target. -/
theorem sxIntegerAndJumpResults : Obligations.SxIntegerAndJumpResults := by
  unfold Obligations.SxIntegerAndJumpResults
  refine ⟨fun s c t i hr => ?integer, fun s c t i hr => ?jumps⟩
  case integer =>
    have himm {op : Nat} (fn : Nat) (h : SxAt s c t op i) :
        s.sxIssueOp c t op (immBody fn) = sxPut s c t (sGd i) (aluTable fn (sxA s c t i) ((i.extractLsb' 14 18).signExtend 32)) := by
      rw [← aluFn_eq]
      exact State.sxIssueOp_putGd h hr _
    refine ⟨fun h => ?alu, fun h => congrArg _ (himm 0x00 h), fun h => congrArg _ (himm 0x02 h), fun h => congrArg _ (himm 0x03 h),
      fun h => congrArg _ (himm 0x04 h), fun h => congrArg _ (himm 0x08 h), fun h => congrArg _ (himm 0x09 h), fun h => ?shi,
      fun h => ?lui⟩
    case alu =>
      rw [← aluFn_eq]
      exact congrArg _ (State.sxIssueOp_putGd h hr _)
    case shi =>
      have hk : sfld i 19 2 ≤ 2 := by
        obtain ⟨-, -, -, -, -, -, hop, hl⟩ := h
        simp only [sxLegal, hop, Bool.and_eq_true, decide_eq_true_eq] at hl
        exact hl.2
      have hsh := aluFn_shift (sfld i 19 2) (sfld i 14 5) (sxA s c t i) hk (Nat.mod_lt _ (by decide))
      refine congrArg _ ((State.sxIssueOp_putGd h hr _).trans (congrArg (sxPut s c t (sGd i)) hsh))
    case lui =>
      rw [← sLui_eq]
      exact congrArg _ (State.sxIssueOp_putGd h hr _)
  case jumps =>
    refine ⟨fun h ht => ?beq, fun h ht => ?bne, fun h ht => ?blt, fun h ht => ?bge, fun h ht => ?bltu, fun h ht => ?bgeu,
      fun h ht => ?jal, fun h hlt h4 => ?jalr⟩
    case beq | bne => exact congrArg _ (State.sxIssueOp_branch h hr _ ht)
    case blt | bge | bltu | bgeu =>
      simp only [BitVec.slt_eq_decide, BitVec.sle_eq_decide, BitVec.ult_eq_decide, BitVec.ule_eq_decide]
      exact congrArg _ (State.sxIssueOp_branch h hr _ ht)
    case jal => exact congrArg _ (State.sxIssueOp_jal h ht)
    case jalr => exact congrArg _ (State.sxIssueOp_jalr h hlt h4)

/-! ### CSRs and threads (spec/04 R113, Table 4.12) -/

theorem State.modCore_putGd (s : State) (c : CoreId) (t : Fin 4) (i : Inst32) (v : BitVec 32) (h4 : (sxPc s c t).toNat % 4 = 0)
    (hr : SxRoom s c t) :
    (s.setCore c (s.core c)).modCore c (fun y => y.putGd t.val i v) = sxPut s c t (sGd i) v := by
  rw [State.modCore_setCore, CoreState.putGd, CoreState.sxNext_eq _ _ _ h4 hr]
  rfl

@[simp] theorem CoreState.modThread_modThread (x : CoreState) (t : Nat) (f g : Thread → Thread) :
    (x.modThread t f).modThread t g = x.modThread t (fun y => g (f y)) := by
  simp [CoreState.modThread, CoreState.setThread, CoreState.thread]

@[simp] theorem CoreState.thread_modThread_same (x : CoreState) (t : Nat) (f : Thread → Thread) :
    (x.modThread t f).thread t = f (x.thread t) := by
  simp [CoreState.modThread]

/-- TICKLO: TICKHI takes the upper half of the tick as GD takes the lower. -/
theorem CoreState.putGd_tick (x : CoreState) (t : Fin 4) (i : Inst32) (lo hi : BitVec 32) (h4 : (x.thread t.val).pc.toNat % 4 = 0)
    (hr : (x.thread t.val).pc.toNat + 4 < 0x8000) :
    (x.modThread t.val (fun y => { y with tickHi := hi })).putGd t.val i lo =
      sxDone x t ((x.thread t.val).pc + 4) (fun y => Thread.setG { y with tickHi := hi } (sGd i) lo) := by
  rw [CoreState.putGd, CoreState.sxNext_eq _ _ _ (by simpa using h4) (by simpa using hr)]
  simp [sxDone, CoreState.thread, CoreState.modThread, CoreState.setThread]

/-- A thread that TSTART starts, before its argument: all registers 0 (spec/04 R113). -/
def startedThread (old : Thread) (pc : BitVec 15) : Thread :=
  { pc := pc, run := true, tickHi := old.tickHi, moves := old.moves }

@[simp] theorem startedThread_gReg (old : Thread) (pc : BitVec 15) (r : Nat) : (startedThread old pc).gReg r = 0 := by
  simp [startedThread, Thread.gReg, RegFile.get]

@[simp] theorem Thread.setG_pc (x : Thread) (r : Nat) (v : BitVec 32) : (x.setG r v).pc = x.pc := by
  unfold Thread.setG; split <;> rfl

@[simp] theorem Thread.setG_run (x : Thread) (r : Nat) (v : BitVec 32) : (x.setG r v).run = x.run := by
  unfold Thread.setG; split <;> rfl

/-- The threads of a core after an issue of thread `t`. -/
theorem thread_sxDone (x : CoreState) (t u : Fin 4) (pc : BitVec 15) (f : Thread → Thread) :
    (sxDone x t pc f).thread u.val = if t = u then { f (x.thread t.val) with pc := pc, wait := .none } else x.thread u.val := by
  have h := x.thread_setThread t.val u.val { f (x.thread t.val) with pc := pc, wait := .none }
  rw [Nat.mod_eq_of_lt t.isLt, Nat.mod_eq_of_lt u.isLt] at h
  simp only [Fin.ext_iff]
  exact h

/-- The core in which thread `t` has started thread `n` and has not yet gone on. -/
def tstarted (x : CoreState) (t n : Fin 4) (i : Inst32) : CoreState :=
  CoreState.setThread { x with stale := x.stale.filter (fun e => e.thread != n.val) } n.val
    ((startedThread (x.thread n.val) ((x.gReg t.val (sGb i)).setWidth 15)).setG 1 (x.gReg t.val (sGd i)))

theorem thread_tstarted (x : CoreState) (t n u : Fin 4) (i : Inst32) :
    (tstarted x t n i).thread u.val = if n = u then
      (startedThread (x.thread n.val) ((x.gReg t.val (sGb i)).setWidth 15)).setG 1 (x.gReg t.val (sGd i)) else x.thread u.val := by
  rw [tstarted, CoreState.thread_setThread, Nat.mod_eq_of_lt n.isLt, Nat.mod_eq_of_lt u.isLt]
  simp only [Fin.ext_iff]
  rfl

/-- TSTART of a stopped thread at a legal address. -/
theorem State.sxIssueOp_tstart {s : State} {c : CoreId} {t n : Fin 4} {i : Inst32} (h : SxAt s c t 0x3C i) (hr : SxRoom s c t)
    (hn : ((s.core c).gReg t.val (sGa i)).toNat % 4 = n.val) (hstop : ((s.core c).thread n.val).run = false)
    (h4 : ((s.core c).gReg t.val (sGb i)).toNat % 4 = 0) (hlt : ((s.core c).gReg t.val (sGb i)).toNat < 0x8000) (hne : n ≠ t) :
    s.sxIssueOp c t 0x3C tstartBody = s.setCore c (sxDone (tstarted (s.core c) t n i) t (sxPc s c t + 4) id) := by
  have hthread : (tstarted (s.core c) t n i).thread t.val = (s.core c).thread t.val := by
    rw [thread_tstarted, if_neg hne]
  have hpc : sxPc s c t = ((tstarted (s.core c) t n i).thread t.val).pc := by rw [hthread]; rfl
  rw [tstartBody, State.sxIssueOp_core h]
  dsimp only
  rw [hn, hstop, if_neg (by decide), if_neg (by omega), if_neg (by omega), hpc, ← CoreState.sxNext_eq]
  · simp only [tstarted, startedThread, BitVec.setWidth_eq_extractLsb' (show 15 ≤ 32 by decide)]
  · rw [← hpc]; exact sxPc_aligned h
  · rw [← hpc]; exact hr

/-- A core with thread `t` stopped by THALT. -/
def thalted (x : CoreState) (t : Fin 4) : CoreState :=
  (x.countIssue t.val).modThread t.val (fun y => { y with pc := y.pc + 4, run := false, wait := .none })

theorem thalted_run (x : CoreState) (t : Fin 4) : ((thalted x t).thread t.val).run = false := by
  rw [thalted, CoreState.thread_modThread_same]

theorem thread_thalted (x : CoreState) (t u : Fin 4) (hne : u ≠ t) : (thalted x t).thread u.val = x.thread u.val := by
  have htu : ¬ t.val = u.val := fun e => hne (Fin.ext e.symm)
  rw [thalted, CoreState.modThread, CoreState.thread_setThread, Nat.mod_eq_of_lt t.isLt, Nat.mod_eq_of_lt u.isLt, if_neg htu]
  rfl

/-- The end of a proof run changes only the run (spec/15 R399). -/
theorem State.endRun_setCore (s : State) (c : CoreId) (x : CoreState) :
    ∃ r, (s.setCore c x).endRun c = s.setCore c { x with prf := { x.prf with running := r } } := by
  rw [State.endRun, State.modCore_setCore]
  split
  · exact ⟨none, rfl⟩
  · exact ⟨x.prf.running, rfl⟩

theorem thalted_frame (x : CoreState) (t : Fin 4) :
    thalted x t = { x with th := (thalted x t).th, sxIssue := sat1 x.sxIssue, sxLast := BitVec.ofNat 2 t.val } := rfl

theorem State.sxIssueOp_thalt {s : State} {c : CoreId} {t : Fin 4} {i : Inst32} (h : SxAt s c t 0x3E i) :
    ∃ r, s.sxIssueOp c t 0x3E thaltBody = s.setCore c { s.core c with
      th := (thalted (s.core c) t).th
      sxIssue := sat1 (s.core c).sxIssue
      sxLast := BitVec.ofNat 2 t.val
      prf := { (s.core c).prf with running := r } } := by
  obtain ⟨r, hr⟩ := State.endRun_setCore s c (thalted (s.core c) t)
  rw [thalted_frame] at hr
  refine ⟨r, ?_⟩
  rw [State.sxIssueOp_at h, thaltBody, State.modCore_setCore, ← hr]
  rfl

/-- Settles O4: CSRR number by number, TSTART of another thread, and THALT. -/
theorem sxThreadResults : Obligations.SxThreadResults := by
  unfold Obligations.SxThreadResults
  intro s c t i hr
  have hcsr (h : SxAt s c t 0x38 i) : exec (.csrr c t) s = .next (csrrBody (s.setCore c (s.core c)) c t.val i) :=
    congrArg _ (State.sxIssueOp_at h csrrBody)
  have hput (h : SxAt s c t 0x38 i) (v : BitVec 32) := s.modCore_putGd c t i v (sxPc_aligned h) hr
  refine ⟨fun h hn => ?thread, fun h hn => ?pos, fun h hn => ?field, fun h hn => ?tickLo, fun h hn => ?tickHi, fun h hn => ?cycle,
    fun h hstop h4 hlt => ?tstart, fun h => ?thalt⟩
  case thread | field | tickHi =>
    rw [hcsr h]
    simp only [csrrBody, sfld, hn, hput h, State.core_setCore_same]
  case pos =>
    rw [hcsr h]
    simp only [csrrBody, sfld, hn, hput h]
    simp [packFields]
  case tickLo =>
    rw [hcsr h]
    simp only [csrrBody, sfld, hn, State.modCore_setCore]
    exact congrArg (fun y => Host.Outcome.next (s.setCore c y)) (CoreState.putGd_tick _ t i _ _ (sxPc_aligned h) hr)
  case cycle =>
    rw [hcsr h]
    simp only [csrrBody, sfld, hn]
    exact congrArg (fun u : State => Host.Outcome.next { u with freeCtr := s.freeCtr + 1 }) (hput h (Config.cycleCount s.freeCtr))
  case tstart =>
    have hne : Fin.ofNat 4 ((s.core c).gReg t.val (sGa i)).toNat ≠ t := by
      intro e
      rw [e, (sxAt_alive h).2] at hstop
      exact absurd hstop (by decide)
    refine ⟨_, congrArg _ (State.sxIssueOp_tstart h hr rfl hstop h4 hlt hne), ?_⟩
    rw [thread_sxDone, if_neg hne.symm, thread_tstarted, if_pos rfl]
    refine ⟨Thread.setG_run .., Thread.setG_pc .., by simp [Thread.gReg_setG], fun r h1 => ?_, ?_, fun u hn ht => ?_, rfl⟩
    · rw [Thread.gReg_setG, if_neg (by omega), startedThread_gReg]
    · rw [thread_sxDone, if_pos rfl]
    · rw [thread_sxDone, if_neg ht.symm, thread_tstarted, if_neg hn.symm]
  case thalt =>
    obtain ⟨r, hexec⟩ := State.sxIssueOp_thalt h
    exact ⟨_, congrArg _ hexec, thalted_run (s.core c) t, fun u hu => thread_thalted (s.core c) t u hu, rfl⟩

end Machine
end Sys2Proof

/-! SUPPORT. The words of a scratchpad after a beat of masked writes (spec/05 R133, R135, R136). -/

namespace Sys2Proof.Machine

open Sys2Proof.Claims

theorem byteOnes_getLsbD (k : Nat) : (0xFF#64).getLsbD k = decide (k < 8) := by
  rw [show (0xFF#64 : BitVec 64) = BitVec.ofNat 64 (2 ^ 8 - 1) from rfl, BitVec.getLsbD_ofNat, Nat.testBit_two_pow_sub_one]
  by_cases h : k < 8
  · simp [h, show k < 64 by omega]
  · simp [h]

theorem byteOnes_shift_getLsbD (n j : Nat) (hj : j < 64) : (0xFF#64 <<< (8 * n)).getLsbD j = decide (j / 8 = n) := by
  rw [BitVec.getLsbD_shiftLeft, byteOnes_getLsbD]
  by_cases h : j / 8 = n
  · simp [h, hj, show ¬ j < 8 * n by omega, show j - 8 * n < 8 by omega]
  · simp [h]
    omega

/-- The bits that the mask's bytes below `n` cover. -/
theorem maskFold_getLsbD (m : BitVec 8) (n j : Nat) (hj : j < 64) :
    ((List.range n).foldl (fun a i => if m.getLsbD i then a ||| (0xFF#64 <<< (8 * i)) else a) 0#64).getLsbD j =
      (decide (j / 8 < n) && m.getLsbD (j / 8)) := by
  induction n with
  | zero => rw [List.range_zero, List.foldl_nil, BitVec.getLsbD_zero]; simp
  | succ n ih =>
    rw [List.range_succ, List.foldl_append, List.foldl_cons, List.foldl_nil]
    by_cases hn : j / 8 = n
    · subst hn
      cases hm : m.getLsbD (j / 8)
      · rw [if_neg (by decide), ih, hm, Bool.and_false, Bool.and_false]
      · rw [if_pos rfl, BitVec.getLsbD_or, byteOnes_shift_getLsbD _ _ hj, ih]
        simp
    · have hsame : decide (j / 8 < n + 1) = decide (j / 8 < n) := by
        rw [decide_eq_decide]; omega
      rw [hsame, ← ih]
      split
      · rw [BitVec.getLsbD_or, byteOnes_shift_getLsbD _ _ hj, decide_eq_false hn, Bool.or_false]
      · rfl

/-- Bit `j` of a word is covered where the mask has the bit of its byte (spec/05 R135). -/
theorem maskBits_getLsbD (m : BitVec 8) (j : Nat) (hj : j < 64) : (maskBits m).getLsbD j = m.getLsbD (j / 8) := by
  have hlt : j / 8 < 8 := by omega
  have h := maskFold_getLsbD m 8 j hj
  rw [decide_eq_true hlt, Bool.true_and] at h
  exact h

/-- A word after a masked write of `r` (spec/05 R135). -/
def maskedWord (old : Word) (r : RowWord) : Word := (old &&& ~~~(maskBits r.mask)) ||| (r.data &&& maskBits r.mask)

theorem maskedWord_getLsbD (old : Word) (r : RowWord) (j : Nat) (hj : j < 64) :
    (maskedWord old r).getLsbD j = if r.mask.getLsbD (j / 8) then r.data.getLsbD j else old.getLsbD j := by
  simp only [maskedWord, BitVec.getLsbD_or, BitVec.getLsbD_and, BitVec.getLsbD_not, maskBits_getLsbD _ _ hj]
  cases r.mask.getLsbD (j / 8) <;> simp [hj]

/-- A full write leaves its data. -/
theorem maskedWord_full (old : Word) (r : RowWord) (h : r.mask = 0xFF) : maskedWord old r = r.data := by
  apply BitVec.eq_of_getLsbD_eq
  intro j hj
  have hbit : (0xFF : BitVec 8).getLsbD (j / 8) = true := by
    have : j / 8 < 8 := by omega
    interval_cases j / 8 <;> rfl
  rw [maskedWord_getLsbD _ _ _ hj, h, hbit, if_pos rfl]

theorem maskedWord_none (old : Word) (r : RowWord) (h : r.mask = 0) : maskedWord old r = old := by
  apply BitVec.eq_of_getLsbD_eq
  intro j hj
  simp [maskedWord_getLsbD _ _ _ hj, h]

/-- `y` is `x` but for the words of its scratchpad and what it keeps about them. -/
def SpadOnly (x y : CoreState) : Prop := y = { x with mem := y.mem, stale := y.stale, rewrites := y.rewrites }

theorem SpadOnly.trans {x y z : CoreState} (h : SpadOnly x y) (k : SpadOnly y z) : SpadOnly x z := by
  unfold SpadOnly at *
  rw [k, h]

theorem CoreState.get_store (k : Kind) (x : CoreState) (w a : Nat) (v : Code) (hwf : codeWf x.mem = true) :
    KMap.get 0 (CoreState.store k x w v).mem a = if a = w then v else KMap.get 0 x.mem a :=
  KMap.get_set 0 x.mem w a v (Bool.and_eq_true_iff.1 hwf).1

theorem CoreState.dec_store (k : Kind) (x : CoreState) (w a : Nat) (d : Word) (p : Bool) (hwf : codeWf x.mem = true) :
    (CoreState.store k x w (eccEncode d p)).dec a = if a = w then { outcome := .clean, data := d, poison := p } else x.dec a := by
  rw [CoreState.dec, CoreState.get_store _ _ _ _ _ hwf]
  by_cases h : a = w
  · rw [if_pos h, if_pos h, eccDecode_encode]
  · rw [if_neg h, if_neg h]
    rfl

theorem spadOnly_store (k : Kind) (x : CoreState) (w : Nat) (v : Code) : SpadOnly x (CoreState.store k x w v) := rfl

/-- Reading a clean word records nothing (spec/05 Table 5.7). -/
theorem SpRegs.note_clean (r : SpRegs) (x : CoreState) (w src : Nat) (h : x.clean w = true) : r.note (x.dec w) w src = r := by
  rw [CoreState.clean_iff] at h
  simp [SpRegs.note, SpRegs.notePoison, h.1, h.2]

/-- One write of a word that is full, or finds its word clean. -/
theorem CoreState.write_spec (k : Kind) (x : CoreState) (r : RowWord) (hwf : codeWf x.mem = true)
    (hc : r.mask = 0xFF ∨ x.clean r.w = true) :
    SpadOnly x (CoreState.write k x r.w r.mask r.data r.poison) ∧
      (CoreState.write k x r.w r.mask r.data r.poison).data r.w = maskedWord (x.data r.w) r ∧
      ∀ a, a ≠ r.w → (CoreState.write k x r.w r.mask r.data r.poison).dec a = x.dec a := by
  unfold CoreState.write
  by_cases h0 : r.mask = 0
  · rw [if_pos h0, maskedWord_none _ _ h0]
    exact ⟨rfl, rfl, fun _ _ => rfl⟩
  rw [if_neg h0]
  by_cases h1 : r.mask = 0xFF
  · rw [if_pos h1]
    refine ⟨spadOnly_store .., ?_, fun a ha => ?_⟩
    · rw [CoreState.data, CoreState.dec_store _ _ _ _ _ _ hwf, if_pos rfl, maskedWord_full _ _ h1]
    · rw [CoreState.dec_store _ _ _ _ _ _ hwf, if_neg ha]
  · have hclean := hc.resolve_left h1
    rw [if_neg h1]
    dsimp only
    rw [SpRegs.note_clean _ _ _ _ hclean]
    refine ⟨spadOnly_store .., ?_, fun a ha => ?_⟩
    · rw [CoreState.data, CoreState.dec_store _ _ _ _ _ _ hwf, if_pos rfl]
      rfl
    · rw [CoreState.dec_store _ _ _ _ _ _ hwf, if_neg ha]

/-- Writes of distinct words: each leaves its own word, and no other. -/
theorem CoreState.foldl_write_spec (k : Kind) (ws : List RowWord) (x : CoreState) (hwf : codeWf x.mem = true)
    (hnd : (ws.map (·.w)).Nodup) (hc : ∀ r ∈ ws, r.mask = 0xFF ∨ x.clean r.w = true) :
    SpadOnly x (ws.foldl (fun c r => CoreState.write k c r.w r.mask r.data r.poison) x) ∧
      (∀ r ∈ ws, (ws.foldl (fun c r => CoreState.write k c r.w r.mask r.data r.poison) x).data r.w = maskedWord (x.data r.w) r) ∧
      ∀ a, a ∉ ws.map (·.w) → (ws.foldl (fun c r => CoreState.write k c r.w r.mask r.data r.poison) x).data a = x.data a := by
  induction ws generalizing x with
  | nil => exact ⟨rfl, by simp, fun _ _ => rfl⟩
  | cons r t ih =>
    obtain ⟨hnot, hnd'⟩ := List.nodup_cons.1 hnd
    have hne : ∀ r' ∈ t, r'.w ≠ r.w := fun r' hr' e => hnot (List.mem_map.2 ⟨r', hr', e⟩)
    obtain ⟨hframe, hword, hother⟩ := CoreState.write_spec k x r hwf (hc r List.mem_cons_self)
    have hwf' := CoreState.write_mem k x r.w r.mask r.data r.poison hwf
    obtain ⟨hframe', hwords, hrest⟩ := ih (CoreState.write k x r.w r.mask r.data r.poison) hwf' hnd' (fun r' hr' => by
      rw [CoreState.clean, hother _ (hne r' hr')]
      exact hc r' (List.mem_cons_of_mem _ hr'))
    rw [List.foldl_cons]
    refine ⟨hframe.trans hframe', fun r' hr' => ?_, fun a ha => ?_⟩
    · rcases List.mem_cons.1 hr' with rfl | hr'
      · rw [hrest _ hnot, hword]
      · rw [hwords r' hr', CoreState.data, hother _ (hne r' hr')]
        rfl
    · rw [List.map_cons, List.mem_cons, not_or] at ha
      rw [hrest a ha.2, CoreState.data, hother a ha.1]
      rfl

theorem CoreState.writeBeat_spec (k : Kind) (ws : List RowWord) (x : CoreState) (hwf : codeWf x.mem = true)
    (hnd : (ws.map (·.w)).Nodup) (hc : ∀ r ∈ ws, r.mask = 0xFF ∨ x.clean r.w = true) :
    SpadOnly x (CoreState.writeBeat k x ws) ∧
      (∀ r ∈ ws, (CoreState.writeBeat k x ws).data r.w = maskedWord (x.data r.w) r) ∧
      ∀ a, a ∉ ws.map (·.w) → (CoreState.writeBeat k x ws).data a = x.data a := by
  have hkeep : SpadOnly x (x.keepOld k (ws.map (·.w))) := rfl
  obtain ⟨hframe, hwords, hrest⟩ := CoreState.foldl_write_spec k ws (x.keepOld k (ws.map (·.w))) hwf hnd hc
  exact ⟨hkeep.trans hframe, hwords, hrest⟩

end Sys2Proof.Machine

/-! SUPPORT. SX loads and stores: the bytes they read, write and leave, and the errors of their addresses (spec/04 R117, R123). -/

namespace Sys2Proof.Machine

open Sys2Proof.Claims

/-! ### Bytes (spec/04 R117) -/

theorem byteAt_getLsbD (x : CoreState) (a j : Nat) :
    (byteAt x a).getLsbD j = (decide (j < 8) && (x.data (a / 8)).getLsbD (8 * (a % 8) + j)) := by
  simp [byteAt]

/-- Two bytes of one word, which an even address names. -/
theorem halfAt_eq (x : CoreState) (a : Nat) (h : a % 2 = 0) : halfAt x a = (x.data (a / 8) >>> (8 * (a % 8))).setWidth 16 := by
  have hw : (a + 1) / 8 = a / 8 := by omega
  have hb : (a + 1) % 8 = a % 8 + 1 := by omega
  apply BitVec.eq_of_getLsbD_eq
  intro j hj
  rw [halfAt, BitVec.getLsbD_append, byteAt_getLsbD, byteAt_getLsbD, hw, hb]
  by_cases h8 : j < 8
  · simp [h8, hj]
  · simp [h8, hj, show j - 8 < 8 by omega, show 8 * (a % 8 + 1) + (j - 8) = 8 * (a % 8) + j by omega]

/-- Four bytes of one word, which an address that is a multiple of 4 names. -/
theorem wordAt_eq (x : CoreState) (a : Nat) (h : a % 4 = 0) : wordAt x a = (x.data (a / 8) >>> (8 * (a % 8))).setWidth 32 := by
  have hw : (a + 2) / 8 = a / 8 := by omega
  have hb : (a + 2) % 8 = a % 8 + 2 := by omega
  rw [wordAt, halfAt_eq _ _ (by omega), halfAt_eq _ _ (by omega), hw, hb]
  apply BitVec.eq_of_getLsbD_eq
  intro j hj
  rw [BitVec.getLsbD_append]
  by_cases h16 : j < 16
  · simp [h16, hj]
  · simp [h16, hj, show j - 16 < 16 by omega, show 8 * (a % 8 + 2) + (j - 16) = 8 * (a % 8) + j by omega]

/-- The bytes of an access, as a field of the word that holds them. -/
theorem CoreState.bytesOf_eq (x : CoreState) (a n : Nat) :
    x.bytesOf a n = ((x.data (a / 8) >>> (8 * (a % 8))).setWidth (8 * n)).setWidth 64 := by
  apply BitVec.eq_of_toNat_eq
  simp [CoreState.bytesOf, nfld, Nat.shiftRight_eq_div_pow]

/-- Zero extension of a loaded value. -/
theorem extend_unsigned (n w : Nat) (v : BitVec w) : extend n false (v.setWidth 64) = v.setWidth 32 := by
  apply BitVec.eq_of_getLsbD_eq
  intro j hj
  simp [extend, hj, show j < 64 by omega]

/-- Sign extension of a loaded value of `n` bytes. -/
theorem extend_signed (n : Nat) (hn : 1 ≤ n ∧ n ≤ 4) (v : BitVec (8 * n)) : extend n true (v.setWidth 64) = v.signExtend 32 := by
  apply BitVec.eq_of_getLsbD_eq
  intro j hj
  have hsum : 32 - 8 * n + (8 * n - 1) = 31 := by omega
  have hmsb : 31 - (32 - 8 * n) = 8 * n - 1 := by omega
  simp only [extend, if_true, BitVec.getLsbD_sshiftRight, BitVec.getLsbD_signExtend, BitVec.msb_eq_getLsbD_last]
  by_cases h : j < 8 * n
  · simp [h, hj, show 32 - 8 * n + j < 32 by omega, show j < 64 by omega]
  · simp [h, hj, show ¬ 32 - 8 * n + j < 32 by omega, hmsb, show ¬ 32 ≤ j by omega,
      show ¬ 31 < 32 - 8 * n by omega, show 8 * n - 1 < 64 by omega]

theorem loaded_byte (x : CoreState) (a : Nat) : extend 1 true (x.bytesOf a 1) = (byteAt x a).signExtend 32 ∧
    extend 1 false (x.bytesOf a 1) = (byteAt x a).setWidth 32 := by
  rw [CoreState.bytesOf_eq]
  exact ⟨extend_signed 1 (by decide) _, extend_unsigned 1 _ _⟩

theorem loaded_half (x : CoreState) (a : Nat) (h : a % 2 = 0) : extend 2 true (x.bytesOf a 2) = (halfAt x a).signExtend 32 ∧
    extend 2 false (x.bytesOf a 2) = (halfAt x a).setWidth 32 := by
  rw [CoreState.bytesOf_eq, halfAt_eq _ _ h]
  exact ⟨extend_signed 2 (by decide) _, extend_unsigned 2 _ _⟩

theorem loaded_word (x : CoreState) (a : Nat) (sx : Bool) (h : a % 4 = 0) : extend 4 sx (x.bytesOf a 4) = wordAt x a := by
  rw [CoreState.bytesOf_eq, wordAt_eq _ _ h]
  cases sx
  · exact (extend_unsigned 4 _ _).trans (BitVec.setWidth_eq _)
  · exact (extend_signed 4 (by decide) _).trans (BitVec.signExtend_eq _)

/-- The two words that LD loads, the lower-addressed one first. -/
theorem loaded_double (x : CoreState) (a : Nat) (h : a % 8 = 0) : (x.bytesOf a 8).extractLsb' 0 32 = wordAt x a ∧
    (x.bytesOf a 8).extractLsb' 32 32 = wordAt x (a + 4) := by
  have hw : (a + 4) / 8 = a / 8 := by omega
  have hb : (a + 4) % 8 = 4 := by omega
  rw [CoreState.bytesOf_eq, wordAt_eq _ _ (by omega), wordAt_eq _ _ (by omega), hw, hb, h]
  constructor <;> apply BitVec.eq_of_getLsbD_eq <;> intro j hj
  · simp [hj, show j < 64 by omega]
  · simp [hj, show 32 + j < 64 by omega]

/-! ### Address checks (spec/04 Table 4.14) -/

theorem memErr_none {x : CoreState} {a : BitVec 32} {n : Nat} (h : SxMem x a n) : memErr a n = none := by
  obtain ⟨h1, h2, -⟩ := h
  simp [memErr, h1, h2]

theorem memErr_bad {a : BitVec 32} {n : Nat} {code : BitVec 8} (h : SxBadAddr a n code) : memErr a n = some code.toNat := by
  rcases h with ⟨h1, -, rfl⟩ | ⟨h1, h2, rfl⟩
  · rw [memErr, if_pos h1]
    rfl
  · rw [memErr, if_neg (not_not.2 h1), if_pos h2]
    rfl

theorem CoreState.failSx_eq (x : CoreState) (t : Fin 4) (code : BitVec 8) (h : x.err = false) :
    x.failSx t.val code.toNat = sxStopped x t code := by
  simp [CoreState.failSx, CoreState.fail, sxStopped, h]

/-! ### Loads -/

theorem CoreState.sxLoad_ok {x : CoreState} {a : BitVec 32} {n : Nat} (h : SxMem x a n) (t : Nat) (put : BitVec 64 → Thread → Thread) :
    x.sxLoad t a n put = x.sxNext t (put (x.bytesOf a.toNat n)) := by
  have hclean := h.2.2
  simp only [CoreState.sxLoad, memErr_none h]
  rw [CoreState.noteReads_clean _ _ _ _ (by simpa using hclean), CoreState.poisoned_clean _ _ hclean, if_neg (by decide)]

theorem CoreState.sxLoad_bad {x : CoreState} {a : BitVec 32} {n : Nat} {code : BitVec 8} (h : SxBadAddr a n code) (he : x.err = false)
    (t : Fin 4) (put : BitVec 64 → Thread → Thread) : x.sxLoad t.val a n put = sxStopped x t code := by
  simp only [CoreState.sxLoad, memErr_bad h]
  exact x.failSx_eq t code he

/-! ### Stores -/

theorem storeMask_getLsbD (n k j : Nat) (hj : j < 8) :
    (BitVec.ofNat 8 ((2 ^ n - 1) * 2 ^ k)).getLsbD j = decide (k ≤ j ∧ j < k + n) := by
  rw [BitVec.getLsbD_ofNat, Nat.testBit_mul_two_pow, Nat.testBit_two_pow_sub_one]
  by_cases hk : k ≤ j <;> simp [hj, hk]
  omega

/-- One byte of a word after a store of `n` bytes at byte `k`. -/
theorem storedByte_eq (old : Word) (v : BitVec 64) (w n k j : Nat) (hj : j < 8) :
    ((maskedWord old { w := w, mask := BitVec.ofNat 8 ((2 ^ n - 1) * 2 ^ k), data := v <<< (8 * k), poison := false }) >>> (8 * j)).setWidth 8 =
      if k ≤ j ∧ j < k + n then (v >>> (8 * (j - k))).setWidth 8 else (old >>> (8 * j)).setWidth 8 := by
  apply BitVec.eq_of_getLsbD_eq
  intro b hb
  have hdiv : (8 * j + b) / 8 = j := by omega
  simp only [BitVec.getLsbD_setWidth, hb, decide_true, Bool.true_and, BitVec.getLsbD_ushiftRight, maskedWord_getLsbD _ _ (8 * j + b) (by omega),
    hdiv, storeMask_getLsbD _ _ _ hj, decide_eq_true_eq]
  by_cases h : k ≤ j ∧ j < k + n
  · rw [if_pos h, if_pos h]
    simp [show 8 * j + b < 64 by omega, hb, show ¬ 8 * j + b < 8 * k by omega, show 8 * j + b - 8 * k = 8 * (j - k) + b by omega]
    exact (BitVec.getLsbD_eq_getElem _).symm
  · rw [if_neg h, if_neg h]
    simp [hb]

/-- A store of `n` bytes that do not leave their word. -/
theorem CoreState.sxStore_ok {x : CoreState} {t : Fin 4} {a : BitVec 32} {n : Nat} (h : SxMem x a n) (v : BitVec 64)
    (hwf : codeWf x.mem = true) (hn : a.toNat % 8 + n ≤ 8) (h4 : (x.thread t.val).pc.toNat % 4 = 0)
    (hr : (x.thread t.val).pc.toNat + 4 < 0x8000) :
    ∃ y, x.sxStore t.val a n v = sxDone y t ((x.thread t.val).pc + 4) id ∧ SxStored x y a.toNat n v := by
  obtain ⟨hframe, hword, hrest⟩ := CoreState.writeBeat_spec .sx
    [{ w := a.toNat / 8, mask := BitVec.ofNat 8 ((2 ^ n - 1) * 2 ^ (a.toNat % 8)), data := v <<< (8 * (a.toNat % 8)), poison := false }]
    (sxDone x t ((x.thread t.val).pc + 4) id) hwf (by simp) (by simpa using .inr h.2.2)
  have hdone : ∀ z, SpadOnly (sxDone x t ((x.thread t.val).pc + 4) id) z →
      z = sxDone { x with mem := z.mem, stale := z.stale, rewrites := z.rewrites } t ((x.thread t.val).pc + 4) id := fun _ h => h
  simp only [CoreState.sxStore, memErr_none h]
  rw [CoreState.sxNext_eq _ _ _ h4 hr]
  generalize CoreState.writeBeat .sx _ _ = z at hframe hword hrest ⊢
  refine ⟨_, hdone z hframe, rfl, fun b hb => ?_⟩
  have hdata : ∀ b', byteAt { x with mem := z.mem, stale := z.stale, rewrites := z.rewrites } b' =
      (z.data (b' / 8) >>> (8 * (b' % 8))).setWidth 8 := fun _ => rfl
  rw [hdata]
  by_cases hw : b / 8 = a.toNat / 8
  · have hz := hword _ List.mem_cons_self
    have hin : a.toNat ≤ b ∧ b < a.toNat + n ↔ a.toNat % 8 ≤ b % 8 ∧ b % 8 < a.toNat % 8 + n := by omega
    rw [hw, hz, storedByte_eq _ _ _ _ _ _ (Nat.mod_lt _ (by decide)), byteAt, hw]
    simp only [hin]
    split
    · rw [show b % 8 - a.toNat % 8 = b - a.toNat by omega]
    · rfl
  · rw [hrest _ (by simpa using hw), if_neg (by omega)]
    rfl

theorem CoreState.sxStore_bad {x : CoreState} {a : BitVec 32} {n : Nat} {code : BitVec 8} (h : SxBadAddr a n code) (he : x.err = false)
    (t : Fin 4) (v : BitVec 64) : x.sxStore t.val a n v = sxStopped x t code := by
  simp only [CoreState.sxStore, memErr_bad h]
  exact x.failSx_eq t code he

/-! ### The instructions -/

section

variable {s : State} {c : CoreId} {t : Fin 4} {op : Nat} {i : Inst32}

theorem State.sxIssueOp_load (h : SxAt s c t op i) (hr : SxRoom s c t) {n : Nat} (sx : Bool) (hm : SxMem (s.core c) (sxEa s c t i) n) :
    s.sxIssueOp c t op (loadBody n sx) = sxPut s c t (sGd i) (extend n sx ((s.core c).bytesOf (sxEa s c t i).toNat n)) := by
  rw [loadBody, State.sxIssueOp_core h]
  exact congrArg _ ((CoreState.sxLoad_ok hm _ _).trans (CoreState.sxNext_eq _ _ _ (sxPc_aligned h) hr))

theorem State.sxIssueOp_store (h : SxAt s c t op i) (hr : SxRoom s c t) (hwf : s.memWf = true) {n : Nat}
    (hm : SxMem (s.core c) (sxEa s c t i) n) (hn : (sxEa s c t i).toNat % 8 + n ≤ 8) (val : CoreState → Nat → Inst32 → BitVec 64) :
    ∃ y, Host.Outcome.next (φ := Fault) (ρ := Refusal)
          (s.sxIssueOp c t op (sxCore (fun x u j => x.sxStore u (sxAddr x u j) n (val x u j)))) =
        .next (s.setCore c (sxDone y t (sxPc s c t + 4) id)) ∧
      SxStored (s.core c) y (sxEa s c t i).toNat n (val (s.core c) t.val i) := by
  obtain ⟨y, hy, hst⟩ := CoreState.sxStore_ok hm (val (s.core c) t.val i) (s.memWf_core c hwf) hn (sxPc_aligned h) hr
  exact ⟨y, congrArg _ ((State.sxIssueOp_core h _).trans (congrArg _ hy)), hst⟩

/-- A load at a bad address only stops its core. -/
theorem State.sxIssueOp_load_bad (h : SxAt s c t op i) (addr : CoreState → Nat → Inst32 → BitVec 32) (size : Inst32 → Nat)
    (put : Inst32 → BitVec 64 → Thread → Thread) {code : BitVec 8} (he : (s.core c).err = false)
    (hb : SxBadAddr (addr (s.core c) t.val i) (size i) code) :
    s.sxIssueOp c t op (sxCore (fun x u j => x.sxLoad u (addr x u j) (size j) (put j))) = s.setCore c (sxStopped (s.core c) t code) :=
  (State.sxIssueOp_core h _).trans (congrArg _ (CoreState.sxLoad_bad hb he t _))

theorem State.sxIssueOp_store_bad (h : SxAt s c t op i) (n : Nat) (val : CoreState → Nat → Inst32 → BitVec 64) {code : BitVec 8}
    (he : (s.core c).err = false) (hb : SxBadAddr (sxEa s c t i) n code) :
    s.sxIssueOp c t op (sxCore (fun x u j => x.sxStore u (sxAddr x u j) n (val x u j))) = s.setCore c (sxStopped (s.core c) t code) :=
  (State.sxIssueOp_core h _).trans (congrArg _ (CoreState.sxStore_bad hb he t _))

/-- LX of one, two or four bytes (spec/04 R121). -/
theorem State.sxIssueOp_lx (h : SxAt s c t 0x16 i) (hr : SxRoom s c t)
    (hm : SxMem (s.core c) (sxA s c t i + (sxB s c t i <<< sfld i 18 2)) (2 ^ sfld i 20 2)) :
    s.sxIssueOp c t 0x16 lxBody = sxPut s c t (sGd i) (extend (2 ^ sfld i 20 2) (!i.getLsbD 22)
      ((s.core c).bytesOf (sxA s c t i + (sxB s c t i <<< sfld i 18 2)).toNat (2 ^ sfld i 20 2))) := by
  rw [lxBody, State.sxIssueOp_core h]
  exact congrArg _ ((CoreState.sxLoad_ok hm _ _).trans (CoreState.sxNext_eq _ _ _ (sxPc_aligned h) hr))

theorem lx_size (h : SxAt s c t 0x16 i) : sfld i 20 2 ≤ 2 := by
  obtain ⟨-, -, -, -, -, -, hop, hl⟩ := h
  simp only [sxLegal, hop, Bool.and_eq_true, decide_eq_true_eq] at hl
  exact hl.2

theorem State.sxIssueOp_ld (h : SxAt s c t 0x15 i) (hr : SxRoom s c t) (hm : SxMem (s.core c) (sxEa s c t i) 8) :
    s.sxIssueOp c t 0x15 ldBody = s.setCore c (sxDone (s.core c) t (sxPc s c t + 4)
      (fun y => (y.setG (sGd i) (wordAt (s.core c) (sxEa s c t i).toNat)).setG (sGd i + 1)
        (wordAt (s.core c) ((sxEa s c t i).toNat + 4)))) := by
  obtain ⟨hlow, hhigh⟩ := loaded_double (s.core c) (sxEa s c t i).toNat hm.1
  rw [ldBody, State.sxIssueOp_core h, ← hlow, ← hhigh]
  exact congrArg _ ((CoreState.sxLoad_ok hm _ _).trans (CoreState.sxNext_eq _ _ _ (sxPc_aligned h) hr))

/-- A jump to a misaligned address only stops its core (spec/04 Table 4.14). -/
theorem State.sxIssueOp_jalr_bad (h : SxAt s c t 0x27 i) (h4 : (sxEa s c t i).toNat % 4 ≠ 0) :
    s.sxIssueOp c t 0x27 jalrBody = s.setCore c (sxStopped (s.core c) t 0x08) := by
  have hj : (s.core c).jump t.val (sxEa s c t i) = sxStopped (s.core c) t 0x08 := by
    rw [CoreState.jump, if_pos h4]
    exact (s.core c).failSx_eq t 0x08 (sxAt_alive h).1
  rw [jalrBody, State.sxIssueOp_core h]
  dsimp only
  rw [show sxAddr (s.core c) t.val i = sxEa s c t i from rfl, hj]
  exact congrArg _ (if_pos rfl)

end

/-- Settles O1: loads by their size and extension, stores by the bytes of their one masked write, and errors by the address check. -/
theorem sxMemoryResults : Obligations.SxMemoryResults := by
  unfold Obligations.SxMemoryResults
  refine ⟨fun s c t i hr => ?loads, fun s c t i hr hwf => ?stores, fun s c t i code herr => ?errors⟩
  case loads =>
    refine ⟨fun h hm => ?lb, fun h hm => ?lbu, fun h hm => ?lh, fun h hm => ?lhu, fun h hm => ?lw,
      fun h hm => congrArg _ (State.sxIssueOp_ld h hr hm), fun h hm => ?lx⟩
    case lb =>
      rw [← (loaded_byte _ _).1]
      exact congrArg _ (State.sxIssueOp_load h hr true hm)
    case lbu =>
      rw [← (loaded_byte _ _).2]
      exact congrArg _ (State.sxIssueOp_load h hr false hm)
    case lh =>
      rw [← (loaded_half _ _ hm.1).1]
      exact congrArg _ (State.sxIssueOp_load h hr true hm)
    case lhu =>
      rw [← (loaded_half _ _ hm.1).2]
      exact congrArg _ (State.sxIssueOp_load h hr false hm)
    case lw =>
      rw [← loaded_word _ _ false hm.1]
      exact congrArg _ (State.sxIssueOp_load h hr false hm)
    case lx =>
      refine congrArg _ ((State.sxIssueOp_lx h hr hm).trans (congrArg (sxPut s c t (sGd i)) ?_))
      have hsize := lx_size h
      have halign := hm.1
      generalize sfld i 20 2 = z at hsize halign ⊢
      obtain rfl | rfl | rfl : z = 0 ∨ z = 1 ∨ z = 2 := by omega
      · cases i.getLsbD 22
        · exact (loaded_byte _ _).1
        · exact (loaded_byte _ _).2
      · cases i.getLsbD 22
        · exact (loaded_half _ _ halign).1
        · exact (loaded_half _ _ halign).2
      · exact loaded_word _ _ _ halign
  case stores =>
    refine ⟨fun h hm => ?byte, fun h hm => ?half, fun h hm => ?word, fun h hm => ?double⟩
    case byte | half | word | double =>
      have halign := hm.1
      exact State.sxIssueOp_store h hr hwf hm (by omega) _
  case errors =>
    refine ⟨?memory, fun h hb => congrArg _ (State.sxIssueOp_load_bad h _ _ _ herr hb), fun h h4 _ hcode => ?jump⟩
    case memory =>
      simp only [List.forall_mem_cons]
      refine ⟨?b, ?bu, ?h, ?hu, ?w, ?d, ?storeB, ?storeH, ?storeW, ?storeD, fun e he => absurd he List.not_mem_nil⟩
      case b | bu | h | hu | w | d =>
        exact fun h hb => congrArg _ (State.sxIssueOp_load_bad h sxAddr (fun _ => _) _ herr hb)
      case storeB | storeH | storeW | storeD => exact fun h hb => congrArg _ (State.sxIssueOp_store_bad h _ _ herr hb)
    case jump =>
      rw [hcode]
      exact congrArg _ (State.sxIssueOp_jalr_bad h h4)

end Sys2Proof.Machine

/-! SUPPORT. An engine instruction of a VX core whose command starts at once: from the issue to the engine's effect, the semaphore
of its header taken and its command in progress (spec/04 R99, R100, spec/06 R148-R156). -/

namespace Sys2Proof.Machine

open Sys2Proof.Claims

/-! ### One engine of a core -/

@[simp] theorem CoreState.engine_setEngine (x : CoreState) (e : Nat) (g : Engine) : (x.setEngine e g).engine e = g := by
  rcases e with _ | _ | _ | e <;> rfl

@[simp] theorem CoreState.setEngine_setEngine (x : CoreState) (e : Nat) (g g' : Engine) :
    (x.setEngine e g).setEngine e g' = x.setEngine e g' := by
  rcases e with _ | _ | _ | e <;> rfl

@[simp] theorem CoreState.setEngine_engine (x : CoreState) (e : Nat) : x.setEngine e (x.engine e) = x := by
  rcases e with _ | _ | _ | e <;> rfl

theorem CoreState.setEngine_part (x y : CoreState) (e : Nat) (g : Engine) :
    seqPart (x.setEngine e g) y = (seqPart x y).setEngine e g := by
  rcases e with _ | _ | _ | e <;> rfl

/-- The sequencer's next instruction does not depend on the engines. -/
theorem CoreState.next_setEngine (x : CoreState) (e : Nat) (g : Engine) : (x.setEngine e g).next = x.next.setEngine e g := by
  have hstr : (x.setEngine e g).str = x.str := by rcases e with _ | _ | _ | e <;> rfl
  have hself : x.setEngine e g = seqPart (x.setEngine e g) x := by rcases e with _ | _ | _ | e <;> rfl
  rw [CoreState.next_of _ x hstr hself, CoreState.setEngine_part, ← CoreState.next_frame]

theorem CoreState.take_setEngine (x : CoreState) (e n : Nat) (g : Engine) : (x.setEngine e g).take n = (x.take n).setEngine e g := by
  have hcount : (x.setEngine e g).semCount n = x.semCount n := by rcases e with _ | _ | _ | e <;> rfl
  unfold CoreState.take
  rw [hcount]
  split
  · rfl
  · rcases e with _ | _ | _ | e <;> rfl

@[simp] theorem CoreState.engine_take (x : CoreState) (e n : Nat) : (x.take n).engine e = x.engine e := by
  unfold CoreState.take
  split
  · rfl
  · rcases e with _ | _ | _ | e <;> rfl

theorem CoreState.svCopy_nil (x : CoreState) (h : x.e3.queue = []) : x.svCopy = x := by
  have he3 : { x.e3 with queue := ([] : List Cmd) } = x.e3 := by rw [← h]
  unfold CoreState.svCopy
  rw [h, List.map_nil, he3]

/-- The core after the issue of `i`, which has still to take its semaphore. -/
theorem issued_eq (x : CoreState) (i : Inst128) (h : SemFree x i) :
    issued x i = if iWen i then x.next.take (iWsem i) else x.next := by
  have hsem : x.next.sem = x.sem := by rw [CoreState.next_frame]; rfl
  unfold issued semTaken
  cases hw : iWen i with
  | false => rw [if_neg (by decide), if_neg (by decide), ← hsem]
  | true =>
    have hpos := h hw
    have hcount : x.next.semCount (iWsem i) = x.semCount (iWsem i) := by rw [CoreState.semCount, hsem]; rfl
    rw [if_pos rfl, if_pos rfl, CoreState.take, hcount, if_neg (by omega), ← hsem]
    rfl

/-! ### Issue, start -/

theorem State.issue_at {s : State} {c : CoreId} {k : Kind} {op : Nat} {i : Inst128} (h : SeqAt s c k op i) (body : Body)
    (hs : engineOf k op = some 0 → iWen i = false) : s.issue c k op body = body (s.setCore c (s.core c)) c i := by
  obtain ⟨⟨hk, hr, hp, hw, hn, h0, h1, hi, ho⟩, hl⟩ := h
  exact s.issue_ready c k op body i hk hr hp hw hn h0 h1 hi ho hl hs

/-- A sequencer that stands ready belongs to a core that has not failed, is not stopped and is not held. -/
theorem seqAt_alive {s : State} {c : CoreId} {k : Kind} {op : Nat} {i : Inst128} (h : SeqAt s c k op i) :
    (s.core c).err = false ∧ (s.core c).stopped = false ∧ (s.core c).hold = .none := by
  obtain ⟨⟨-, hr, -⟩, -⟩ := h
  simp only [State.seqReady, Bool.and_eq_true] at hr
  obtain ⟨⟨⟨hruns, -⟩, -⟩, hhold⟩ := hr
  refine ⟨State.err_of_coreRuns hruns, ?_, beq_iff_eq.1 hhold⟩
  unfold State.coreRuns at hruns
  split at hruns
  · simp only [Bool.and_eq_true, Bool.not_eq_true'] at hruns
    exact hruns.2
  · exact absurd hruns (by decide)

theorem engineAt_opc {s : State} {c : CoreId} {k : Kind} {e op : Nat} {i : Inst128} (h : EngineAt s c k e op i) : iOpc i = op := by
  obtain ⟨⟨⟨-, -, -, -, -, -, -, -, hop⟩, -⟩, -⟩ := h
  exact hop

/-- A command that starts has passed the decode check (spec/04 R109). -/
theorem engineAt_legal {s : State} {c : CoreId} {e op : Nat} {i : Inst128} (h : EngineAt s c .vx e op i) : vxLegal i = true := by
  obtain ⟨⟨-, hlegal⟩, -⟩ := h
  simp only [CoreState.decodes, Bool.and_eq_true] at hlegal
  exact hlegal.1

theorem State.tryStart_nil (s : State) (c : CoreId) (e : Nat) (h : ((s.core c).engine e).queue = []) : s.tryStart c e = none := by
  simp [State.tryStart, h]

/-- The vector unit and the sieve of a VX core. -/
def vxRun (e : Nat) : CoreState → Cmd → CoreState × Bool := if e = 1 then vxVectorRun else vxSieveRun

/-- No engine with a smaller number waits on a semaphore when the sequencer is not held and those engines have empty queues. -/
theorem CoreState.semGrant_first (x : CoreState) (e n : Nat) (hhold : x.hold = .none) (h1 : 1 < e → x.e1.queue = [])
    (h2 : 2 < e → x.e2.queue = []) (he : e ≤ 3) (hn : 0 < x.semCount n) : x.semGrant .vx e n = true := by
  have hwait : ∀ j < e, x.semWait .vx j = none := by
    intro j hj
    obtain rfl | rfl | rfl : j = 0 ∨ j = 1 ∨ j = 2 := by omega
    · simp [CoreState.semWait, hhold]
    · simp [CoreState.semWait, CoreState.headWait, h1 hj]
    · simp [CoreState.semWait, CoreState.headWait, h2 hj]
  have hnil : x.semAhead .vx e n = 0 := by
    rw [CoreState.semAhead, List.length_eq_zero_iff, List.filter_eq_nil_iff]
    intro j _ hj
    simp only [reduceCtorEq, if_false, Bool.and_eq_true, decide_eq_true_eq] at hj
    rw [hwait j hj.2.1] at hj
    exact Option.some_ne_none _ (beq_iff_eq.1 hj.1).symm
  simp [CoreState.semGrant, hnil, hn]

/-- The head of the vector unit or the sieve starts: its semaphore is free and nothing stands before it. -/
theorem State.tryStart_head (s : State) (c : CoreId) (e : Nat) (cmd : Cmd) (hk : coreKind c = .vx) (he : e = 1 ∨ e = 3)
    (hq : (s.core c).engine e = { queue := [cmd] }) (h1 : 1 < e → (s.core c).e1.queue = []) (h2 : 2 < e → (s.core c).e2.queue = [])
    (herr : (s.core c).err = false) (hhold : (s.core c).hold = .none) (hb : cmd.behind = 0) (hsem : SemFree (s.core c) cmd.inst) :
    s.tryStart c e = some (s.startHead c e cmd []) := by
  have hready : CoreState.headReady .vx (s.core c) e cmd = true := by
    rcases he with rfl | rfl
    · rfl
    · have hprog : (s.core c).e3.prog = [] := congrArg Engine.prog hq
      simp [CoreState.headReady, hprog, hb]
  have hgrant (hw : iWen cmd.inst = true) : (s.core c).semGrant .vx e (iWsem cmd.inst) = true :=
    (s.core c).semGrant_first e _ hhold h1 h2 (by omega) (hsem hw)
  have hcount (hw : iWen cmd.inst = true) : ((s.core c).semCount (iWsem cmd.inst) == 0) = false := by
    have := hsem hw
    simp
    omega
  simp only [State.tryStart, hq, hk, herr, hready]
  cases hw : iWen cmd.inst with
  | false => simp
  | true => simp [hcount hw, hgrant hw]

/-- What the start of a command leaves: the engine's effect, and the command in progress. -/
theorem State.startHead_eq (s : State) (c : CoreId) (e : Nat) (cmd : Cmd) (r : CoreState) (hk : coreKind c = .vx) (he : e = 1 ∨ e = 3)
    (hq : (s.core c).engine e = { queue := [cmd] })
    (hrun : vxRun e (if iWen cmd.inst then ((s.core c).setEngine e {}).take (iWsem cmd.inst) else (s.core c).setEngine e {}) cmd =
      (r, true)) (hr : r.engine e = {}) (h3 : r.e3.queue = []) :
    s.startHead c e cmd [] = s.setCore c (r.setEngine e { prog := [cmd] }) := by
  have hstart : (if coreKind c != .sx && iWen cmd.inst then (s.core c).take (iWsem cmd.inst) else s.core c).setEngine e {} =
      if iWen cmd.inst then ((s.core c).setEngine e {}).take (iWsem cmd.inst) else (s.core c).setEngine e {} := by
    rw [hk]
    cases iWen cmd.inst
    · rfl
    · exact (CoreState.take_setEngine _ _ _ _).symm
  have heng : (if coreKind c != .sx && iWen cmd.inst then (s.core c).take (iWsem cmd.inst) else s.core c).engine e =
      { queue := [cmd] } := by
    split
    · rw [CoreState.engine_take, hq]
    · exact hq
  have hcmd (u : State) (hu : u.core c = if iWen cmd.inst then ((s.core c).setEngine e {}).take (iWsem cmd.inst)
      else (s.core c).setEngine e {}) : u.runCmd c e cmd = (u.setCore c r, true) := by
    rw [← hu] at hrun
    rcases he with rfl | rfl
    · simp only [State.runCmd, hk]
      rw [show vxVectorRun (u.core c) cmd = (r, true) from hrun]
    · simp only [State.runCmd, hk]
      rw [show vxSieveRun (u.core c) cmd = (r, true) from hrun]
  have hcopy : (if (coreKind c == .vx && e == 1) = true then (r.setEngine e { prog := [cmd] }).svCopy
      else r.setEngine e { prog := [cmd] }) = r.setEngine e { prog := [cmd] } := by
    split
    · refine CoreState.svCopy_nil _ ?_
      rcases he with rfl | rfl
      · exact h3
      · rfl
    · rfl
  simp only [State.startHead, heng, hstart]
  rw [hcmd _ (State.core_setCore_same ..)]
  simp only [State.setCore_setCore, State.modCore_setCore, hr, List.nil_append, hcopy]
  rfl

/-! ### From issue to the command in progress -/

theorem mkCmd_inst (x : CoreState) (i : Inst128) : (mkCmd .vx x i).inst = i := by
  unfold mkCmd
  dsimp only
  split <;> rfl

theorem mkCmd_behind (x : CoreState) (i : Inst128) : (mkCmd .vx x i).behind = 0 := by
  unfold mkCmd
  dsimp only
  split <;> rfl

/-- With no vector command queued, an SVINS waits for none (spec/04 R100). -/
theorem svBehind_nil (x : CoreState) (i : Inst128) (h : x.e1.queue = []) : svBehind x i = 0 := by
  simp [svBehind, h]

/-- The core with the command of `i` in the queue of engine `e`, past the instruction. -/
def dispatched (x : CoreState) (e : Nat) (i : Inst128) : CoreState := x.next.setEngine e { queue := [mkCmd .vx x i] }

/-- A dispatched instruction has changed the queue of its engine, the program counter, the address registers and the loops. -/
theorem dispatched_keeps (x : CoreState) (e : Nat) (i : Inst128) : (dispatched x e i).err = x.err ∧
    (dispatched x e i).stopped = x.stopped ∧ (dispatched x e i).hold = x.hold ∧ (dispatched x e i).sem = x.sem ∧
    (e ≠ 1 → (dispatched x e i).e1 = x.e1) ∧ (e ≠ 2 → (dispatched x e i).e2 = x.e2) := by
  unfold dispatched
  rw [CoreState.next_frame]
  rcases e with _ | _ | _ | e <;> simp [CoreState.setEngine, seqPart]

theorem State.enqueue_vx {s : State} {c : CoreId} {e op : Nat} {i : Inst128} (h : EngineAt s c .vx e op i)
    (heng : engineOf .vx op = some e) :
    (s.setCore c (s.core c)).enqueue c i = State.kick kickFuel (s.setCore c (dispatched (s.core c) e i)) c := by
  obtain ⟨hat, h1, -, -, he, -⟩ := h
  obtain ⟨-, -, hhold⟩ := seqAt_alive hat
  obtain ⟨⟨hk, -, -, -, -, -, -, -, hop⟩, -⟩ := hat
  have hsize : ¬ queueSize .vx e ≤ ({} : Engine).queue.length := by
    unfold queueSize
    split <;> simp_all
  have hcmd : (if Kind.vx == .vx && op == 0x52 then { mkCmd .vx (s.core c) i with behind := svBehind (s.core c) i }
      else mkCmd .vx (s.core c) i) = mkCmd .vx (s.core c) i := by
    rw [svBehind_nil _ _ h1, ← mkCmd_behind (s.core c) i]
    split <;> rfl
  have hdisp : ∀ cmd, cmd = mkCmd .vx (s.core c) i →
      { ((s.core c).setEngine e { queue := [cmd] }).next with hold := .none } = dispatched (s.core c) e i := by
    rintro _ rfl
    rw [CoreState.next_setEngine, ← hhold, ← (dispatched_keeps (s.core c) e i).2.2.1]
    rfl
  unfold State.enqueue
  dsimp only
  rw [State.core_setCore_same, hk, hop, heng]
  dsimp only
  rw [he, if_neg hsize]
  refine (if_neg (by simp)).trans ?_
  rw [State.setCore_setCore]
  exact congrArg (fun y => State.kick kickFuel (s.setCore c y) c) (hdisp _ hcmd)

/-- The one queued command of a VX core starts, and then nothing more. -/
theorem State.kick_starts (s : State) (c : CoreId) (n e : Nat) (t : State) (he : e = 1 ∨ e = 3) (hstop : (s.core c).stopped = false)
    (h1 : e ≠ 1 → (s.core c).e1.queue = []) (h2 : (s.core c).e2.queue = []) (hstart : s.tryStart c e = some t)
    (hq1 : (t.core c).e1.queue = []) (hq2 : (t.core c).e2.queue = []) (hq3 : (t.core c).e3.queue = []) :
    State.kick (n + 1) s c = t := by
  have hfirst : (s.tryStart c 1).orElse (fun _ => (s.tryStart c 2).orElse (fun _ => s.tryStart c 3)) = some t := by
    rcases he with rfl | rfl
    · rw [hstart]; rfl
    · rw [s.tryStart_nil c 1 (h1 (by decide)), s.tryStart_nil c 2 h2, hstart]; rfl
  rw [State.kick, hstop, if_neg (by decide), hfirst]
  exact t.kick_idle c n hq1 hq2 hq3

/-- An engine instruction whose command starts at once: its engine's effect on the core past the instruction. -/
theorem State.issue_engine {s : State} {c : CoreId} {e op : Nat} {i : Inst128} (h : EngineAt s c .vx e op i)
    (heng : engineOf .vx op = some e) (he : e = 1 ∨ e = 3) {r : CoreState}
    (hrun : vxRun e (issued (s.core c) i) (mkCmd .vx (s.core c) i) = (r, true))
    (hr1 : r.e1 = (s.core c).e1) (hr2 : r.e2 = (s.core c).e2) (hr3 : r.e3 = (s.core c).e3) :
    s.issue c .vx op engineBody = s.setCore c (r.setEngine e { prog := [mkCmd .vx (s.core c) i] }) := by
  have hat := h.1
  obtain ⟨herr, hstop, hhold⟩ := seqAt_alive hat
  have hq := State.enqueue_vx h heng
  obtain ⟨-, h1, h2, h3, hidle, hfree⟩ := h
  obtain ⟨kerr, kstop, khold, ksem, k1, k2⟩ := dispatched_keeps (s.core c) e i
  have hinst := mkCmd_inst (s.core c) i
  have hcore := s.core_setCore_same c (dispatched (s.core c) e i)
  have hissued : (if iWen i then ((dispatched (s.core c) e i).setEngine e {}).take (iWsem i) else (dispatched (s.core c) e i).setEngine e {}) =
      issued (s.core c) i := by
    have hnext : (s.core c).next.engine e = {} := by
      rw [← hidle, CoreState.next_frame]
      rcases e with _ | _ | _ | e <;> rfl
    rw [issued_eq _ _ hfree, dispatched, CoreState.setEngine_setEngine, ← hnext, CoreState.setEngine_engine]
  have hre : r.engine e = {} := by
    rw [← hidle]
    rcases he with rfl | rfl
    · exact hr1
    · exact hr3
  rw [State.issue_at hat _ (by rw [heng]; intro h0; injection h0; omega)]
  refine hq.trans ?_
  have hstart := State.tryStart_head (s.setCore c (dispatched (s.core c) e i)) c e (mkCmd .vx (s.core c) i) hat.1.1 he
    (by rw [hcore]; exact CoreState.engine_setEngine ..) (fun hlt => by rw [hcore, k1 (by omega)]; exact h1)
    (fun hlt => by rw [hcore, k2 (by omega)]; exact h2) (by rw [hcore, kerr]; exact herr) (by rw [hcore, khold]; exact hhold)
    (mkCmd_behind _ i) (fun hw => by
      rw [hcore, CoreState.semCount, ksem, hinst]
      exact hfree (hinst ▸ hw))
  rw [State.startHead_eq _ c e _ r hat.1.1 he (by rw [hcore]; exact CoreState.engine_setEngine ..)
    (by rw [hcore, hinst, hissued]; exact hrun) hre (by rw [hr3]; exact h3), State.setCore_setCore] at hstart
  refine State.kick_starts _ c 47 e _ he (by rw [hcore, kstop]; exact hstop) (fun hne => by rw [hcore, k1 hne]; exact h1)
    (by rw [hcore, k2 (by omega)]; exact h2) hstart ?_ ?_ ?_
  all_goals
    rw [State.core_setCore_same]
    rcases he with rfl | rfl <;> simp [CoreState.setEngine, hr1, hr2, hr3, h1, h2, h3]

end Sys2Proof.Machine

/-! SUPPORT. Vector and mask registers by element, and what a command of the vector unit leaves (spec/04 R92-R95). -/

namespace Sys2Proof.Machine

open Sys2Proof.Claims

/-! ### Numbers as elements (spec/04 R92) -/

/-- The number whose digits of `w` bits are the list, the first the least significant. -/
def digits (w : Nat) : List Nat → Nat
  | [] => 0
  | a :: l => a % 2 ^ w + 2 ^ w * digits w l

theorem foldl_zipIdx_digits (w : Nat) (l : List Nat) (k acc : Nat) :
    (((l.zipIdx k).map (fun e => (e.1 % 2 ^ w) * 2 ^ (w * e.2))).foldl (· + ·) acc) = acc + 2 ^ (w * k) * digits w l := by
  induction l generalizing k acc with
  | nil => simp [digits]
  | cons a t ih =>
    rw [List.zipIdx_cons, List.map_cons, List.foldl_cons, ih, digits, Nat.mul_succ, Nat.pow_add]
    ring

theorem vecOf_eq (w : Nat) (l : List Nat) : vecOf w l = BitVec.ofNat 1024 (digits w l) := by
  rw [vecOf, foldl_zipIdx_digits]
  simp

theorem digits_digit (w : Nat) (l : List Nat) (j : Nat) : digits w l / 2 ^ (w * j) % 2 ^ w = l.getD j 0 % 2 ^ w := by
  have hpos : 0 < 2 ^ w := Nat.two_pow_pos w
  induction l generalizing j with
  | nil => simp [digits]
  | cons a t ih =>
    cases j with
    | zero => simp [digits]
    | succ j =>
      have hdiv : digits w (a :: t) / 2 ^ w = digits w t := by
        rw [digits, Nat.add_mul_div_left _ _ hpos, Nat.div_eq_of_lt (Nat.mod_lt _ hpos), Nat.zero_add]
      rw [Nat.mul_succ, Nat.add_comm (w * j) w, Nat.pow_add, ← Nat.div_div_eq_div_mul, hdiv, ih, List.getD_cons_succ]

/-- An element of a register made of a list: the list's element, or 0 past its end. -/
theorem vecElem_vecOf (w : Nat) (l : List Nat) (j : Nat) (h : w * j + w ≤ 1024) :
    vecElem (vecOf w l) w j = l.getD j 0 % 2 ^ w := by
  have hcut (n m : Nat) (hn : w * j + w ≤ n) : (BitVec.ofNat n m).toNat / 2 ^ (w * j) % 2 ^ w = m / 2 ^ (w * j) % 2 ^ w := by
    rw [BitVec.toNat_ofNat, show n = w * j + (n - w * j) by omega, Nat.pow_add, Nat.mod_mul_right_div_self,
      Nat.mod_mod_of_dvd _ (Nat.pow_dvd_pow 2 (by omega))]
  rw [vecOf_eq, ← digits_digit]
  exact hcut 1024 _ h

theorem vecElem_lt (v : BitVec 1024) (w j : Nat) : vecElem v w j < 2 ^ w := Nat.mod_lt _ (Nat.two_pow_pos w)

/-- A register made element by element. -/
theorem vecElem_vecOf_range (w n : Nat) (f : Nat → Nat) (j : Nat) (hj : j < n) (h : w * n ≤ 1024) :
    vecElem (vecOf w ((List.range n).map f)) w j = f j % 2 ^ w := by
  have hle : w * j + w ≤ 1024 := le_trans (by rw [← Nat.mul_succ]; exact Nat.mul_le_mul_left w hj) h
  rw [vecElem_vecOf _ _ _ hle, List.getD_eq_getElem _ _ (by simpa using hj)]
  simp

/-- The bits below `n` of a mask and its size. -/
theorem maskSum_spec (f : Nat → Bool) (n : Nat) : ((List.range n).map (fun j => b2n (f j) * 2 ^ j)).foldl (· + ·) 0 < 2 ^ n ∧
    ∀ j < n, (((List.range n).map (fun j => b2n (f j) * 2 ^ j)).foldl (· + ·) 0).testBit j = f j := by
  induction n with
  | zero => simp
  | succ n ih =>
    obtain ⟨hlt, hbits⟩ := ih
    have hle := b2n_le (f n)
    rw [List.range_succ, List.map_append, List.foldl_append, List.map_singleton, List.foldl_cons, List.foldl_nil]
    generalize ((List.range n).map (fun j => b2n (f j) * 2 ^ j)).foldl (· + ·) 0 = m at hlt hbits ⊢
    rw [Nat.add_comm, Nat.mul_comm]
    refine ⟨by rw [Nat.pow_succ]; nlinarith, fun j hj => ?_⟩
    rw [Nat.testBit_two_pow_mul_add _ hlt]
    split
    · exact hbits j ‹_›
    · obtain rfl : j = n := by omega
      cases hf : f j <;> simp [b2n]

theorem maskOf_getLsbD (f : Nat → Bool) (j : Nat) (hj : j < 32) : (maskOf f).getLsbD j = f j := by
  rw [maskOf, BitVec.getLsbD_ofNat, (maskSum_spec f 32).2 j hj]
  simp [hj]

/-! ### The core past an instruction -/

section

variable (x : CoreState) (i : Inst128)

/-- An issue changes the program counter, the address registers, the loops and the semaphores. -/
theorem issued_frame : issued x i = { seqPart x x.next with sem := semTaken x i } :=
  congrArg (fun z : CoreState => { z with sem := semTaken x i }) x.next_frame

theorem issued_v : (issued x i).v = x.v := (congrArg CoreState.v (issued_frame x i) :)
theorem issued_m : (issued x i).m = x.m := (congrArg CoreState.m (issued_frame x i) :)
theorem issued_lists : (issued x i).lists = x.lists := (congrArg CoreState.lists (issued_frame x i) :)
theorem issued_mem : (issued x i).mem = x.mem := (congrArg CoreState.mem (issued_frame x i) :)
theorem issued_vxOps : (issued x i).vxOps = x.vxOps := (congrArg CoreState.vxOps (issued_frame x i) :)
theorem issued_e1 : (issued x i).e1 = x.e1 := (congrArg CoreState.e1 (issued_frame x i) :)
theorem issued_e2 : (issued x i).e2 = x.e2 := (congrArg CoreState.e2 (issued_frame x i) :)
theorem issued_e3 : (issued x i).e3 = x.e3 := (congrArg CoreState.e3 (issued_frame x i) :)

@[simp] theorem issued_vReg (n : Nat) : (issued x i).vReg n = x.vReg n := by rw [CoreState.vReg, issued_v]; rfl
@[simp] theorem issued_mReg (n : Nat) : (issued x i).mReg n = x.mReg n := by rw [CoreState.mReg, issued_m]; rfl
@[simp] theorem issued_lanes (j : Inst128) : (issued x i).lanes j = x.lanes j := by rw [CoreState.lanes, issued_mReg]; rfl
@[simp] theorem issued_svList (n : Nat) : (issued x i).svList n = x.svList n := by rw [CoreState.svList, issued_lists]; rfl
@[simp] theorem issued_dec (w : Nat) : (issued x i).dec w = x.dec w := by rw [CoreState.dec, issued_mem]; rfl
@[simp] theorem issued_data (w : Nat) : (issued x i).data w = x.data w := by rw [CoreState.data, issued_dec]; rfl
@[simp] theorem issued_clean (w : Nat) : (issued x i).clean w = x.clean w := by rw [CoreState.clean, issued_dec]; rfl
@[simp] theorem issued_elem (w j e : Nat) : (issued x i).elem w j e = x.elem w j e := by rw [CoreState.elem, issued_data]; rfl

end

/-- The lanes that MEN and MREG select (spec/04 R94). -/
theorem lanes_getLsbD (x : CoreState) (i : Inst128) (j : Nat) (hj : j < 32) : (x.lanes i).getLsbD j = laneOn x i j := by
  unfold CoreState.lanes laneOn vMen
  cases i.getLsbD 42
  · rw [if_neg (by decide), BitVec.getLsbD_allOnes, decide_eq_true hj]
    rfl
  · rfl

/-- Clean words inside the scratchpad are read without a record and without an error. -/
theorem CoreState.fetchWords_clean {k : Kind} {x : CoreState} {ws : List Nat} (h : CleanRun k x ws) (epc engine : Nat) :
    CoreState.fetchWords k x ws epc engine = (x, true) := by
  have hin : ws.any (fun w => decide (k.words ≤ w)) = false := by
    rw [List.any_eq_false]
    intro w hw
    simpa using (h w hw).1
  have hclean : ws.any x.poisoned = false := by
    rw [List.any_eq_false]
    intro w hw
    rw [x.poisoned_clean w (h w hw).2]
    decide
  rw [CoreState.fetchWords, hin, if_neg (by decide)]
  dsimp only
  rw [hclean, if_neg (by decide), CoreState.noteReads_clean _ _ _ _ (fun w hw => (h w hw).2)]

theorem cleanRun_issued {k : Kind} {x : CoreState} {ws : List Nat} (h : CleanRun k x ws) (i : Inst128) : CleanRun k (issued x i) ws := by
  intro w hw
  rw [issued_clean]
  exact h w hw

/-- Events change NXSTAT and NXCOUNT alone (spec/02 Table 2.9). -/
theorem CoreState.noteEvs_frame (x : CoreState) (l : List Ev) : ∃ a b, x.noteEvs l = { x with nx := a, nxCount := b } := by
  induction l generalizing x with
  | nil => exact ⟨x.nx, x.nxCount, rfl⟩
  | cons e t ih =>
    have hone : ∃ a b, x.noteEv e = { x with nx := a, nxCount := b } := by
      unfold CoreState.noteEv
      split
      · exact ⟨x.nx, x.nxCount, rfl⟩
      · exact ⟨_, _, rfl⟩
    obtain ⟨a, b, hab⟩ := hone
    obtain ⟨a', b', hab'⟩ := ih (x.noteEv e)
    refine ⟨a', b', ?_⟩
    rw [CoreState.noteEvs, List.foldl_cons]
    exact hab'.trans (by rw [hab])

/-! ### Commands of the vector unit -/

/-- What the vector unit does for an opcode, before VXOPS counts it. -/
def vxBody (op : Nat) (x : CoreState) (cmd : Cmd) : CoreState × Bool :=
  match op with
  | 0x20 => vxLd x cmd
  | 0x21 => vxSt x cmd
  | 0x30 => vxOp x cmd
  | 0x31 => vxFma x cmd
  | 0x32 => vxCmp x cmd
  | 0x33 => vxSel x cmd
  | 0x34 => vxRed x cmd
  | 0x35 => vxTr x cmd
  | 0x36 => vxCvt x cmd
  | 0x37 => vxCvtx x cmd
  | 0x38 => vxKey x cmd
  | _ => vxIota x cmd

theorem vxVectorRun_eq (x r : CoreState) (cmd : Cmd) (h : vxBody (iOpc cmd.inst) x cmd = (r, true)) :
    vxVectorRun x cmd = ({ r with vxOps := sat1 r.vxOps }, true) := by
  have hrun : vxVectorRun x cmd = if (vxBody (iOpc cmd.inst) x cmd).2 then
      ({ (vxBody (iOpc cmd.inst) x cmd).1 with vxOps := sat1 (vxBody (iOpc cmd.inst) x cmd).1.vxOps }, true)
      else vxBody (iOpc cmd.inst) x cmd := rfl
  rw [hrun, h]
  rfl

theorem State.issue_vxBody {s : State} {c : CoreId} {op : Nat} {i : Inst128} (h : EngineAt s c .vx 1 op i)
    (heng : engineOf .vx op = some 1) {r : CoreState} (hbody : vxBody op (issued (s.core c) i) (mkCmd .vx (s.core c) i) = (r, true))
    (hr1 : r.e1 = (s.core c).e1) (hr2 : r.e2 = (s.core c).e2) (hr3 : r.e3 = (s.core c).e3) :
    s.issue c .vx op engineBody =
      s.setCore c { r with vxOps := sat1 r.vxOps, e1 := { prog := [mkCmd .vx (s.core c) i] } } := by
  have hop : iOpc (mkCmd .vx (s.core c) i).inst = op := by
    rw [mkCmd_inst, engineAt_opc h]
  exact State.issue_engine h heng (.inl rfl) (vxVectorRun_eq _ r _ (by rw [hop]; exact hbody)) hr1 hr2 hr3

theorem inProgress_e1 (y : CoreState) (x : CoreState) (i : Inst128) (h : y.e1 = { prog := [mkCmd .vx x i] }) : InProgress y 1 i :=
  ⟨mkCmd .vx x i, h, mkCmd_inst x i⟩

/-- The core after a command of the vector unit that writes VD, with what its events leave of NXSTAT and NXCOUNT. -/
def vecOut (z : CoreState) (i : Inst128) (cmd : Cmd) (val : BitVec 1024) (nx : BitVec 7) (count : BitVec 16) : CoreState :=
  { z.setV (vVd i) val with
    nx := nx
    nxCount := count
    vxOps := sat1 z.vxOps
    e1 := { prog := [cmd] } }

/-- A command of the vector unit that writes VD. -/
theorem State.issue_vec {s : State} {c : CoreId} {op : Nat} {i : Inst128} (h : EngineAt s c .vx 1 op i)
    (heng : engineOf .vx op = some 1) (val : BitVec 1024) (evs : List Ev)
    (hbody : vxBody op (issued (s.core c) i) (mkCmd .vx (s.core c) i) = (((issued (s.core c) i).setV (vVd i) val).noteEvs evs, true)) :
    ∃ y, s.issue c .vx op engineBody = s.setCore c y ∧ VecDone (s.core c) y i ∧ vAt y i 20 = val := by
  have hv := issued_v (s.core c) i
  have hops := issued_vxOps (s.core c) i
  have h1 := issued_e1 (s.core c) i
  have h2 := issued_e2 (s.core c) i
  have h3 := issued_e3 (s.core c) i
  have hissue := fun r hr => State.issue_vxBody (r := r) h heng hr
  unfold VecDone
  generalize issued (s.core c) i = z at hbody hv hops h1 h2 h3 hissue ⊢
  obtain ⟨a, b, hev⟩ := (z.setV (vVd i) val).noteEvs_frame evs
  rw [hev] at hbody
  have hissued : s.issue c .vx op engineBody = s.setCore c (vecOut z i (mkCmd .vx (s.core c) i) val a b) := hissue _ hbody h1 h2 h3
  have hget : vAt (vecOut z i (mkCmd .vx (s.core c) i) val a b) i 20 = val := RegFile.get_set_same _ _ _
  refine ⟨_, hissued, ⟨inProgress_e1 _ (s.core c) i rfl, ?_⟩, hget⟩
  rw [← hops, ← hv, hget]
  rfl

end Sys2Proof.Machine

/-! SUPPORT. The vector unit's element-wise instructions and its integer unit (spec/04 R93, R94, R97, R98, Tables 4.5 and 4.6). -/

namespace Sys2Proof.Machine

open Sys2Proof.Claims

/-! ### Selected elements (spec/04 R94) -/

/-- The register that an element-wise instruction writes: `f` in the selected elements, the old value in the others. -/
def lanesVal (x : CoreState) (i : Inst128) (w : Nat) (f : Nat → Nat) : BitVec 1024 :=
  vecOf w ((List.range (1024 / w)).map (fun j => if laneOn x i (j * w / 32) then f j else vecElem (vAt x i 20) w j))

/-- The element `j` of `w` bits lies in lane `j * w / 32` of the 32. -/
theorem lane_lt {w j : Nat} (hw : w = 16 ∨ w = 32) (hj : j < 1024 / w) : j * w / 32 < 32 := by
  rcases hw with rfl | rfl <;> omega

theorem vecElem_lanesVal (x : CoreState) (i : Inst128) {w : Nat} (f : Nat → Nat) (j : Nat) (hj : j < 1024 / w) :
    vecElem (lanesVal x i w f) w j = if laneOn x i (j * w / 32) then f j % 2 ^ w else vecElem (vAt x i 20) w j := by
  rw [lanesVal, vecElem_vecOf_range w _ _ j hj (Nat.mul_div_le 1024 w)]
  split
  · rfl
  · exact Nat.mod_eq_of_lt (vecElem_lt _ _ _)

/-- Writing the selected elements leaves the register, and notes the events of those elements. -/
theorem CoreState.putLanes_eq (x : CoreState) (i : Inst128) {w : Nat} (f : Nat → Rnd) (hw : w = 16 ∨ w = 32) :
    ∃ evs, (issued x i).putLanes i w f = ((issued x i).setV (vVd i) (lanesVal x i w (fun j => (f j).bits))).noteEvs evs := by
  have hlist : (((List.range (1024 / w)).map (fun j =>
        if ((issued x i).lanes i).getLsbD (j * w / 32) then f j else { bits := vecElem ((issued x i).vReg (vVd i)) w j, ev := 0 })).map
          (·.bits)) =
      (List.range (1024 / w)).map (fun j => if laneOn x i (j * w / 32) then (f j).bits else vecElem (vAt x i 20) w j) := by
    rw [List.map_map]
    refine List.map_congr_left (fun j hj => ?_)
    rw [Function.comp_apply, issued_lanes, issued_vReg, lanes_getLsbD x i _ (lane_lt hw (List.mem_range.1 hj))]
    split <;> rfl
  exact ⟨_, congrArg (fun l => ((issued x i).setV (vVd i) (vecOf w l)).noteEvs _) hlist⟩

/-- An element-wise instruction of the vector unit. -/
theorem State.issue_lanes {s : State} {c : CoreId} {op : Nat} {i : Inst128} (h : EngineAt s c .vx 1 op i)
    (heng : engineOf .vx op = some 1) {w : Nat} (hw : w = 16 ∨ w = 32) (f : Nat → Rnd)
    (hbody : vxBody op (issued (s.core c) i) (mkCmd .vx (s.core c) i) = ((issued (s.core c) i).putLanes i w f, true)) :
    ∃ y, s.issue c .vx op engineBody = s.setCore c y ∧ VecDone (s.core c) y i ∧ ∀ j, j < 1024 / w →
      vecElem (vAt y i 20) w j =
        if laneOn (s.core c) i (j * w / 32) then (f j).bits % 2 ^ w else vecElem (vAt (s.core c) i 20) w j := by
  obtain ⟨evs, hput⟩ := CoreState.putLanes_eq (s.core c) i f hw
  rw [hput] at hbody
  obtain ⟨y, hissue, hdone, hval⟩ := State.issue_vec h heng _ evs hbody
  refine ⟨y, hissue, hdone, fun j hj => ?_⟩
  rw [hval, vecElem_lanesVal _ _ _ j hj]

/-! ### The instructions (Table 4.5) -/

section

variable (x : CoreState) (i : Inst128)

theorem vtWidth_eq (t : Nat) : vtWidth t = 16 ∨ vtWidth t = 32 := by
  unfold vtWidth
  split <;> simp

theorem vxBody_vop : vxBody 0x30 (issued x i) (mkCmd .vx x i) = ((issued x i).putLanes i (vtWidth (vType i)) (fun j =>
    vopElem (vType i) (vFn i) (vecElem (vAt x i 25) (vtWidth (vType i)) j) (vecElem (vAt x i 30) (vtWidth (vType i)) j)), true) := by
  show vxOp _ _ = _
  simp only [vxOp, mkCmd_inst, issued_vReg]
  rfl

theorem vxBody_vfma : vxBody 0x31 (issued x i) (mkCmd .vx x i) = ((issued x i).putLanes i (vtWidth (vType i)) (fun j =>
    vfmaElem (vType i) (vecElem (vAt x i 25) (vtWidth (vType i)) j) (vecElem (vAt x i 30) (vtWidth (vType i)) j)
      (vecElem (vAt x i 35) (vtWidth (vType i)) j)), true) := by
  show vxFma _ _ = _
  simp only [vxFma, mkCmd_inst, issued_vReg]
  rfl

theorem vxBody_vtr : vxBody 0x35 (issued x i) (mkCmd .vx x i) =
    ((issued x i).putLanes i 32 (fun j => vtrFn (vFn i) (vecElem (vAt x i 25) 32 j)), true) := by
  show vxTr _ _ = _
  simp only [vxTr, mkCmd_inst, issued_vReg]
  rfl

/-- The ordered key of an element: an FP32 NaN of any encoding gives the key of the canonical NaN (spec/02 R56, spec/04 R98). -/
def vkeyElem (ty b : Nat) : Nat :=
  if ty = 3 then (keyInt32 (BitVec.ofNat 32 b)).toNat
  else if fpDecode fmtFP32 b = .nan then 0xFFC0_0000
  else (keyFp32 (BitVec.ofNat 32 b)).toNat

theorem vxBody_vkey : vxBody 0x38 (issued x i) (mkCmd .vx x i) =
    ((issued x i).putLanes i 32 (fun j => { bits := vkeyElem (vType i) (vecElem (vAt x i 25) 32 j), ev := 0 }), true) := by
  show vxKey _ _ = _
  simp only [vxKey, mkCmd_inst, issued_vReg]
  rfl

theorem mkCmd_viota (h : iOpc i = 0x39) : (mkCmd .vx x i).sA = x.uReg (vUreg i) := by
  simp only [mkCmd, h]

theorem vxBody_viota (h : iOpc i = 0x39) : vxBody 0x39 (issued x i) (mkCmd .vx x i) =
    ((issued x i).putLanes i 32 (fun j => { bits := (x.uReg (vUreg i) + BitVec.ofNat 32 j).toNat, ev := 0 }), true) := by
  show vxIota _ _ = _
  simp only [vxIota, mkCmd_inst, mkCmd_viota x i h]

end

/-- The key as the statement writes it. -/
theorem vkeyElem_eq (ty b : Nat) (hb : b < 2 ^ 32) : vkeyElem ty b =
    (if ty = 3 then BitVec.ofNat 32 b ^^^ 0x8000_0000#32
     else if fpDecode fmtFP32 (BitVec.ofNat 32 b).toNat = .nan then 0xFFC0_0000#32
     else if (BitVec.ofNat 32 b).msb then ~~~(BitVec.ofNat 32 b) else BitVec.ofNat 32 b ^^^ 0x8000_0000#32).toNat := by
  have hnat : (BitVec.ofNat 32 b).toNat = b := by rw [BitVec.toNat_ofNat, Nat.mod_eq_of_lt hb]
  rw [hnat, vkeyElem]
  by_cases h3 : ty = 3
  · rw [if_pos h3, if_pos h3, keyInt32]
  · rw [if_neg h3, if_neg h3]
    by_cases hnan : fpDecode fmtFP32 b = .nan
    · rw [if_pos hnan, if_pos hnan]
      rfl
    · rw [if_neg hnan, if_neg hnan, keyFp32, BitVec.msb_eq_getLsbD_last]

/-- An integer VOP (Table 4.6). -/
theorem vopElem_int (a b : BitVec 32) :
    let is (fn : Nat) (v : BitVec 32) : Prop := vopElem 3 fn a.toNat b.toNat = { bits := v.toNat, ev := 0 }
    is 0 (a + b) ∧ is 1 (a - b) ∧ is 2 (a * b) ∧ is 3 (if b.sle a then a else b) ∧ is 4 (if a.sle b then a else b) ∧
    is 5 (if a.msb then -a else a) ∧ is 6 (-a) ∧ is 7 a ∧ is 8 (a &&& b) ∧ is 9 (a ||| b) ∧ is 10 (a ^^^ b) ∧
    is 11 (a <<< (b % 32)) ∧ is 12 (a >>> (b % 32)) ∧ is 13 (a.sshiftRight (b % 32).toNat) := by
  have hmsb : a.msb = decide (a.toInt < 0) := BitVec.msb_eq_toInt
  simp [vopElem, vtFmt, BitVec.sle_eq_decide, hmsb]

/-- Settles O11: each element-wise instruction by its element's value; the integer unit by Table 4.6. -/
theorem vxElementResults : Obligations.VxElementResults := by
  unfold Obligations.VxElementResults
  refine ⟨fun s c i => ?elements, vopElem_int⟩
  refine ⟨fun h => ?vop, fun h => ?vfma, fun h => ?vtr, fun h => ?vkey, fun h => ?viota⟩
  case vop =>
    obtain ⟨y, hy, hdone, hel⟩ := State.issue_lanes h rfl (vtWidth_eq _) _ (vxBody_vop _ i)
    exact ⟨y, congrArg _ hy, hdone, hel⟩
  case vfma =>
    obtain ⟨y, hy, hdone, hel⟩ := State.issue_lanes h rfl (vtWidth_eq _) _ (vxBody_vfma _ i)
    exact ⟨y, congrArg _ hy, hdone, hel⟩
  case vtr =>
    obtain ⟨y, hy, hdone, hel⟩ := State.issue_lanes h rfl (.inr rfl) _ (vxBody_vtr _ i)
    exact ⟨y, congrArg _ hy, hdone, hel⟩
  case vkey =>
    obtain ⟨y, hy, hdone, hel⟩ := State.issue_lanes h rfl (.inr rfl) _ (vxBody_vkey _ i)
    refine ⟨y, congrArg _ hy, hdone, fun j hj => ?_⟩
    rw [hel j hj, vkeyElem_eq _ _ (vecElem_lt _ _ _)]
    rfl
  case viota =>
    obtain ⟨y, hy, hdone, hel⟩ := State.issue_lanes h rfl (.inr rfl) _ (vxBody_viota _ i (engineAt_opc h))
    refine ⟨y, congrArg _ hy, hdone, fun j hj => ?_⟩
    rw [hel j hj, BitVec.toNat_add, BitVec.toNat_ofNat, Nat.mod_mod, Nat.add_mod_mod]
    rfl

end Sys2Proof.Machine

/-! SUPPORT. VLD and VST: the words they read and write (spec/04 R92, R94, Table 4.5). -/

namespace Sys2Proof.Machine

open Sys2Proof.Claims

/-! ### Operands of a command that reads the scratchpad -/

/-- The address and the uniform registers that a command takes at dispatch; VMOVE, VIOTA and SVINS take others. -/
theorem mkCmd_operands (x : CoreState) (i : Inst128) (h : iOpc i ≠ 0x08 ∧ iOpc i ≠ 0x39 ∧ iOpc i ≠ 0x52) :
    (mkCmd .vx x i).addr = vxWord x i ∧ (mkCmd .vx x i).sA = x.uReg (vUreg i) ∧ (mkCmd .vx x i).sB = x.uReg (vUregb i) := by
  obtain ⟨h8, h39, h52⟩ := h
  unfold mkCmd
  dsimp only
  split
  · exact absurd ‹_› h8
  · exact absurd ‹_› h39
  · exact absurd ‹_› h52
  · exact ⟨rfl, rfl, rfl⟩

theorem vxWord_lt (x : CoreState) (i : Inst128) : vxWord x i < 8192 := (x.aReg _ + BitVec.ofNat 13 _).isLt

/-- Distinct words of a run that does not come round to its first word. -/
theorem wordsFrom_nodup (w n : Nat) (hn : n ≤ 8192) : (wordsFrom w n).Nodup := by
  refine List.Nodup.map_on (fun a ha b hb hab => ?_) List.nodup_range
  have ha' := List.mem_range.1 ha
  have hb' := List.mem_range.1 hb
  omega

/-! ### VLD -/

/-- The lane that VLD reads: its own word half, or the one half in every lane. -/
def vldLane (x : CoreState) (i : Inst128) (j : Nat) : Nat :=
  if nfld i.toNat 45 2 = 0 then x.elem (vxWord x i) j 32 else x.elem (vxWord x i) (nfld i.toNat 45 2 - 1) 32

theorem vxBody_vld (x : CoreState) (i : Inst128) (h : iOpc i = 0x20)
    (hclean : CleanRun .vx x (wordsFrom (vxWord x i) (if nfld i.toNat 45 2 = 0 then 16 else 1))) :
    vxBody 0x20 (issued x i) (mkCmd .vx x i) =
      ((issued x i).putLanes i 32 (fun j => { bits := vldLane x i j, ev := 0 }), true) := by
  obtain ⟨haddr, -, -⟩ := mkCmd_operands x i (by rw [h]; decide)
  have hws : (if ifld i 45 2 = 0 then (List.range 16).map (fun j => (vxWord x i + j) % 8192) else [vxWord x i]) =
      wordsFrom (vxWord x i) (if nfld i.toNat 45 2 = 0 then 16 else 1) := by
    unfold ifld
    split
    · rfl
    · simp [wordsFrom, Nat.mod_eq_of_lt (vxWord_lt x i)]
  show vxLd _ _ = _
  simp only [vxLd, mkCmd_inst, haddr, hws, CoreState.fetchWords_clean (cleanRun_issued hclean i), issued_elem]
  rfl

/-! ### VST -/

/-- The beat of a VST: 16 words, each with the halves of its selected lanes (spec/05 R135). -/
def vstBeat (x : CoreState) (i : Inst128) : List RowWord := (List.range 16).map (fun j =>
  { w := (vxWord x i + j) % 8192
    data := BitVec.ofNat 64 (vecElem (vAt x i 25) 64 j)
    mask := (if laneOn x i (2 * j) then 0x0F else 0) ||| (if laneOn x i (2 * j + 1) then 0xF0 else 0)
    poison := false })

theorem vxBody_vst (x : CoreState) (i : Inst128) (h : iOpc i = 0x21) :
    vxBody 0x21 (issued x i) (mkCmd .vx x i) = (CoreState.writeBeat .vx (issued x i) (vstBeat x i), true) := by
  obtain ⟨haddr, -, -⟩ := mkCmd_operands x i (by rw [h]; decide)
  have hlanes : ∀ j < 16, (x.lanes i).getLsbD (2 * j) = laneOn x i (2 * j) ∧
      (x.lanes i).getLsbD (2 * j + 1) = laneOn x i (2 * j + 1) := fun j hj =>
    ⟨lanes_getLsbD x i _ (by omega), lanes_getLsbD x i _ (by omega)⟩
  show vxSt _ _ = _
  simp only [vxSt, mkCmd_inst, haddr, issued_vReg, issued_lanes]
  refine congrArg (fun b => (CoreState.writeBeat .vx (issued x i) b, true)) (List.map_congr_left (fun j hj => ?_))
  obtain ⟨h0, h1⟩ := hlanes j (List.mem_range.1 hj)
  rw [h0, h1]
  rfl

theorem vstBeat_words (x : CoreState) (i : Inst128) : (vstBeat x i).map (·.w) = wordsFrom (vxWord x i) 16 := by
  rw [vstBeat, List.map_map]
  rfl

theorem nfld_eq_extract {n : Nat} (v : BitVec n) (lo w : Nat) : nfld v.toNat lo w = (v.extractLsb' lo w).toNat := by
  rw [nfld, BitVec.extractLsb'_toNat, Nat.shiftRight_eq_div_pow]

/-- A 32-bit half of a word after a masked write whose mask has or lacks the whole half. -/
theorem nfld_half_maskedWord (old : Word) (r : RowWord) (k : Nat) (hk : k < 2) (on : Bool)
    (hmask : ∀ b < 4, r.mask.getLsbD (4 * k + b) = on) :
    nfld (maskedWord old r).toNat (32 * k) 32 = if on then nfld r.data.toNat (32 * k) 32 else nfld old.toNat (32 * k) 32 := by
  have hbit : ∀ j < 32, (maskedWord old r).getLsbD (32 * k + j) = if on then r.data.getLsbD (32 * k + j) else old.getLsbD (32 * k + j) := by
    intro j hj
    rw [maskedWord_getLsbD _ _ _ (by omega), show (32 * k + j) / 8 = 4 * k + j / 8 by omega, hmask _ (by omega)]
  simp only [nfld_eq_extract]
  cases on <;> refine congrArg BitVec.toNat (BitVec.eq_of_getLsbD_eq fun j hj => ?_) <;>
    simpa [BitVec.getLsbD_extractLsb', hj] using hbit j hj

/-- The halves of a 64-bit element are two 32-bit elements. -/
theorem nfld_half_vecElem (v : BitVec 1024) (j k : Nat) (hk : k < 2) :
    nfld (BitVec.ofNat 64 (vecElem v 64 j)).toNat (32 * k) 32 = vecElem v 32 (2 * j + k) := by
  have hlow : (BitVec.ofNat 64 (vecElem v 64 j)).toNat = v.toNat / 2 ^ (64 * j) % (2 ^ (32 * k) * 2 ^ (64 - 32 * k)) := by
    rw [BitVec.toNat_ofNat, ← Nat.pow_add, show 32 * k + (64 - 32 * k) = 64 by omega]
    exact Nat.mod_eq_of_lt (vecElem_lt v 64 j)
  rw [nfld, hlow, Nat.mod_mul_right_div_self, Nat.mod_mod_of_dvd _ (Nat.pow_dvd_pow 2 (by omega)), Nat.div_div_eq_div_mul,
    ← Nat.pow_add, show 64 * j + 32 * k = 32 * (2 * j + k) by ring]
  rfl

theorem vstMask_getLsbD (lo hi : Bool) (k : Nat) (hk : k < 2) (b : Nat) (hb : b < 4) :
    ((if lo then 0x0F else 0) ||| (if hi then 0xF0 else 0) : BitVec 8).getLsbD (4 * k + b) = if k = 0 then lo else hi := by
  revert lo hi k b
  decide

/-- The words that a VST leaves: the selected lanes, every other half as before. -/
theorem vst_words (x : CoreState) (i : Inst128) (hwf : x.memWf = true) (hclean : CleanRun .vx x (wordsFrom (vxWord x i) 16)) :
    SpadOnly (issued x i) (CoreState.writeBeat .vx (issued x i) (vstBeat x i)) ∧
      (∀ j < 32, nfld ((CoreState.writeBeat .vx (issued x i) (vstBeat x i)).data ((vxWord x i + j / 2) % 8192)).toNat (32 * (j % 2)) 32 =
        if laneOn x i j then vecElem (vAt x i 25) 32 j else nfld (x.data ((vxWord x i + j / 2) % 8192)).toNat (32 * (j % 2)) 32) ∧
      ∀ a, a ∉ wordsFrom (vxWord x i) 16 → (CoreState.writeBeat .vx (issued x i) (vstBeat x i)).data a = x.data a := by
  obtain ⟨hframe, hwords, hrest⟩ := CoreState.writeBeat_spec .vx (vstBeat x i) (issued x i)
    (by rw [issued_mem]; exact hwf) (by rw [vstBeat_words]; exact wordsFrom_nodup _ _ (by decide)) (fun r hr => by
      rw [issued_clean]
      exact .inr (hclean _ (vstBeat_words x i ▸ List.mem_map_of_mem hr)).2)
  refine ⟨hframe, fun j hj => ?_, fun a ha => ?_⟩
  · have hmem : ({ w := (vxWord x i + j / 2) % 8192
                   data := BitVec.ofNat 64 (vecElem (vAt x i 25) 64 (j / 2))
                   mask := (if laneOn x i (2 * (j / 2)) then 0x0F else 0) ||| (if laneOn x i (2 * (j / 2) + 1) then 0xF0 else 0)
                   poison := false } : RowWord) ∈ vstBeat x i :=
      List.mem_map.2 ⟨j / 2, List.mem_range.2 (by omega), rfl⟩
    have hhalf : j % 2 < 2 := Nat.mod_lt _ (by decide)
    have hlane : (if j % 2 = 0 then laneOn x i (2 * (j / 2)) else laneOn x i (2 * (j / 2) + 1)) = laneOn x i j := by
      split
      · rw [show 2 * (j / 2) = j by omega]
      · rw [show 2 * (j / 2) + 1 = j by omega]
    rw [hwords _ hmem, nfld_half_maskedWord _ _ _ hhalf (laneOn x i j) (fun b hb => by
        rw [← hlane]
        exact vstMask_getLsbD _ _ _ hhalf b hb),
      nfld_half_vecElem _ _ _ hhalf, show 2 * (j / 2) + j % 2 = j by omega, issued_data]
  · rw [hrest a (by rw [vstBeat_words]; exact ha), issued_data]

/-- Settles O10: VLD by the lane it reads, VST by the halves that its masked beat writes. -/
theorem vxLoadsAndStores : Obligations.VxLoadsAndStores := by
  unfold Obligations.VxLoadsAndStores
  refine fun s c i => ⟨fun h hclean => ?vld, fun h hwf hclean => ?vst⟩
  case vld =>
    obtain ⟨y, hy, hdone, hel⟩ := State.issue_lanes h rfl (.inr rfl) _ (vxBody_vld _ i (engineAt_opc h) hclean)
    refine ⟨y, congrArg _ hy, hdone, fun j hj => ?_⟩
    have hlane : ∀ a k, (s.core c).elem a k 32 % 2 ^ 32 = (s.core c).elem a k 32 := fun a k =>
      Nat.mod_eq_of_lt (Nat.mod_lt _ (Nat.two_pow_pos 32))
    have helem := hel j hj
    rw [Nat.mul_div_cancel _ (by decide)] at helem
    rw [helem]
    dsimp only [vldLane]
    split
    · split <;> exact hlane _ _
    · rfl
  case vst =>
    obtain ⟨hframe, hwords, hrest⟩ := vst_words _ i hwf hclean
    have hbody := vxBody_vst (s.core c) i (engineAt_opc h)
    have h1 := issued_e1 (s.core c) i
    have h2 := issued_e2 (s.core c) i
    have h3 := issued_e3 (s.core c) i
    have hops := issued_vxOps (s.core c) i
    have hissue := fun r hr => State.issue_vxBody (r := r) h rfl hr
    generalize CoreState.writeBeat .vx (issued (s.core c) i) (vstBeat (s.core c) i) = r at hframe hwords hrest hbody
    have he1 : r.e1 = (s.core c).e1 := (congrArg CoreState.e1 hframe).trans h1
    have he2 : r.e2 = (s.core c).e2 := (congrArg CoreState.e2 hframe).trans h2
    have he3 : r.e3 = (s.core c).e3 := (congrArg CoreState.e3 hframe).trans h3
    refine ⟨_, congrArg _ (hissue r hbody he1 he2 he3), inProgress_e1 _ (s.core c) i rfl, ?_, hwords, fun a _ ha => hrest a ha⟩
    rw [← hops]
    exact congrArg (fun u : CoreState => { u with vxOps := sat1 u.vxOps, e1 := { prog := [mkCmd .vx (s.core c) i] } }) hframe

end Sys2Proof.Machine

/-! SUPPORT. VCMP, VSEL, the reduction tree of VRED, and the conversions (spec/04 R94, R95, R97). -/

namespace Sys2Proof.Machine

open Sys2Proof.Claims

/-! ### VCMP and VSEL -/

/-- The bits that VCMP writes. -/
def vcmpBits (x : CoreState) (i : Inst128) : BitVec 32 := maskOf (fun j => (x.lanes i).getLsbD j &&
  cmpElem (vType i) (vFn i) (vecElem (vAt x i 25) 32 j) (vecElem (vAt x i 30) 32 j))

theorem vxBody_vcmp (x : CoreState) (i : Inst128) :
    vxBody 0x32 (issued x i) (mkCmd .vx x i) = ((issued x i).setM (ifld i 20 2) (vcmpBits x i), true) := by
  show vxCmp _ _ = _
  simp only [vxCmp, mkCmd_inst, issued_vReg, issued_lanes]
  rfl

/-- The lanes that VSEL leaves. -/
def vselLane (x : CoreState) (i : Inst128) (j : Nat) : Nat :=
  if (x.mReg (vMreg i)).getLsbD j then vecElem (vAt x i 25) 32 j else vecElem (vAt x i 30) 32 j

theorem vxBody_vsel (x : CoreState) (i : Inst128) : vxBody 0x33 (issued x i) (mkCmd .vx x i) =
    (((issued x i).setV (vVd i) (vecOf 32 ((List.range 32).map (vselLane x i)))).noteEvs [], true) := by
  show vxSel _ _ = _
  simp only [vxSel, mkCmd_inst, issued_vReg, issued_mReg]
  rfl

/-! ### The reduction tree (spec/04 R95) -/

/-- One node of the tree over two nodes. -/
def redNode (op : Nat → Nat → Rnd) : Option Nat → Option Nat → Option Nat
  | some x, some y => some (op x y).bits
  | some x, none => some x
  | none, y => y

theorem redLevel_cons_cons (op : Nat → Nat → Rnd) (a b : Option Nat) (t : List (Option Nat)) :
    (redLevel op (a :: b :: t)).1 = redNode op a b :: (redLevel op t).1 := by
  cases a <;> cases b <;> rfl

/-- A level leaves half the nodes, rounded up. -/
theorem redLevel_length (op : Nat → Nat → Rnd) : (l : List (Option Nat)) → (redLevel op l).1.length = (l.length + 1) / 2
  | [] => rfl
  | [_] => by simp [redLevel]
  | a :: b :: t => by
    rw [redLevel_cons_cons, List.length_cons, redLevel_length op t, List.length_cons, List.length_cons]
    omega

/-- `n` levels reach one node from at most `2 ^ n`. -/
theorem redTree_length (op : Nat → Nat → Rnd) (n : Nat) (p : List (Option Nat) × List Ev) (hpos : 0 < p.1.length)
    (hle : p.1.length ≤ 2 ^ n) : (redTree op n p).1.length = 1 := by
  induction n generalizing p with
  | zero => exact le_antisymm hle hpos
  | succ n ih =>
    rw [redTree]
    split
    · omega
    · have hlen := redLevel_length op p.1
      rw [Nat.pow_succ] at hle
      exact ih _ (by dsimp only; omega) (by dsimp only; omega)

/-- The sum of the nodes that hold a value. -/
def nodeSum (l : List (Option Nat)) : Nat := (l.map (·.getD 0)).sum

theorem nodeSum_cons (a : Option Nat) (l : List (Option Nat)) : nodeSum (a :: l) = a.getD 0 + nodeSum l := rfl

section

variable {op : Nat → Nat → Rnd} {m : Nat} (hop : ∀ a b, (op a b).bits = (a + b) % m)

include hop

/-- A tree of additions modulo `m` keeps the sum of its nodes modulo `m`. -/
theorem redNode_sum (a b : Option Nat) : (redNode op a b).getD 0 % m = (a.getD 0 + b.getD 0) % m := by
  cases a with
  | none => simp [redNode]
  | some x =>
    cases b with
    | none => simp [redNode]
    | some y => simp [redNode, hop]

theorem redLevel_sum : (l : List (Option Nat)) → nodeSum (redLevel op l).1 % m = nodeSum l % m
  | [] => rfl
  | [_] => rfl
  | a :: b :: t => by
    rw [redLevel_cons_cons, nodeSum_cons, Nat.add_mod, redNode_sum hop, redLevel_sum t, ← Nat.add_mod, nodeSum_cons, nodeSum_cons,
      Nat.add_assoc]

theorem redTree_sum (n : Nat) (p : List (Option Nat) × List Ev) : nodeSum (redTree op n p).1 % m = nodeSum p.1 % m := by
  induction n generalizing p with
  | zero => rfl
  | succ n ih =>
    rw [redTree]
    split
    · rfl
    · exact (ih _).trans (redLevel_sum hop p.1)

end

/-- The integer ADD of VOP, modulo 2^32. -/
theorem vopElem_int_add (a b : Nat) : (vopElem 3 0 a b).bits = (a + b) % 2 ^ 32 := by
  show (BitVec.ofNat 32 a + BitVec.ofNat 32 b).toNat = _
  rw [← BitVec.ofNat_add, BitVec.toNat_ofNat]

/-! ### VRED -/

/-- The leaves of the tree: the selected elements of VA. -/
def redLeaf (x : CoreState) (i : Inst128) (w j : Nat) : Option Nat :=
  if laneOn x i (j * w / 32) then some (vecElem (vAt x i 25) w j) else none

/-- The tree that VRED makes of the selected elements of VA. -/
def vredTree (x : CoreState) (i : Inst128) : List (Option Nat) × List Ev :=
  redTree (vopElem (vType i) (if vFn i = 0 then 0 else vFn i + 2)) 6
    ((List.range (1024 / vtWidth (vType i))).map (redLeaf x i (vtWidth (vType i))), [])

/-- What VRED delivers of the tree's root. -/
def vredOut (x : CoreState) (i : Inst128) (root : Option Nat) : Nat :=
  if (vredTree x i).2 = [] then (redAlone (vType i) (root.getD (redEmpty (vType i) (vFn i)))).bits
  else root.getD (redEmpty (vType i) (vFn i))

theorem vredTree_root (x : CoreState) (i : Inst128) : ∃ root, (vredTree x i).1 = [root] := by
  refine List.length_eq_one_iff.1 (redTree_length _ 6 _ ?_ ?_)
  all_goals
    rw [List.length_map, List.length_range]
    rcases vtWidth_eq (vType i) with h | h <;> rw [h] <;> decide

theorem vxBody_vred (x : CoreState) (i : Inst128) {root : Option Nat} (hroot : (vredTree x i).1 = [root]) :
    ∃ evs, vxBody 0x34 (issued x i) (mkCmd .vx x i) =
      (((issued x i).setV (vVd i) (vecOf (vtWidth (vType i)) [vredOut x i root])).noteEvs evs, true) := by
  have hnodes : (List.range (1024 / vtWidth (vType i))).map (fun j =>
        if (x.lanes i).getLsbD (j * vtWidth (vType i) / 32) then some (vecElem (x.vReg (vVa i)) (vtWidth (vType i)) j) else none) =
      (List.range (1024 / vtWidth (vType i))).map (redLeaf x i (vtWidth (vType i))) := by
    refine List.map_congr_left (fun j hj => ?_)
    rw [lanes_getLsbD x i _ (lane_lt (vtWidth_eq _) (List.mem_range.1 hj))]
    rfl
  have htree : redTree (fun a b => vopElem (vType i) (if vFn i = 0 then 0 else vFn i + 2) a b) 6
      ((List.range (1024 / vtWidth (vType i))).map (redLeaf x i (vtWidth (vType i))), []) = vredTree x i := rfl
  show ∃ evs, vxRed _ _ = _
  simp only [vxRed, mkCmd_inst, issued_vReg, issued_lanes, hnodes, htree, hroot, vredOut]
  cases hev : (vredTree x i).2 <;> cases root <;> exact ⟨_, rfl⟩

/-- The integer ADD of VRED: the sum of the selected elements. -/
theorem vredOut_int_add (x : CoreState) (i : Inst128) {root : Option Nat} (hroot : (vredTree x i).1 = [root])
    (hty : vType i = 3) (hfn : vFn i = 0) :
    vredOut x i root % 2 ^ 32 = ((List.range 32).map (fun j => if laneOn x i j then vecElem (vAt x i 25) 32 j else 0)).sum % 2 ^ 32 := by
  have hout : vredOut x i root = root.getD 0 := by
    rw [vredOut, hty, hfn]
    exact ite_self _
  have hleaves : nodeSum ((List.range 32).map (redLeaf x i 32)) =
      ((List.range 32).map (fun j => if laneOn x i j then vecElem (vAt x i 25) 32 j else 0)).sum := by
    rw [nodeSum, List.map_map]
    refine congrArg List.sum (List.map_congr_left (fun j _ => ?_))
    rw [Function.comp_apply, redLeaf, Nat.mul_div_cancel _ (by decide)]
    split <;> rfl
  have hsum := redTree_sum vopElem_int_add 6 ((List.range 32).map (redLeaf x i 32), [])
  have htree : vredTree x i = redTree (vopElem 3 0) 6 ((List.range 32).map (redLeaf x i 32), []) := by
    rw [vredTree, hty, hfn]
    rfl
  rw [← htree, hroot] at hsum
  rw [hout, ← hleaves]
  exact hsum

/-! ### Conversions (spec/04 R97) -/

theorem cvtBytes_eq (c : Nat) (h : c ≤ 6) : cvtBytes c = (DFmt.ofCode c).width / 8 := by
  interval_cases c <;> rfl

/-- The scale of a conversion: 1.0, the one enabled uniform register, or the rounded product of both. -/
def scaleOf (x : CoreState) (i : Inst128) : Nat :=
  if i.getLsbD 71 then (if i.getLsbD 92 then mul32 (x.uReg (vUreg i)).toNat (x.uReg (vUregb i)).toNat else (x.uReg (vUreg i)).toNat)
  else if i.getLsbD 92 then (x.uReg (vUregb i)).toNat else 0x3F80_0000

theorem cvtScale_mkCmd (x : CoreState) (i : Inst128) (h : iOpc i ≠ 0x08 ∧ iOpc i ≠ 0x39 ∧ iOpc i ≠ 0x52) :
    cvtScale i (mkCmd .vx x i) = scaleOf x i := by
  obtain ⟨-, ha, hb⟩ := mkCmd_operands x i h
  simp only [cvtScale, vUen, vUben, scaleOf, ha, hb]
  cases i.getLsbD 71 <;> cases i.getLsbD 92 <;> rfl

/-- The register after a run of `n` converted elements from element `p` on. -/
def runVal (old : BitVec 1024) (dw p n : Nat) (f : Nat → Nat) : BitVec 1024 :=
  vecOf dw ((List.range (1024 / dw)).map (fun j => if p ≤ j ∧ j < p + n then f (j - p) else vecElem old dw j))

theorem vecElem_runVal (old : BitVec 1024) (dw p n : Nat) (f : Nat → Nat) (j : Nat) (hj : j < 1024 / dw) :
    vecElem (runVal old dw p n f) dw j = if p ≤ j ∧ j < p + n then f (j - p) % 2 ^ dw else vecElem old dw j := by
  rw [runVal, vecElem_vecOf_range dw _ _ j hj (Nat.mul_div_le 1024 dw)]
  split
  · rfl
  · exact Nat.mod_eq_of_lt (vecElem_lt _ _ _)

theorem CoreState.putRun_eq (x : CoreState) (vd dw p n : Nat) (f : Nat → Rnd) :
    x.putRun vd dw p ((List.range n).map f) =
      (x.setV vd (runVal (x.vReg vd) dw p n (fun j => (f j).bits))).noteEvs (((List.range n).map f).map (·.ev)) := by
  have hlist : (List.range (1024 / dw)).map (fun j => if p ≤ j then match ((List.range n).map f)[j - p]? with
        | some r => r.bits
        | none => vecElem (x.vReg vd) dw j
      else vecElem (x.vReg vd) dw j) =
      (List.range (1024 / dw)).map (fun j => if p ≤ j ∧ j < p + n then (f (j - p)).bits else vecElem (x.vReg vd) dw j) := by
    refine List.map_congr_left (fun j _ => ?_)
    by_cases hp : p ≤ j
    · by_cases hn : j < p + n
      · rw [if_pos hp, if_pos ⟨hp, hn⟩, List.getElem?_map, List.getElem?_range (by omega)]
        rfl
      · rw [if_pos hp, if_neg (by omega), List.getElem?_eq_none (by simp; omega)]
    · rw [if_neg hp, if_neg (by omega)]
  exact congrArg (fun l => (x.setV vd (vecOf dw l)).noteEvs (((List.range n).map f).map (·.ev))) hlist

/-- The result of one element of a VCVT. -/
def vcvtElem (x : CoreState) (i : Inst128) (from_ j : Nat) : Rnd :=
  convFp (DFmt.ofCode (ifld i 45 3)) (vOvm i) (srcValue (DFmt.ofCode (ifld i 48 3))
    (vecElem (vAt x i 25) (DFmt.ofCode (ifld i 48 3)).width (from_ + j))) (scaleOf x i)

/-- The number of elements of a VCVT: 128 bytes by the wider format. -/
def vcvtCount (i : Inst128) : Nat := 128 / max ((DFmt.ofCode (ifld i 48 3)).width / 8) ((DFmt.ofCode (ifld i 45 3)).width / 8)

theorem vcvtCount_eq {i : Inst128} (h : iOpc i = 0x36) (hlegal : vxLegal i = true) :
    cvtCount (ifld i 48 3) (ifld i 45 3) = vcvtCount i := by
  have hcodes : ifld i 45 3 ≤ 6 ∧ ifld i 48 3 ≤ 6 := by
    simp only [vxLegal, h, Bool.and_eq_true, decide_eq_true_eq] at hlegal
    exact ⟨hlegal.1.1.2, hlegal.1.2⟩
  rw [cvtCount, cvtBytes_eq _ hcodes.1, cvtBytes_eq _ hcodes.2, vcvtCount]

/-- The first element that a narrower format reads or writes in its register. -/
def partFrom (i : Inst128) (narrow wide : DFmt) : Nat := if narrow.width < wide.width then ifld i 35 2 * vcvtCount i else 0

theorem vxBody_vcvt (x : CoreState) (i : Inst128) (h : iOpc i = 0x36) (hlegal : vxLegal i = true) : ∃ evs,
    vxBody 0x36 (issued x i) (mkCmd .vx x i) =
      (((issued x i).setV (vVd i) (runVal (vAt x i 20) (DFmt.ofCode (ifld i 45 3)).width
        (partFrom i (DFmt.ofCode (ifld i 45 3)) (DFmt.ofCode (ifld i 48 3))) (vcvtCount i)
        (fun j => (vcvtElem x i (partFrom i (DFmt.ofCode (ifld i 48 3)) (DFmt.ofCode (ifld i 45 3))) j).bits))).noteEvs evs, true) := by
  show ∃ evs, vxCvt _ _ = _
  simp only [vxCvt, mkCmd_inst, issued_vReg, vcvtCount_eq h hlegal, cvtScale_mkCmd x i (by rw [h]; decide), CoreState.putRun_eq]
  exact ⟨_, rfl⟩

/-- The result of one element of a VCVTX: the extended accumulator in two words. -/
def vcvtxElem (x : CoreState) (i : Inst128) (j : Nat) : Rnd :=
  convXacc (DFmt.ofCode (ifld i 45 3)) (vOvm i)
    (xaccNorm (x.data ((vxWord x i + (2 * j + 1)) % 8192) ++ x.data ((vxWord x i + 2 * j) % 8192))) (scaleOf x i)

theorem vxBody_vcvtx (x : CoreState) (i : Inst128) (h : iOpc i = 0x37) (hclean : CleanRun .vx x (wordsFrom (vxWord x i) 64)) :
    ∃ evs, vxBody 0x37 (issued x i) (mkCmd .vx x i) =
      (((issued x i).setV (vVd i) (runVal (vAt x i 20) (DFmt.ofCode (ifld i 45 3)).width (ifld i 35 2 * 32) 32
        (fun j => (vcvtxElem x i j).bits))).noteEvs evs, true) := by
  obtain ⟨haddr, -, -⟩ := mkCmd_operands x i (by rw [h]; decide)
  have hfetch := CoreState.fetchWords_clean (cleanRun_issued hclean i) (mkCmd .vx x i).epc 1
  rw [wordsFrom] at hfetch
  show ∃ evs, vxCvtx _ _ = _
  simp only [vxCvtx, mkCmd_inst, haddr, hfetch, cvtScale_mkCmd x i (by rw [h]; decide), CoreState.putRun_eq, issued_vReg, issued_data]
  exact ⟨_, rfl⟩

/-- Settles O12: VCMP and VSEL lane by lane, VRED by its tree, the conversions by the run they write. -/
theorem vxCompareConvertReduce : Obligations.VxCompareConvertReduce := by
  unfold Obligations.VxCompareConvertReduce
  refine ⟨fun s c i => ⟨fun h => ?vcmp, fun h => ?vsel, fun h => ?vred⟩, fun s c i => ⟨fun h => ?vcvt, fun h hclean => ?vcvtx⟩⟩
  case vcmp =>
    have hbody := vxBody_vcmp (s.core c) i
    have h1 := issued_e1 (s.core c) i
    have h2 := issued_e2 (s.core c) i
    have h3 := issued_e3 (s.core c) i
    have hm := issued_m (s.core c) i
    have hops := issued_vxOps (s.core c) i
    have hissue := fun r hr => State.issue_vxBody (r := r) h rfl hr
    generalize issued (s.core c) i = z at hbody h1 h2 h3 hm hops hissue ⊢
    have hget := RegFile.get_set_same z.m (BitVec.ofNat 2 (ifld i 20 2)) (vcmpBits (s.core c) i)
    refine ⟨_, congrArg _ (hissue _ hbody h1 h2 h3), inProgress_e1 _ (s.core c) i rfl, ?_, fun j hj => ?_⟩
    · rw [← hops, ← hm]
      exact congrArg (fun b => ({ z with
        e1 := { prog := [mkCmd .vx (s.core c) i] }
        vxOps := sat1 z.vxOps
        m := z.m.set (BitVec.ofNat 2 (ifld i 20 2)) b } : CoreState)) hget.symm
    · refine (congrArg (fun b : BitVec 32 => b.getLsbD j) hget).trans ?_
      rw [vcmpBits, maskOf_getLsbD _ j hj, lanes_getLsbD _ _ j hj]
      rfl
  case vsel =>
    obtain ⟨y, hy, hdone, hval⟩ := State.issue_vec h rfl _ _ (vxBody_vsel _ i)
    refine ⟨y, congrArg _ hy, hdone, fun j hj => ?_⟩
    rw [hval, vecElem_vecOf_range 32 32 _ j hj (by decide)]
    refine (Nat.mod_eq_of_lt ?_ : vselLane (s.core c) i j % 2 ^ 32 = vselLane (s.core c) i j)
    rw [vselLane]
    split <;> exact vecElem_lt _ _ _
  case vred =>
    obtain ⟨root, hroot⟩ := vredTree_root (s.core c) i
    obtain ⟨evs, hbody⟩ := vxBody_vred (s.core c) i hroot
    obtain ⟨y, hy, hdone, hval⟩ := State.issue_vec h rfl _ evs hbody
    have hwidth : vtWidth (vType i) ≤ 1024 := by
      rcases vtWidth_eq (vType i) with hw | hw <;> rw [hw] <;> decide
    have hzero : vecElem (vAt y i 20) (vtWidth (vType i)) 0 = vredOut (s.core c) i root % 2 ^ vtWidth (vType i) := by
      rw [hval, vecElem_vecOf _ _ _ (by omega)]
      rfl
    refine ⟨y, congrArg _ hy, hdone, ⟨root, hroot, hzero⟩, fun j hpos hj => ?_, fun hty hfn => ?_⟩
    · have hle : vtWidth (vType i) * j + vtWidth (vType i) ≤ 1024 :=
        le_trans (by rw [← Nat.mul_succ]; exact Nat.mul_le_mul_left _ hj) (Nat.mul_div_le 1024 (vtWidth (vType i)))
      refine (congrArg (fun v => vecElem v _ j) hval).trans ?_
      refine (vecElem_vecOf _ _ _ hle).trans ?_
      rw [List.getD_eq_default _ _ hpos, Nat.zero_mod]
    · rw [show vType i = 3 from hty] at hzero
      exact hzero.trans (vredOut_int_add _ i hroot hty hfn)
  case vcvt =>
    obtain ⟨evs, hbody⟩ := vxBody_vcvt (s.core c) i (engineAt_opc h) (engineAt_legal h)
    obtain ⟨y, hy, hdone, hval⟩ := State.issue_vec h rfl _ evs hbody
    refine ⟨y, congrArg _ hy, hdone, fun j hj => ?_⟩
    rw [hval]
    exact vecElem_runVal _ _ _ _ _ j hj
  case vcvtx =>
    obtain ⟨evs, hbody⟩ := vxBody_vcvtx (s.core c) i (engineAt_opc h) hclean
    obtain ⟨y, hy, hdone, hval⟩ := State.issue_vec h rfl _ evs hbody
    refine ⟨y, congrArg _ hy, hdone, fun j hj => ?_⟩
    rw [hval]
    exact vecElem_runVal _ _ _ _ _ j hj

end Sys2Proof.Machine

/-! SUPPORT. The sieve: its descriptors, its empty pairs and the words that an offer of candidates leaves (spec/04 R101-R103). -/

namespace Sys2Proof.Machine

open Sys2Proof.Claims

/-! ### The procedure of R103 -/

theorem satAdd_zero {w : Nat} (c : BitVec w) : satAdd c 0 = c := by
  rw [satAdd, if_pos (by simpa using c.isLt)]
  simp

/-- A survivor that goes into the list pushes the last pair out. -/
theorem svTake_length (dir : Bool) (r : SvRun) (c : Word) : (svTake dir r c).list.length = r.list.length := by
  unfold svTake
  split
  · rfl
  · rename_i last hlast
    split
    · rfl
    · rename_i hbefore
      have hp : r.list.findIdx (fun w => pairBefore dir c w) < r.list.length :=
        List.findIdx_lt_length_of_exists ⟨last, List.mem_of_getLast? hlast, by simpa using hbefore⟩
      dsimp only
      split
      · rfl
      · simp only [List.length_append, List.length_take, List.length_cons, List.length_dropLast, List.length_drop]
        omega

theorem foldl_svTake_length (dir : Bool) (cands : List Word) (r : SvRun) :
    (cands.foldl (svTake dir) r).list.length = r.list.length := by
  induction cands generalizing r with
  | nil => rfl
  | cons c t ih => rw [List.foldl_cons, ih, svTake_length]

/-- The first pass leaves the list. -/
theorem foldl_svFirst_list (dir nanpol : Bool) (last0 : Word) (cands : List Word) (st : SvRun × List Word) :
    (cands.foldl (svFirst dir nanpol last0) st).1.list = st.1.list := by
  induction cands generalizing st with
  | nil => rfl
  | cons c t ih =>
    rw [List.foldl_cons, ih]
    unfold svFirst
    split
    · rfl
    · split
      · rfl
      · split <;> rfl

theorem svProcedure_length (dir nanpol : Bool) (l cands : List Word) : (svProcedure dir nanpol l cands).list.length = l.length := by
  rw [svProcedure, foldl_svTake_length, foldl_svFirst_list]

/-! ### A list's words and the beat that writes them -/

theorem SvList.words_nodup (l : SvList) : l.words.Nodup := wordsFrom_nodup _ _ (by have := l.km1.isLt; omega)

theorem SvList.words_length (l : SvList) : l.words.length = l.km1.toNat + 1 := by simp [SvList.words]

/-- A word that is none of the list's words. -/
theorem SvList.not_mem_words {l : SvList} {a : Nat} (h : ∀ j < l.km1.toNat + 1, a ≠ (l.base.toNat + j) % 8192) : a ∉ l.words := by
  intro ha
  obtain ⟨j, hj, rfl⟩ := List.mem_map.1 ha
  exact h j (List.mem_range.1 hj) rfl

/-- A full write of one word. -/
def fullWord (w : Nat) (d : Word) : RowWord := { w := w, data := d, mask := 0xFF, poison := false }

/-- The writes of the words whose pairs changed. -/
def svBeat (ws : List Nat) (old new : List Word) : List RowWord :=
  ((ws.zip old).zip new).filterMap (fun e => if e.1.2 = e.2 then none else some (fullWord e.1.1 e.2))

theorem svBeat_words (ws : List Nat) (old new : List Word) : ((svBeat ws old new).map (·.w)).Sublist ws := by
  induction ws generalizing old new with
  | nil => exact List.Sublist.refl _
  | cons w ws ih =>
    cases old with
    | nil => exact List.nil_sublist _
    | cons o old =>
      cases new with
      | nil => exact List.nil_sublist _
      | cons v new =>
        rw [svBeat, List.zip_cons_cons, List.zip_cons_cons, List.filterMap_cons]
        by_cases h : o = v
        · simp only [h, if_true]
          exact (ih old new).cons w
        · simp only [h, if_false]
          exact (ih old new).cons_cons w

/-- A write of the beat stands at a place of the list whose pair changed. -/
theorem mem_svBeat {ws : List Nat} {d : Nat → Word} {new : List Word} (hlen : new.length = ws.length) {r : RowWord} :
    r ∈ svBeat ws (ws.map d) new ↔ ∃ j, ∃ h : j < ws.length, d ws[j] ≠ new[j] ∧ r = fullWord ws[j] new[j] := by
  rw [svBeat, List.mem_filterMap]
  constructor
  · rintro ⟨e, he, hr⟩
    obtain ⟨j, hj, rfl⟩ := List.mem_iff_getElem.1 he
    have hj' : j < ws.length := by simpa [hlen] using hj
    simp only [List.getElem_zip, List.getElem_map] at hr
    split at hr
    · exact absurd hr (by simp)
    · exact ⟨j, hj', ‹_›, (Option.some.inj hr).symm⟩
  · rintro ⟨j, hj, hne, rfl⟩
    refine ⟨((ws[j], d ws[j]), new[j]), List.mem_iff_getElem.2 ⟨j, by simpa [hlen] using hj, ?_⟩, if_neg hne⟩
    simp

/-- The beat leaves the new pairs in the list's words, and every other word. -/
theorem svBeat_spec (x : CoreState) (ws : List Nat) (new : List Word) (hwf : codeWf x.mem = true) (hnd : ws.Nodup)
    (hlen : new.length = ws.length) :
    SpadOnly x (CoreState.writeBeat .vx x (svBeat ws (ws.map x.data) new)) ∧
      (∀ j, ∀ h : j < ws.length, (CoreState.writeBeat .vx x (svBeat ws (ws.map x.data) new)).data ws[j] = new[j]) ∧
      ∀ a, a ∉ ws → (CoreState.writeBeat .vx x (svBeat ws (ws.map x.data) new)).data a = x.data a := by
  have hsub := svBeat_words ws (ws.map x.data) new
  obtain ⟨hframe, hwords, hrest⟩ := CoreState.writeBeat_spec .vx (svBeat ws (ws.map x.data) new) x hwf (hsub.nodup hnd)
    (fun r hr => by
      obtain ⟨j, hj, -, rfl⟩ := (mem_svBeat hlen).1 hr
      exact .inl rfl)
  refine ⟨hframe, fun j hj => ?_, fun a ha => hrest a (fun h => ha (hsub.subset h))⟩
  by_cases hsame : x.data ws[j] = new[j]
  · rw [hrest, hsame]
    intro hmem
    obtain ⟨r, hr, hw⟩ := List.mem_map.1 hmem
    obtain ⟨j', hj', hne, rfl⟩ := (mem_svBeat hlen).1 hr
    obtain rfl : j' = j := (hnd.getElem_inj_iff).1 hw
    exact hne hsame
  · exact (hwords _ ((mem_svBeat hlen).2 ⟨j, hj, hsame, rfl⟩)).trans (maskedWord_full _ _ rfl)

/-! ### Offers of candidates (spec/04 R103) -/

/-- `y` is `x` after a procedure on its list `l`: the list's words hold the procedure's list, its counts are added. -/
def SvAfter (x y : CoreState) (l : SvList) (r : SvRun) : Prop :=
  y = { x with
        mem := y.mem
        stale := y.stale
        rewrites := y.rewrites
        svRej := satAdd x.svRej r.rej
        svDup := satAdd x.svDup r.dup
        svNan := satAdd x.svNan r.nan
        svInsrt := satAdd x.svInsrt r.ins } ∧
    (∀ j < l.km1.toNat + 1, some (y.data ((l.base.toNat + j) % 8192)) = r.list[j]?) ∧ ∀ a, a ∉ l.words → y.data a = x.data a

/-- Without a candidate nothing changes. -/
theorem svAfter_nil (x : CoreState) (l : SvList) : SvAfter x x l (svProcedure l.dir l.nanpol (l.words.map x.data) []) := by
  refine ⟨?_, fun j hj => ?_, fun _ _ => rfl⟩
  · simp [svProcedure, satAdd_zero]
  · simp [svProcedure, SvList.words, hj]

/-- An offer of candidates to a clean list runs the procedure on it. -/
theorem svOffer_spec (x : CoreState) (cmd : Cmd) (cands : List Word) {l : SvList} (hl : x.svList (vQl cmd.inst) = l)
    (hwf : codeWf x.mem = true) (hclean : CleanRun .vx x l.words) :
    ∃ y, svOffer x cmd cands = (y, true) ∧ SvAfter x y l (svProcedure l.dir l.nanpol (l.words.map x.data) cands) := by
  by_cases hnil : cands = []
  · subst hnil
    exact ⟨x, rfl, svAfter_nil x l⟩
  have hlast : l.words.getLastD 0 ∈ l.words := by
    rw [List.getLastD_eq_getLast?, List.getLast?_eq_getLast_of_ne_nil (List.ne_nil_of_length_pos (by rw [l.words_length]; omega))]
    exact List.getLast_mem _
  have hreads : ∀ b : Bool, CleanRun .vx x (if b then [l.words.getLastD 0] else l.words) := by
    intro b w hw
    cases b
    · exact hclean w hw
    · exact hclean w (List.mem_singleton.1 hw ▸ hlast)
  have hlen : (svProcedure l.dir l.nanpol (l.words.map x.data) cands).list.length = l.words.length := by
    rw [svProcedure_length, List.length_map]
  obtain ⟨hframe, hwords, hrest⟩ := svBeat_spec x l.words _ hwf l.words_nodup hlen
  unfold svOffer
  dsimp only
  rw [hl, if_neg (by simpa using hnil), CoreState.fetchWords_clean (hreads _)]
  refine ⟨_, rfl, ?_, fun j hj => ?_, hrest⟩
  · exact congrArg (fun y : CoreState => { y with
      svRej := satAdd y.svRej (svProcedure l.dir l.nanpol (l.words.map x.data) cands).rej
      svDup := satAdd y.svDup (svProcedure l.dir l.nanpol (l.words.map x.data) cands).dup
      svNan := satAdd y.svNan (svProcedure l.dir l.nanpol (l.words.map x.data) cands).nan
      svInsrt := satAdd y.svInsrt (svProcedure l.dir l.nanpol (l.words.map x.data) cands).ins }) hframe
  · rw [← l.words_length] at hj
    have hword := hwords j hj
    rw [List.getElem?_eq_getElem (by rw [hlen]; exact hj), ← hword]
    simp only [SvList.words, List.getElem_map, List.getElem_range]
    rfl

end Sys2Proof.Machine

/-! SUPPORT. The sieve's instructions (spec/04 R101-R103, R107). -/

namespace Sys2Proof.Machine

open Sys2Proof.Claims

/-! ### Operands and effects -/

section

variable (x z : CoreState) (i : Inst128)

theorem vxSieveRun_svcfg (h : iOpc i = 0x50) : vxSieveRun z (mkCmd .vx x i) = svCfg z (mkCmd .vx x i) := by
  simp only [vxSieveRun, mkCmd_inst, h]

theorem vxSieveRun_svclr (h : iOpc i = 0x51) : vxSieveRun z (mkCmd .vx x i) = svClr z (mkCmd .vx x i) := by
  simp only [vxSieveRun, mkCmd_inst, h]

theorem vxSieveRun_svins (h : iOpc i = 0x52) : vxSieveRun z (mkCmd .vx x i) = svIns z (mkCmd .vx x i) := by
  simp only [vxSieveRun, mkCmd_inst, h]

theorem vxSieveRun_svinsw (h : iOpc i = 0x53) : vxSieveRun z (mkCmd .vx x i) = svInsw z (mkCmd .vx x i) := by
  simp only [vxSieveRun, mkCmd_inst, h]

/-- SVINS takes copies of VA, VB and its lanes (spec/04 R100). -/
theorem mkCmd_svins (h : iOpc i = 0x52) : (mkCmd .vx x i).va = vAt x i 25 ∧ (mkCmd .vx x i).vb = vAt x i 30 ∧
    (mkCmd .vx x i).msk = x.lanes i := by
  simp only [mkCmd, h]
  exact ⟨rfl, rfl, trivial⟩

/-- The descriptor that SVCFG writes (spec/04 R101). -/
def svCfgList : SvList :=
  { base := BitVec.ofNat 13 (vxWord x i)
    km1 := BitVec.ofNat 10 (vImm i)
    dir := (vImm i).testBit 10
    ktype := (vImm i).testBit 11
    nanpol := (vImm i).testBit 12
    valid := true }

/-- SVCFG of a list that lies in the scratchpad and meets no valid list (spec/04 R107). -/
theorem svCfg_ok (h : iOpc i = 0x50) (hlists : z.lists = x.lists) (hin : vxWord x i + vImm i % 2 ^ 10 + 1 ≤ 8192)
    (hfree : ∀ j < 16, j ≠ vQl i → (x.svList j).valid = true →
      (x.svList j).base.toNat + (x.svList j).km1.toNat + 1 ≤ vxWord x i ∨ vxWord x i + vImm i % 2 ^ 10 + 1 ≤ (x.svList j).base.toNat) :
    svCfg z (mkCmd .vx x i) = ({ z with lists := x.lists.set (BitVec.ofNat 4 (vQl i)) (svCfgList x i) }, true) := by
  obtain ⟨haddr, -, -⟩ := mkCmd_operands x i (by rw [h]; decide)
  have hk : nfld (vImm i) 0 10 = vImm i % 2 ^ 10 := by simp [nfld]
  have hclash : (List.range 16).any (fun j => decide (j ≠ vQl i) && (x.svList j).valid &&
      rowsMeet (x.svList j).span (vxWord x i, vImm i % 2 ^ 10 + 1)) = false := by
    rw [List.any_eq_false]
    intro j hj hmeet
    simp only [Bool.and_eq_true, decide_eq_true_eq, rowsMeet, SvList.span] at hmeet
    obtain ⟨⟨hne, hvalid⟩, hlo, hhi⟩ := hmeet
    have hapart := hfree j (List.mem_range.1 hj) hne hvalid
    have hbelow := of_decide_eq_true hlo
    have habove := of_decide_eq_true hhi
    omega
  have hlist : ∀ j, z.svList j = x.svList j := fun j => by rw [CoreState.svList, hlists]; rfl
  unfold svCfg
  simp only [mkCmd_inst, haddr, hk, hlist]
  rw [hclash, Bool.or_false, if_neg (by rw [decide_eq_true_eq]; omega), hlists]
  rfl

/-- SVCLR of a valid list: every word of it holds the empty pair (spec/04 R102). -/
theorem svClr_ok {l : SvList} (hl : z.svList (vQl i) = l) (hvalid : l.valid = true) (hwf : codeWf z.mem = true) :
    ∃ y, svClr z (mkCmd .vx x i) = (y, true) ∧ SpadOnly z y ∧
      (∀ j < l.km1.toNat + 1, y.data ((l.base.toNat + j) % 8192) = emptyPair l.dir) ∧ ∀ a, a ∉ l.words → y.data a = z.data a := by
  have hmap : (l.words.map (fun w => fullWord w (emptyPair l.dir))).map (·.w) = l.words := by
    rw [List.map_map]
    exact List.map_id _
  obtain ⟨hframe, hwords, hrest⟩ := CoreState.writeBeat_spec .vx (l.words.map (fun w => fullWord w (emptyPair l.dir))) z hwf
    (by rw [hmap]; exact l.words_nodup) (fun r hr => by
      obtain ⟨w, -, rfl⟩ := List.mem_map.1 hr
      exact .inl rfl)
  refine ⟨_, ?_, hframe, fun j hj => ?_, fun a ha => hrest a (by rw [hmap]; exact ha)⟩
  · unfold svClr
    dsimp only
    rw [mkCmd_inst, hl, hvalid, if_neg (by decide)]
    rfl
  · have hmem : fullWord ((l.base.toNat + j) % 8192) (emptyPair l.dir) ∈ l.words.map (fun w => fullWord w (emptyPair l.dir)) :=
      List.mem_map_of_mem (List.mem_map.2 ⟨j, List.mem_range.2 hj, rfl⟩)
    exact (hwords _ hmem).trans (maskedWord_full _ _ rfl)

/-- The pairs that SVINS offers: the selected lanes of VA and VB, in lane order (spec/04 R103). -/
def svinsCands : List Word := (List.range 32).filterMap (fun j =>
  if laneOn x i j then some ((vAt x i 25).extractLsb' (32 * j) 32 ++ (vAt x i 30).extractLsb' (32 * j) 32) else none)

theorem svIns_eq (h : iOpc i = 0x52) (hvalid : (z.svList (vQl i)).valid = true) :
    svIns z (mkCmd .vx x i) = svOffer z (mkCmd .vx x i) (svinsCands x i) := by
  obtain ⟨ha, hb, hm⟩ := mkCmd_svins x i h
  unfold svIns
  rw [mkCmd_inst, hvalid, if_neg (by decide), ha, hb, hm]
  refine congrArg (svOffer z (mkCmd .vx x i)) (List.filterMap_congr (fun j hj => ?_))
  rw [lanes_getLsbD x i j (List.mem_range.1 hj)]

theorem svInsw_eq (h : iOpc i = 0x53) (hvalid : (z.svList (vQl i)).valid = true)
    (hclean : CleanRun .vx z (wordsFrom (vxWord x i) (vN i))) :
    svInsw z (mkCmd .vx x i) = svOffer z (mkCmd .vx x i) ((wordsFrom (vxWord x i) (vN i)).map z.data) := by
  obtain ⟨haddr, -, -⟩ := mkCmd_operands x i (by rw [h]; decide)
  have hfetch := CoreState.fetchWords_clean hclean (mkCmd .vx x i).epc 3
  rw [wordsFrom] at hfetch
  unfold svInsw
  dsimp only
  rw [mkCmd_inst, hvalid, if_neg (by decide), haddr, hfetch]
  rfl

end

/-! ### From issue to the sieve's effect -/

/-- A sieve instruction whose command starts at once. -/
theorem State.issue_sieve {s : State} {c : CoreId} {op : Nat} {i : Inst128} (h : EngineAt s c .vx 3 op i)
    (heng : engineOf .vx op = some 3) {r : CoreState}
    (hrun : vxSieveRun (issued (s.core c) i) (mkCmd .vx (s.core c) i) = (r, true))
    (h1 : r.e1 = (issued (s.core c) i).e1) (h2 : r.e2 = (issued (s.core c) i).e2) (h3 : r.e3 = (issued (s.core c) i).e3) :
    s.issue c .vx op engineBody = s.setCore c { r with e3 := { prog := [mkCmd .vx (s.core c) i] } } :=
  State.issue_engine h heng (.inr rfl) hrun (h1.trans (issued_e1 _ i)) (h2.trans (issued_e2 _ i)) (h3.trans (issued_e3 _ i))

theorem inProgress_e3 (y : CoreState) (x : CoreState) (i : Inst128) (h : y.e3 = { prog := [mkCmd .vx x i] }) : InProgress y 3 i :=
  ⟨mkCmd .vx x i, h, mkCmd_inst x i⟩

/-- What an offer leaves in the core, of the issued core's own words and counts (spec/04 R103). -/
def SvDone (x y : CoreState) (i : Inst128) (l : SvList) (r : SvRun) : Prop :=
  InProgress y 3 i ∧
    y = { issued x i with
          e3 := y.e3
          mem := y.mem
          stale := y.stale
          rewrites := y.rewrites
          svRej := satAdd x.svRej r.rej
          svDup := satAdd x.svDup r.dup
          svNan := satAdd x.svNan r.nan
          svInsrt := satAdd x.svInsrt r.ins } ∧
    (∀ j < l.km1.toNat + 1, some (y.data ((l.base.toNat + j) % 8192)) = r.list[j]?) ∧
    ∀ a, a < 8192 → (∀ j < l.km1.toNat + 1, a ≠ (l.base.toNat + j) % 8192) → y.data a = x.data a

/-- A sieve instruction that offers candidates to a valid, clean list. -/
theorem State.issue_offer {s : State} {c : CoreId} {op : Nat} {i : Inst128} (h : EngineAt s c .vx 3 op i)
    (heng : engineOf .vx op = some 3) {l : SvList} (hl : (s.core c).svList (vQl i) = l) (hwf : (s.core c).memWf = true)
    (hclean : CleanRun .vx (s.core c) l.words) (cands : List Word)
    (hrun : vxSieveRun (issued (s.core c) i) (mkCmd .vx (s.core c) i) =
      svOffer (issued (s.core c) i) (mkCmd .vx (s.core c) i) cands) :
    ∃ y, s.issue c .vx op engineBody = s.setCore c y ∧
      SvDone (s.core c) y i l (svProcedure l.dir l.nanpol
        ((List.range (l.km1.toNat + 1)).map (fun j => (s.core c).data ((l.base.toNat + j) % 8192))) cands) := by
  have hold : l.words.map (s.core c).data =
      (List.range (l.km1.toNat + 1)).map (fun j => (s.core c).data ((l.base.toNat + j) % 8192)) := List.map_map ..
  have hdata : (issued (s.core c) i).data = (s.core c).data := funext (issued_data (s.core c) i)
  have hrej : (issued (s.core c) i).svRej = (s.core c).svRej := (congrArg CoreState.svRej (issued_frame (s.core c) i) :)
  have hdup : (issued (s.core c) i).svDup = (s.core c).svDup := (congrArg CoreState.svDup (issued_frame (s.core c) i) :)
  have hnan : (issued (s.core c) i).svNan = (s.core c).svNan := (congrArg CoreState.svNan (issued_frame (s.core c) i) :)
  have hins : (issued (s.core c) i).svInsrt = (s.core c).svInsrt := (congrArg CoreState.svInsrt (issued_frame (s.core c) i) :)
  obtain ⟨r, hoffer, hafter⟩ := svOffer_spec (issued (s.core c) i) (mkCmd .vx (s.core c) i) cands (l := l)
    (by rw [mkCmd_inst, issued_svList, hl]) (by rw [issued_mem]; exact hwf) (cleanRun_issued hclean i)
  have hissue := State.issue_sieve h heng (hrun.trans hoffer)
  unfold SvDone
  rw [hdata, hold] at hafter
  generalize issued (s.core c) i = z at hdata hrej hdup hnan hins hafter hissue ⊢
  obtain ⟨hframe, hlist, hrest⟩ := hafter
  refine ⟨_, hissue (congrArg CoreState.e1 hframe :) (congrArg CoreState.e2 hframe :) (congrArg CoreState.e3 hframe :),
    inProgress_e3 _ (s.core c) i rfl, ?_, hlist, fun a _ ha => ?_⟩
  · rw [← hrej, ← hdup, ← hnan, ← hins]
    exact congrArg (fun y : CoreState => { y with e3 := { prog := [mkCmd .vx (s.core c) i] } }) hframe
  · rw [← hdata]
    exact hrest a (SvList.not_mem_words ha)

/-- Settles O13: SVCFG by its descriptor, SVCLR by its beat, SVINS and SVINSW by the offer that they make. -/
theorem vxSieveResults : Obligations.VxSieveResults := by
  unfold Obligations.VxSieveResults
  refine fun s c i => ⟨fun h hin hfree => ?svcfg, fun h hwf hvalid => ?svclr, fun h hwf hvalid hclean => ?svins,
    fun h hwf hvalid hclean hwords => ?svinsw⟩
  case svcfg =>
    have hrun := (vxSieveRun_svcfg (s.core c) (issued (s.core c) i) i (engineAt_opc h)).trans
      (svCfg_ok _ _ i (engineAt_opc h) (issued_lists _ i) hin (fun j hj => hfree ⟨j, hj⟩))
    have hissue := State.issue_sieve h rfl hrun rfl rfl rfl
    generalize issued (s.core c) i = z at hissue ⊢
    exact ⟨_, congrArg _ hissue, inProgress_e3 _ (s.core c) i rfl, rfl⟩
  case svclr =>
    obtain ⟨r, hclr, hclear⟩ := svClr_ok (s.core c) (issued (s.core c) i) i (issued_svList _ i _) hvalid (by rw [issued_mem]; exact hwf)
    have hdata := issued_data (s.core c) i
    have hissue := State.issue_sieve h rfl ((vxSieveRun_svclr _ _ i (engineAt_opc h)).trans hclr)
    generalize issued (s.core c) i = z at hdata hclear hissue ⊢
    obtain ⟨hframe, hlist, hrest⟩ := hclear
    refine ⟨_, congrArg _ (hissue (congrArg CoreState.e1 hframe :) (congrArg CoreState.e2 hframe :) (congrArg CoreState.e3 hframe :)),
      inProgress_e3 _ (s.core c) i rfl, ?_, hlist, fun a _ ha => ?_⟩
    · exact congrArg (fun y : CoreState => { y with e3 := { prog := [mkCmd .vx (s.core c) i] } }) hframe
    · rw [← hdata]
      exact hrest a (SvList.not_mem_words ha)
  case svins =>
    obtain ⟨y, hy, hdone⟩ := State.issue_offer h rfl rfl hwf hclean _ ((vxSieveRun_svins _ _ i (engineAt_opc h)).trans
      (svIns_eq (s.core c) _ i (engineAt_opc h) (by rw [issued_svList]; exact hvalid)))
    exact ⟨y, congrArg _ hy, hdone⟩
  case svinsw =>
    have hdata : (issued (s.core c) i).data = (s.core c).data := funext (issued_data (s.core c) i)
    obtain ⟨y, hy, hdone⟩ := State.issue_offer h rfl rfl hwf hclean _ ((vxSieveRun_svinsw _ _ i (engineAt_opc h)).trans
      (svInsw_eq (s.core c) _ i (engineAt_opc h) (by rw [issued_svList]; exact hvalid) (cleanRun_issued hwords i)))
    rw [hdata] at hdone
    exact ⟨y, congrArg _ hy, hdone⟩

end Sys2Proof.Machine

/-! SUPPORT. A packet at a core's inbound port: what its way there leaves of the state, and what the port's refusals answer
(spec/08 R206, spec/09 R233, R248, spec/14 R369). -/

namespace Sys2Proof.Machine

open Sys2Proof.Claims

/-! ### The way to the port -/

/-- `t` is `s` but for what a passing packet counts at routers and hubs, and the free values drawn for it. -/
def State.FlitsOnly (s t : State) : Prop := t = { s with routers := t.routers, hubs := t.hubs, freeCtr := t.freeCtr }

theorem State.FlitsOnly.refl (s : State) : s.FlitsOnly s := rfl

theorem State.FlitsOnly.trans {s t u : State} (h : s.FlitsOnly t) (k : t.FlitsOnly u) : s.FlitsOnly u := by
  unfold State.FlitsOnly at *
  rw [k, h]

theorem State.flitsOnly_foldl {β : Type} (f : State → β → State) (hf : ∀ (t : State) (b : β), t.FlitsOnly (f t b)) (l : List β)
    (s : State) : s.FlitsOnly (l.foldl f s) := by
  induction l generalizing s with
  | nil => exact State.FlitsOnly.refl s
  | cons b l ih => exact (hf s b).trans (ih _)

theorem State.flitsOnly_countFlits (s : State) (p : Packet) (w : Walk) : s.FlitsOnly (s.countFlits p w) := by
  have hdraw : s.FlitsOnly s.draw.2 := rfl
  unfold State.countFlits
  refine (hdraw.trans (State.flitsOnly_foldl _ (fun t r => ?_) w.routers _)).trans (State.flitsOnly_foldl _ (fun t r => ?_) w.hubs _)
  · rfl
  · rfl

theorem State.flitsOnly_passed (s : State) {p : Packet} (w : Walk) (h : p.ptype ≠ pRdata) : s.FlitsOnly (s.passed p w) := by
  rw [State.passed, if_neg h]
  exact State.flitsOnly_countFlits s p w.left

/-- `u` is `s` when its `k`-th packet, no RDATA, has come to the port of the core `c`. -/
def Reached (s u : State) (k : Nat) (c : CoreId) : Prop :=
  u = { s with net := s.net.eraseIdx k, routers := u.routers, hubs := u.hubs, fields := (ungated s c).fields, freeCtr := u.freeCtr }

theorem ptype_of_lands {s : State} {k ty : Nat} {p : Packet} {c : CoreId} (h : Lands s k ty p c) : p.ptype = ty := by
  obtain ⟨-, hty, -⟩ := h
  exact hty

theorem dkind_of_lands {s : State} {k ty : Nat} {p : Packet} {c : CoreId} (h : Lands s k ty p c) : p.dkind = 0 := by
  obtain ⟨-, -, hkind, -⟩ := h
  exact hkind

theorem dstCore_of_lands {s : State} {k ty : Nat} {p : Packet} {c : CoreId} (h : Lands s k ty p c) : p.dstCore = c := by
  obtain ⟨-, -, -, hx, hy, -⟩ := h
  simp [Packet.dstCore, hx, hy]

theorem isSome_of_lands {s : State} {k ty : Nat} {p : Packet} {c : CoreId} (h : Lands s k ty p c) :
    (coreField c).isSome = true := by
  obtain ⟨-, -, -, -, -, -, -, hsome, -⟩ := h
  exact hsome

theorem State.arriving_of_lands {s : State} {k ty : Nat} {p : Packet} {c : CoreId} (h : Lands s k ty p c) {types kinds : List Nat}
    (ht : ty ∈ types) (hk : 0 ∈ kinds) : s.arriving k types kinds = some p := by
  obtain ⟨hnet, hty, hkind, -, -, hfirst, -⟩ := h
  have hany : (s.net.take k).any (samePath p) = false := by simpa using hfirst
  simp [State.arriving, hnet, hty, hkind, ht, hk, hany]

/-- The arrival of a packet that lands is the port's work on the state in which it has come there. -/
theorem State.arrive_of_lands {s : State} {k ty : Nat} {p : Packet} {c : CoreId} (h : Lands s k ty p c) {types kinds : List Nat}
    (ht : ty ∈ types) (hk : 0 ∈ kinds) (hr : ty ≠ pRdata) (f : State → Packet → State) :
    ∃ u, s.arrive k types kinds f = f u p ∧ Reached s u k c := by
  have harr := State.arriving_of_lands h ht hk
  have hdst := dstCore_of_lands h
  obtain ⟨-, hty, hkind, -, -, -, hfin, hsome, -⟩ := h
  obtain ⟨g, hg⟩ := Option.isSome_iff_exists.1 hsome
  have hpass := (s.dropNet k).flitsOnly_passed (s.route p) (hty ▸ hr : p.ptype ≠ pRdata)
  refine ⟨((s.dropNet k).passed p (s.route p)).ungate p, ?_, ?_⟩
  · simp only [State.arrive, harr, hfin]
  · simp only [State.ungate, hkind, hdst, hg, ne_eq, not_true_eq_false, if_false]
    unfold Reached ungated
    rw [hg]
    unfold State.FlitsOnly at hpass
    rw [hpass]
    rfl

/-! ### What the port reads -/

theorem field_ungated (s : State) (c : CoreId) (f : Nat) :
    (ungated s c).field f = { s.field f with gated := ((ungated s c).field f).gated } := by
  rw [ungated, State.field_modField]
  split <;> rfl

theorem Reached.field {s u : State} {k : Nat} {c : CoreId} (h : Reached s u k c) (f : Nat) :
    u.field f = { s.field f with gated := (u.field f).gated } := by
  have hf : u.field f = (ungated s c).field f := by rw [h]; rfl
  rw [hf]
  exact field_ungated s c f

@[simp] theorem Reached.core {s u : State} {k : Nat} {c : CoreId} (h : Reached s u k c) (d : CoreId) : u.core d = s.core d := by
  rw [h]; rfl

theorem Reached.coreJob {s u : State} {k : Nat} {c : CoreId} (h : Reached s u k c) (d : CoreId) : u.coreJob d = s.coreJob d := by
  have hjob : ∀ f, u.fieldJob f = s.fieldJob f := fun f => by
    rw [State.fieldJob, h.field]
    rfl
  simp only [State.coreJob, funext hjob]

theorem Reached.injectionHeld {s u : State} {k : Nat} {c : CoreId} (h : Reached s u k c) (p : Packet) :
    u.injectionHeld p = s.injectionHeld p := by
  have hentry : u.entryField p = s.entryField p := by rw [h]; rfl
  have hheld : ∀ f, (u.field f).rtHeld = (s.field f).rtHeld := fun f => by rw [h.field]
  simp only [State.injectionHeld, hentry, hheld]

/-- The core's position refuses nothing of a packet that lands. -/
theorem Reached.coreRefusal {s u : State} {k ty : Nat} {p : Packet} {c : CoreId} (hu : Reached s u k c) (h : Lands s k ty p c) :
    u.coreRefusal c p = none := by
  obtain ⟨-, -, -, -, -, -, -, hsome, hcode, hopen, hjob, hwf⟩ := h
  have hcode' : u.code c = 0 := by rw [hu]; exact hcode
  obtain ⟨f, hf⟩ := Option.isSome_iff_exists.1 hsome
  obtain ⟨j, hj⟩ := Option.isSome_iff_exists.1 hjob
  simp [State.coreRefusal, hu.core, hu.coreJob, hcode', hopen, hwf, hf, hj]

/-! ### What the port leaves -/

theorem Reached.landed {s u : State} {k : Nat} {c : CoreId} (h : Reached s u k c) (y : CoreState) :
    Landed s (u.setCore c y) k [] c y := by
  unfold Landed
  rw [List.map_nil, List.append_nil, h]
  rfl

theorem State.send_uncounted (s : State) (e : NetEnd) {q : Packet} (h : q.counted = false) :
    s.send e q = { s with net := s.net ++ [entering s q] } := by
  simp only [State.send, h, Bool.false_eq_true, if_false, entering]

theorem Reached.landed_send {s u : State} {k : Nat} {c : CoreId} (h : Reached s u k c) (y : CoreState) {q : Packet} (e : NetEnd)
    (hq : q.counted = false) : Landed s ((u.setCore c y).send e q) k [q] c y := by
  have hent : entering (u.setCore c y) q = entering s q := congrArg (fun o => { q with out := o }) (h.injectionHeld q)
  rw [State.send_uncounted _ _ hq, hent]
  unfold Landed
  rw [h]
  rfl

@[simp] theorem State.takeOff_uncounted (s : State) (e : NetEnd) {p : Packet} (h : p.counted = false) : s.takeOff e p = s := by
  simp [State.takeOff, h]

/-- A refused request that is not counted and no READ is answered by its NAK alone. -/
theorem State.refuseAt_uncounted (s : State) {p : Packet} (e : NetEnd) (x y : Nat) (ep : BitVec 2) (reason words : Nat)
    (h : p.counted = false) (hr : p.ptype ≠ pRead) : s.refuseAt p e x y ep reason words = s.send e (p.nak x y ep reason words) := by
  simp [State.refuseAt, h, hr]

theorem State.coreRefuse_unmapped (s : State) {c : CoreId} {p : Packet} (words : Nat) (hc : (coreField c).isSome = true)
    (h : p.counted = false) (hr : p.ptype ≠ pRead) : s.coreRefuse c p nakUnmapped words =
      (s.setCore c (s.core c).setUnmap).send (posEnd c) (p.nak c.x c.y (s.core c).epoch nakUnmapped words) := by
  simp [State.coreRefuse, unmapsCore, hc, State.refusePoint, State.refuseAt_uncounted _ _ _ _ _ _ _ h hr, State.modCore,
    CoreState.setUnmap]

theorem stagedAt_uncounted (c : CoreId) {p : Packet} (h : p.counted = false) (hr : p.ptype ≠ pRdata) : stagedAt c p = false := by
  simp [stagedAt, h, hr]

theorem lt_sixty_of_coreField {c : CoreId} {f : Nat} (h : coreField c = some f) : f < 60 := by
  unfold coreField fieldAt at h
  split_ifs at h <;> simp only [Option.some.injEq] at h <;> omega

end Sys2Proof.Machine

/-! SUPPORT. WRITEs, queue sends and credit returns at a core's port, outcome by outcome (spec/05 R126, R133, spec/07 R165, R166, R175,
R176, R180, R181, R491). -/

namespace Sys2Proof.Machine

open Sys2Proof.Claims

/-! ### WRITEs -/

section

variable {s : State} {c : CoreId} {x : CoreState} {p : Packet} {d : Word} {po : Bool}

/-- A WRITE of one word to a mapped offset. -/
theorem State.writeIn_mapped (hx : s.core c = x) (hp : p.ptype = 0) (hpay : p.pay = [(d, po)])
    (hw : nfld p.da 0 16 / 8 < (coreKind c).words) :
    s.writeIn c p = (s.setCore c (rowAdded x .plain (stagedAt c p) p
      { w := nfld p.da 0 16 / 8, data := d, mask := BitVec.ofNat 8 (nfld p.h1.toNat 48 8), poison := po })).takeOff (posEnd c) p := by
  have hws : mappedWords (coreKind c) p (nfld p.da 0 16) =
      [{ w := nfld p.da 0 16 / 8, data := d, mask := BitVec.ofNat 8 (nfld p.h1.toNat 48 8), poison := po }] := by
    simp [mappedWords, hpay, writeMask, hp, pWrite, hw]
  simp only [State.writeIn, hws, hpay, List.length_cons, List.length_nil, Nat.sub_self, if_true, State.modCore, hx]
  rfl

/-- A WRITE of one word past the scratchpad (spec/05 R126). -/
theorem State.writeIn_unmapped (hx : s.core c = x) (hpay : p.pay = [(d, po)]) (hw : (coreKind c).words ≤ nfld p.da 0 16 / 8)
    (hcnt : p.counted = false) :
    s.writeIn c p = (s.setCore c { x with nextSend := x.nextSend + 1, sp := { x.sp with unmap := true } }).send
      (posEnd c) (p.nak c.x c.y x.epoch nakUnmapped 1) := by
  have hws : mappedWords (coreKind c) p (nfld p.da 0 16) = [] := by simp [mappedWords, hpay, hw]
  simp [State.writeIn, hws, hpay, hx, CoreState.addRows, rowGroups, CoreState.setUnmap, hcnt, State.modCore]

end

theorem Reached.coreWrite {s u : State} {k : Nat} {p : Packet} {c : CoreId} (hu : Reached s u k c) (h : Lands s k 0 p c)
    (hda : daDest p.da = some (0, c.x, c.y)) (hspace : nfld p.da 44 4 = 0) : u.coreWrite p = u.writeIn c p := by
  simp [State.coreWrite, dstCore_of_lands h, hu.coreRefusal h, hda, hspace]

theorem exec_writeArrival {s : State} {k : Nat} {p : Packet} {c : CoreId} (h : Lands s k 0 p c)
    (hda : daDest p.da = some (0, c.x, c.y)) (hspace : nfld p.da 44 4 = 0) :
    ∃ u, exec (.writeArrival k) s = .next (u.writeIn c p) ∧ Reached s u k c := by
  obtain ⟨u, harr, hu⟩ := State.arrive_of_lands h (types := [pWrite]) (kinds := [0, 3]) (by simp [pWrite]) (by simp) (by decide)
    (fun s p => if p.dkind = 0 then s.coreWrite p else s.fcWrite p)
  rw [if_pos (dkind_of_lands h), hu.coreWrite h hda hspace] at harr
  exact ⟨u, congrArg Host.Outcome.next harr, hu⟩

/-- A counted packet taken off where it has landed is counted off its slot in the core's field, and nowhere else. -/
theorem Reached.counted_off {s u : State} {k : Nat} {c : CoreId} (hu : Reached s u k c) (y : CoreState) {p : Packet}
    (hf : (coreField c).isSome = true) (hcnt : p.counted = true) (hslot : p.slot < 16) :
    ∃ t, (u.setCore c y).takeOff (posEnd c) p = t ∧
      t = { s with net := s.net.eraseIdx k, routers := t.routers, hubs := t.hubs, fields := t.fields, freeCtr := t.freeCtr,
                   cores := (s.setCore c y).cores } ∧
      (∀ g, g ≠ (coreField c).getD 0 → t.field g = s.field g) ∧
      t.field ((coreField c).getD 0) = { s.field ((coreField c).getD 0) with
        gated := false
        delta := tset (s.field ((coreField c).getD 0)).delta p.slot (tget 0 (s.field ((coreField c).getD 0)).delta p.slot - 1) } := by
  obtain ⟨f, hfc⟩ := Option.isSome_iff_exists.1 hf
  have hlt := lt_sixty_of_coreField hfc
  have hfield : ∀ g, u.field g = (ungated s c).field g := fun g => by rw [hu]; rfl
  have hoff : (u.setCore c y).takeOff (posEnd c) p =
      (u.setCore c y).modField f (fun x => { x with delta := tmod x.delta p.slot (· + -1) }) := by
    simp [State.takeOff, hcnt, posEnd, hfc, State.addDelta]
  refine ⟨_, hoff, ?_, fun g hg => ?_, ?_⟩
  · rw [hu]
    rfl
  · rw [hfc, Option.getD_some] at hg
    rw [State.field_modField, if_neg (fun e => hg e.1.symm), State.field_setCore, hfield, ungated, hfc, Option.getD_some,
      State.field_modField, if_neg (fun e => hg e.1.symm)]
  · rw [hfc, Option.getD_some, State.field_modField, if_pos ⟨rfl, hlt⟩, State.field_setCore, hfield, ungated, hfc,
      Option.getD_some, State.field_modField, if_pos ⟨rfl, hlt⟩]
    simp [tmod, tset, tget, hslot, sub_eq_add_neg]

/-! ### Queue sends -/

/-- The DA of a queue send to the port of a core (spec/12 R307, Table 12.4). -/
theorem Packet.daBad_iff {p : Packet} (h : p.ptype = 1) : p.daBad = false ↔ nfld p.da 44 4 = 0 ∧ nfld p.da 16 8 = 0 := by
  simp [Packet.daBad, h, pQsend]

theorem Reached.coreQueue {s u : State} {k ty : Nat} {p : Packet} {c : CoreId} (hu : Reached s u k c) (h : Lands s k ty p c)
    (f : State → CoreId → Packet → State) :
    u.coreQueue p f = if p.daBad then u.coreRefuse c p nakUnmapped p.len else f u c p := by
  simp [State.coreQueue, dstCore_of_lands h, hu.coreRefusal h]

theorem exec_qsendArrival {s : State} {k : Nat} {p : Packet} {c : CoreId} (h : Lands s k 1 p c) :
    ∃ u, exec (.qsendArrival k) s =
      .next (if p.daBad then u.coreRefuse c p nakUnmapped p.len else u.queueIn c p false) ∧ Reached s u k c := by
  obtain ⟨u, harr, hu⟩ := State.arrive_of_lands h (types := [pQsend]) (kinds := [0]) (by simp [pQsend]) (by simp) (by decide)
    (fun s p => s.coreQueue p (fun s c p => s.queueIn c p false))
  rw [hu.coreQueue h] at harr
  exact ⟨u, congrArg Host.Outcome.next harr, hu⟩

theorem exec_qsendArrival_plain {s : State} {k : Nat} {p : Packet} {c : CoreId} (h : Lands s k 1 p c)
    (hda : nfld p.da 44 4 = 0 ∧ nfld p.da 16 8 = 0) :
    ∃ u, exec (.qsendArrival k) s = .next (u.queueIn c p false) ∧ Reached s u k c := by
  have hok := (Packet.daBad_iff (ptype_of_lands h)).2 hda
  obtain ⟨u, hexec, hu⟩ := exec_qsendArrival h
  rw [hok, if_neg Bool.false_ne_true] at hexec
  exact ⟨u, hexec, hu⟩

theorem exec_qsendArrival_badAddress {s : State} {k : Nat} {p : Packet} {c : CoreId} (h : Lands s k 1 p c)
    (hda : ¬ (nfld p.da 44 4 = 0 ∧ nfld p.da 16 8 = 0)) :
    ∃ u, exec (.qsendArrival k) s = .next (u.coreRefuse c p nakUnmapped p.len) ∧ Reached s u k c := by
  have hbad : p.daBad = true := by
    rw [← Packet.daBad_iff (ptype_of_lands h), Bool.not_eq_false] at hda
    exact hda
  obtain ⟨u, hexec, hu⟩ := exec_qsendArrival h
  rw [hbad, if_pos rfl] at hexec
  exact ⟨u, hexec, hu⟩

theorem exec_creditArrival {s : State} {k : Nat} {p : Packet} {c : CoreId} (h : Lands s k 2 p c) :
    ∃ u, exec (.creditArrival k) s = .next (u.creditIn c p) ∧ Reached s u k c := by
  obtain ⟨u, harr, hu⟩ := State.arrive_of_lands h (types := [pCredit]) (kinds := [0]) (by simp [pCredit]) (by simp) (by decide)
    (fun s p => s.coreQueue p State.creditIn)
  have hda : p.daBad = false := by simp [Packet.daBad, ptype_of_lands h, pQsend]
  rw [hu.coreQueue h, hda] at harr
  exact ⟨u, congrArg Host.Outcome.next harr, hu⟩

section

variable {s : State} {c : CoreId} {x : CoreState} {p : Packet} {d : Word} {po : Bool}

/-- A send of another EPOCH (spec/07 R175). -/
theorem State.queueIn_epoch (hx : s.core c = x) (own : Bool) (h : p.epoch ≠ (x.qu p.qid).d.epoch) :
    s.queueIn c p own =
      (s.setCore c (withQueue x p.qid { x.qu p.qid with epdrop := satAdd (x.qu p.qid).epdrop 1 })).takeOff (posEnd c) p := by
  simp only [State.queueIn, hx, if_pos h]
  rfl

/-- A send to a closed queue (spec/07 R176). -/
theorem State.queueIn_closed (hx : s.core c = x) (own : Bool) (he : p.epoch = (x.qu p.qid).d.epoch) (hst : (x.qu p.qid).d.state = 2) :
    s.queueIn c p own =
      (s.setCore c (withQueue x p.qid { x.qu p.qid with drop := satAdd (x.qu p.qid).drop p.len })).refuseAt
        p (posEnd c) c.x c.y x.epoch nakClosed p.len := by
  simp only [State.queueIn, hx, he, hst, ne_eq, not_true_eq_false, if_false]
  rfl

/-- A send of one word fits the format of a PLAIN queue of one-word entries (spec/07 R185). -/
theorem sendFormatBad_oneWord {q : Queue} (hty : p.ptype = 1) (hlen : p.len = 1) (hoff : nfld p.da 0 16 = 0) (hmode : q.d.mode = 0)
    (hes : q.d.esize = 1) : sendFormatBad q p = false := by
  have hzero : ∀ lo w, nfld 0 lo w = 0 := by simp [nfld]
  simp [sendFormatBad, hty, pRdata, hoff, hzero, Queue.isCredit, Queue.isPot, Queue.esize, hmode, hes, hlen]

/-- A send of one word to an open PLAIN queue of one-word entries with room (spec/07 R166, R181). -/
theorem State.queueIn_plain (hx : s.core c = x) (own : Bool) (hty : p.ptype = 1) (hlen : p.len = 1) (hoff : nfld p.da 0 16 = 0)
    (he : p.epoch = (x.qu p.qid).d.epoch) (hst : (x.qu p.qid).d.state = 1) (hmode : (x.qu p.qid).d.mode = 0)
    (hes : (x.qu p.qid).d.esize = 1) (hrsv : (x.qu p.qid).rsv = []) (hroom : (x.qu p.qid).count < (x.qu p.qid).d.depth.toNat) :
    s.queueIn c p own = (s.setCore c (x.acceptPlain (coreKind c) p.qid p own (stagedAt c p))).takeOff (posEnd c) p := by
  have hformat := sendFormatBad_oneWord hty hlen hoff hmode hes
  have hpot : (x.qu p.qid).isPot = false := by simp [Queue.isPot, hmode]
  have hfree : ¬ (x.qu p.qid).free < p.len / max 1 (x.qu p.qid).esize := by
    have hone : p.len / max 1 (x.qu p.qid).esize = 1 := by simp [Queue.esize, hes, hlen]
    have hpart : (x.qu p.qid).partialCount = 0 := by simp [Queue.partialCount, hpot, hrsv]
    rw [hone, Queue.free, hpart, Queue.depth]
    omega
  simp [State.queueIn, hx, he, hst, hformat, hpot, hfree]

end

/-- The entry that a send of one word takes. -/
theorem CoreState.acceptPlain_one (k : Kind) (x : CoreState) {p : Packet} {d : Word} {po : Bool} (hpay : p.pay = [(d, po)])
    (hlen : p.len = 1) (hes : (x.qu p.qid).d.esize = 1) (hrsv : (x.qu p.qid).rsv = []) :
    x.acceptPlain k p.qid p false false = rowAdded
      (withQueue x p.qid { x.qu p.qid with
        tail := ((x.qu p.qid).tail + 1) % max 1 (x.qu p.qid).d.depth.toNat
        rsv := [{ id := x.nextSend, entries := 1 }]
        acc := satAdd (x.qu p.qid).acc 1 })
      (.entries p.qid x.nextSend) false p
      { w := ((x.qu p.qid).d.base.toNat + (x.qu p.qid).tail % max 1 (x.qu p.qid).d.depth.toNat) % 8192
        data := d, mask := 0xFF, poison := po } := by
  have hesize : (x.qu p.qid).esize = 1 := by simp [Queue.esize, hes]
  simp [CoreState.acceptPlain, plainWords, hpay, hlen, hesize, hrsv, Queue.depth, CoreState.addRows, rowGroups, rowAdded, withQueue,
    CoreState.setQ]

/-! ### Credit returns -/

section

variable {s : State} {c : CoreId} {x : CoreState} {p : Packet}

theorem State.creditIn_epoch (hx : s.core c = x) (h : p.epoch ≠ (x.qu p.qid).d.epoch) :
    s.creditIn c p =
      (s.setCore c (withQueue x p.qid { x.qu p.qid with epdrop := satAdd (x.qu p.qid).epdrop 1 })).takeOff (posEnd c) p := by
  simp only [State.creditIn, hx, if_pos h]
  rfl

/-- A return to an open credit queue with room (spec/07 R180). -/
theorem State.creditIn_added (hx : s.core c = x) (he : p.epoch = (x.qu p.qid).d.epoch) (hst : (x.qu p.qid).d.state = 1)
    (hmode : (x.qu p.qid).d.mode = 0) (hes : (x.qu p.qid).d.esize = 0) (hstaged : stagedAt c p = false)
    (hroom : (x.qu p.qid).count + nfld p.h1.toNat 0 13 ≤ (x.qu p.qid).d.depth.toNat) :
    s.creditIn c p = (s.setCore c (withQueue x p.qid { x.qu p.qid with
      count := (x.qu p.qid).count + nfld p.h1.toNat 0 13
      acc := satAdd (x.qu p.qid).acc (nfld p.h1.toNat 0 13) })).takeOff (posEnd c) p := by
  have hcredit : (x.qu p.qid).isCredit = true := by simp [Queue.isCredit, hmode, hes]
  have hfits : ¬ (x.qu p.qid).depth < (x.qu p.qid).count + nfld p.h1.toNat 0 13 := Nat.not_lt.2 hroom
  simp only [State.creditIn, hx, he, hst, hcredit, hstaged, hfits, ne_eq, not_true_eq_false, if_false, Bool.not_true, Bool.false_eq_true]
  rfl

end

/-- Settles O20, outcome by outcome: a WRITE by its offset and its count; a queue send by its epoch, the state of its queue and its DA;
a credit return by its epoch. -/
theorem writeAndQueueArrivals : Obligations.WriteAndQueueArrivals := by
  unfold Obligations.WriteAndQueueArrivals
  refine ⟨fun s k p c d po h => ?write, fun s k p c d po _ hcnt => ?queue⟩
  case write =>
    intro x f w hpay hda hspace
    have hty := ptype_of_lands h
    have hsome := isSome_of_lands h
    obtain ⟨u, hexec, hu⟩ := exec_writeArrival h hda hspace
    rw [hexec]
    refine ⟨fun hw hcnt => ?plain, fun hw hcnt hslot hfar => ?counted, fun hw hcnt => ?unmapped⟩
    case plain =>
      refine ⟨_, rfl, ?_⟩
      rw [State.writeIn_mapped (hu.core c) hty hpay hw, State.takeOff_uncounted _ _ hcnt, stagedAt_uncounted c hcnt (by simp [hty, pRdata])]
      exact hu.landed _
    case counted =>
      have hstaged : stagedAt c p = true := by
        obtain ⟨g, hg⟩ := Option.isSome_iff_exists.1 hsome
        simpa [stagedAt, hcnt, hg, f] using hfar
      rw [State.writeIn_mapped (hu.core c) hty hpay hw, hstaged]
      obtain ⟨t, ht, hrest⟩ := hu.counted_off _ hsome hcnt hslot
      exact ⟨t, congrArg _ ht, hrest⟩
    case unmapped =>
      refine ⟨_, rfl, ?_⟩
      rw [State.writeIn_unmapped (hu.core c) hpay hw hcnt]
      exact hu.landed_send _ _ hcnt
  case queue =>
    intro plain x q a n
    refine ⟨fun h hp hpay hlen hoff he hst hmode hes hrsv hroom => ?taken, fun h hp he => ?epoch, fun h hp he hst => ?closed,
      fun h hp => ?badAddress, fun h he hst hmode hes hroom => ?credit, fun h he => ?creditEpoch⟩
    case taken =>
      have hty := ptype_of_lands h
      obtain ⟨u, hexec, hu⟩ := exec_qsendArrival_plain h hp
      refine ⟨_, hexec, ?_⟩
      rw [State.queueIn_plain (hu.core c) false hty hlen hoff he hst hmode hes hrsv hroom, State.takeOff_uncounted _ _ hcnt,
        stagedAt_uncounted c hcnt (by simp [hty, pRdata]), CoreState.acceptPlain_one _ _ hpay hlen hes hrsv]
      exact hu.landed _
    case epoch =>
      obtain ⟨u, hexec, hu⟩ := exec_qsendArrival_plain h hp
      refine ⟨_, hexec, ?_⟩
      rw [State.queueIn_epoch (hu.core c) false he, State.takeOff_uncounted _ _ hcnt]
      exact hu.landed _
    case closed =>
      obtain ⟨u, hexec, hu⟩ := exec_qsendArrival_plain h hp
      refine ⟨_, hexec, ?_⟩
      rw [State.queueIn_closed (hu.core c) false he hst,
        State.refuseAt_uncounted _ _ _ _ _ _ _ hcnt (by simp [ptype_of_lands h, pRead])]
      exact hu.landed_send _ _ hcnt
    case badAddress =>
      obtain ⟨u, hexec, hu⟩ := exec_qsendArrival_badAddress h hp
      refine ⟨_, hexec, ?_⟩
      rw [u.coreRefuse_unmapped _ (isSome_of_lands h) hcnt (by simp [ptype_of_lands h, pRead]), hu.core]
      exact hu.landed_send _ _ hcnt
    case credit =>
      have hstaged := stagedAt_uncounted c hcnt (by simp [ptype_of_lands h, pRdata])
      obtain ⟨u, hexec, hu⟩ := exec_creditArrival h
      refine ⟨_, hexec, ?_⟩
      rw [State.creditIn_added (hu.core c) he hst hmode hes hstaged hroom, State.takeOff_uncounted _ _ hcnt]
      exact hu.landed _
    case creditEpoch =>
      obtain ⟨u, hexec, hu⟩ := exec_creditArrival h
      refine ⟨_, hexec, ?_⟩
      rw [State.creditIn_epoch (hu.core c) he, State.takeOff_uncounted _ _ hcnt]
      exact hu.landed _

end Sys2Proof.Machine

/-! SUPPORT. Events of the scratchpad: the row commit with its masked word, the pending rewrites of the banks, and the patrol scrub
(spec/05 R133-R141, spec/07 R169). -/

namespace Sys2Proof

/-! ### Which banks have a pending rewrite (spec/05 R140) -/

theorem KMap.has_iff {α : Type} (m : KMap α) (k : Nat) : KMap.has m k = true ↔ ∃ v, (k, v) ∈ m := by
  induction m with
  | nil => simp [KMap.has]
  | cons e t ih =>
    obtain ⟨k', v'⟩ := e
    by_cases hk : k' = k
    · subst hk; simp [KMap.has]
    · simp [KMap.has, hk, ih, Ne.symm hk]

theorem KMap.has_del_ne {α : Type} (m : KMap α) {k j : Nat} (h : j ≠ k) : KMap.has (m.del k) j = KMap.has m j := by
  induction m with
  | nil => rfl
  | cons e t ih =>
    obtain ⟨k', v'⟩ := e
    by_cases hk : k' = k
    · subst hk; simp [KMap.del, KMap.has, Ne.symm h]
    · simp [KMap.del, KMap.has, hk, ih]

theorem KMap.has_del_same {α : Type} (m : KMap α) (k : Nat) (h : KMap.rising m = true) : KMap.has (m.del k) k = false := by
  induction m with
  | nil => rfl
  | cons e t ih =>
    obtain ⟨k', v'⟩ := e
    obtain ⟨hlt, hrise⟩ := (KMap.rising_cons k' v' t).1 h
    by_cases hk : k' = k
    · subst hk
      simp only [KMap.del, if_true, Bool.eq_false_iff, ne_eq, KMap.has_iff]
      rintro ⟨v, hv⟩
      exact absurd (hlt _ hv) (Nat.lt_irrefl _)
    · simp [KMap.del, KMap.has, hk, ih hrise]

namespace Machine

open Sys2Proof.Claims

/-! ### Rewrites that land (spec/05 R140) -/

theorem State.clockedAt_of_Clocked {s : State} {c : CoreId} (h : Clocked s c) : s.clockedAt c = true := by
  obtain ⟨f, hf, hrun, hpow, hgate⟩ := h
  simp [State.clockedAt, hf, FieldState.clocked, hrun, hpow, hgate]

/-- A rewrite that lands changes its own word. -/
theorem CoreState.landRewrite_spec (x : CoreState) {bank w : Nat} {v : Code} (hwf : codeWf x.mem = true)
    (hhas : KMap.has x.rewrites bank = true) (hget : KMap.get (0, 0) x.rewrites bank = (w, v)) :
    x.landRewrite bank = { x with mem := KMap.set 0 x.mem w v, rewrites := KMap.del x.rewrites bank } ∧
      KMap.get 0 (x.landRewrite bank).mem w = v ∧ SameBut x (x.landRewrite bank) w := by
  have hland : x.landRewrite bank = { x with mem := KMap.set 0 x.mem w v, rewrites := KMap.del x.rewrites bank } := by
    simp only [CoreState.landRewrite, hhas, if_true, hget]
  have hread : ∀ a, KMap.get 0 (KMap.set 0 x.mem w v) a = if a = w then v else KMap.get 0 x.mem a :=
    fun a => KMap.get_set 0 x.mem w a v (Bool.and_eq_true_iff.1 hwf).1
  rw [hland]
  refine ⟨rfl, ?_, fun a ha => ?_⟩
  · rw [hread, if_pos rfl]
  · simp only [CoreState.dec, hread, if_neg ha]

/-- CORRECTION_REWRITE on a core whose clock runs. -/
theorem exec_correctionRewrite {s : State} {c : CoreId} (h : Clocked s c) (bank : Nat) :
    exec (.correctionRewrite c bank) s = .next (s.setCore c ((s.core c).landRewrite bank)) := by
  have hexec : exec (.correctionRewrite c bank) s = execCorrectionRewrite c bank s := rfl
  rw [hexec, execCorrectionRewrite, State.clockedAt_of_Clocked h, if_pos rfl, State.modCore]

/-! ### Row commits (spec/05 R133, R135, R136) -/

/-- A masked word, byte by byte. -/
theorem maskedWord_byte (old : Word) (r : RowWord) {i : Nat} (hi : i < 8) :
    (maskedWord old r >>> (8 * i)).setWidth 8 = merged r.mask old r.data i := by
  apply BitVec.eq_of_getLsbD_eq
  intro j hj
  have hbyte : (8 * i + j) / 8 = i := by omega
  rw [BitVec.getLsbD_setWidth, BitVec.getLsbD_ushiftRight, maskedWord_getLsbD _ _ _ (by omega), hbyte, merged]
  split <;> simp [hj]

/-- What a write of a word leaves of its poison (spec/05 R136). -/
theorem CoreState.poisoned_write (k : Kind) (x : CoreState) (r : RowWord) (hwf : codeWf x.mem = true) (h0 : r.mask ≠ 0)
    (hc : r.mask = 0xFF ∨ x.clean r.w = true) :
    (CoreState.write k x r.w r.mask r.data r.poison).poisoned r.w = r.poison := by
  unfold CoreState.write
  rw [if_neg h0]
  by_cases h1 : r.mask = 0xFF
  · rw [if_pos h1, CoreState.poisoned, CoreState.dec_store _ _ _ _ _ _ hwf, if_pos rfl]
    simp
  · have hclean := hc.resolve_left h1
    obtain ⟨hout, hpois⟩ := (CoreState.clean_iff x r.w).1 hclean
    rw [if_neg h1]
    dsimp only
    rw [SpRegs.note_clean _ _ _ _ hclean, CoreState.poisoned, CoreState.dec_store _ _ _ _ _ _ hwf, if_pos rfl]
    simp [hout, hpois]

/-- A beat of one word: the word written and its poison, and no other word. -/
theorem CoreState.writeBeat_one (k : Kind) (x : CoreState) (r : RowWord) (hwf : codeWf x.mem = true) (h0 : r.mask ≠ 0)
    (hc : r.mask = 0xFF ∨ x.clean r.w = true) :
    SpadOnly x (CoreState.writeBeat k x [r]) ∧ (CoreState.writeBeat k x [r]).data r.w = maskedWord (x.data r.w) r ∧
      (CoreState.writeBeat k x [r]).poisoned r.w = r.poison ∧ SameBut x (CoreState.writeBeat k x [r]) r.w := by
  have hkeep : SpadOnly x (x.keepOld k [r.w]) := rfl
  obtain ⟨hframe, hword, hother⟩ := CoreState.write_spec k (x.keepOld k [r.w]) r hwf hc
  exact ⟨hkeep.trans hframe, hword, CoreState.poisoned_write k (x.keepOld k [r.w]) r hwf h0 hc, fun a ha => (hother a ha).symm⟩

/-- The inbound port grants the first row, where its words are plain. -/
theorem CoreState.commitRow_plain (k : Kind) (x : CoreState) {r : Row} {rest : List Row} (hrows : x.rows = r :: rest)
    (hkind : r.kind = .plain) : x.commitRow k = CoreState.writeBeat k { x with rows := rest } r.words := by
  simp [CoreState.commitRow, hrows, takeRow, Row.isPot, hkind]

/-- The inbound port grants the first row, where its words are entries of a queue (spec/07 R169). -/
theorem CoreState.commitRow_entries (k : Kind) (x : CoreState) {r : Row} {rest : List Row} {q id : Nat} (hrows : x.rows = r :: rest)
    (hkind : r.kind = .entries q id) : x.commitRow k = (CoreState.writeBeat k { x with rows := rest } r.words).setQ q
      (((CoreState.writeBeat k { x with rows := rest } r.words).qu q).committed id r.words.length) := by
  simp [CoreState.commitRow, hrows, takeRow, Row.isPot, hkind]

/-- The one entry of a PLAIN queue's one reservation is committed: it counts, unless it is staged (spec/07 R169, spec/09 R236). -/
theorem Queue.committed_one (q : Queue) (id : Nat) (st : Bool) (hmode : q.d.mode = 0) (hes : q.d.esize = 1)
    (hrsv : q.rsv = [{ id := id, entries := 1, done := 0, counted := 0, staged := st }]) :
    q.committed id 1 = { q with
      count := if st then q.count else q.count + 1
      rsv := if st then [{ id := id, entries := 1, done := 1, counted := 0, staged := true }] else [] } := by
  cases st <;> simp [Queue.committed, Queue.recount, Queue.isPot, hmode, hrsv, countEntries, Queue.width, Queue.esize, hes]

/-- The core with SPWAIT at `v` and the rows `rest` left. -/
def granted (x : CoreState) (v : BitVec 32) (rest : List Row) : CoreState :=
  { x with sp := { x.sp with waitCount := v }, rows := rest }

/-- The beat of a granted row of one word: the word written and its poison, and no other word. -/
theorem CoreState.writeBeat_granted (k : Kind) (x : CoreState) (v : BitVec 32) (rest : List Row) (w : RowWord)
    (hwf : codeWf x.mem = true) (h0 : w.mask ≠ 0) (hc : w.mask = 0xFF ∨ x.clean w.w = true) :
    ∃ y, CoreState.writeBeat k (granted x v rest) [w] = y ∧
      y = { x with mem := y.mem, stale := y.stale, rewrites := y.rewrites, rows := rest, sp := y.sp } ∧ SameBut x y w.w ∧
      y.data w.w = maskedWord (x.data w.w) w ∧ y.poisoned w.w = w.poison := by
  obtain ⟨hframe, hword, hpois, hrest⟩ := CoreState.writeBeat_one k (granted x v rest) w hwf h0 hc
  generalize CoreState.writeBeat k (granted x v rest) [w] = y at *
  refine ⟨y, rfl, ?_, hrest, hword, hpois⟩
  unfold SpadOnly at hframe
  rw [hframe]
  rfl

section

variable {s : State} {c : CoreId} {r : Row} {rest : List Row}

/-- INBOUND_COMMIT commits the waiting row on the core, whose SPWAIT has taken a free count (log 9). -/
theorem exec_inboundCommit (h : Clocked s c) (hrows : (s.core c).rows = r :: rest) (hpot : r.isPot = false) :
    ∃ t v, exec (.inboundCommit c) s = .next t ∧ CoreOnly s t c ((granted (s.core c) v (r :: rest)).commitRow (coreKind c)) := by
  have hexec : exec (.inboundCommit c) s = .next (s.inboundCommit c) := rfl
  have hany : (s.core c).rows.any (fun r => !r.isPot) = true := by simp [hrows, hpot]
  have hwait : s.countWait c = State.setCore { s with freeCtr := s.freeCtr + 1 } c
      (granted (s.core c) (satAdd (s.core c).sp.waitCount (Config.stallCycles s.freeCtr).toNat) (r :: rest)) := by
    rw [granted, ← hrows]
    rfl
  rw [hexec, State.inboundCommit, State.clockedAt_of_Clocked h, hany, Bool.true_and, if_pos rfl, hwait, State.modCore_setCore]
  exact ⟨_, _, rfl, rfl⟩

theorem exec_inboundCommit_plain (h : Clocked s c) (hrows : (s.core c).rows = r :: rest) (hkind : r.kind = .plain) :
    ∃ t v, exec (.inboundCommit c) s = .next t ∧
      CoreOnly s t c (CoreState.writeBeat (coreKind c) (granted (s.core c) v rest) r.words) := by
  obtain ⟨t, v, hexec, honly⟩ := exec_inboundCommit h hrows (by simp [Row.isPot, hkind])
  rw [CoreState.commitRow_plain _ (granted (s.core c) v (r :: rest)) rfl hkind] at honly
  exact ⟨t, v, hexec, honly⟩

theorem exec_inboundCommit_entries (h : Clocked s c) (hrows : (s.core c).rows = r :: rest) {q id : Nat}
    (hkind : r.kind = .entries q id) :
    ∃ t v, exec (.inboundCommit c) s = .next t ∧
      CoreOnly s t c ((CoreState.writeBeat (coreKind c) (granted (s.core c) v rest) r.words).setQ q
        (((CoreState.writeBeat (coreKind c) (granted (s.core c) v rest) r.words).qu q).committed id r.words.length)) := by
  obtain ⟨t, v, hexec, honly⟩ := exec_inboundCommit h hrows (by simp [Row.isPot, hkind])
  rw [CoreState.commitRow_entries _ (granted (s.core c) v (r :: rest)) rfl hkind] at honly
  exact ⟨t, v, hexec, honly⟩

end

/-! ### The patrol scrub (spec/05 R139, R141) -/

/-- Reads that find one word that is not clean record that word's read. -/
theorem CoreState.noteReads_one (k : Kind) (src : Nat) (x : CoreState) {w : Nat} {ws : List Nat} (hnd : ws.Nodup) (hw : w ∈ ws)
    (hclean : ∀ v ∈ ws, v ≠ w → x.clean v = true) : x.noteReads k src ws = x.noteRead k src w := by
  obtain ⟨l, m, rfl⟩ := List.append_of_mem hw
  obtain ⟨-, hnd', hdisj⟩ := List.nodup_append.1 hnd
  have hl : x.noteReads k src l = x :=
    CoreState.noteReads_clean k src x l (fun v hv => hclean v (by simp [hv]) (hdisj v hv w (by simp)))
  have hm : (x.noteRead k src w).noteReads k src m = x.noteRead k src w := by
    refine CoreState.noteReads_clean k src _ m (fun v hv => ?_)
    have hne : v ≠ w := fun e => (List.nodup_cons.1 hnd').1 (e ▸ hv)
    have hmem : (x.noteRead k src w).mem = x.mem := CoreState.noteRead_mem k src x w
    rw [CoreState.clean, CoreState.dec, hmem]
    exact hclean v (by simp [hv]) hne
  rw [CoreState.noteReads, List.foldl_append, List.foldl_cons]
  exact (congrArg (fun y => m.foldl (CoreState.noteRead k src) (CoreState.noteRead k src y w)) hl).trans hm

/-- SPELOG takes a corrected outcome where it holds none (spec/05 R143). -/
theorem SpRegs.log_corrected (r : SpRegs) (w src : Nat) : r.log w 1 src = { r with
    logWord := if r.logValid then r.logWord else BitVec.ofNat 14 w
    logOutcome := if r.logValid then r.logOutcome else 1
    logSource := if r.logValid then r.logSource else BitVec.ofNat 2 src
    logValid := true } := by
  obtain ⟨_, _, _, _, _, _, _, _, _, _, _, _, valid, _, _, _⟩ := r
  cases valid
  · rfl
  · rfl

/-- A read that corrects one bit counts, logs, and asks for the rewrite of its word (spec/05 R139, R140). -/
theorem CoreState.noteRead_corrected (k : Kind) (src : Nat) (x : CoreState) {w : Nat} (hout : (x.dec w).outcome = .corrected1)
    (hpois : (x.dec w).poison = false) (hfree : KMap.has x.rewrites (w % k.banks) = false) :
    x.noteRead k src w = { x with
      sp := SpRegs.log { x.sp with ceCount := sat1 x.sp.ceCount, ce := true } w 1 src
      rewrites := KMap.put x.rewrites (w % k.banks) (w, eccEncode (x.data w) false) } := by
  simp only [CoreState.noteRead, CoreState.addRewrite, SpRegs.note, SpRegs.notePoison, hout, hpois, hfree]
  rfl

/-- The words of one patrol read: one in each bank. -/
theorem nodup_patrolWords (b n : Nat) : ((List.range n).map (fun i => b + i)).Nodup :=
  List.nodup_range.map (fun _ _ h => Nat.add_left_cancel h)

theorem CoreState.patrol_clean (k : Kind) (x : CoreState)
    (h : ∀ i < k.banks, x.clean (x.sp.scrubRow * k.banks + i) = true) :
    x.patrol k = { x with sp := { x.sp with scrubRow := (x.sp.scrubRow + 1) % k.rows } } := by
  rw [CoreState.patrol, CoreState.noteReads_clean]
  simpa using h

theorem CoreState.patrol_corrected (k : Kind) (x : CoreState) {i : Nat} (hi : i < k.banks)
    (h : ∀ d < k.banks, d ≠ i → x.clean (x.sp.scrubRow * k.banks + d) = true)
    (hout : (x.dec (x.sp.scrubRow * k.banks + i)).outcome = .corrected1) (hpois : (x.dec (x.sp.scrubRow * k.banks + i)).poison = false)
    (hfree : KMap.has x.rewrites i = false) :
    x.patrol k = { x with
      rewrites := KMap.put x.rewrites i (x.sp.scrubRow * k.banks + i, eccEncode (x.data (x.sp.scrubRow * k.banks + i)) false)
      sp := { SpRegs.log { x.sp with ceCount := sat1 x.sp.ceCount, ce := true } (x.sp.scrubRow * k.banks + i) 1 3 with
        scrubRow := (x.sp.scrubRow + 1) % k.rows } } := by
  have hbank : (x.sp.scrubRow * k.banks + i) % k.banks = i := by
    rw [Nat.mul_add_mod_self_right, Nat.mod_eq_of_lt hi]
  have hreads := CoreState.noteReads_one k 3 x (nodup_patrolWords (x.sp.scrubRow * k.banks) k.banks)
    (w := x.sp.scrubRow * k.banks + i) (by simpa using hi) (by
      simp only [List.mem_map, List.mem_range, forall_exists_index, and_imp, forall_apply_eq_imp_iff₂]
      exact fun d hd hne => h d hd (fun e => hne (by rw [e])))
  rw [CoreState.patrol]
  dsimp only
  rw [hreads, CoreState.noteRead_corrected k 3 x hout hpois (by rwa [hbank]), hbank]

/-- PATROL_SCRUB on a core whose clock runs, by SPSCRUB.EN. -/
theorem exec_patrolScrub {s : State} {c : CoreId} (h : Clocked s c) : exec (.patrolScrub c) s =
    .next (if (s.core c).sp.scrubEn then s.setCore c ((s.core c).patrol (coreKind c)) else s) := by
  have hexec : exec (.patrolScrub c) s = execPatrolScrub c s := rfl
  rw [hexec, execPatrolScrub, State.clockedAt_of_Clocked h, Bool.true_and, State.modCore]

/-! ### The events -/

/-- Settles O17: the row commit by its beat of one word, with the queue's count; the rewrite by the word it lands in; the patrol by
what its reads find. -/
theorem scratchpadEvents : Obligations.ScratchpadEvents := by
  unfold Obligations.ScratchpadEvents
  refine ⟨fun s c r rest w h hwf => ?commit, fun s c h hwf => ?scrub⟩
  case commit =>
    intro x hrows hwords hw
    refine ⟨fun hkind hclean h0 => ?plain, fun q hq id st hkind hmask => ?entries⟩
    case plain =>
      obtain ⟨t, v, hexec, honly⟩ := exec_inboundCommit_plain h hrows hkind
      obtain ⟨y, hy, hframe, hrest, hword, hpois⟩ :=
        CoreState.writeBeat_granted (coreKind c) x v rest w (s.memWf_core c hwf) h0 (.inr hclean)
      rw [hwords, hy] at honly
      refine ⟨t, y, hexec, honly, hframe, hrest, hpois, fun i hi => ?_⟩
      rw [hword]
      exact maskedWord_byte _ w hi
    case entries =>
      intro qu hmode hes hrsv
      obtain ⟨t, v, hexec, honly⟩ := exec_inboundCommit_entries h hrows hkind
      obtain ⟨y, hy, hframe, hrest, hword, hpois⟩ :=
        CoreState.writeBeat_granted (coreKind c) x v rest w (s.memWf_core c hwf) (by simp [hmask]) (.inl hmask)
      have hqs : y.q = x.q := by rw [hframe]
      have hqu : y.qu q = qu := by rw [CoreState.qu, hqs]
      rw [hwords, hy, hqu, List.length_singleton, Queue.committed_one qu id st hmode hes hrsv] at honly
      refine ⟨t, _, hexec, honly, ?_, hrest, ?_, hpois, ?_⟩
      · rw [hframe]
        rfl
      · exact hword.trans (maskedWord_full _ w hmask)
      · rw [CoreState.setQ, hqs]
  case scrub =>
    intro x k b row
    refine ⟨fun bank w v hhas hget hrise => ?lands, fun bank hhas => ?none, fun hen hclean => ?clean,
      fun hen i hi hclean hout hpois hfree => ?corrected, fun hen => ?off⟩
    case lands =>
      obtain ⟨hland, hword, hrest⟩ := CoreState.landRewrite_spec x (s.memWf_core c hwf) hhas hget
      have hleft : (x.landRewrite bank).rewrites = KMap.del x.rewrites bank := by rw [hland]
      refine ⟨x.landRewrite bank, exec_correctionRewrite h bank, hword, hrest, ?_, fun d hd => ?_, ?_⟩
      · rw [hleft, KMap.has_del_same _ _ hrise]
      · rw [hleft, KMap.has_del_ne _ hd]
      · rw [hland]
    case none =>
      rw [exec_correctionRewrite h, CoreState.landRewrite, hhas, if_neg Bool.false_ne_true]
    case clean =>
      rw [exec_patrolScrub h, if_pos hen, CoreState.patrol_clean k x hclean]
    case corrected =>
      rw [exec_patrolScrub h, if_pos hen]
      refine ⟨x.patrol k, rfl, ?_⟩
      rw [CoreState.patrol_corrected k x hi hclean hout hpois hfree, SpRegs.log_corrected]
      exact ⟨rfl, KMap.get_put_same _ _ _ _, rfl⟩
    case off =>
      rw [exec_patrolScrub h, hen, if_neg Bool.false_ne_true]

/-- Settles O56: the memories are canonical at reset, and the negative lists nothing. -/
theorem resetMemoryForm : Obligations.ResetMemoryForm := ⟨State.memWf_reset, rfl⟩

end Machine
end Sys2Proof

/-! SUPPORT. SX waits, queues and sends: semaphores, queue waits, releases, steering, sends and moves of a thread (spec/04 R115, R118,
R119, spec/06 R149-R154, spec/07 R163, R170). -/

namespace Sys2Proof.Machine

open Sys2Proof.Claims

/-! ### Takes and signals (spec/06 R152) -/

/-- A take from a count above 0 subtracts one. -/
theorem CoreState.take_eq {x : CoreState} {n : Nat} (h : 0 < x.semCount n) : x.take n = withSem x n (· - 1) := by
  rw [CoreState.take, if_neg (by omega)]
  rfl

/-- A signal to a count below 255 adds one, and SEMSIG counts it. -/
theorem CoreState.signal_eq {x : CoreState} {n : Nat} (h : x.semCount n < 255) (engine epc : Nat) :
    x.signal n engine epc = signalled x n := by
  have hcount : ({ x with semSig := sat1 x.semSig } : CoreState).semCount n = x.semCount n := rfl
  unfold CoreState.signal
  dsimp only
  rw [hcount, if_neg (by omega)]
  rfl

/-! ### Releases of a queue that stands alone (spec/07 R170) -/

theorem CoreState.relSet_unpaired {x : CoreState} {q : Nat} (h : (x.qu q).d.pen = false) : x.relSet q = [q] := by
  simp [CoreState.relSet, CoreState.pairOf, h]

theorem CoreState.relErr_unpaired {x : CoreState} {q n : Nat} (hpen : (x.qu q).d.pen = false) (hst : (x.qu q).d.state ≠ 0)
    (hn : n ≤ (x.qu q).count) : x.relErr q n = none := by
  have hfew : ¬ (x.qu q).count < n := by omega
  simpa [CoreState.relErr, CoreState.relSet_unpaired hpen, hfew] using hst

/-- A queue that returns no credits needs no room in the credit holds (spec/09 R230). -/
theorem CoreState.credRoom_unpaired {x : CoreState} {q : Nat} (hpen : (x.qu q).d.pen = false) (hcren : (x.qu q).d.cren = false)
    (n : Nat) : x.credRoom q n = true := by
  simp [CoreState.credRoom, CoreState.relSet_unpaired hpen, hcren]

/-- A release of head entries of a PLAIN queue that holds entries. -/
theorem Queue.settle_dropHead_plain {q : Queue} (hmode : q.d.mode = 0) (hes : q.d.esize ≠ 0) (n : Nat) :
    (q.dropHead n).settle = { q with head := (q.head + n) % max 1 q.d.depth.toNat, count := q.count - n } := by
  have hpot : q.isPot = false := by simp [Queue.isPot, hmode]
  have hcredit : q.isCredit = false := by rw [Queue.isCredit, beq_eq_false_iff_ne.2 hes, Bool.and_false]
  have hdrop : (q.dropHead n).isPot = false := hpot
  rw [Queue.settle, hdrop, Queue.dropHead, hpot, hcredit]
  rfl

@[simp] theorem Queue.settle_d (q : Queue) : q.settle.d = q.d := by
  unfold Queue.settle Queue.recount
  split <;> rfl

theorem State.creditReturn_none {s : State} {c : CoreId} {q : Nat} (h : ((s.core c).qu q).d.cren = false) (n : Nat) :
    s.creditReturn c q n = s := by
  simp [State.creditReturn, h]

@[simp] theorem CoreState.qu_setQ (x : CoreState) (n : Nat) (v : Queue) : (x.setQ n v).qu n = v := RegFile.get_set_same _ _ _

/-- A release by a queue that stands alone and returns no credits changes that queue. -/
theorem State.release_unpaired {s : State} {c : CoreId} {q : Nat} (hpen : ((s.core c).qu q).d.pen = false)
    (hcren : ((s.core c).qu q).d.cren = false) (n : Nat) :
    s.release c q n = s.modCore c (fun x => x.setQ q ((x.qu q).dropHead n).settle) := by
  rw [State.release, CoreState.relSet_unpaired hpen, List.foldl_cons, List.foldl_nil, State.creditReturn_none]
  rw [State.core_modCore_same, CoreState.qu_setQ, Queue.settle_d]
  exact hcren

/-! ### Sends within the field (spec/07 R163, spec/08 R199, spec/09 R233) -/

/-- A device address in the scratchpad space names its core. -/
theorem daDest_core {da : Nat} (hs : nfld da 44 4 = 0) (hz : nfld da 16 8 = 0) (hc : (coreField (daTarget da)).isSome = true) :
    daDest da = some (0, (daTarget da).x, (daTarget da).y) := by
  simp [daDest, hs, hz, hc]

/-- The packet that a core makes of words for another core. -/
def sendPacket (da : Nat) (qdst : Bool) (qid : Nat) (ws : List (Word × Bool)) : Packet :=
  if qdst then qsendPacket da qid ws else writePacket da ws

theorem State.coreSend_other {s : State} {c : CoreId} {da : Nat} (eng : Nat) (qdst : Bool) (qid : Nat) {ws : List (Word × Bool)}
    (hws : ws ≠ []) (hs : nfld da 44 4 = 0) (hz : nfld da 16 8 = 0) (hc : (coreField (daTarget da)).isSome = true)
    (hne : daTarget da ≠ c) : s.coreSend c eng da qdst qid ws = s.handCore c eng (sendPacket da qdst qid ws) := by
  unfold State.coreSend sendPacket
  rw [if_neg (by simpa using hws), daDest_core hs hz hc]
  cases qdst
  · exact (if_neg Bool.false_ne_true).trans (if_neg hne)
  · exact (if_pos rfl).trans (if_neg hne)

/-- A packet of words that enters the network at a core: its source, its epoch and its job's slot (spec/08 Table 8.3). -/
def coreStamped (s : State) (c : CoreId) (p : Packet) : Packet :=
  { p with
    sx := c.x
    sy := c.y
    epoch := (s.core c).epoch
    counted := false
    slot := (s.coreJob c).getD 0
    out := (s.field ((coreField c).getD 0)).rtHeld }

/-- A core's packet to a core of its own field enters the network there, uncounted. -/
theorem State.handCore_sameField {s : State} {c : CoreId} (eng : Nat) {p : Packet} (hf : (coreField c).isSome = true)
    (hmc : p.mc = false) (hk : p.dkind = 0) (hlen : p.len ≠ 0) (hdst : coreField p.dstCore = coreField c) :
    s.handCore c eng p = { s with net := s.net ++ [coreStamped s c p] } := by
  obtain ⟨f, hcf⟩ := Option.isSome_iff_exists.1 hf
  have hx := lt_of_coreField hf
  have hcnt (q : Packet) (hq : q.mc = false) (hqk : q.dkind = 0) (hqd : q.dstCore = p.dstCore) : coreCounted c q [] = false := by
    simp [coreCounted, hq, hqk, hqd, hdst]
  have hstamp : s.stampCore c p = ({ p with sx := c.x, sy := c.y, epoch := (s.core c).epoch, slot := (s.coreJob c).getD 0
                                            counted := false }, []) := by
    simp [State.stampCore, hmc, hcnt p hmc hk rfl]
  have hheld (q : Packet) (h1 : q.sx = c.x) (h2 : q.sy = c.y) : s.injectionHeld q = (s.field f).rtHeld := by
    simp [State.injectionHeld, State.entryField, Packet.srcEnd, h1, h2, hx, hcf]
  simp only [State.handCore, hstamp, Bool.false_and, Bool.false_eq_true, if_false, State.handOff, hcf, hlen, and_false, hmc, State.send,
    hheld, coreStamped, Option.getD_some]

theorem daDest_sendPacket {da : Nat} (hs : nfld da 44 4 = 0) (hz : nfld da 16 8 = 0) (hc : (coreField (daTarget da)).isSome = true)
    (qdst : Bool) (qid : Nat) (ws : List (Word × Bool)) :
    (sendPacket da qdst qid ws).dkind = 0 ∧ (sendPacket da qdst qid ws).dstCore = daTarget da ∧
      (sendPacket da qdst qid ws).mc = false ∧ (sendPacket da qdst qid ws).len = ws.length := by
  cases qdst
  · simp [sendPacket, writePacket, daDest_core hs hz hc, Packet.dstCore]
  · simp [sendPacket, qsendPacket, Packet.dstCore]

/-- H1 of a WRITE of whole words (spec/08 Table 8.4). -/
theorem packFields_write (da : Nat) : packFields [(0, da), (48, 0xFF), (56, 0xFF)] = da + 0xFF * 2 ^ 48 + 0xFF * 2 ^ 56 := by
  rw [packFields, List.foldl_cons, List.foldl_cons, List.foldl_cons, List.foldl_nil, Nat.zero_add, Nat.pow_zero, Nat.mul_one]

/-- The packet of one word, with its header filled in at the core. -/
theorem coreStamped_oneWord {s : State} {c : CoreId} {da : Nat} (hs : nfld da 44 4 = 0) (hz : nfld da 16 8 = 0)
    (hc : (coreField (daTarget da)).isSome = true) (qdst : Bool) (qid : Nat) (w : Word) :
    coreStamped s c (sendPacket da qdst qid [(w, false)]) = oneWordPacket s c da qid qdst w := by
  cases qdst
  · rw [sendPacket, if_neg Bool.false_ne_true, writePacket, daDest_core hs hz hc, packFields_write]
    rfl
  · rfl

/-- The packet's header depends on the core's epoch alone. -/
theorem oneWordPacket_setCore {s : State} {c : CoreId} {y : CoreState} (hy : y.epoch = (s.core c).epoch) (da qid : Nat) (qdst : Bool)
    (w : Word) : oneWordPacket (s.setCore c y) c da qid qdst w = oneWordPacket s c da qid qdst w := by
  unfold oneWordPacket
  rw [State.core_setCore_same, hy]
  rfl

/-- A change of the core after a packet has entered the network. -/
theorem State.modCore_withNet (s : State) (c : CoreId) (y : CoreState) (l : List Packet) (f : CoreState → CoreState) :
    State.modCore { s.setCore c y with net := l } c f = { s.setCore c (f y) with net := l } :=
  State.modCore_setCore { s with net := l } c y f

/-! ### The instructions -/

section

variable {s : State} {c : CoreId} {t : Fin 4} {i : Inst32}

theorem State.sxIssueOp_semw_takes (h : SxAt s c t 0x28 i) (hr : SxRoom s c t) (hn : 0 < (s.core c).semCount (sGa i)) :
    s.sxIssueOp c t 0x28 semwBody = s.setCore c (sxDone (withSem (s.core c) (sGa i) (· - 1)) t (sxPc s c t + 4) id) := by
  rw [semwBody, State.sxIssueOp_core h, if_neg (by omega), CoreState.take_eq hn]
  exact congrArg _ (CoreState.sxNext_eq (withSem (s.core c) (sGa i) (· - 1)) t id (sxPc_aligned h) hr)

theorem State.sxIssueOp_semw_waits (h : SxAt s c t 0x28 i) (hn : (s.core c).semCount (sGa i) = 0) :
    s.sxIssueOp c t 0x28 semwBody = s.setCore c (sxWaiting ((s.core c).countIssue t.val) t (.sem (sGa i))) := by
  rw [semwBody, State.sxIssueOp_core h, if_pos hn]
  rfl

theorem State.sxIssueOp_sems (h : SxAt s c t 0x29 i) (hr : SxRoom s c t) (hn : (s.core c).semCount (sGa i) < 255) :
    s.sxIssueOp c t 0x29 semsBody = s.setCore c (sxDone (signalled (s.core c) (sGa i)) t (sxPc s c t + 4) id) := by
  have herr : (signalled (s.core c) (sGa i)).err = false := (sxAt_alive h).1
  rw [semsBody, State.sxIssueOp_core h]
  dsimp only
  rw [CoreState.signal_eq hn, herr, if_neg Bool.false_ne_true]
  exact congrArg _ (CoreState.sxNext_eq (signalled (s.core c) (sGa i)) t id (sxPc_aligned h) hr)

/-- A wait on a queue in use, for no more entries than it can hold, is legal (spec/07 R171). -/
theorem CoreState.waitErr_none {x : CoreState} {q n : Nat} (hst : (x.qu q).d.state ≠ 0) (hn : n ≤ (x.qu q).d.depth.toNat) :
    x.waitErr q n = none := by
  rw [CoreState.waitErr, if_neg hst, if_neg (Nat.not_lt.2 hn : ¬ n > (x.qu q).depth)]

theorem State.sxIssueOp_qwait (h : SxAt s c t 0x2A i) (hst : ((s.core c).qu (sGa i)).d.state ≠ 0)
    (hd : sfld i 20 12 ≤ ((s.core c).qu (sGa i)).d.depth.toNat) :
    s.sxIssueOp c t 0x2A qwaitSx = s.setCore c (if sfld i 20 12 ≤ ((s.core c).qu (sGa i)).count then (s.core c).sxNext t.val id
      else sxWaiting (s.core c) t (.queue (sGa i) (sfld i 20 12))) := by
  rw [qwaitSx, State.sxIssueOp_core h]
  dsimp only
  rw [CoreState.waitErr_none hst hd]
  rfl

theorem State.sxIssueOp_mvsync (h : SxAt s c t 0x32 i) :
    s.sxIssueOp c t 0x32 mvsyncBody = s.setCore c (if ((s.core c).thread t.val).moves = 0 then (s.core c).sxNext t.val id
      else sxWaiting (s.core c) t .mvsync) :=
  State.sxIssueOp_core h _

theorem State.sxIssueOp_qrel (h : SxAt s c t 0x2B i) (hr : SxRoom s c t) (hst : ((s.core c).qu (sGa i)).d.state ≠ 0)
    (hpen : ((s.core c).qu (sGa i)).d.pen = false) (hcren : ((s.core c).qu (sGa i)).d.cren = false)
    (hn : sfld i 20 12 ≤ ((s.core c).qu (sGa i)).count) :
    s.sxIssueOp c t 0x2B qrelSx = s.setCore c (sxDone
      ((s.core c).setQ (sGa i) (((s.core c).qu (sGa i)).dropHead (sfld i 20 12)).settle) t (sxPc s c t + 4) id) := by
  rw [State.sxIssueOp_at h]
  unfold qrelSx
  dsimp only
  rw [State.core_setCore_same, CoreState.relErr_unpaired hpen hst hn, CoreState.credRoom_unpaired hpen hcren]
  refine (if_neg (by decide)).trans ?_
  rw [State.release_unpaired (by rwa [State.core_setCore_same]) (by rwa [State.core_setCore_same]), State.modCore_setCore,
    State.modCore_setCore]
  exact congrArg _ (CoreState.sxNext_eq ((s.core c).setQ _ _) t id (sxPc_aligned h) hr)

/-- STEER of a steering pair with an entry in each queue and no release. -/
theorem State.sxIssueOp_steer (h : SxAt s c t 0x2C i) (hr : SxRoom s c t) (hpair : (s.core c).steerPair (sGa i) (sGb i) = true)
    (hst : ((s.core c).qu (sGa i)).d.state ≠ 0 ∧ ((s.core c).qu (sGb i)).d.state ≠ 0)
    (hcount : 0 < ((s.core c).qu (sGa i)).count ∧ 0 < ((s.core c).qu (sGb i)).count) (hrel : i.getLsbD 22 = false) {wt wv : Nat}
    (hwt : ((s.core c).qu (sGa i)).entryAddr ((s.core c).qu (sGa i)).head = wt)
    (hwv : ((s.core c).qu (sGb i)).entryAddr ((s.core c).qu (sGb i)).head = wv)
    (hct : (s.core c).clean wt = true) (hcv : (s.core c).clean wv = true) :
    s.sxIssueOp c t 0x2C steerBody = s.setCore c (sxDone (s.core c) t (sxPc s c t + 4) (fun y =>
      (((y.setG (sGd i) (((s.core c).data wt).extractLsb' 0 32)).setG (sGd i + 1) (((s.core c).data wt).extractLsb' 32 32)).setG (sfld i 18 4)
        (((s.core c).data wv).extractLsb' 0 32)).setG (sfld i 18 4 + 1) (((s.core c).data wv).extractLsb' 32 32))) := by
  have hreads : (s.core c).noteReads .sx 0 [wt, wv] = s.core c :=
    CoreState.noteReads_clean _ _ _ _ (by simp [hct, hcv])
  rw [State.sxIssueOp_at h, steerBody]
  dsimp only
  rw [State.core_setCore_same, if_neg (by tauto), hpair, if_neg (by decide), if_neg (by omega), hrel, if_neg (by simp), hwt, hwv, hreads,
    CoreState.poisoned_clean _ _ hct, CoreState.poisoned_clean _ _ hcv, if_neg (by decide), if_neg (by decide), State.setCore_setCore,
    State.modCore_setCore]
  exact congrArg _ (CoreState.sxNext_eq _ t _ (sxPc_aligned h) hr)

theorem CoreState.steerPair_iff (x : CoreState) (a b : Nat) : x.steerPair a b = true ↔
    a ≠ b ∧ (x.qu a).d.pen = true ∧ (x.qu b).d.pen = true ∧ (x.qu a).d.pair.toNat = b ∧ (x.qu b).d.pair.toNat = a := by
  simp [CoreState.steerPair, and_assoc]

theorem CoreState.afterSend_free {x : CoreState} (hheld : x.held = []) (hwait : x.xpdWait = []) (t : Nat) : x.afterSend t = x := by
  simp [CoreState.afterSend, hheld, hwait]

/-- SEND of one word to another core of the field. -/
theorem State.sxIssueOp_send (h : SxAt s c t 0x30 i) (hr : SxRoom s c t) {da : Nat}
    (hda : (pairOf s c t (sGa i)).toNat % 2 ^ 48 = da) (hs : nfld da 44 4 = 0) (hz : nfld da 16 8 = 0) (hne : daTarget da ≠ c)
    (hc : (coreField c).isSome = true) (hdst : coreField (daTarget da) = coreField c) (hheld : (s.core c).held = [])
    (hwait : (s.core c).xpdWait = []) :
    s.sxIssueOp c t 0x30 sendBody = { s.setCore c (sxDone (s.core c) t (sxPc s c t + 4) id) with
      net := s.net ++ [oneWordPacket s c da (sfld i 18 4) (i.getLsbD 22) (pairOf s c t (sGb i))] } := by
  have hct : (coreField (daTarget da)).isSome = true := by rw [hdst]; exact hc
  have hda' : ((s.core c).gPair t.val (sGa i)).toNat % 2 ^ 48 = da := hda
  obtain ⟨hk, hcore, hmc, hlen⟩ := daDest_sendPacket hs hz hct (i.getLsbD 22) (sfld i 18 4) [(pairOf s c t (sGb i), false)]
  have hsend (u : State) : u.coreSend c t.val da (i.getLsbD 22) (sfld i 18 4) [((s.core c).gPair t.val (sGb i), false)] =
      { u with net := u.net ++ [oneWordPacket u c da (sfld i 18 4) (i.getLsbD 22) (pairOf s c t (sGb i))] } := by
    rw [State.coreSend_other _ _ _ (List.cons_ne_nil _ _) hs hz hct hne, ← coreStamped_oneWord hs hz hct]
    exact State.handCore_sameField _ hc hmc hk (hlen.trans_ne one_ne_zero) ((congrArg coreField hcore).trans hdst)
  have hdone : (s.core c).sxNext t.val id = sxDone (s.core c) t (sxPc s c t + 4) id :=
    CoreState.sxNext_eq _ t id (sxPc_aligned h) hr
  rw [State.sxIssueOp_at h, sendBody]
  dsimp only
  rw [State.core_setCore_same, hda', destBad, hs, if_neg (by simp), State.setCore_setCore, hdone, hsend,
    oneWordPacket_setCore (show (sxDone (s.core c) t (sxPc s c t + 4) id).epoch = (s.core c).epoch from rfl)]
  refine (State.modCore_withNet s c _ _ _).trans ?_
  rw [CoreState.afterSend_free (x := sxDone (s.core c) t (sxPc s c t + 4) id) hheld hwait]
  rfl

/-- The SX move engine's next command, with the operands that a MOVE reads. -/
def moveCmd (s : State) (c : CoreId) (t : Fin 4) (i : Inst32) : Cmd :=
  { epc := (sxPc s c t).toNat, addr := (sxA s c t i).toNat / 8, thread := t.val, da := (pairOf s c t (sGd i)).toNat % 2 ^ 48,
    len := (sxB s c t i).toNat % 4096, qdst := i.getLsbD 22, qid := sfld i 18 4 }

/-- The move engine starts no move while it has one in progress. -/
theorem State.tryStart_busyMove {s : State} {c : CoreId} (hk : coreKind c = .sx) (hprog : (s.core c).e2.prog ≠ []) :
    s.tryStart c 2 = none := by
  have hready (cmd : Cmd) : CoreState.headReady .sx (s.core c) 2 cmd = false := by
    simp [CoreState.headReady, hprog]
  unfold State.tryStart
  dsimp only
  rw [hk]
  split
  · rfl
  · simp [hready]

/-- While the move engine is busy nothing starts on an SX core. -/
theorem State.kick_busyMove {s : State} {c : CoreId} (hk : coreKind c = .sx) (h1 : (s.core c).e1.queue = [])
    (hprog : (s.core c).e2.prog ≠ []) (h3 : (s.core c).e3.queue = []) (n : Nat) : State.kick n s c = s := by
  cases n with
  | zero => rfl
  | succ n =>
    rw [State.kick, s.tryStart_nil c 1 h1, State.tryStart_busyMove hk hprog, s.tryStart_nil c 3 h3]
    split <;> rfl

/-- MOVE joins the queue of a busy move engine. -/
theorem State.sxIssueOp_move (h : SxAt s c t 0x31 i) (hr : SxRoom s c t) (h8 : (sxA s c t i).toNat % 8 = 0)
    (hlt : (sxA s c t i).toNat < 0x8000) (hroom : (s.core c).e2.queue.length < 8) (hprog : (s.core c).e2.prog ≠ [])
    (h1 : (s.core c).e1.queue = []) (h3 : (s.core c).e3.queue = []) :
    s.sxIssueOp c t 0x31 moveBody = s.setCore c (sxDone
      { s.core c with e2 := { (s.core c).e2 with queue := (s.core c).e2.queue ++ [moveCmd s c t i] } } t (sxPc s c t + 4)
      (fun y => { y with moves := y.moves + 1 })) := by
  have herr : memErr ((s.core c).gReg t.val (sGa i)) 8 = none :=
    (if_neg (not_not.2 h8)).trans (if_neg (Nat.not_le.2 hlt))
  have hdone := CoreState.sxNext_eq
    { s.core c with e2 := { (s.core c).e2 with queue := (s.core c).e2.queue ++ [moveCmd s c t i] } } t
    (fun y => { y with moves := y.moves + 1 }) (sxPc_aligned h) hr
  rw [State.sxIssueOp_at h]
  unfold moveBody
  dsimp only
  rw [State.core_setCore_same, herr]
  refine (if_neg (Nat.not_le.2 hroom)).trans ?_
  rw [State.setCore_setCore]
  refine (congrArg (fun y => State.kick kickFuel (s.setCore c y) c) hdone).trans ?_
  exact State.kick_busyMove h.1 (by rwa [State.core_setCore_same]) (by rwa [State.core_setCore_same]) (by rwa [State.core_setCore_same]) _

end

/-- Settles O3: each wait by the count it finds, SEMS and QREL by the one count they change, STEER by the two head entries, SEND by the
packet that enters the network, MOVE by the command that it queues. -/
theorem sxWaitsQueuesAndSends : Obligations.SxWaitsQueuesAndSends := by
  unfold Obligations.SxWaitsQueuesAndSends
  refine ⟨fun s c t i hr => ?waits, fun s c t i hr => ?queues⟩
  case waits =>
    intro x n q
    have hnext {op : Nat} (h : SxAt s c t op i) := CoreState.sxNext_eq x t id (sxPc_aligned h) hr
    refine ⟨fun h hn => congrArg _ (State.sxIssueOp_semw_takes h hr hn), fun h hn => congrArg _ (State.sxIssueOp_semw_waits h hn),
      fun h hn => congrArg _ (State.sxIssueOp_sems h hr hn), fun h hst hd hn => ?qwaitOn, fun h hst hd hn => ?qwaitHeld,
      fun h hm => ?mvsyncOn, fun h hm => ?mvsyncHeld⟩
    case qwaitOn => exact congrArg _ ((State.sxIssueOp_qwait h hst hd).trans (congrArg (s.setCore c) ((if_pos hn).trans (hnext h))))
    case qwaitHeld =>
      exact congrArg _ ((State.sxIssueOp_qwait h hst hd).trans (congrArg (s.setCore c) (if_neg (Nat.not_le.2 hn))))
    case mvsyncOn => exact congrArg _ ((State.sxIssueOp_mvsync h).trans (congrArg (s.setCore c) ((if_pos hm).trans (hnext h))))
    case mvsyncHeld => exact congrArg _ ((State.sxIssueOp_mvsync h).trans (congrArg (s.setCore c) (if_neg hm)))
  case queues =>
    intro x n q p wt wv da w src
    refine ⟨fun h hst hmode hpen hcren hn hes => ?qrel,
      fun h hne hqst hpst hqpen hppen hqpair hppair hqc hpc hrel hct hcv => ?steer,
      fun h hs hz hne hc hdst hheld hwait => congrArg _ (State.sxIssueOp_send h hr rfl hs hz hne hc hdst hheld hwait),
      fun h h8 hlt hroom hprog h1 h3 => congrArg _ (State.sxIssueOp_move h hr h8 hlt hroom hprog h1 h3)⟩
    case qrel =>
      exact congrArg _ ((State.sxIssueOp_qrel h hr hst hpen hcren hn).trans
        (congrArg (fun v => s.setCore c (sxDone (x.setQ (sGa i) v) t (sxPc s c t + 4) id)) (Queue.settle_dropHead_plain hmode hes n)))
    case steer =>
      have hpair := (x.steerPair_iff (sGa i) (sGb i)).2 ⟨hne, hqpen, hppen, hqpair, hppair⟩
      exact congrArg _ (State.sxIssueOp_steer h hr hpair ⟨hqst, hpst⟩ ⟨hqc, hpc⟩ hrel rfl rfl hct hcv)

end Sys2Proof.Machine

/-! SUPPORT. Sequencer instructions: the semaphores of their header, an instruction fetched ahead of a write, register writes and loops
(spec/03 R62, R76, R86, R87, spec/06 R150-R154). -/

namespace Sys2Proof.Machine

open Sys2Proof.Claims

/-! ### A sequencer that may issue -/

theorem State.seqReady_alive {s : State} {c : CoreId} (h : s.seqReady c = true) :
    (s.core c).err = false ∧ (s.core c).halted = false ∧ (s.core c).hold = .none := by
  simp only [State.seqReady, Bool.and_eq_true, Bool.not_eq_true'] at h
  obtain ⟨⟨⟨hruns, -⟩, hhalted⟩, hhold⟩ := h
  exact ⟨State.err_of_coreRuns hruns, hhalted, beq_iff_eq.1 hhold⟩

theorem seqAt_ready {s : State} {c : CoreId} {k : Kind} {op : Nat} {i : Inst128} (h : SeqAt s c k op i) : s.seqReady c = true := by
  obtain ⟨⟨-, hr, -⟩, -⟩ := h
  exact hr

theorem seqAt_kind {s : State} {c : CoreId} {k : Kind} {op : Nat} {i : Inst128} (h : SeqAt s c k op i) : coreKind c = k := by
  obtain ⟨⟨hk, -⟩, -⟩ := h
  exact hk

/-! ### The end of an instruction (spec/06 R152, R156) -/

/-- The core with nothing that holds its sequencer. -/
def unheld (x : CoreState) : CoreState := { x with hold := .none }

theorem unheld_of_free {x : CoreState} (h : x.hold = .none) : unheld x = x := by
  rw [unheld, ← h]

/-- Without a proof run nothing ends with an instruction (spec/15 R399). -/
theorem State.endRun_noRun (s : State) (c : CoreId) {x : CoreState} (h : x.prf.running = none) :
    (s.setCore c x).endRun c = s.setCore c x := by
  have hx : { x with prf := { x.prf with running := none } } = x := by rw [← h]
  rw [State.endRun, State.modCore_setCore, hx, ite_self]

/-- No proof run ends on a sequencer that has not halted. -/
theorem State.endRun_notHalted (s : State) {c : CoreId} {x : CoreState} (hk : coreKind c ≠ .sx) (h : x.halted = false) :
    (s.setCore c x).endRun c = s.setCore c x := by
  have hx : x.isHalted (coreKind c) = false := by
    unfold CoreState.isHalted
    rw [h]
    split
    · exact absurd ‹_› hk
    · rfl
  rw [State.endRun, State.modCore_setCore, hx, if_neg Bool.false_ne_true]

theorem State.finish_setCore (s : State) (c : CoreId) (x : CoreState) (i : Inst128) (f : CoreState → CoreState) :
    (s.setCore c x).finish c i f = (s.setCore c (if iSen i && !(f (unheld x)).err then
      (f (unheld x)).signal (iSsem i) 0 x.pc.toNat else f (unheld x))).endRun c := by
  rw [State.finish, State.modCore_setCore]
  rfl

/-- An instruction that signals nothing leaves what it does to its core. -/
theorem State.finish_noSignal (s : State) {c : CoreId} {x : CoreState} {i : Inst128} (hs : iSen i = false) (f : CoreState → CoreState) :
    (s.setCore c x).finish c i f = (s.setCore c (f (unheld x))).endRun c := by
  rw [State.finish_setCore, hs, Bool.false_and, if_neg Bool.false_ne_true]

theorem State.finish_signals (s : State) {c : CoreId} {x : CoreState} {i : Inst128} (hs : iSen i = true) (f : CoreState → CoreState)
    (herr : (f (unheld x)).err = false) :
    (s.setCore c x).finish c i f =
      (s.setCore c ((f (unheld x)).signal (iSsem i) 0 x.pc.toNat)).endRun c := by
  rw [State.finish_setCore, hs, herr, Bool.not_false, Bool.and_self, if_pos rfl]

/-- An instruction of a sequencer that stood free, without a signal. -/
theorem State.finish_free (s : State) {c : CoreId} {x : CoreState} {i : Inst128} (hk : coreKind c ≠ .sx) (hs : iSen i = false)
    (hhold : x.hold = .none) {f : CoreState → CoreState} (hf : (f x).halted = false) :
    (s.setCore c x).finish c i f = s.setCore c (f x) := by
  rw [State.finish_noSignal _ hs, unheld_of_free hhold, State.endRun_notHalted _ hk hf]

theorem CoreState.next_halted (x : CoreState) : x.next.halted = x.halted := (congrArg CoreState.halted x.next_frame :)

/-- A change outside the registers that an instruction's end moves passes through it. -/
theorem CoreState.next_withSem (x : CoreState) (v : RegFile 4 (BitVec 8)) :
    CoreState.next { x with sem := v } = { x.next with sem := v } := by
  rw [CoreState.next_of { x with sem := v } x rfl rfl, x.next_frame]
  rfl

theorem unheld_next (x : CoreState) : (unheld x).next = unheld x.next := by
  rw [CoreState.next_of (unheld x) x rfl rfl, x.next_frame]
  rfl

/-! ### The semaphore of the header (spec/06 R150, R154) -/

/-- The sequencer is engine 0: nothing is granted before it. -/
theorem CoreState.semGrant_sequencer {k : Kind} (hk : k ≠ .sx) (x : CoreState) (n : Nat) :
    x.semGrant k 0 n = decide (0 < x.semCount n) := by
  have hnil : x.semAhead k 0 n = 0 := by simp [CoreState.semAhead, hk]
  rw [CoreState.semGrant, hnil]

/-- The core after the take of the instruction's header. -/
def headerTaken (x : CoreState) (i : Inst128) : CoreState := { x with sem := semTaken x i }

theorem headerTaken_take {x : CoreState} {i : Inst128} (hw : iWen i = true) (hn : 0 < x.semCount (iWsem i)) :
    x.take (iWsem i) = headerTaken x i := by
  rw [CoreState.take_eq hn, headerTaken, semTaken, hw, if_pos rfl]
  rfl

theorem headerTaken_none {x : CoreState} {i : Inst128} (hw : iWen i = false) : headerTaken x i = x := by
  rw [headerTaken, semTaken, hw, if_neg Bool.false_ne_true]

/-- An instruction of the sequencer whose semaphore is free takes it first. -/
theorem State.issue_free {s : State} {c : CoreId} {k : Kind} {op : Nat} {i : Inst128} (hk : k ≠ .sx) (h : SeqAt s c k op i)
    (heng : engineOf k op = some 0) (hfree : SemFree (s.core c) i) (body : Body) :
    s.issue c k op body = body (s.setCore c (headerTaken (s.core c) i)) c i := by
  cases hw : iWen i with
  | false =>
    rw [State.issue_at h body (fun _ => hw), headerTaken_none hw]
  | true =>
    have hpos := hfree hw
    obtain ⟨⟨hc, hr, hp, hlt, hn, h0, h1, hi, ho⟩, hl⟩ := h
    rw [s.issue_takes c k op body i hc hr hp hlt hn h0 h1 hi ho hl heng hw
      (by rw [CoreState.semGrant_sequencer hk]; exact decide_eq_true hpos), headerTaken_take hw hpos]

/-- An instruction of the sequencer whose semaphore is at 0 is held on it. -/
theorem State.issue_held {s : State} {c : CoreId} {k : Kind} {op : Nat} {i : Inst128} (hk : k ≠ .sx) (h : SeqAt s c k op i)
    (heng : engineOf k op = some 0) (hw : iWen i = true) (hz : (s.core c).semCount (iWsem i) = 0) (body : Body) :
    s.issue c k op body = s.setCore c { s.core c with hold := .sem (iWsem i), heldInst := i } := by
  obtain ⟨⟨rfl, hr, hp, hlt, hn, h0, h1, hi, ho⟩, hl⟩ := h
  have hgrant : (s.core c).semGrant (coreKind c) 0 (iWsem i) = false := by
    rw [CoreState.semGrant_sequencer hk, hz]
    rfl
  simp only [State.issue, hr]
  rw [State.fetchSeq_clean s c hp hlt hn h0 h1, hi]
  simp [ho, hl, heng, hw, hgrant, State.holdSeq]

theorem engineOf_nop {k : Kind} (hk : k ≠ .sx) : engineOf k 0x00 = some 0 := by
  cases k with
  | mx => rfl
  | vx => rfl
  | sx => exact absurd rfl hk

theorem headerTaken_next (x : CoreState) (i : Inst128) : (headerTaken x i).next = issued x i := x.next_withSem _

theorem issued_err (x : CoreState) (i : Inst128) : (issued x i).err = x.err := (congrArg CoreState.err (issued_frame x i) :)
theorem issued_halted (x : CoreState) (i : Inst128) : (issued x i).halted = x.halted :=
  (congrArg CoreState.halted (issued_frame x i) :)
theorem issued_semSig (x : CoreState) (i : Inst128) : (issued x i).semSig = x.semSig :=
  (congrArg CoreState.semSig (issued_frame x i) :)

/-- A no-op that finds its semaphore free and signals none. -/
theorem State.issue_nop {s : State} {c : CoreId} {k : Kind} {i : Inst128} (hk : k ≠ .sx) (h : SeqAt s c k 0x00 i)
    (hfree : SemFree (s.core c) i) (hs : iSen i = false) : s.issue c k 0x00 nopBody = s.setCore c (issued (s.core c) i) := by
  obtain ⟨-, hhalted, hhold⟩ := State.seqReady_alive (seqAt_ready h)
  have hfinish := s.finish_free (x := headerTaken (s.core c) i) (by rwa [seqAt_kind h]) hs hhold (f := CoreState.next)
    (by rw [headerTaken_next, issued_halted, hhalted])
  rw [headerTaken_next] at hfinish
  exact (State.issue_free hk h (engineOf_nop hk) hfree nopBody).trans hfinish

/-- A no-op that signals, once it has taken. -/
theorem State.issue_nop_signals {s : State} {c : CoreId} {k : Kind} {i : Inst128} (hk : k ≠ .sx) (h : SeqAt s c k 0x00 i)
    (hfree : SemFree (s.core c) i) (hs : iSen i = true) (hn : (issued (s.core c) i).semCount (iSsem i) < 255) :
    s.issue c k 0x00 nopBody = s.setCore c (signalled (issued (s.core c) i) (iSsem i)) := by
  obtain ⟨herr, hhalted, hhold⟩ := State.seqReady_alive (seqAt_ready h)
  rw [← issued_halted _ i] at hhalted
  have hfinish := s.finish_signals (c := c) (x := headerTaken (s.core c) i) hs CoreState.next
  rw [unheld_of_free (x := headerTaken (s.core c) i) hhold, headerTaken_next, CoreState.signal_eq hn] at hfinish
  refine (State.issue_free hk h (engineOf_nop hk) hfree nopBody).trans ((hfinish ?_).trans (State.endRun_notHalted _ ?_ ?_))
  · rw [issued_err, herr]
  · rwa [seqAt_kind h]
  · exact hhalted

/-! ### An instruction fetched ahead of a write (spec/03 R76, R87) -/

/-- The core once a fetch has found what it keeps of the words at `pc`. -/
def fetched (x : CoreState) (pc : Nat) : CoreState :=
  { x with stale := x.stale.filter (fun o => !(o.thread == 0 && o.pc == pc)) }

section

variable {s : State} {c : CoreId} {k : Kind} {e : Stale}

theorem State.fetchOld_one {pc : Nat} (h : (s.core c).earlier 0 pc = [e]) :
    s.fetchOld c 0 pc = (State.setCore { s with freeCtr := s.freeCtr + 1 } c (fetched (s.core c) pc),
      if Config.fetchAge s.freeCtr % 2 = 0 then some (eccDecode e.lo, eccDecode e.hi) else none) := by
  have hpick (n : Nat) : ([e][n % 2]?).map (fun o => (eccDecode o.lo, eccDecode o.hi)) =
      if n % 2 = 0 then some (eccDecode e.lo, eccDecode e.hi) else none := by
    rcases Nat.mod_two_eq_zero_or_one n with h | h <;> simp [h]
  rw [← hpick]
  simp only [State.fetchOld, h]
  rfl

/-- A fetch with one write on its words: it finds the old instruction or the new one, by a free value. -/
theorem State.fetchSeq_one (hp : (s.core c).pc.toNat % 2 = 0) (hw : (s.core c).pc.toNat < (coreKind c).words)
    (he : (s.core c).earlier 0 (s.core c).pc.toNat = [e]) (h0 : (s.core c).clean (s.core c).pc.toNat = true)
    (h1 : (s.core c).clean ((s.core c).pc.toNat + 1) = true) (hlo : (eccDecode e.lo).bad = false) (hhi : (eccDecode e.hi).bad = false) :
    s.fetchSeq c = (State.setCore { s with freeCtr := s.freeCtr + 1 } c (fetched (s.core c) (s.core c).pc.toNat),
      some (if Config.fetchAge s.freeCtr % 2 = 0 then (eccDecode e.hi).data ++ (eccDecode e.lo).data
        else (s.core c).data ((s.core c).pc.toNat + 1) ++ (s.core c).data (s.core c).pc.toNat)) := by
  have hreads : CoreState.noteReads (coreKind c) 0 (fetched (s.core c) (s.core c).pc.toNat)
      [(s.core c).pc.toNat, (s.core c).pc.toNat + 1] = fetched (s.core c) (s.core c).pc.toNat := by
    refine CoreState.noteReads_clean _ _ _ _ ?_
    simp only [List.forall_mem_cons]
    exact ⟨h0, h1, fun _ h => absurd h List.not_mem_nil⟩
  have hp0 : (fetched (s.core c) (s.core c).pc.toNat).poisoned (s.core c).pc.toNat = false := CoreState.poisoned_clean _ _ h0
  have hp1 : (fetched (s.core c) (s.core c).pc.toNat).poisoned ((s.core c).pc.toNat + 1) = false := CoreState.poisoned_clean _ _ h1
  simp only [State.fetchSeq, State.fetchOld_one he]
  rw [if_neg (by omega)]
  by_cases hage : Config.fetchAge s.freeCtr % 2 = 0
  · simp only [if_pos hage, hlo, hhi]
    rfl
  · simp only [if_neg hage, State.core_setCore_same, hp0, hp1, hreads, State.setCore_setCore]
    rfl

/-- A sequencer that issues is what `State.issue` does with a fetched instruction of its opcode that names no semaphore. -/
theorem State.issue_of_fetch {u : State} {op : Nat} {i : Inst128} (hk : coreKind c = k) (hr : s.seqReady c = true)
    (hf : s.fetchSeq c = (u, some i)) (hop : iOpc i = op) (hl : (s.core c).decodes k i = true) (hw : iWen i = false) (body : Body) :
    s.issue c k op body = body u c i := by
  simp [State.issue, hk, hr, hf, hop, hl, hw]

/-- Where the instruction fetched is another one, the event is not there. -/
theorem State.issue_other {u : State} {op : Nat} {i : Inst128} (hf : s.fetchSeq c = (u, some i)) (hop : iOpc i ≠ op)
    (heng : (engineOf k (iOpc i)).isSome = true) (body : Body) : s.issue c k op body = s := by
  have hnone : (engineOf k (iOpc i)).isNone = false := by
    rw [← Option.not_isSome, heng]
    rfl
  simp [State.issue, hf, hop, hnone]

end

/-! ### Register writes (spec/03 R62, R86, Table 3.15, spec/04 Table 4.5) -/

section

variable {s : State} {c : CoreId} {k : Kind} {op : Nat} {i : Inst128}

/-- An instruction of the sequencer without semaphores leaves its effect. -/
theorem State.issue_effect (h : SeqAt s c k op i) (hk : k ≠ .sx) (hn : NoSem i) {f : CoreState → CoreState} {body : Body}
    (hb : ∀ u, body u c i = u.finish c i f) (hf : (f (s.core c)).halted = (s.core c).halted) :
    s.issue c k op body = s.setCore c (f (s.core c)) := by
  obtain ⟨hw, hs⟩ := hn
  obtain ⟨-, hhalted, hhold⟩ := State.seqReady_alive (seqAt_ready h)
  rw [State.issue_at h body (fun _ => hw), hb]
  exact State.finish_free s (by rwa [seqAt_kind h]) hs hhold (hf.trans hhalted)

/-- An instruction of the sequencer that changes registers and goes on. -/
theorem State.issue_registers (h : SeqAt s c k op i) (hk : k ≠ .sx) (hn : NoSem i) {g : CoreState → CoreState} {body : Body}
    (hb : ∀ u, body u c i = u.finish c i (fun x => (g x).next)) (hg : (g (s.core c)).halted = (s.core c).halted) :
    s.issue c k op body = s.setCore c (g (s.core c)).next :=
  State.issue_effect h hk hn hb ((CoreState.next_halted _).trans hg)

end

theorem CoreState.setA_eq (x : CoreState) {r : Nat} (hr : r < 8) (v : BitVec 13) :
    x.setA r v = if r = 0 then x else { x with a := x.a.set (BitVec.ofNat 3 r) v } := by
  rw [CoreState.setA, Nat.mod_eq_of_lt hr]

@[simp] theorem CoreState.setA_halted (x : CoreState) (r : Nat) (v : BitVec 13) : (x.setA r v).halted = x.halted := by
  unfold CoreState.setA
  split <;> rfl

theorem CoreState.setAddr_address (x : CoreState) {r : Nat} (hr : r < 8) (v : BitVec 13) :
    x.setAddr r false v = if r = 0 then x else { x with a := x.a.set (BitVec.ofNat 3 r) v } := x.setA_eq hr v

@[simp] theorem CoreState.setAddr_halted (x : CoreState) (r : Nat) (str : Bool) (v : BitVec 13) :
    (x.setAddr r str v).halted = x.halted := by
  cases str
  · exact x.setA_halted r v
  · rfl

theorem nfld_lt (v lo w : Nat) : nfld v lo w < 2 ^ w := Nat.mod_lt _ (Nat.two_pow_pos w)

/-- A write of an address register or of a stride. -/
theorem State.issue_setAddr {s : State} {c : CoreId} {k : Kind} {op : Nat} {i : Inst128} (h : SeqAt s c k op i) (hk : k ≠ .sx)
    (hn : NoSem i) {body : Body} {r : Nat} {str : Bool} {v : BitVec 13} {y : CoreState}
    (hb : ∀ u, body u c i = u.finish c i (fun x => (x.setAddr r str v).next)) (hy : (s.core c).setAddr r str v = y) :
    s.issue c k op body = s.setCore c y.next :=
  (State.issue_registers h hk hn hb ((s.core c).setAddr_halted r str v)).trans (congrArg (fun z => s.setCore c (CoreState.next z)) hy)

/-- The word address of an instruction, as the statements write it (spec/03 R62). -/
theorem CoreState.addrOf_eq (x : CoreState) (i : Inst128) (lo off : Nat) :
    x.addrOf (ifld i lo 3) (ifld i off 13) =
      ((if nfld i.toNat lo 3 = 0 then 0 else x.a.get (BitVec.ofNat 3 (nfld i.toNat lo 3))) + i.extractLsb' off 13).toNat := by
  have hoff : BitVec.ofNat 13 (ifld i off 13) = i.extractLsb' off 13 := by
    rw [ifld, nfld_eq_extract, BitVec.ofNat_toNat, BitVec.setWidth_eq]
  rw [CoreState.addrOf, CoreState.aReg, hoff, ifld, Nat.mod_eq_of_lt (show nfld i.toNat lo 3 < 8 from nfld_lt _ _ 3)]

/-- MXSETSC from a clean word of the scratchpad. -/
theorem State.issue_setscWord {s : State} {c : CoreId} {i : Inst128} (h : SeqAt s c .mx 0x11 i) (hn : NoSem i) (hm : i.getLsbD 23 = true)
    {w : Nat} (hw : (s.core c).addrOf (ifld i 24 3) (ifld i 27 13) = w) (hclean : CleanRun .mx (s.core c) [w]) :
    s.issue c .mx 0x11 mxSetscBody =
      s.setCore c ((s.core c).setSc (ifld i 20 3) (((s.core c).data w).extractLsb' 0 32)).next := by
  obtain ⟨hwen, hs⟩ := hn
  obtain ⟨-, hhalted, hhold⟩ := State.seqReady_alive (seqAt_ready h)
  rw [State.issue_at h _ (fun _ => hwen), mxSetscBody]
  dsimp only
  rw [hm, if_pos rfl, State.core_setCore_same, hw, CoreState.fetchWords_clean hclean]
  dsimp only
  rw [State.setCore_setCore]
  exact State.finish_free s (by rw [seqAt_kind h]; decide) hs hhold ((CoreState.next_halted _).trans hhalted)

/-! ### Loops (spec/03 R86) -/

/-- A loop instruction leaves the core that begins the loop, or that skips it. -/
theorem State.issue_loop {s : State} {c : CoreId} {k : Kind} {i : Inst128} {body : Body} {lvl count len : Nat} {adv : BitVec 8}
    {y : CoreState} (h : SeqAt s c k 0x12 i) (hk : k ≠ .sx) (hn : NoSem i)
    (hb : ∀ u, body u c i = loopBody lvl count len adv u c i) (hl : (s.core c).loopLegal lvl len = true)
    (hy : (s.core c).beginLoop lvl count len adv = y) (hhalt : y.halted = (s.core c).halted) :
    s.issue c k 0x12 body = s.setCore c y := by
  subst hy
  obtain ⟨hw, hs⟩ := hn
  obtain ⟨-, hhalted, hhold⟩ := State.seqReady_alive (seqAt_ready h)
  rw [State.issue_at h body (fun _ => hw), hb, loopBody, State.core_setCore_same, if_pos hl]
  exact State.finish_free s (by rwa [seqAt_kind h]) hs hhold (hhalt.trans hhalted)

/-- A loop of at least one pass begins after its instruction. -/
theorem CoreState.beginLoop_passes (x : CoreState) {count : Nat} (hc : count ≠ 0) (lvl len : Nat) (adv : BitVec 8) :
    x.beginLoop lvl count len adv =
      if lvl = 0 then { x with loop0 := some { start := x.pc + 2, len := len, adv := adv }, lc0 := BitVec.ofNat 16 count, pc := x.pc + 2 }
      else { x with loop1 := some { start := x.pc + 2, len := len, adv := adv }, lc1 := BitVec.ofNat 16 count, pc := x.pc + 2 } :=
  if_neg hc

theorem CoreState.goTo_noLoops {x : CoreState} (h0 : x.loop0 = none) (h1 : x.loop1 = none) (pc : BitVec 13) :
    x.goTo pc = { x with pc := pc } := by
  simp only [CoreState.goTo, CoreState.endPass1, CoreState.endPass0, h0, h1]

/-- The core after the first `n` address registers of a pass's ADV have advanced. -/
def advanced (adv : BitVec 8) (x : CoreState) (n : Nat) : CoreState :=
  (List.range n).foldl (fun c i => if adv.getLsbD i then c.setA i (c.aReg i + c.str.get (BitVec.ofNat 3 i)) else c) x

theorem CoreState.advance_eq (x : CoreState) (adv : BitVec 8) : x.advance adv = advanced adv x 8 := rfl

theorem advanced_succ (adv : BitVec 8) (x : CoreState) (n : Nat) : advanced adv x (n + 1) =
    if adv.getLsbD n then (advanced adv x n).setA n ((advanced adv x n).aReg n + (advanced adv x n).str.get (BitVec.ofNat 3 n))
    else advanced adv x n := by
  rw [advanced, List.range_succ, List.foldl_append, List.foldl_cons, List.foldl_nil]
  rfl

theorem ofNat_eq_iff {n : Nat} (hn : n < 8) (r : BitVec 3) : BitVec.ofNat 3 n = r ↔ n = r.toNat := by
  rw [← BitVec.toNat_inj, BitVec.toNat_ofNat, Nat.mod_eq_of_lt hn]

/-- Only the address registers advance. -/
theorem advanced_frame (adv : BitVec 8) (x : CoreState) (n : Nat) : advanced adv x n = { x with a := (advanced adv x n).a } := by
  induction n with
  | zero => rfl
  | succ n ih =>
    rw [advanced_succ, CoreState.setA]
    split
    · split
      · exact ih
      · generalize (advanced adv x n).a.set _ _ = v
        rw [ih]
    · exact ih

/-- Each of the first `n` registers of ADV, but A0, has advanced by its stride. -/
theorem advanced_get (adv : BitVec 8) (x : CoreState) (n : Nat) (hn : n ≤ 8) (r : BitVec 3) (hr : r ≠ 0) :
    (advanced adv x n).a.get r = if r.toNat < n ∧ adv.getLsbD r.toNat = true then x.a.get r + x.str.get r else x.a.get r := by
  have hpos : r.toNat ≠ 0 := fun e => hr (BitVec.eq_of_toNat_eq e)
  have hstr (m : Nat) : (advanced adv x m).str = x.str := (congrArg CoreState.str (advanced_frame adv x m) :)
  induction n with
  | zero => rfl
  | succ n ih =>
    have ih := ih (by omega)
    rw [advanced_succ]
    by_cases hn0 : n = r.toNat
    · subst hn0
      have hmod : r.toNat % 8 ≠ 0 := by omega
      rw [if_neg (by omega)] at ih
      by_cases hadv : adv.getLsbD r.toNat = true
      · rw [if_pos hadv, if_pos ⟨Nat.lt_succ_self _, hadv⟩, CoreState.setA, if_neg hmod, CoreState.aReg, if_neg hmod, hstr,
          BitVec.ofNat_toNat, BitVec.setWidth_eq, ih]
        exact RegFile.get_set_same _ _ _
      · rw [if_neg hadv, if_neg (fun h => hadv h.2), ih]
    · have hlt : (r.toNat < n + 1 ∧ adv.getLsbD r.toNat = true) ↔ (r.toNat < n ∧ adv.getLsbD r.toNat = true) := by
        rw [Nat.lt_succ_iff, le_iff_lt_or_eq, or_iff_left (fun e => hn0 e.symm)]
      simp only [hlt, ← ih]
      split
      · rw [CoreState.setA_eq _ (by omega)]
        split
        · rfl
        · exact RegFile.get_set_ne _ _ _ _ (fun e => hn0 ((ofNat_eq_iff (by omega) r).1 e))
      · rfl

/-- A loop of level 0 may begin outside every loop. -/
theorem CoreState.loopLegal_outermost {x : CoreState} (h0 : x.loop0 = none) (h1 : x.loop1 = none) (len : Nat) :
    x.loopLegal 0 len = true := by
  rw [CoreState.loopLegal, if_pos rfl, h0, h1]
  rfl

/-- The end of a pass of the level-0 loop, with no level-1 loop: the registers of ADV advance, and the pass counts down. -/
theorem CoreState.goTo_endPass0 {x : CoreState} {l : Loop} {pc : BitVec 13} (h1 : x.loop1 = none) (h0 : x.loop0 = some l)
    (hpc : pc = l.stop) :
    (∀ r, r ≠ 0 → (x.goTo pc).a.get r = if l.adv.getLsbD r.toNat then x.a.get r + x.str.get r else x.a.get r) ∧
      if x.lc0.toNat ≤ 1 then x.goTo pc = { x with a := (x.goTo pc).a, lc0 := 0, loop0 := none, pc := pc }
      else x.goTo pc = { x with a := (x.goTo pc).a, lc0 := x.lc0 - 1, pc := l.start } := by
  have hget := advanced_get l.adv { x with pc := pc } 8 (le_refl 8)
  have hgo : x.goTo pc = if (advanced l.adv { x with pc := pc } 8).lc0.toNat ≤ 1
      then { advanced l.adv { x with pc := pc } 8 with lc0 := 0, loop0 := none }
      else { advanced l.adv { x with pc := pc } 8 with lc0 := (advanced l.adv { x with pc := pc } 8).lc0 - 1, pc := l.start } := by
    simp only [CoreState.goTo, CoreState.endPass1, CoreState.endPass0, h0, h1, hpc, CoreState.advance_eq, ne_eq, not_true_eq_false, if_false]
  have hframe := advanced_frame l.adv { x with pc := pc } 8
  generalize advanced l.adv { x with pc := pc } 8 = z at hgo hget hframe
  have hlc : z.lc0 = x.lc0 := (congrArg CoreState.lc0 hframe :)
  have ha : (x.goTo pc).a = z.a := by
    rw [hgo]
    split <;> rfl
  rw [ha]
  refine ⟨fun r hr => ?_, ?_⟩
  · simpa [r.isLt] using hget r hr
  · rw [hgo, hlc]
    by_cases hlast : x.lc0.toNat ≤ 1
    · rw [if_pos hlast, if_pos hlast, hframe]
    · rw [if_neg hlast, if_neg hlast, hframe]

/-- Outside every loop a COUNT of 0 only skips the body. -/
theorem CoreState.beginLoop_skips {x : CoreState} {lvl count len : Nat} (h0 : x.loop0 = none) (h1 : x.loop1 = none) (hc : count = 0)
    (adv : BitVec 8) : x.beginLoop lvl count len adv = { x with pc := x.pc + 2 + BitVec.ofNat 13 (2 * len) } :=
  (if_pos hc).trans (CoreState.goTo_noLoops h0 h1 _)

/-- The no-op of the sequencer of kind `k` is issued with the body of a no-op. -/
theorem exec_nop {k : Kind} (hk : k ≠ .sx) (c : CoreId) (s : State) :
    exec (if k = .mx then .mxnop c else .vnop c) s = .next (s.issue c k 0x00 nopBody) := by
  cases k with
  | mx => rfl
  | vx => rfl
  | sx => exact absurd rfl hk

theorem issued_noSem (x : CoreState) {i : Inst128} (hw : iWen i = false) : issued x i = x.next := by
  rw [← headerTaken_next, headerTaken_none hw]

/-- Where a write has replaced a no-op, the sequencer executes the old one whole, or meets the new instruction. -/
theorem State.issue_nop_replaced {s : State} {c : CoreId} {k : Kind} {e : Stale} (hk : k ≠ .sx) (hc : coreKind c = k)
    (hr : s.seqReady c = true) (hp : (s.core c).pc.toNat % 2 = 0) (hw : (s.core c).pc.toNat < (coreKind c).words)
    (he : (s.core c).earlier 0 (s.core c).pc.toNat = [e]) (h0 : (s.core c).clean (s.core c).pc.toNat = true)
    (h1 : (s.core c).clean ((s.core c).pc.toNat + 1) = true) (hlo : (eccDecode e.lo).bad = false) (hhi : (eccDecode e.hi).bad = false)
    (hold : iOpc ((eccDecode e.hi).data ++ (eccDecode e.lo).data) = 0)
    (hdec : (s.core c).decodes k ((eccDecode e.hi).data ++ (eccDecode e.lo).data) = true)
    (hn : NoSem ((eccDecode e.hi).data ++ (eccDecode e.lo).data))
    (hnew : iOpc ((s.core c).data ((s.core c).pc.toNat + 1) ++ (s.core c).data (s.core c).pc.toNat) = 0x13) :
    s.issue c k 0x00 nopBody = if Config.fetchAge s.freeCtr % 2 = 0 then
      ({ s with freeCtr := s.freeCtr + 1 } : State).setCore c (fetched (s.core c) (s.core c).pc.toNat).next else s := by
  obtain ⟨-, hhalted, hhold⟩ := State.seqReady_alive hr
  obtain ⟨hwen, hsen⟩ := hn
  have hfetch := State.fetchSeq_one hp hw he h0 h1 hlo hhi
  by_cases hage : Config.fetchAge s.freeCtr % 2 = 0
  · rw [if_pos hage] at hfetch ⊢
    rw [State.issue_of_fetch hc hr hfetch hold hdec hwen]
    exact State.finish_free _ (x := fetched (s.core c) (s.core c).pc.toNat) (by rwa [hc]) hsen hhold
      ((CoreState.next_halted _).trans hhalted)
  · rw [if_neg hage] at hfetch ⊢
    refine State.issue_other hfetch (by rw [hnew]; decide) ?_ _
    rw [hnew]
    cases k with
    | mx => rfl
    | vx => rfl
    | sx => exact absurd rfl hk

/-- Settles O5: no-ops by the header's semaphores, a replaced no-op by the free value of its fetch, register writes and loops by what
each leaves in its core. -/
theorem seqRegistersAndLoops : Obligations.SeqRegistersAndLoops := by
  unfold Obligations.SeqRegistersAndLoops
  refine ⟨fun s c k i hk h => ?noOps, fun s c k e hk hc hr => ?fetchedAhead, fun s c i hn => ?registers, fun s c i hn => ?loops⟩
  case noOps =>
    intro x nop
    have hexec := exec_nop hk c s
    refine ⟨fun hfree hs => ?_, fun hfree hs h255 => ?_, fun hw hz => ?_⟩
    · exact hexec.trans (congrArg _ (State.issue_nop hk h hfree hs))
    · have hlt : (issued x i).semCount (iSsem i) < 255 :=
        lt_of_le_of_ne (Nat.le_of_lt_succ (BitVec.isLt _)) (fun e => h255 (BitVec.eq_of_toNat_eq e))
      have hsig := State.issue_nop_signals hk h hfree hs hlt
      rw [signalled, issued_semSig] at hsig
      exact hexec.trans (congrArg _ hsig)
    · exact hexec.trans (congrArg _ (State.issue_held hk h (engineOf_nop hk) hw hz nopBody))
  case fetchedAhead =>
    intro x p nop old new y hp hw he h0 h1 hlo hhi hold hdec hno hnew
    exact (exec_nop hk c s).trans
      (congrArg _ (State.issue_nop_replaced hk hc hr hp (by rwa [hc]) he h0 h1 hlo hhi hold hdec hno hnew))
  case registers =>
    intro x setA setS r q w
    refine ⟨fun h hm => ?mxAddress, fun h hm => ?mxStride, fun h hm => ?vxAddress, fun h hm => ?vxStride, fun h => ?uniform,
      fun h hm => ?scale, fun h hm hclean => ?scaleWord⟩
    case mxAddress =>
      refine congrArg _ (State.issue_setAddr h (by decide) hn (fun _ => rfl) ?_)
      rw [hm]
      exact x.setAddr_address (nfld_lt _ _ 3) _
    case mxStride =>
      refine congrArg _ (State.issue_setAddr h (by decide) hn (fun _ => rfl) ?_)
      rw [hm]
      rfl
    case vxAddress =>
      refine congrArg _ (State.issue_setAddr h (by decide) hn (fun _ => rfl) ?_)
      rw [hm]
      exact x.setAddr_address (nfld_lt _ _ 3) _
    case vxStride =>
      refine congrArg _ (State.issue_setAddr h (by decide) hn (fun _ => rfl) ?_)
      rw [hm]
      rfl
    case uniform =>
      exact congrArg _ (State.issue_registers h (by decide) hn
        (g := fun x => { x with u := x.u.set (BitVec.ofNat 3 (vUreg i)) (i.extractLsb' 96 32) }) (fun _ => rfl) rfl)
    case scale =>
      have hb (u : State) : mxSetscBody u c i = u.finish c i (fun x => (x.setSc (ifld i 20 3) (i.extractLsb' 24 32)).next) :=
        if_neg (by rw [hm]; decide)
      exact congrArg _ (State.issue_registers h (by decide) hn hb rfl)
    case scaleWord => exact congrArg _ (State.issue_setscWord h hn hm (x.addrOf_eq i 24 27) hclean)
  case loops =>
    intro x begin_
    have hbegin {lvl count len : Nat} {adv : BitVec 8} (hc : count ≠ 0) : x.beginLoop lvl count len adv = begin_ lvl count len adv :=
      x.beginLoop_passes hc lvl len adv
    have hhalted (lvl count len : Nat) (adv : BitVec 8) : (begin_ lvl count len adv).halted = x.halted := by
      dsimp only [begin_]
      split <;> rfl
    refine ⟨fun h hl hc => ?mxPasses, fun h hl hc => ?vxPasses, fun h h0 h1 hlvl hc => ?mxSkips, fun h h0 h1 hlvl hc => ?vxSkips,
      fun h h1 l h0 hstop => ?bodyEnd⟩
    case mxPasses =>
      exact congrArg Host.Outcome.next (State.issue_loop h (by decide) hn (body := mxLoopBody) (fun _ => rfl) hl (hbegin hc) (hhalted _ _ _ _))
    case vxPasses =>
      exact congrArg Host.Outcome.next (State.issue_loop h (by decide) hn (body := vxLoopBody) (fun _ => rfl) hl (hbegin hc) (hhalted _ _ _ _))
    case mxSkips =>
      have hl : x.loopLegal (nfld i.toNat 20 1) (nfld i.toNat 37 8) = true := by rw [hlvl, CoreState.loopLegal_outermost h0 h1]
      exact congrArg Host.Outcome.next (State.issue_loop h (by decide) hn (body := mxLoopBody) (fun _ => rfl) hl
        (CoreState.beginLoop_skips h0 h1 hc _) rfl)
    case vxSkips =>
      have hl : x.loopLegal (nfld i.toNat 45 1) (nfld i.toNat 112 8) = true := by rw [hlvl, CoreState.loopLegal_outermost h0 h1]
      exact congrArg Host.Outcome.next (State.issue_loop h (by decide) hn (body := vxLoopBody) (fun _ => rfl) hl
        (CoreState.beginLoop_skips h0 h1 hc _) rfl)
    case bodyEnd =>
      obtain ⟨hw, hs⟩ := hn
      have hend := CoreState.goTo_endPass0 h1 h0 hstop
      rw [← CoreState.next, ← issued_noSem x hw] at hend
      refine ⟨issued x i, congrArg Host.Outcome.next ?_, hend⟩
      exact State.issue_nop (by decide) h (fun hwen => absurd (hw.symm.trans hwen) Bool.false_ne_true) hs

end Sys2Proof.Machine

/-! SUPPORT. COMMAND_COMPLETE (spec/06 R148, R152, R156). -/

namespace Sys2Proof.Machine

open Sys2Proof.Claims

/-! ### Free counts (log 9) -/

/-- The core with SPWAIT.WAIT at `v`. -/
def waited (x : CoreState) (v : BitVec 32) : CoreState := { x with sp := { x.sp with waitCount := v } }

/-- The core with SEMSTALL at `v` and MXSTALL at `m`. -/
def stalled (x : CoreState) (v m : BitVec 32) : CoreState := { x with semStall := v, mxStall := m }

/-- The state with its counter of free values at `n`. -/
def withFree (s : State) (n : Nat) : State := { s with freeCtr := n }

/-- A change of one core and of the counter of free values is a change of that core alone. -/
theorem coreOnly_setCore (s : State) (n : Nat) (c : CoreId) (y : CoreState) : CoreOnly s ((withFree s n).setCore c y) c y := rfl

theorem State.countWait_eq (s : State) (c : CoreId) : s.countWait c = (withFree s (s.freeCtr + 1)).setCore c
    (waited (s.core c) (satAdd (s.core c).sp.waitCount (Config.stallCycles s.freeCtr).toNat)) := rfl

theorem State.countStall_eq (s : State) (c : CoreId) (sem mx : Bool) :
    s.countStall c sem mx = (withFree s (s.freeCtr + 1)).setCore c (stalled (s.core c)
      (if sem then satAdd (s.core c).semStall (Config.stallCycles s.freeCtr).toNat else (s.core c).semStall)
      (if mx then satAdd (s.core c).mxStall (Config.stallCycles s.freeCtr).toNat else (s.core c).mxStall)) := rfl

theorem withFree_setCore (s : State) (m n : Nat) (c : CoreId) (y : CoreState) :
    withFree ((withFree s m).setCore c y) n = (withFree s n).setCore c y := rfl

/-! ### A completion -/

theorem State.coreWorks_of_Works {s : State} {c : CoreId} (h : Works s c) : s.coreWorks c = true := by
  obtain ⟨f, j, hf, hrun, hpow, hgate, hjob, hst, herr⟩ := h
  simp [State.coreWorks, FieldState.clocked, State.fieldJob, hf, hrun, hpow, hgate, hjob, hst, herr]

/-- The core once command `n` of engine `e` has left it, with its counts of waits at `v` and `m`. -/
def emptied (x : CoreState) (e n : Nat) (v m : BitVec 32) : CoreState :=
  { x with
    e1 := if e = 1 then { x.e1 with prog := (x.engine e).prog.eraseIdx n } else x.e1
    e2 := if e = 2 then { x.e2 with prog := (x.engine e).prog.eraseIdx n } else x.e2
    e3 := if e = 3 then { x.e3 with prog := (x.engine e).prog.eraseIdx n } else x.e3
    sp := { x.sp with waitCount := v }
    mxStall := m }

/-- The core once command `n` of engine `e` has left it and signalled, with its counts of waits at `v` and `m`. -/
def completion (x : CoreState) (e n : Nat) (cmd : Cmd) (v m : BitVec 32) : CoreState :=
  { (if iSen cmd.inst then signalled x (iSsem cmd.inst) else x) with
    e1 := if e = 1 then { x.e1 with prog := (x.engine e).prog.eraseIdx n } else x.e1
    e2 := if e = 2 then { x.e2 with prog := (x.engine e).prog.eraseIdx n } else x.e2
    e3 := if e = 3 then { x.e3 with prog := (x.engine e).prog.eraseIdx n } else x.e3
    sp := { x.sp with waitCount := v }
    mxStall := m }

/-- The core once a move of an SX thread has completed, with its count of waits at `v`. -/
def moveCompletion (x : CoreState) (n : Nat) (cmd : Cmd) (v : BitVec 32) : CoreState :=
  { x with
    e2 := { x.e2 with prog := x.e2.prog.eraseIdx n }
    sp := { x.sp with waitCount := v }
    th := x.th.set (BitVec.ofNat 2 cmd.thread) { x.thread cmd.thread with moves := (x.thread cmd.thread).moves - 1 } }

theorem completion_signals {cmd : Cmd} (hs : iSen cmd.inst = true) (x : CoreState) (e n : Nat) (v m : BitVec 32) :
    completion x e n cmd v m = signalled (emptied x e n v m) (iSsem cmd.inst) := by
  rw [completion, hs]
  rfl

theorem completion_silent {cmd : Cmd} (hs : iSen cmd.inst = false) (x : CoreState) (e n : Nat) (v m : BitVec 32) :
    completion x e n cmd v m = emptied x e n v m := by
  rw [completion, hs]
  rfl

theorem setEngine_emptied {e : Nat} (he : e = 1 ∨ e = 2 ∨ e = 3) (x : CoreState) (n : Nat) (v : BitVec 32) :
    (waited x v).setEngine e { (waited x v).engine e with prog := ((waited x v).engine e).prog.eraseIdx n } =
      emptied x e n v x.mxStall := by
  rcases he with rfl | rfl | rfl <;> rfl

/-- The command leaves its engine and signals its SEN. -/
theorem CoreState.completed_engine {k : Kind} (hk : k ≠ .sx) {e : Nat} (he : e = 1 ∨ e = 2 ∨ e = 3) (x : CoreState) (n : Nat) {cmd : Cmd}
    (hs : iSen cmd.inst = true → x.semCount (iSsem cmd.inst) < 255) (v : BitVec 32) :
    (waited x v).completed k e n cmd = completion x e n cmd v x.mxStall := by
  simp only [CoreState.completed]
  rw [if_neg hk, setEngine_emptied he]
  cases hsen : iSen cmd.inst with
  | true =>
    rw [completion_signals hsen, if_pos rfl]
    exact CoreState.signal_eq (x := emptied x e n v x.mxStall) (hs hsen) _ _
  | false => rw [completion_silent hsen, if_neg Bool.false_ne_true]

/-- An SX move leaves its engine and counts off its thread. -/
theorem CoreState.completed_move (x : CoreState) (n : Nat) (cmd : Cmd) (v : BitVec 32) :
    (waited x v).completed .sx 2 n cmd = moveCompletion x n cmd v := rfl

theorem completion_queues (x : CoreState) (e n : Nat) (cmd : Cmd) (v m : BitVec 32) :
    (completion x e n cmd v m).e1.queue = x.e1.queue ∧ (completion x e n cmd v m).e2.queue = x.e2.queue ∧
      (completion x e n cmd v m).e3.queue = x.e3.queue := by
  simp only [completion]
  refine ⟨?_, ?_, ?_⟩ <;> split <;> rfl

theorem completion_prf (x : CoreState) (e n : Nat) (cmd : Cmd) (v m : BitVec 32) : (completion x e n cmd v m).prf = x.prf := by
  cases h : iSen cmd.inst <;> simp only [completion, h] <;> rfl

/-- With nothing queued and no proof run a completion ends with what it did to its core. -/
theorem State.endRun_kick_idle (s : State) {c : CoreId} {y : CoreState} (h : NoQueued y) (hp : y.prf.running = none) :
    (State.kick kickFuel (s.setCore c y) c).endRun c = s.setCore c y := by
  rw [← s.core_setCore_same c y] at h
  obtain ⟨h1, h2, h3⟩ := h
  rw [State.kick_idle _ c kickFuel h1 h2 h3]
  exact State.endRun_noRun s c hp

section

variable {s : State} {c : CoreId} {k : Kind} {e n : Nat} {cmd : Cmd}

/-- A command in progress completes. -/
theorem State.cmdComplete_eq (hc : coreKind c = k) (hw : Works s c) (hcmd : ((s.core c).engine e).prog[n]? = some cmd)
    (he : hasEngine k e = true) (hheld : moveHeld k (s.core c) e = false) :
    s.cmdComplete c e n = (State.kick kickFuel (let u := (s.countWait c).modCore c (fun y => y.completed k e n cmd)
      if k == .mx && e == 1 then u.countStall c false true else u) c).endRun c := by
  unfold State.cmdComplete
  simp only [hcmd, hc, he, hheld, State.coreWorks_of_Works hw, Bool.not_true, Bool.or_self, if_neg Bool.false_ne_true]

/-- While something of its move is held the move engine completes nothing. -/
theorem State.cmdComplete_held (hc : coreKind c = k) (hcmd : ((s.core c).engine e).prog[n]? = some cmd)
    (hheld : moveHeld k (s.core c) e = true) : s.cmdComplete c e n = s := by
  unfold State.cmdComplete
  simp only [hcmd, hc, hheld, Bool.or_true, if_true]

/-- A completed command leaves its engine and signals, and free counts enter SPWAIT and, for the array engine, MXSTALL. -/
theorem State.cmdComplete_engine (hc : coreKind c = k) (hw : Works s c) (hq : NoQueued (s.core c)) (hp : (s.core c).prf.running = none)
    (hcmd : ((s.core c).engine e).prog[n]? = some cmd) (hk : k ≠ .sx) (he : e = 1 ∨ e = 2 ∨ e = 3 ∧ k = .vx)
    (hheld : moveHeld k (s.core c) e = false) (hs : iSen cmd.inst = true → (s.core c).semCount (iSsem cmd.inst) < 255) :
    ∃ f v m, s.cmdComplete c e n = (withFree s f).setCore c (completion (s.core c) e n cmd v m) ∧
      (k ≠ .mx ∨ e ≠ 1 → m = (s.core c).mxStall) := by
  have hengine : hasEngine k e = true := by
    rcases he with rfl | rfl | ⟨rfl, rfl⟩
    · cases k with
      | mx => rfl
      | vx => rfl
      | sx => exact absurd rfl hk
    · cases k <;> rfl
    · rfl
  have hidle (m : BitVec 32) (v : BitVec 32) : NoQueued (completion (s.core c) e n cmd v m) := by
    obtain ⟨h1, h2, h3⟩ := completion_queues (s.core c) e n cmd v m
    rwa [NoQueued, h1, h2, h3]
  have hrun (m : BitVec 32) (v : BitVec 32) : (completion (s.core c) e n cmd v m).prf.running = none := by
    rwa [completion_prf]
  rw [State.cmdComplete_eq hc hw hcmd hengine hheld, State.countWait_eq, State.modCore_setCore,
    CoreState.completed_engine hk (by tauto) _ _ hs]
  dsimp only
  split
  · rename_i harray
    rw [State.countStall_eq, State.core_setCore_same, withFree_setCore, State.setCore_setCore]
    refine ⟨_, _, _, State.endRun_kick_idle _ (hidle _ _) (hrun _ _), fun h => ?_⟩
    simp only [Bool.and_eq_true, beq_iff_eq] at harray
    tauto
  · exact ⟨_, _, _, State.endRun_kick_idle _ (hidle _ _) (hrun _ _), fun _ => rfl⟩

end

/-- Settles O15: what a completion does to its engine, its semaphore and its thread, with nothing queued behind it. -/
theorem commandCompletion : Obligations.CommandCompletion := by
  unfold Obligations.CommandCompletion
  intro s c e n cmd x k rest hw hq hp hcmd
  refine ⟨fun hk he hfree hs => ?engine, fun hk he hth hfree => ?move, fun he hheld => ?held⟩
  case engine =>
    have hheld : moveHeld k x e = false := by
      by_cases h2 : e = 2
      · simp [moveHeld, h2, hk, hfree h2]
      · simp [moveHeld, h2]
    obtain ⟨f, v, m, ht, hm⟩ := State.cmdComplete_engine (k := k) rfl hw hq hp hcmd hk he hheld hs
    exact ⟨_, m, v, congrArg Host.Outcome.next ht, coreOnly_setCore s f c _, hm⟩
  case move =>
    subst he
    have hheld : moveHeld k x 2 = false := by simp [moveHeld, hk, hfree]
    have hrun : s.cmdComplete c 2 n = (State.kick kickFuel ((withFree s (s.freeCtr + 1)).setCore c (moveCompletion x n cmd
        (satAdd x.sp.waitCount (Config.stallCycles s.freeCtr).toNat))) c).endRun c := by
      rw [State.cmdComplete_eq (k := k) rfl hw hcmd (by rw [hk]; rfl) hheld, State.countWait_eq, State.modCore_setCore, hk,
        CoreState.completed_move]
      rfl
    exact ⟨_, _, congrArg Host.Outcome.next (hrun.trans (State.endRun_kick_idle _ hq hp)), coreOnly_setCore s _ c _⟩
  case held =>
    have hmove : moveHeld k x e = true := by simp [moveHeld, he, hheld]
    exact congrArg Host.Outcome.next (State.cmdComplete_held rfl hcmd hmove)

end Sys2Proof.Machine

/-! SUPPORT. The ends of waits: semaphore grants, queue waits, room in a command queue, and SEM_DEADLOCK (spec/06 R148-R157, spec/07 R171). -/

namespace Sys2Proof.Machine

open Sys2Proof.Claims

/-! ### The sequencer's and a thread's wait -/

/-- The core with SEMSTALL at `v`. -/
def semStalled (x : CoreState) (v : BitVec 32) : CoreState := { x with semStall := v }

theorem State.countStall_semaphore (s : State) (c : CoreId) : s.countStall c true false = (withFree s (s.freeCtr + 1)).setCore c
    (semStalled (s.core c) (satAdd (s.core c).semStall (Config.stallCycles s.freeCtr).toNat)) := s.countStall_eq c true false

theorem semStalled_next (x : CoreState) (v : BitVec 32) : (semStalled x v).next = semStalled x.next v := by
  rw [CoreState.next_of (semStalled x v) x rfl rfl, x.next_frame]
  rfl

theorem semStalled_unheld (x : CoreState) (v : BitVec 32) : unheld (unheld (semStalled x v)) = semStalled (unheld x) v := rfl

theorem CoreState.next_prf (x : CoreState) : x.next.prf = x.prf := (congrArg CoreState.prf x.next_frame :)

/-- A sequencer that was held on a no-op goes on after it. -/
theorem State.finish_heldNop (s : State) (c : CoreId) {x : CoreState} {i : Inst128} (hs : iSen i = false) (hp : x.prf.running = none) :
    (s.setCore c x).finish c i CoreState.next = s.setCore c (unheld x.next) := by
  rw [State.finish_noSignal s hs, unheld_next]
  exact State.endRun_noRun s c (by rw [unheld, CoreState.next_prf, hp])

theorem State.finish_ownCore (s : State) (c : CoreId) (i : Inst128) (f : CoreState → CoreState) :
    s.finish c i f = (s.setCore c (s.core c)).finish c i f := by
  rw [State.finish_setCore]
  rfl

theorem nopBody_finish (s : State) (c : CoreId) (i : Inst128) : nopBody s c i = s.finish c i CoreState.next := rfl

/-- The semaphore a thread waits on. -/
theorem CoreState.semWait_thread (x : CoreState) (e : Fin 4) (q : Nat) : x.semWait .sx e.val = some q ↔ (x.thread e.val).wait = .sem q := by
  have he : e.val < 4 := e.isLt
  rw [CoreState.semWait, ← CoreState.thread]
  cases (x.thread e.val).wait <;> simp [he]

section

variable {s : State} {c : CoreId} {q n : Nat}

/-- A sequencer held at a no-op on a semaphore takes one of it and goes on. -/
theorem State.takeSeq_nop (hr : s.coreRuns c = true) (hp : (s.core c).prf.running = none) (hk : coreKind c ≠ .sx)
    (hhold : (s.core c).hold = .sem q) (hop : iOpc (s.core c).heldInst = 0) (hs : iSen (s.core c).heldInst = false)
    (hq : 0 < (s.core c).semCount q) :
    s.takeSeq c = (withFree s (s.freeCtr + 1)).setCore c (semStalled (unheld (withSem (s.core c) q (· - 1)).next)
      (satAdd (s.core c).semStall (Config.stallCycles s.freeCtr).toNat)) := by
  have hgrant : (s.core c).semGrant (coreKind c) 0 q = true := by
    rw [CoreState.semGrant_sequencer hk, decide_eq_true hq]
  have hbody : bodyOf (coreKind c) (iOpc (s.core c).heldInst) = nopBody := by rw [hop]; rfl
  have htake (v : BitVec 32) : (semStalled (s.core c) v).take q = semStalled (withSem (s.core c) q (· - 1)) v :=
    CoreState.take_eq (x := semStalled (s.core c) v) hq
  have hfree : (fun y : CoreState => { y.take q with hold := .none }) = fun y => unheld (y.take q) := rfl
  simp only [State.takeSeq, hhold, hr, hgrant, Bool.and_self, if_true]
  rw [hbody, State.countStall_semaphore, hfree, State.modCore_setCore, htake, nopBody_finish, State.finish_heldNop _ c hs ?_,
    unheld_next, semStalled_next, semStalled_unheld]
  exact hp

/-- A waiting SEMW goes on once no thread that waits for the semaphore comes before it in the order of R114. -/
theorem State.takeThread_semw {e : Fin 4} (hr : s.coreRuns c = true) (hrun : ((s.core c).thread e.val).run = true)
    (hwait : ((s.core c).thread e.val).wait = .sem q) (hq : 0 < (s.core c).semCount q)
    (hfirst : ∀ d : Fin 4, ((s.core c).thread d.val).wait = .sem q → (s.core c).threadPlace e ≤ (s.core c).threadPlace d)
    (h4 : (sxPc s c e).toNat % 4 = 0) (hroom : SxRoom s c e) :
    s.takeThread c e = (withFree s (s.freeCtr + 1)).setCore c (semStalled (sxDone (withSem (s.core c) q (· - 1)) e (sxPc s c e + 4) id)
      (satAdd (s.core c).semStall (Config.stallCycles s.freeCtr).toNat)) := by
  have hahead : (s.core c).semAhead .sx e q = 0 := by
    rw [CoreState.semAhead, List.length_eq_zero_iff, List.filter_eq_nil_iff]
    intro d hd hbefore
    rw [List.mem_range] at hd
    simp only [if_true, Bool.and_eq_true, beq_iff_eq, decide_eq_true_eq] at hbefore
    obtain ⟨hsem, hplace⟩ := hbefore
    exact absurd (hfirst ⟨d, hd⟩ (((s.core c).semWait_thread ⟨d, hd⟩ q).1 hsem)) (Nat.not_le.2 hplace)
  have hgrant : (s.core c).semGrant .sx e q = true := by
    rw [CoreState.semGrant, hahead, decide_eq_true hq]
  have hsemw (v : BitVec 32) : (semStalled (s.core c) v).semwGrant e =
      semStalled (sxDone (withSem (s.core c) q (· - 1)) e (sxPc s c e + 4) id) v := by
    have htake := CoreState.take_eq (x := semStalled (s.core c) v) hq
    have hnext := CoreState.sxNext_eq (withSem (semStalled (s.core c) v) q (· - 1)) e id h4 hroom
    unfold CoreState.semwGrant
    simp only [show ((semStalled (s.core c) v).thread e.val).wait = .sem q from hwait,
      show (semStalled (s.core c) v).semCount q = (s.core c).semCount q from rfl, if_neg (Nat.pos_iff_ne_zero.1 hq)]
    rw [htake, hnext]
    rfl
  simp only [State.takeThread, hwait, hr, hrun, hgrant, Bool.and_self, if_true]
  rw [State.countStall_semaphore, State.modCore_setCore]
  exact congrArg _ (hsemw _)

end

/-! ### MXCLRACC (spec/03 Table 3.8) -/

/-- `y` is `x` but for the accumulator, and an accumulator in canonical order reads 0 where `p` holds and as before elsewhere. -/
def ClearsAcc (x y : CoreState) (p : Nat → Nat → Prop) [∀ r e, Decidable (p r e)] : Prop :=
  y = { x with acc := y.acc, accFp := y.accFp } ∧
    (KMap.rising x.acc = true → KMap.rising y.acc = true ∧ ∀ r, ∀ e < 16, y.accGet r e = if p r e then 0 else x.accGet r e)

theorem KMap.rising_set {α : Type} [DecidableEq α] (d : α) (m : KMap α) (k : Nat) (v : α) (h : KMap.rising m = true) :
    KMap.rising (m.set d k v) = true := by
  unfold KMap.set
  split
  · exact KMap.rising_del m k h
  · exact KMap.rising_put m k v h

/-- Clearing one entry after what is cleared already. -/
theorem ClearsAcc.accSet {x y : CoreState} {p p' : Nat → Nat → Prop} [∀ r e, Decidable (p r e)] [∀ r e, Decidable (p' r e)]
    (h : ClearsAcc x y p) {row col : Nat} (hcol : col < 16) (hp : ∀ r e, p' r e ↔ (r = row ∧ e = col) ∨ p r e) :
    ClearsAcc x (y.accSet row col 0) p' := by
  obtain ⟨hframe, hget⟩ := h
  refine ⟨?_, fun hrise => ?_⟩
  · rw [CoreState.accSet]
    generalize KMap.set 0 y.acc (16 * row + col) 0 = a
    rw [hframe]
  · obtain ⟨hy, hget⟩ := hget hrise
    refine ⟨KMap.rising_set 0 y.acc (16 * row + col) 0 hy, fun r e he => ?_⟩
    have hkey : 16 * r + e = 16 * row + col ↔ r = row ∧ e = col := by omega
    have hset : (y.accSet row col 0).accGet r e = if 16 * r + e = 16 * row + col then 0 else y.accGet r e :=
      KMap.get_set 0 y.acc (16 * row + col) (16 * r + e) 0 hy
    rw [hset, hget r e he, ← ite_or]
    exact if_congr ((or_congr_left hkey).trans (hp r e).symm) rfl rfl

/-- A row's kind is not an entry. -/
theorem ClearsAcc.setRowFp {x y : CoreState} {p : Nat → Nat → Prop} [∀ r e, Decidable (p r e)] (h : ClearsAcc x y p) (row : Nat)
    (fp : Bool) : ClearsAcc x (y.setRowFp row fp) p := by
  obtain ⟨hframe, hget⟩ := h
  refine ⟨?_, hget⟩
  rw [CoreState.setRowFp]
  generalize y.accFp.set (BitVec.ofNat 6 row) fp = a
  rw [hframe]

/-- One row's entries, from the first on. -/
def clearedCols (x : CoreState) (row n : Nat) : CoreState := (List.range n).foldl (fun d e => d.accSet row e 0) x

/-- The rows from `lo` on, cleared and of one kind. -/
def clearedRows (x : CoreState) (lo : Nat) (fp : Bool) (n : Nat) : CoreState :=
  (List.range n).foldl (fun d r => clearedCols (d.setRowFp (lo + r) fp) (lo + r) 16) x

theorem mxClrAcc_eq (x : CoreState) (cmd : Cmd) :
    mxClrAcc x cmd = (clearedRows x (ifld cmd.inst 20 6) (cmd.inst.getLsbD 33) (ifld cmd.inst 26 7), true) := rfl

theorem clearedCols_succ (x : CoreState) (row n : Nat) : clearedCols x row (n + 1) = (clearedCols x row n).accSet row n 0 := by
  rw [clearedCols, List.range_succ, List.foldl_append, List.foldl_cons, List.foldl_nil]
  rfl

theorem clearedRows_succ (x : CoreState) (lo : Nat) (fp : Bool) (n : Nat) :
    clearedRows x lo fp (n + 1) = clearedCols ((clearedRows x lo fp n).setRowFp (lo + n) fp) (lo + n) 16 := by
  rw [clearedRows, List.range_succ, List.foldl_append, List.foldl_cons, List.foldl_nil]
  rfl

theorem clearedCols_clears {x y : CoreState} {p : Nat → Nat → Prop} [∀ r e, Decidable (p r e)] (h : ClearsAcc x y p) (row : Nat) :
    ∀ n ≤ 16, ClearsAcc x (clearedCols y row n) (fun r e => (r = row ∧ e < n) ∨ p r e) := by
  intro n
  induction n with
  | zero =>
    intro _
    obtain ⟨hframe, hget⟩ := h
    exact ⟨hframe, fun hrise => by simpa [clearedCols] using hget hrise⟩
  | succ n ih =>
    intro hn
    rw [clearedCols_succ]
    refine (ih (by omega)).accSet (by omega) (fun r e => ?_)
    rw [Nat.lt_succ_iff, le_iff_lt_or_eq]
    tauto

/-- MXCLRACC clears its rows and nothing else. -/
theorem clearedRows_clears (x : CoreState) (lo : Nat) (fp : Bool) (n : Nat) :
    ClearsAcc x (clearedRows x lo fp n) (fun r _ => lo ≤ r ∧ r < lo + n) := by
  induction n with
  | zero => exact ⟨rfl, fun hrise => ⟨hrise, fun r e _ => (if_neg (by omega)).symm⟩⟩
  | succ n ih =>
    rw [clearedRows_succ]
    obtain ⟨hframe, hget⟩ := clearedCols_clears (ih.setRowFp (lo + n) fp) (lo + n) 16 le_rfl
    refine ⟨hframe, fun hrise => ?_⟩
    obtain ⟨hy, hget⟩ := hget hrise
    refine ⟨hy, fun r e he => (hget r e he).trans (if_congr ?_ rfl rfl)⟩
    omega

/-! ### The array engine's semaphore, and room in its queue -/

/-- An array command with nothing in progress before it may start, unless it needs the shadow buffer. -/
theorem mxReady_clrAcc {x : CoreState} {i : Inst128} (hop : iOpc i = 5) (hprog : x.e1.prog = []) : mxReady x i = true := by
  rw [mxReady, hop]
  simp [hprog]

/-- Engine 1 waits only behind the sequencer. -/
theorem CoreState.semGrant_array {x : CoreState} {q : Nat} (hhold : x.hold ≠ .sem q) : x.semGrant .mx 1 q = decide (0 < x.semCount q) := by
  have hseq : x.semWait .mx 0 ≠ some q := by
    unfold CoreState.semWait
    cases hx : x.hold with
    | sem n =>
      rw [hx] at hhold
      simpa using hhold
    | _ => simp
  have hahead : x.semAhead .mx 1 q = 0 := by
    rw [CoreState.semAhead, List.length_eq_zero_iff, List.filter_eq_nil_iff]
    intro j _ hbefore
    simp only [if_neg (show Kind.mx ≠ .sx by decide), Bool.and_eq_true, beq_iff_eq, decide_eq_true_eq] at hbefore
    obtain ⟨hsem, hlt, -⟩ := hbefore
    rw [Nat.lt_one_iff.1 hlt] at hsem
    exact hseq hsem
  rw [CoreState.semGrant, hahead]

section

variable {s : State} {c : CoreId} {cmd : Cmd}

/-- The core once the array engine's only command has cleared its rows. -/
def accCleared (x : CoreState) (cmd : Cmd) : CoreState :=
  (clearedRows (x.setEngine 1 {}) (ifld cmd.inst 20 6) (cmd.inst.getLsbD 33) (ifld cmd.inst 26 7)).setEngine 1 { prog := [cmd] }

theorem State.runCmd_clrAcc (s : State) (hk : coreKind c = .mx) (hop : iOpc cmd.inst = 5) (y : CoreState) :
    (s.setCore c y).runCmd c 1 cmd =
      (s.setCore c (clearedRows y (ifld cmd.inst 20 6) (cmd.inst.getLsbD 33) (ifld cmd.inst 26 7)), true) := by
  unfold State.runCmd
  rw [hk]
  simp only [State.core_setCore_same, mxArrayRun, hop, mxClrAcc_eq, State.setCore_setCore]

/-- Clearing rows leaves the engines. -/
theorem clearedRows_engine (x : CoreState) (lo : Nat) (fp : Bool) (n : Nat) : (clearedRows x lo fp n).engine 1 = x.engine 1 := by
  obtain ⟨hframe, -⟩ := clearedRows_clears x lo fp n
  exact (congrArg CoreState.e1 hframe :)

theorem State.startHead_clrAcc (s : State) {x : CoreState} {q : Nat} (hk : coreKind c = .mx) (hop : iOpc cmd.inst = 5)
    (hwen : iWen cmd.inst = true) (hsem : iWsem cmd.inst = q) (hq : 0 < x.semCount q) (hprog : x.e1.prog = []) :
    (s.setCore c x).startHead c 1 cmd [] = s.setCore c (accCleared (withSem x q (· - 1)) cmd) := by
  have htake : (if coreKind c != .sx && iWen cmd.inst then x.take (iWsem cmd.inst) else x) = withSem x q (· - 1) := by
    rw [hk, hwen, hsem, CoreState.take_eq hq]
    rfl
  have hstart : { (withSem x q (· - 1)).engine 1 with queue := [], waiting := false } = ({} : Engine) := by
    exact congrArg (fun p => ({ prog := p } : Engine)) hprog
  have hvx : (coreKind c == .vx && 1 == 1) = false := by rw [hk]; rfl
  unfold State.startHead
  simp only [State.core_setCore_same, htake, hstart, State.setCore_setCore]
  rw [State.runCmd_clrAcc s hk hop]
  simp only [State.modCore_setCore, hvx, Bool.not_true, Bool.false_eq_true, if_false, clearedRows_engine, CoreState.engine_setEngine]
  rfl

/-- Of the core only the array engine and the accumulator change. -/
theorem accCleared_frame (x : CoreState) (cmd : Cmd) : accCleared x cmd =
    { x with e1 := { prog := [cmd] }, acc := (accCleared x cmd).acc, accFp := (accCleared x cmd).accFp } := by
  obtain ⟨hframe, -⟩ := clearedRows_clears (x.setEngine 1 {}) (ifld cmd.inst 20 6) (cmd.inst.getLsbD 33) (ifld cmd.inst 26 7)
  exact congrArg (fun y => CoreState.setEngine y 1 { prog := [cmd] }) hframe

theorem accCleared_get {x : CoreState} (hrise : KMap.rising x.acc = true) (cmd : Cmd) (r : Nat) {e : Nat} (he : e < 16) :
    (accCleared x cmd).accGet r e =
      if ifld cmd.inst 20 6 ≤ r ∧ r < ifld cmd.inst 20 6 + ifld cmd.inst 26 7 then 0 else x.accGet r e := by
  obtain ⟨-, hget⟩ := clearedRows_clears (x.setEngine 1 {}) (ifld cmd.inst 20 6) (cmd.inst.getLsbD 33) (ifld cmd.inst 26 7)
  obtain ⟨-, hget⟩ := hget hrise
  exact hget r e he

/-- After a grant the array engine, the accumulator and the counts of waits differ from the core that took the semaphore. -/
theorem accCleared_keeps (x : CoreState) (v m : BitVec 32) (q : Nat) (f : BitVec 8 → BitVec 8) (cmd : Cmd) :
    accCleared (withSem (stalled x v m) q f) cmd = { withSem x q f with
      e1 := (accCleared (withSem (stalled x v m) q f) cmd).e1
      acc := (accCleared (withSem (stalled x v m) q f) cmd).acc
      accFp := (accCleared (withSem (stalled x v m) q f) cmd).accFp
      semStall := (accCleared (withSem (stalled x v m) q f) cmd).semStall
      mxStall := (accCleared (withSem (stalled x v m) q f) cmd).mxStall } := by
  have hframe := accCleared_frame (withSem (stalled x v m) q f) cmd
  generalize accCleared (withSem (stalled x v m) q f) cmd = y at hframe
  rw [hframe]
  rfl

/-- An MXCLRACC at the head of the array engine's queue takes one of its semaphore, clears its rows and is in progress. -/
theorem State.takeEngine_clrAcc {q : Nat} (hr : s.coreRuns c = true) (hk : coreKind c = .mx)
    (he : (s.core c).e1 = { queue := [cmd], prog := [], waiting := true }) (h2 : (s.core c).e2.queue = []) (h3 : (s.core c).e3.queue = [])
    (hop : iOpc cmd.inst = 5) (hsem : iWsem cmd.inst = q) (hwen : iWen cmd.inst = true) (hq : 0 < (s.core c).semCount q)
    (hhold : (s.core c).hold ≠ .sem q) :
    ∃ v m, s.takeEngine c 1 =
      (withFree s (s.freeCtr + 1)).setCore c (accCleared (withSem (stalled (s.core c) v m) q (· - 1)) cmd) := by
  have hengine : (s.core c).engine 1 = { queue := [cmd], prog := [], waiting := true } := he
  have hready : CoreState.headReady .mx (s.core c) 1 cmd = true := mxReady_clrAcc hop (by rw [he])
  have hgrant : CoreState.semGrant .mx (s.core c) 1 (iWsem cmd.inst) = true := by
    rw [hsem, CoreState.semGrant_array hhold, decide_eq_true hq]
  have hstall := s.countStall_eq c true true
  rw [if_pos rfl, if_pos rfl] at hstall
  generalize satAdd (s.core c).semStall _ = v at hstall
  generalize satAdd (s.core c).mxStall _ = m at hstall
  have hprog : (stalled (s.core c) v m).e1.prog = [] := congrArg Engine.prog he
  have hstart := State.startHead_clrAcc (withFree s (s.freeCtr + 1)) (x := stalled (s.core c) v m) hk hop hwen hsem hq hprog
  refine ⟨v, m, ?_⟩
  unfold State.takeEngine
  simp only [hengine, hr, hk, hready, hgrant, Bool.and_self, if_true, beq_self_eq_true, hstall, hstart]
  refine State.kick_idle _ c kickFuel ?_ ?_ ?_
  all_goals rw [State.core_setCore_same, accCleared_frame]
  · exact h2
  · exact h3

/-- An engine that already waits and two that have nothing queued: nothing starts. -/
theorem State.kick_waiting (s : State) (c : CoreId) (n : Nat) (h1 : (s.core c).e1.waiting = true) (h2 : (s.core c).e2.queue = [])
    (h3 : (s.core c).e3.queue = []) : State.kick n s c = s := by
  have hwaits : s.tryStart c 1 = none := by
    simp only [State.tryStart, CoreState.engine, h1, Bool.or_true, if_true]
    split <;> rfl
  have hnone2 : s.tryStart c 2 = none := by simp only [State.tryStart, CoreState.engine, h2]
  have hnone3 : s.tryStart c 3 = none := by simp only [State.tryStart, CoreState.engine, h3]
  cases n with
  | zero => rfl
  | succ n =>
    simp only [State.kick, hwaits, hnone2, hnone3]
    exact ite_self s

theorem mkCmd_clrAcc {i : Inst128} (hop : iOpc i = 5) (x : CoreState) : (mkCmd .mx x i).inst = i := by
  rw [mkCmd, hop]
  rfl

/-- An MXCLRACC with room in its queue enters it, and the sequencer goes on. -/
theorem State.enqueue_kick {i : Inst128} (hk : coreKind c = .mx) (hop : iOpc i = 5) (hroom : (s.core c).e1.queue.length < 8) :
    s.enqueue c i = State.kick kickFuel (s.setCore c (unheld ((s.core c).setEngine 1
      { (s.core c).engine 1 with queue := ((s.core c).engine 1).queue ++ [mkCmd .mx (s.core c) i] }).next)) c := by
  have heng : engineOf .mx (iOpc i) = some 1 := by rw [hop]; rfl
  have hpair : mxPairOk (s.core c).mxAhead i = true := by rw [mxPairOk, hop]; rfl
  have hfull : ¬ queueSize .mx 1 ≤ ((s.core c).engine 1).queue.length := Nat.not_le.2 hroom
  have hvx : (Kind.mx == .vx && iOpc i == 0x52) = false := rfl
  unfold State.enqueue
  simp only [hk, heng, hpair, hfull, hvx, Bool.not_true, Bool.and_false, Bool.false_eq_true, if_false]
  rfl

/-- Behind a waiting array engine an MXCLRACC only joins the queue. -/
theorem State.enqueue_clrAcc {i : Inst128} (hk : coreKind c = .mx) (hop : iOpc i = 5) (hwait : (s.core c).e1.waiting = true)
    (hroom : (s.core c).e1.queue.length < 8) (h2 : (s.core c).e2.queue = []) (h3 : (s.core c).e3.queue = []) :
    s.enqueue c i = s.setCore c { (s.core c).next with
      hold := .none
      e1 := { (s.core c).e1 with queue := (s.core c).e1.queue ++ [mkCmd .mx (s.core c) i] } } := by
  rw [State.enqueue_kick hk hop hroom, CoreState.next_setEngine, State.kick_waiting]
  · rfl
  all_goals rw [State.core_setCore_same]
  · exact hwait
  · exact (congrArg (fun x => x.e2.queue) (s.core c).next_frame).trans h2
  · exact (congrArg (fun x => x.e3.queue) (s.core c).next_frame).trans h3

/-! ### The ends of the waits -/

theorem State.queueRoom_clrAcc (hr : s.coreRuns c = true) (hk : coreKind c = .mx) (hhold : (s.core c).hold = .full)
    (hop : iOpc (s.core c).heldInst = 5) : s.queueRoom c 1 = s.enqueue c (s.core c).heldInst := by
  have heng : engineOf .mx (iOpc (s.core c).heldInst) = some 1 := by rw [hop]; rfl
  simp [State.queueRoom, hr, hk, hhold, heng]

theorem State.queueRoom_thread {e : Fin 4} (hr : s.coreRuns c = true) (hk : coreKind c = .sx)
    (hwait : ((s.core c).thread e.val).wait = .room) (hroom : (s.core c).e2.queue.length < 8) :
    s.queueRoom c e = s.setCore c (sxWaiting (s.core c) e .none) := by
  have he : e.val < 4 := e.isLt
  simp only [State.queueRoom, hr, hk, hwait, he, hroom, decide_true, Bool.not_true, Bool.false_eq_true, if_false, beq_self_eq_true,
    Bool.and_self, if_true]
  rfl

/-- The queue wait of a sequencer ends once the queue holds enough. -/
theorem State.queueWaitEnd_sequencer {q n : Nat} (hr : s.coreRuns c = true) (hk : coreKind c ≠ .sx)
    (hhold : (s.core c).hold = .queue q n) :
    s.queueWaitEnd c 0 = if n ≤ ((s.core c).qu q).count then s.finish c (s.core c).heldInst CoreState.next else s := by
  simp only [State.queueWaitEnd, hr, hhold, Bool.not_true, Bool.false_eq_true, if_false, true_and]

theorem State.queueWaitEnd_thread {e : Fin 4} {q n : Nat} (hr : s.coreRuns c = true) (hk : coreKind c = .sx)
    (hrun : ((s.core c).thread e.val).run = true) (hwait : ((s.core c).thread e.val).wait = .queue q n)
    (hn : n ≤ ((s.core c).qu q).count) (h4 : (sxPc s c e).toNat % 4 = 0) (hroom : SxRoom s c e) :
    s.queueWaitEnd c e = s.setCore c (sxDone (s.core c) e (sxPc s c e + 4) id) := by
  have he : e.val < 4 := e.isLt
  have hend : (s.core c).qwaitEnd e = sxDone (s.core c) e (sxPc s c e + 4) id := by
    rw [CoreState.qwaitEnd, hwait]
    exact (if_pos hn).trans (CoreState.sxNext_eq _ e id h4 hroom)
  simp only [State.queueWaitEnd, hr, hk, hrun, he, decide_true, Bool.not_true, Bool.false_eq_true, if_false, Bool.and_self, if_true]
  exact congrArg (s.setCore c) hend

end

/-! ### SEM_DEADLOCK (spec/06 R157, Table 6.3) -/

/-- A thread waits for a semaphore that is at 0. -/
def Starved (x : CoreState) (t : Nat) : Prop := ∃ q, (x.thread t).wait = .sem q ∧ x.semCount q = 0

theorem CoreState.blocked_thread (x : CoreState) (e : Fin 4) : x.blocked .sx e.val = true ↔ Starved x e.val := by
  have hsem := x.semWait_thread e
  unfold CoreState.blocked
  cases hw : x.semWait .sx e.val with
  | none =>
    refine ⟨fun h => absurd h Bool.false_ne_true, fun ⟨q, hq, _⟩ => ?_⟩
    rw [(hsem q).2 hq] at hw
    cases hw
  | some q =>
    have hwait := (hsem q).1 hw
    simp [Starved, hwait]

theorem CoreState.deadlocked_threads {x : CoreState} : x.deadlocked .sx = true ↔
    (∃ e : Fin 4, (x.thread e.val).run = true ∧ Starved x e.val) ∧ ∀ d : Fin 4, (x.thread d.val).run = true → Starved x d.val := by
  simp only [CoreState.deadlocked, Bool.and_eq_true, List.any_eq_true, List.all_eq_true, List.mem_range, ← CoreState.blocked_thread]
  refine and_congr ⟨?_, ?_⟩ ⟨?_, ?_⟩
  · rintro ⟨t, ht, h⟩
    exact ⟨⟨t, ht⟩, h⟩
  · rintro ⟨e, h⟩
    exact ⟨e, e.isLt, h⟩
  · intro h d hd
    simpa [hd] using h d d.isLt
  · intro h t ht
    cases hrun : (x.thread t).run with
    | true => simpa using h ⟨t, ht⟩ hrun
    | false => rfl

theorem CoreState.lowestWaiting_thread {x : CoreState} {e : Fin 4} (he : Starved x e.val) (hlow : ∀ d : Fin 4, d < e → ¬ Starved x d.val) :
    x.lowestWaiting .sx = e := by
  have hfind : (List.range 4).find? (x.blocked .sx) = some e.val := by
    rw [List.find?_range_eq_some]
    refine ⟨(x.blocked_thread e).2 he, List.mem_range.2 e.isLt, fun j hj => ?_⟩
    have hfree := hlow ⟨j, hj.trans e.isLt⟩ hj
    rw [← CoreState.blocked_thread] at hfree
    simpa using hfree
  rw [CoreState.lowestWaiting, hfind]
  rfl

/-- The core stopped with SEM_DEADLOCK, and SEMERR naming thread `e` and semaphore `q`. -/
def deadlockError (x : CoreState) (e : Fin 4) (q : Nat) : CoreState :=
  { x with
    err := true
    run := false
    errCode := 0x41
    errEpc := (x.thread e.val).pc
    errEngine := BitVec.ofNat 3 e.val
    th := x.th.map (fun t => { t with run := false })
    semErrSem := BitVec.ofNat 4 q
    semErrEngine := BitVec.ofNat 2 e.val
    semErrCount := 0
    semErrKind := true
    semErrValid := true }

theorem CoreState.raiseDeadlock_thread {x : CoreState} {e : Fin 4} {q : Nat} (herr : x.err = false) (hlow : x.lowestWaiting .sx = e)
    (hwait : (x.thread e.val).wait = .sem q) (hq : x.semCount q = 0) : x.raiseDeadlock .sx = deadlockError x e q := by
  have hsem := (x.semWait_thread e q).2 hwait
  have hepc : BitVec.ofNat 15 (x.waitEpc .sx e) = (x.thread e.val).pc := by
    rw [CoreState.waitEpc, if_pos rfl, BitVec.ofNat_toNat, BitVec.setWidth_eq]
  unfold CoreState.raiseDeadlock CoreState.fail
  simp only [hlow, hsem, hq, herr, hepc, Option.getD_some, Bool.false_eq_true, if_false]
  rfl

/-- Where the running threads are deadlocked the core stops. -/
theorem execSemDeadlock_raises {s : State} {c : CoreId} (hr : s.coreRuns c = true) (hk : coreKind c = .sx) (hrun : (s.core c).run = true)
    (hdead : (s.core c).deadlocked .sx = true) : execSemDeadlock c s = .next (s.setCore c ((s.core c).raiseDeadlock .sx)) := by
  rw [execSemDeadlock, hr, hk, hrun, hdead]
  rfl

theorem execSemDeadlock_none {s : State} {c : CoreId} (hk : coreKind c = .sx) (hfine : (s.core c).deadlocked .sx = false) :
    execSemDeadlock c s = .next s := by
  rw [execSemDeadlock, hk, hfine, Bool.and_false, if_neg Bool.false_ne_true]

/-- Settles O16: each grant by the one semaphore it takes and what then goes on, each end of a wait by the count it finds, the deadlock by
the running threads' waits. -/
theorem coreWaitsAndDeadlock : Obligations.CoreWaitsAndDeadlock := by
  unfold Obligations.CoreWaitsAndDeadlock
  refine ⟨fun s c q n _ => ?waits, fun s c e q _ hk hruns hrunning => ?deadlock⟩
  case waits =>
    intro x k i free place hruns hp
    have hr := State.coreRuns_of_Runs hruns
    refine ⟨fun hk hhold hop hs hq => ?noOp, fun hk e hrun hwait hq hfirst hroom h4 => ?semw,
      fun hk cmd he1 h2 h3 hop hsem hwen hq hhold hrows => ?clrAcc, fun hk hhold hn hs => ?queueOn, fun hk hhold hn => ?queueHeld,
      fun hk e hrun hwait hn hroom h4 => ?qwait, fun hk hhold hop hwait hroom h2 h3 => ?room, fun hk e hwait hroom => ?moveRoom⟩
    case noOp =>
      have htake : s.semTake c 0 = s.takeSeq c := by
        unfold State.semTake
        split
        · exact absurd ‹_› hk
        · rfl
        · rfl
      exact ⟨_, _, congrArg Host.Outcome.next (htake.trans (State.takeSeq_nop hr hp hk hhold hop hs hq)), coreOnly_setCore s _ c _⟩
    case semw =>
      have htake : s.semTake c e = s.takeThread c e := by
        have he : e.val < 4 := e.isLt
        simp only [State.semTake, show coreKind c = .sx from hk, he, if_true]
      exact ⟨_, _, congrArg Host.Outcome.next (htake.trans (State.takeThread_semw hr hrun hwait hq hfirst h4 hroom)),
        coreOnly_setCore s _ c _⟩
    case clrAcc =>
      have htake : s.semTake c 1 = s.takeEngine c 1 := by
        simp only [State.semTake, show coreKind c = .mx from hk]
        rfl
      obtain ⟨v, m, hcleared⟩ := State.takeEngine_clrAcc hr hk he1 h2 h3 hop hsem hwen hq hhold
      have hframe := accCleared_frame (withSem (stalled x v m) q (· - 1)) cmd
      exact ⟨_, accCleared (withSem (stalled x v m) q (· - 1)) cmd, congrArg Host.Outcome.next (htake.trans hcleared),
        coreOnly_setCore s _ c _, congrArg CoreState.e1 hframe, accCleared_keeps x v m q _ cmd,
        fun r _ e he hrise =>
          accCleared_get (x := withSem (stalled x v m) q (· - 1)) hrise cmd r he⟩
    case queueOn =>
      have hend := (State.queueWaitEnd_sequencer hr hk hhold).trans (if_pos hn)
      rw [State.finish_ownCore, State.finish_heldNop s c hs hp] at hend
      exact congrArg Host.Outcome.next hend
    case queueHeld =>
      exact congrArg Host.Outcome.next ((State.queueWaitEnd_sequencer hr hk hhold).trans (if_neg (Nat.not_le.2 hn)))
    case qwait => exact congrArg Host.Outcome.next (State.queueWaitEnd_thread hr hk hrun hwait hn h4 hroom)
    case room =>
      exact ⟨mkCmd .mx x i, mkCmd_clrAcc hop x, congrArg Host.Outcome.next ((State.queueRoom_clrAcc hr hk hhold hop).trans
        (State.enqueue_clrAcc hk hop hwait hroom h2 h3))⟩
    case moveRoom => exact congrArg Host.Outcome.next (State.queueRoom_thread hr hk hwait hroom)
  case deadlock =>
    intro x waits
    have hr := State.coreRuns_of_Runs hruns
    obtain ⟨⟨_, _, -, -, -, -, -, -, herr⟩, -⟩ := hruns
    refine ⟨fun hrun hwait hq hlow hall => ?_, fun ⟨hrun, hfree⟩ => ?_⟩
    · have hstarved : Starved x e.val := ⟨q, hwait, hq⟩
      have hdead := CoreState.deadlocked_threads.2 ⟨⟨e, hrun, hstarved⟩, hall⟩
      have hraise := CoreState.raiseDeadlock_thread herr (CoreState.lowestWaiting_thread hstarved hlow) hwait hq
      exact (execSemDeadlock_raises hr hk hrunning hdead).trans (congrArg (fun y => Host.Outcome.next (s.setCore c y)) hraise)
    · have hfine : x.deadlocked .sx = false := by
        rw [Bool.eq_false_iff, ne_eq, CoreState.deadlocked_threads]
        exact fun ⟨_, hall⟩ => hfree (hall e hrun)
      exact execSemDeadlock_none hk hfine

end Sys2Proof.Machine

/-! SUPPORT. Queue waits, releases and halts of a sequencer (spec/03 R86, spec/07 R170, R171, spec/15 R399). -/

namespace Sys2Proof.Machine

open Sys2Proof.Claims

/-! ### The instructions by kind -/

/-- A core with a sequencer is an MX core or a VX core. -/
theorem Kind.mx_or_vx {k : Kind} (h : k ≠ .sx) : k = .mx ∨ k = .vx := by
  cases k with
  | mx => exact .inl rfl
  | vx => exact .inr rfl
  | sx => exact absurd rfl h

/-- The queue that a wait or a release of a sequencer names (spec/03 Table 3.15, spec/04 Table 4.5). -/
def queueField (k : Kind) (i : Inst128) : Nat := if k = .mx then nfld i.toNat 20 4 else nfld i.toNat 72 4

/-- How many entries it names. -/
def entriesField (k : Kind) (i : Inst128) : Nat := if k = .mx then nfld i.toNat 24 12 else nfld i.toNat 76 12

theorem bodyOf_qwait {k : Kind} (hk : k ≠ .sx) (s : State) (c : CoreId) (i : Inst128) :
    bodyOf k 0x13 s c i = qwaitBody (queueField k i) (entriesField k i) s c i := by
  obtain rfl | rfl := Kind.mx_or_vx hk
  · rfl
  · rfl

theorem bodyOf_qrel {k : Kind} (hk : k ≠ .sx) (s : State) (c : CoreId) (i : Inst128) :
    bodyOf k 0x14 s c i = qrelBody (queueField k i) (entriesField k i) s c i := by
  obtain rfl | rfl := Kind.mx_or_vx hk
  · rfl
  · rfl

theorem exec_qwait {k : Kind} (hk : k ≠ .sx) (c : CoreId) (s : State) :
    exec (if k = .mx then .mxqwait c else .vqwait c) s = .next (s.issue c k 0x13 (bodyOf k 0x13)) := by
  obtain rfl | rfl := Kind.mx_or_vx hk
  · rfl
  · rfl

theorem exec_halt {k : Kind} (hk : k ≠ .sx) (c : CoreId) (s : State) :
    exec (if k = .mx then .mxhalt c else .vhalt c) s = .next (s.issue c k 0x1F haltBody) := by
  obtain rfl | rfl := Kind.mx_or_vx hk
  · rfl
  · rfl

/-- No release waits on a sequencer that nothing holds. -/
theorem State.retryRelease_unheld {s : State} {c : CoreId} (h : (s.core c).hold = .none) (k : Kind) : s.retryRelease c k = none := by
  simp [State.retryRelease, h]

/-- A release instruction that no earlier one holds back is issued. -/
theorem exec_qrel {k : Kind} (hk : k ≠ .sx) {c : CoreId} {s : State} (h : (s.core c).hold = .none) :
    exec (if k = .mx then .mxqrel c else .vqrel c) s = .next (s.issue c k 0x14 (bodyOf k 0x14)) := by
  have hissue (k : Kind) (t : State) : (s.retryRelease c k).getD t = t := by rw [State.retryRelease_unheld h, Option.getD_none]
  obtain rfl | rfl := Kind.mx_or_vx hk
  · exact congrArg Host.Outcome.next (hissue .mx _)
  · exact congrArg Host.Outcome.next (hissue .vx _)

/-! ### Engines that have completed, and those that have not -/

theorem CoreState.idle_empty {x : CoreState} (h1 : x.e1 = {}) (h2 : x.e2 = {}) (h3 : x.e3 = {}) : x.idle = true := by
  rw [CoreState.idle, h1, h2, h3]
  rfl

theorem CoreState.idle_inProgress {x : CoreState} (h : x.e1.prog ≠ []) : x.idle = false := by
  simp [CoreState.idle, engBusy, h]

/-! ### What each instruction leaves -/

section

variable {s : State} {c : CoreId} {k : Kind} {i : Inst128} {q n : Nat}

theorem State.holdSeq_setCore (s : State) (c : CoreId) (x : CoreState) (i : Inst128) (h : SeqHold) :
    (s.setCore c x).holdSeq c i h = s.setCore c { x with hold := h, heldInst := i } :=
  s.modCore_setCore c x _

/-- A legal wait of a sequencer goes on where the queue holds enough, and holds the sequencer where it does not (spec/07 R171). -/
theorem State.issue_qwait {body : Body} (h : SeqAt s c k 0x13 i) (hk : k ≠ .sx) (hn : NoSem i)
    (hb : ∀ u, body u c i = qwaitBody q n u c i) (hst : ((s.core c).qu q).d.state ≠ 0) (hd : n ≤ ((s.core c).qu q).d.depth.toNat) :
    s.issue c k 0x13 body = s.setCore c (if n ≤ ((s.core c).qu q).count then (s.core c).next
      else { s.core c with hold := .queue q n, heldInst := i }) := by
  obtain ⟨hwen, hsen⟩ := hn
  obtain ⟨-, hhalted, hhold⟩ := State.seqReady_alive (seqAt_ready h)
  rw [State.issue_at h body (fun _ => hwen), hb, qwaitBody, State.core_setCore_same, CoreState.waitErr_none hst hd]
  dsimp only
  by_cases hcount : n ≤ ((s.core c).qu q).count
  · rw [if_pos hcount, if_pos hcount]
    exact State.finish_free s (by rwa [seqAt_kind h]) hsen hhold ((CoreState.next_halted _).trans hhalted)
  · rw [if_neg hcount, if_neg hcount, State.holdSeq_setCore]

/-- A release waits for the engines. -/
theorem State.issue_qrel_busy {body : Body} (h : SeqAt s c k 0x14 i) (hn : NoSem i) (hb : ∀ u, body u c i = qrelBody q n u c i)
    (hbusy : (s.core c).idle = false) : s.issue c k 0x14 body = s.setCore c { s.core c with hold := .release, heldInst := i } := by
  obtain ⟨hwen, -⟩ := hn
  rw [State.issue_at h body (fun _ => hwen), hb, qrelBody, State.core_setCore_same, hbusy, Bool.not_false, if_pos rfl,
    State.holdSeq_setCore]

/-- With the engines idle, a release by a queue that stands alone and returns no credits takes its head entries (spec/07 R170). -/
theorem State.issue_qrel_idle {body : Body} (h : SeqAt s c k 0x14 i) (hk : k ≠ .sx) (hn : NoSem i)
    (hb : ∀ u, body u c i = qrelBody q n u c i) (hidle : (s.core c).idle = true) (hst : ((s.core c).qu q).d.state ≠ 0)
    (hpen : ((s.core c).qu q).d.pen = false) (hcren : ((s.core c).qu q).d.cren = false) (hcount : n ≤ ((s.core c).qu q).count) :
    s.issue c k 0x14 body = s.setCore c ((s.core c).setQ q (((s.core c).qu q).dropHead n).settle).next := by
  obtain ⟨hwen, hsen⟩ := hn
  obtain ⟨-, hhalted, hhold⟩ := State.seqReady_alive (seqAt_ready h)
  rw [State.issue_at h body (fun _ => hwen), hb, qrelBody, State.core_setCore_same, hidle, Bool.not_true, if_neg Bool.false_ne_true,
    CoreState.relErr_unpaired hpen hst hcount]
  dsimp only
  rw [CoreState.credRoom_unpaired hpen hcren, Bool.not_true, if_neg Bool.false_ne_true,
    State.release_unpaired (by rwa [State.core_setCore_same]) (by rwa [State.core_setCore_same]), State.modCore_setCore]
  exact State.finish_free s (x := (s.core c).setQ q _) (by rwa [seqAt_kind h]) hsen hhold ((CoreState.next_halted _).trans hhalted)

/-- A halt moves past its instruction and stops the fetch. -/
theorem State.issue_halt (h : SeqAt s c k 0x1F i) (hn : NoSem i) : ∃ r, s.issue c k 0x1F haltBody =
    s.setCore c { (s.core c).next with halted := true, prf := { (s.core c).prf with running := r } } := by
  obtain ⟨hwen, hsen⟩ := hn
  obtain ⟨-, -, hhold⟩ := State.seqReady_alive (seqAt_ready h)
  obtain ⟨r, hend⟩ := s.endRun_setCore c { (s.core c).next with halted := true }
  refine ⟨r, ?_⟩
  rw [State.issue_at h haltBody (fun _ => hwen), haltBody, State.finish_noSignal _ hsen, unheld_of_free hhold, hend, CoreState.next_prf]

end

/-- Settles O6: a wait by the count it finds, a release by whether the engines are idle, and the halt. -/
theorem seqQueuesAndHalt : Obligations.SeqQueuesAndHalt := by
  unfold Obligations.SeqQueuesAndHalt
  intro s c k i hk hn x qn n q wait rel halt
  have hwait := exec_qwait hk c s
  have hrel (h : SeqAt s c k 0x14 i) : exec rel s = .next (s.issue c k 0x14 (bodyOf k 0x14)) := by
    obtain ⟨-, -, hhold⟩ := State.seqReady_alive (seqAt_ready h)
    exact exec_qrel hk hhold
  have hqwait (u : State) : bodyOf k 0x13 u c i = qwaitBody qn n u c i := bodyOf_qwait hk u c i
  have hqrel (u : State) : bodyOf k 0x14 u c i = qrelBody qn n u c i := bodyOf_qrel hk u c i
  refine ⟨fun h hst hd hcount => ?enough, fun h hst hd hcount => ?few, fun h h1 h2 h3 hst hmode hes hpen hcren hcount => ?released,
    fun h hbusy => ?busy, fun h => ?halts⟩
  case enough =>
    exact hwait.trans (congrArg _ ((State.issue_qwait h hk hn hqwait hst hd).trans (congrArg _ (if_pos hcount))))
  case few =>
    exact hwait.trans (congrArg _ ((State.issue_qwait h hk hn hqwait hst hd).trans (congrArg _ (if_neg (Nat.not_le.2 hcount)))))
  case released =>
    have hissue := State.issue_qrel_idle h hk hn hqrel (CoreState.idle_empty h1 h2 h3) hst hpen hcren hcount
    have hleft : (q.dropHead n).settle = _ := Queue.settle_dropHead_plain hmode hes n
    exact (hrel h).trans (congrArg _ (hissue.trans (congrArg (fun v => s.setCore c (x.setQ qn v).next) hleft)))
  case busy => exact (hrel h).trans (congrArg _ (State.issue_qrel_busy h hn hqrel (CoreState.idle_inProgress hbusy)))
  case halts =>
    obtain ⟨r, hissue⟩ := State.issue_halt h hn
    exact ⟨_, (exec_halt hk c s).trans (congrArg _ hissue), rfl, rfl⟩

end Sys2Proof.Machine

/-! SUPPORT. The pot unit of an IADD pot: a contribution that combines, one too many, and the identity of a released slot
(spec/07 R169, R183-R187, Table 7.5). -/

namespace Sys2Proof.Machine

open Sys2Proof.Claims

/-! ### Slots of an IADD pot (Table 7.5) -/

section

variable {q : Queue}

theorem Queue.isPot_iadd (h : q.d.mode = 2) : q.isPot = true := by simp [Queue.isPot, h]

theorem Queue.width_iadd (h : q.d.mode = 2) : q.width = 1 := by rw [Queue.width, h]; rfl

theorem Queue.identity_iadd (h : q.d.mode = 2) : q.identity = [0] := by rw [Queue.identity, Queue.width_iadd h, h]; rfl

theorem Queue.entryAddr_iadd (h : q.d.mode = 2) {slot : Nat} (hslot : slot < q.d.depth.toNat) :
    q.entryAddr slot = q.d.base.toNat + slot := by
  have hmod : slot % max 1 q.depth = slot := Nat.mod_eq_of_lt (lt_max_of_lt_right hslot)
  rw [Queue.entryAddr, Queue.width_iadd h, hmod, Nat.mul_one]

theorem combineSlot_iadd (h : q.d.mode = 2) (old new : Word) : combineSlot q [old] [new] = [old + new] := by
  rw [combineSlot, h]
  rfl

end

/-! ### The count of a pot (spec/07 R169) -/

/-- A pot counts slots exactly where its head slot is complete and published. -/
theorem potRun_pos_iff (slots : KMap PotSlot) {depth head : Nat} (expect : Nat) (h : head < depth) :
    0 < potRun slots depth expect depth head ↔ (KMap.get {} slots head).contrib = expect ∧ (KMap.get {} slots head).staged = false := by
  obtain ⟨m, rfl⟩ : ∃ m, depth = m + 1 := Nat.exists_eq_succ_of_ne_zero (Nat.ne_zero_of_lt h)
  have hmod : head % max 1 (m + 1) = head := Nat.mod_eq_of_lt (lt_max_of_lt_right h)
  rw [potRun, hmod]
  split
  case isTrue hs => simpa using hs
  case isFalse hs => simpa using hs

/-- The slots with one more contribution in one of them. -/
def contributedSlots (q : Queue) (slot : Nat) (staged : Bool) : KMap PotSlot :=
  KMap.put q.slots slot
    { contrib := (KMap.get {} q.slots slot).contrib + 1, staged := (KMap.get {} q.slots slot).staged || staged }

/-- The pot with one more contribution in a slot. -/
def contributed (q : Queue) (slot : Nat) (staged : Bool) : Queue :=
  { q with
    slots := contributedSlots q slot staged
    acc := satAdd q.acc 1
    count := potRun (contributedSlots q slot staged) q.depth q.d.expect.toNat q.depth q.head }

theorem recount_contributed {q : Queue} (h : q.isPot = true) (slot : Nat) (staged : Bool) :
    Queue.recount { q with slots := contributedSlots q slot staged, acc := satAdd q.acc 1 } = contributed q slot staged :=
  if_pos h

theorem contributedSlots_get (q : Queue) (slot : Nat) (staged : Bool) : KMap.get {} (contributedSlots q slot staged) slot =
    { contrib := (KMap.get {} q.slots slot).contrib + 1, staged := (KMap.get {} q.slots slot).staged || staged } :=
  KMap.get_put_same _ _ _ _

/-- A contribution to the head slot makes the pot count exactly where it is the last one expected, and nothing in the slot is staged. -/
theorem contributed_count_pos_iff {q : Queue} {slot : Nat} (staged : Bool) (hslot : slot < q.depth) (hhead : slot = q.head) :
    0 < (contributed q slot staged).count ↔ (KMap.get {} q.slots slot).contrib + 1 = q.d.expect.toNat ∧
      ((KMap.get {} q.slots slot).staged || staged) = false := by
  rw [contributed, ← hhead, potRun_pos_iff _ _ hslot, contributedSlots_get]

/-! ### One word in the scratchpad -/

/-- A write of one full word leaves the word, its poison, and the rest of the core. -/
theorem CoreState.writeBeat_fullWord (k : Kind) (x : CoreState) (a : Nat) (d : Word) (po : Bool) (hwf : codeWf x.mem = true) :
    SpadOnly x (CoreState.writeBeat k x (slotBeat a [d] po)) ∧ (CoreState.writeBeat k x (slotBeat a [d] po)).data a = d ∧
      (CoreState.writeBeat k x (slotBeat a [d] po)).poisoned a = po ∧ SameBut x (CoreState.writeBeat k x (slotBeat a [d] po)) a := by
  obtain ⟨hframe, hword, hpois, hrest⟩ :=
    CoreState.writeBeat_one k x { w := a, data := d, mask := 0xFF, poison := po } hwf
      (show (0xFF : BitVec 8) ≠ 0 by decide) (.inl rfl)
  exact ⟨hframe, hword.trans (maskedWord_full _ _ rfl), hpois, hrest⟩

/-! ### The pot unit (spec/07 R184, R186, R187) -/

section

variable {s : State} {c : CoreId} {k : Kind} {x : CoreState} {q slot a : Nat} {r : Row} {w : RowWord}

/-- A word combines with the clean word of its slot by addition, and carries its own poison. -/
theorem CoreState.combine_iadd (hmode : (x.qu q).d.mode = 2) (haddr : (x.qu q).entryAddr slot = a) (ha : a < 8192)
    (hclean : x.clean a = true) (staged : Bool) : x.combine k q slot [w] staged =
      (CoreState.writeBeat k x (slotBeat a [x.data a + w.data] w.poison)).setQ q (contributed (x.qu q) slot staged) := by
  have hmod : (a + 0) % 8192 = a := Nat.mod_eq_of_lt ha
  have hnote : x.sp.note (x.dec a) a 2 = x.sp := SpRegs.note_clean x.sp x a 2 hclean
  have hpois : x.poisoned a = false := CoreState.poisoned_clean x a hclean
  simp only [CoreState.combine, haddr, Queue.width_iadd hmode, List.range_one, List.map_cons, List.map_nil, hmod, List.any_cons,
    List.any_nil, Bool.or_false, hpois, List.foldl_cons, List.foldl_nil, hnote, combineSlot_iadd hmode]
  exact congrArg _ (recount_contributed (Queue.isPot_iadd hmode) slot staged)

/-- The core with its row buffers empty. -/
def noRows (x : CoreState) : CoreState := { x with rows := [] }

/-- A row of one word covers one slot: it is refused where the slot is complete already, and otherwise combines. -/
theorem CoreState.combineRow_oneWord (n : Nat) (staged : Bool) : CoreState.combineRow k n 1 staged (1 + 1) x slot [w] 0 =
    if (x.qu n).d.expect.toNat ≤ (KMap.get {} (x.qu n).slots slot).contrib then (x, some 0)
    else (x.combine k n slot [w] staged, none) :=
  rfl

/-- What the pot unit does with the one row that waits, a word for a slot that no identity write still waits for. -/
theorem State.potCombine_oneWord (hrows : (s.core c).rows = [r]) (hkind : r.kind = .pot q slot) (hwords : r.words = [w])
    (hmode : ((s.core c).qu q).d.mode = 2) (hid : slot ∉ ((s.core c).qu q).idWrites) : s.potCombine c =
      if ((s.core c).qu q).d.expect.toNat ≤ (KMap.get {} ((s.core c).qu q).slots slot).contrib then
        ((s.setCore c (noRows (s.core c))).failAt c eQExcess q (some r.src.sender)).send (posEnd c)
          (r.src.nak c.x c.y (s.core c).epoch nakExcess 1)
      else s.setCore c ((noRows (s.core c)).combine (coreKind c) q slot [w] r.staged) := by
  have hpot : r.isPot = true := by rw [Row.isPot, hkind]
  have htake : takeRow Row.isPot (s.core c).rows = some (r, []) := by rw [hrows, takeRow, if_pos hpot]
  have hkeepk : (((s.core c).qu q).d.mode == 5) = false := by rw [hmode]; rfl
  have hfree : (rowSlots 1 false slot 1).any (fun i => ((s.core c).qu q).idWrites.contains i) = false := by
    simpa [rowSlots] using hid
  have hrow := CoreState.combineRow_oneWord (k := coreKind c) (x := noRows (s.core c)) (slot := slot) (w := w) q r.staged
  unfold noRows at hrow
  simp only [State.potCombine, htake, hkind, hwords, hkeepk, Queue.width_iadd hmode, List.length_singleton, hfree, Bool.false_eq_true,
    if_false]
  by_cases hfull : ((s.core c).qu q).d.expect.toNat ≤ (KMap.get {} ((s.core c).qu q).slots slot).contrib
  · rw [if_pos hfull]
    simp only [hrow.trans (if_pos hfull)]
    rfl
  · rw [if_neg hfull]
    simp only [hrow.trans (if_neg hfull)]
    rfl

/-- An error of an arrival: where it names the instruction is free (log 21). -/
theorem State.failAt_setCore (x : CoreState) (code q : Nat) (src : Option (Nat × Nat)) : ∃ epc engine,
    (s.setCore c x).failAt c code q src = (withFree s (s.freeCtr + 1)).setCore c (x.failQueue code epc engine q src) :=
  ⟨_, _, State.modCore_setCore (withFree s (s.freeCtr + 1)) c x (fun x => x.failQueue code _ _ q src)⟩

/-- A queue error stops the core and names the queue and the sender (spec/07 Table 7.3, R194). -/
theorem CoreState.failQueue_live (herr : x.err = false) (code epc engine q : Nat) (src : Nat × Nat) :
    let y := x.failQueue code epc engine q (some src)
    y.err = true ∧ y.errCode = BitVec.ofNat 8 code ∧ y.run = false ∧ y.qerrQueue = BitVec.ofNat 4 q ∧
      y.qerrX = BitVec.ofNat 10 src.1 ∧ y.mem = x.mem := by
  simp [CoreState.failQueue, CoreState.fail, herr]

/-- POT_COMBINE on a core whose clock runs. -/
theorem exec_potCombine (h : Clocked s c) : exec (.potCombine c) s = .next (s.potCombine c) := by
  have hexec : exec (.potCombine c) s = execPotCombine c s := rfl
  rw [hexec, execPotCombine, State.clockedAt_of_Clocked h, if_pos rfl]

/-- POT_IDENTITY_WRITE of the oldest released slot of an IADD pot. -/
theorem exec_potIdentityWrite (h : Clocked s c) (hq : q < 16) {rest : List Nat} (hmode : ((s.core c).qu q).d.mode = 2)
    (haddr : ((s.core c).qu q).entryAddr slot = a) (hid : ((s.core c).qu q).idWrites = slot :: rest) :
    exec (.potIdentityWrite c q) s = .next (s.setCore c
      ((CoreState.writeBeat (coreKind c) (s.core c) (slotBeat a [0] false)).setQ q { (s.core c).qu q with idWrites := rest })) := by
  have hexec : exec (.potIdentityWrite c q) s = execPotIdentityWrite c q s := rfl
  rw [hexec, execPotIdentityWrite, State.clockedAt_of_Clocked h, Bool.true_and, if_pos (decide_eq_true hq), State.modCore,
    CoreState.identityWrite]
  simp only [hid, haddr, Queue.identity_iadd hmode]

end

/-- Settles O19: a contribution by the word it adds and the count it may complete, one too many by the error and the NAK, a released slot
by its identity. -/
theorem potEvents : Obligations.PotEvents := by
  unfold Obligations.PotEvents
  intro s c q slot r w h hwf hq x qu a n hmode hslot ha
  have haddr : qu.entryAddr slot = a := Queue.entryAddr_iadd hmode hslot
  have hcore := s.memWf_core c hwf
  have h8192 : a < 8192 := lt_of_lt_of_le ha (by cases coreKind c <;> decide)
  refine ⟨fun hrows hkind hwords hid hroom hclean hst hslotSt => ?combines, fun hrows hkind hwords hid hfull herr hcnt => ?excess,
    fun rest hid => ?identity⟩
  case combines =>
    have hpot := (State.potCombine_oneWord hrows hkind hwords hmode hid).trans (if_neg (Nat.not_le.2 hroom))
    have hcombine := CoreState.combine_iadd (k := coreKind c) (x := noRows x) (w := w) hmode haddr h8192 hclean r.staged
    obtain ⟨hframe, hword, hpois, hrest⟩ :=
      CoreState.writeBeat_fullWord (coreKind c) (noRows x) a ((noRows x).data a + w.data) w.poison hcore
    generalize CoreState.writeBeat (coreKind c) (noRows x) _ = y at *
    rw [hcombine, hst] at hpot
    refine ⟨_, (exec_potCombine h).trans (congrArg _ hpot), ?_, hword, hpois, hrest, contributed qu slot false, ?_, ?_, rfl, ?_⟩
    · rw [CoreState.setQ, hframe]
      rfl
    · rw [CoreState.setQ, hframe]
      rfl
    · rw [contributed, contributedSlots_get, hslotSt]
      rfl
    · intro hhead
      rw [contributed_count_pos_iff false hslot hhead, hslotSt]
      exact and_iff_left rfl
  case excess =>
    have hpot := (State.potCombine_oneWord hrows hkind hwords hmode hid).trans (if_pos hfull)
    obtain ⟨epc, engine, hfail⟩ := State.failAt_setCore (s := s) (c := c) (noRows x) eQExcess q (some r.src.sender)
    have hnak : (r.src.nak c.x c.y (s.core c).epoch nakExcess 1).counted = false := hcnt
    have herror := CoreState.failQueue_live (x := noRows x) herr eQExcess epc engine q r.src.sender
    rw [hfail, State.send_uncounted _ _ hnak] at hpot
    generalize (noRows x).failQueue eQExcess epc engine q (some r.src.sender) = y at *
    have hy : (s.potCombine c).core c = y := by
      rw [hpot]
      exact State.core_setCore_same (withFree s (s.freeCtr + 1)) c y
    obtain ⟨herr', hcode, hrun, hqueue, hsender, hmem⟩ := herror
    refine ⟨s.potCombine c, exec_potCombine h, ?_⟩
    rw [hy, hpot]
    exact ⟨herr', hcode, hrun, hqueue, hsender, hmem, rfl, rfl⟩
  case identity =>
    obtain ⟨hframe, hword, hpois, hrest⟩ := CoreState.writeBeat_fullWord (coreKind c) x a 0 false hcore
    have hexec := exec_potIdentityWrite h hq hmode haddr hid
    generalize CoreState.writeBeat (coreKind c) x _ = y at *
    refine ⟨_, hexec, ?_, hword, hpois, hrest⟩
    rw [CoreState.setQ, hframe]
    rfl

end Sys2Proof.Machine

/-! SUPPORT. READs, RDATA and NAKs at a core's port, and the READ that a write of NETRD word 1 issues (spec/08 R206-R208, R216, R217,
spec/05 R126, R139). -/

namespace Sys2Proof.Machine

open Sys2Proof.Claims

/-! ### An RDATA's way past hubs without combined READs (spec/08 R217) -/

/-- No hub holds a combining entry. -/
def State.NoCombined (s : State) : Prop := ∀ hx hy, (s.hub hx hy).cmb = []

theorem State.noCombined_of_hubs {s : State} (h : ∀ e ∈ s.hubs, e.2.cmb = []) : s.NoCombined := by
  intro hx hy
  rcases KMap.get_mem {} s.hubs (hubKey hx hy) with hd | hm
  · exact congrArg Hub.cmb hd
  · exact h _ hm

theorem State.NoCombined.setHub {s : State} (h : s.NoCombined) (hx hy : Nat) {v : Hub} (hv : v.cmb = []) :
    (s.setHub hx hy v).NoCombined := by
  intro x y
  have hget := KMap.get_put {} s.hubs (hubKey hx hy) (hubKey x y) v
  rw [State.hub, State.setHub, hget]
  split
  · exact hv
  · exact h x y

theorem State.NoCombined.countFlits {s : State} (h : s.NoCombined) (p : Packet) (w : Walk) : (s.countFlits p w).NoCombined := by
  unfold State.countFlits
  refine List.foldlRecOn (motive := State.NoCombined) w.hubs _ ?routers (fun t ht e _ => ht.setHub e.1 e.2 (ht e.1 e.2))
  case routers => exact List.foldlRecOn (motive := State.NoCombined) w.routers _ h (fun _ ht _ _ => ht)

theorem State.NoCombined.fanOut {s : State} (h : s.NoCombined) (p : Packet) (hs : List (Nat × Nat)) : s.fanOut p hs = s := by
  unfold State.fanOut
  exact List.foldl_fixed' (fun e => by simp [h e.1 e.2]) hs

theorem State.NoCombined.flitsOnly_passed {s : State} (h : s.NoCombined) (p : Packet) (w : Walk) : s.FlitsOnly (s.passed p w) := by
  have hflits := State.flitsOnly_countFlits s p w.left
  unfold State.passed
  split
  · rwa [(h.countFlits p w.left).fanOut]
  · exact hflits

/-- The arrival of an RDATA that lands, where no hub has to copy it, is the port's work on the state in which it has come there. -/
theorem State.arrive_rdata {s : State} {k : Nat} {p : Packet} {c : CoreId} (h : Lands s k 4 p c) (hcmb : s.NoCombined)
    (f : State → Packet → State) : ∃ u, s.arrive k [pRdata] [0, 2] f = f u p ∧ Reached s u k c := by
  have harr := State.arriving_of_lands h (types := [pRdata]) (kinds := [0, 2]) (by simp [pRdata]) (by simp)
  have hdst := dstCore_of_lands h
  obtain ⟨-, -, hkind, -, -, -, hfin, hsome, -⟩ := h
  obtain ⟨g, hg⟩ := Option.isSome_iff_exists.1 hsome
  have hdrop : (s.dropNet k).NoCombined := hcmb
  have hpass := hdrop.flitsOnly_passed p (s.route p)
  refine ⟨((s.dropNet k).passed p (s.route p)).ungate p, ?_, ?_⟩
  · simp only [State.arrive, harr, hfin]
  · simp only [State.ungate, hkind, hdst, hg, ne_eq, not_true_eq_false, if_false]
    unfold Reached ungated
    rw [hg]
    unfold State.FlitsOnly at hpass
    rw [hpass]
    rfl

/-! ### READs -/

section

variable {s u : State} {k : Nat} {p : Packet} {c : CoreId}

/-- An inbound read of a clean word delivers it and records nothing (spec/05 R139). -/
theorem State.readPad_clean (s : State) {w : Nat} (hw : w < (coreKind c).words) (hclean : (s.core c).clean w = true) :
    s.readPad c w = (s.setCore c (s.core c), some ((s.core c).data w, false)) := by
  have hpois : (s.core c).poisoned w = false := by
    obtain ⟨hout, hp⟩ := (CoreState.clean_iff _ _).1 hclean
    simp [CoreState.poisoned, hout, hp]
  rw [State.readPad, if_neg (Nat.not_le.2 hw), State.peekPad, if_neg (Nat.not_le.2 hw), CoreState.noteRead_clean _ _ _ _ hclean, hpois]

/-- A READ whose every word was read is answered by its RDATA alone. -/
theorem State.answerRead_uncounted (s : State) (e : NetEnd) (x y : Nat) (ep : BitVec 2) (w : Word × Bool) (hcnt : p.counted = false) :
    s.answerRead e p x y ep [some w] = s.send e (p.rdata x y ep [w]) := by
  simp [State.answerRead, hcnt]

theorem Reached.coreRead (hu : Reached s u k c) (h : Lands s k 3 p c) (hcnt : p.counted = false)
    (hda : daDest p.da = some (0, c.x, c.y)) (hspace : nfld p.da 44 4 = 0) (hlen : p.len = 1)
    (hw : nfld p.da 0 16 / 8 < (coreKind c).words) (hclean : (s.core c).clean (nfld p.da 0 16 / 8) = true) :
    u.coreRead p = (u.setCore c (s.core c)).send (posEnd c)
      (p.rdata c.x c.y (s.core c).epoch [((s.core c).data (nfld p.da 0 16 / 8), false)]) := by
  have hread := u.readPad_clean hw (by rwa [hu.core])
  simp [State.coreRead, dstCore_of_lands h, hu.coreRefusal h, hda, hspace, hlen, readRun, hread,
    State.answerRead_uncounted _ _ _ _ _ _ hcnt, hu.core]

theorem exec_readArrival (h : Lands s k 3 p c) (hsx : p.sx < 784) :
    ∃ u, exec (.readArrival k) s = .next (u.coreRead p) ∧ Reached s u k c := by
  have hnet : s.net[k]? = some p := by
    obtain ⟨hnet, -⟩ := h
    exact hnet
  have hwait : s.dieRowsWait p = false := by simp [State.dieRowsWait, Nat.not_le.2 hsx]
  obtain ⟨u, harr, hu⟩ := State.arrive_of_lands h (types := [pRead]) (kinds := [0, 3]) (by simp [pRead]) (by simp) (by decide)
    (fun s p => if p.dkind = 0 then s.coreRead p else s.fcReadAll p)
  rw [if_pos (dkind_of_lands h)] at harr
  have hrun : s.readArrival k = u.coreRead p := by
    simp only [State.readArrival, hnet, hwait, Bool.false_eq_true, and_false, if_false, harr]
  exact ⟨u, congrArg Host.Outcome.next hrun, hu⟩

/-! ### RDATA -/

/-- An RDATA of one word to a mapped offset is written whole (spec/08 R216). -/
theorem State.writeIn_rdata (s : State) {d : Word} {po : Bool} (hp : p.ptype = 4) (hpay : p.pay = [(d, po)])
    (hw : nfld p.da 0 16 / 8 < (coreKind c).words) :
    s.writeIn c p = (s.setCore c (rowAdded (s.core c) .plain (stagedAt c p) p
      { w := nfld p.da 0 16 / 8, data := d, mask := 0xFF, poison := po })).takeOff (posEnd c) p := by
  have hws : mappedWords (coreKind c) p (nfld p.da 0 16) = [{ w := nfld p.da 0 16 / 8, data := d, mask := 0xFF, poison := po }] := by
    simp [mappedWords, hpay, writeMask, hp, pWrite, hw]
  simp only [State.writeIn, hws, hpay, List.length_cons, List.length_nil, Nat.sub_self, if_true, State.modCore]
  rfl

/-- An RDATA is staged exactly when it comes from outside the field (spec/08 R216). -/
theorem stagedAt_rdata {f : Nat} (hp : p.ptype = 4) (hf : coreField c = some f) :
    stagedAt c p = decide (p.srcEnd ≠ some (.field f)) := by
  simp [stagedAt, hp, pRdata, hf, bne, beq_eq_decide]

theorem Reached.coreRdata (hu : Reached s u k c) (h : Lands s k 4 p c) (hrq : p.h1.getLsbD 48 = false) :
    u.coreRdata p = u.writeIn c p := by
  simp only [State.coreRdata, dstCore_of_lands h, hu.coreRefusal h, hrq, Bool.false_eq_true, if_false]

theorem exec_rdataArrival (h : Lands s k 4 p c) (hcmb : s.NoCombined) (hrq : p.h1.getLsbD 48 = false) :
    ∃ u, exec (.rdataArrival k) s = .next (u.writeIn c p) ∧ Reached s u k c := by
  obtain ⟨u, harr, hu⟩ := State.arrive_rdata h hcmb
    (fun s p => if p.dkind = 0 then s.coreRdata p else s.dieRdata (Port.ofNum p.dx) p)
  rw [if_pos (dkind_of_lands h), hu.coreRdata h hrq] at harr
  exact ⟨u, congrArg Host.Outcome.next harr, hu⟩

/-! ### NAKs (spec/08 R207, spec/07 R175) -/

theorem exec_nakReceive (h : Lands s k 5 p c) : ∃ u, exec (.nakReceive k) s = .next (u.coreNak p) ∧ Reached s u k c := by
  obtain ⟨u, harr, hu⟩ := State.arrive_of_lands h (types := [pNak]) (kinds := [0, 1, 2]) (by simp [pNak]) (by simp) (by decide)
    (fun s p => match p.dkind with
      | 0 => s.coreNak p
      | 1 => s.takeOff (.stack p.dx) p
      | _ => s.dieNak (Port.ofNum p.dx) p)
  rw [dkind_of_lands h] at harr
  exact ⟨u, congrArg Host.Outcome.next harr, hu⟩

theorem Reached.coreNak_queue (hu : Reached s u k c) (h : Lands s k 5 p c) (hcnt : p.counted = false)
    (hreason : nfld p.h1.toNat 0 4 ≤ 5) : u.coreNak p = u.setCore c ((s.core c).noteQnak p) := by
  simp [State.coreNak, dstCore_of_lands h, hcnt, hu.coreRefusal h, hreason, State.modCore, hu.core]

/-- A NAK of another reason writes no record where the exposure has one (spec/08 R207). -/
theorem Reached.coreNak_net (hu : Reached s u k c) (h : Lands s k 5 p c) (hcnt : p.counted = false)
    (hreason : 8 ≤ nfld p.h1.toNat 0 4) (hnoted : (s.field ((coreField c).getD 0)).nakNoted = true) :
    u.coreNak p = u.setCore c ((s.core c).noteNak p) := by
  have hnot : ¬ nfld p.h1.toNat 0 4 ≤ 5 := by omega
  have hnoted' : (u.field ((coreField c).getD 0)).nakNoted = true := by rw [hu.field]; exact hnoted
  simp [State.coreNak, dstCore_of_lands h, hcnt, hu.coreRefusal h, hnot, State.nakRecord, hnoted', State.modCore, hu.core]

theorem extractLsb'_eq_nfld (v : BitVec 64) (lo : Nat) {w n : Nat} (hw : w ≤ n) :
    v.extractLsb' lo w = BitVec.ofNat w (nfld v.toNat lo n) := by
  apply BitVec.eq_of_toNat_eq
  rw [BitVec.extractLsb'_toNat, BitVec.toNat_ofNat, nfld, Nat.shiftRight_eq_div_pow, Nat.mod_mod_of_dvd _ (Nat.pow_dvd_pow 2 hw)]

/-- QNAKCNT counts every NAK of a queue reason; QNAKLOG keeps the first (spec/07 R175). -/
theorem CoreState.noteQnak_eq (x : CoreState) (p : Packet) : x.noteQnak p = { x with
    qnakCnt := sat1 x.qnakCnt
    qnakReason := if x.qnakValid then x.qnakReason else BitVec.ofNat 3 (nfld p.h1.toNat 0 4)
    qnakQueue := if x.qnakValid then x.qnakQueue else BitVec.ofNat 4 (nfld p.h1.toNat 4 4)
    qnakX := if x.qnakValid then x.qnakX else BitVec.ofNat 10 p.sx
    qnakY := if x.qnakValid then x.qnakY else BitVec.ofNat 10 p.sy
    qnakValid := true } := by
  rw [← extractLsb'_eq_nfld p.h1 0 (by decide : 3 ≤ 4), ← extractLsb'_eq_nfld p.h1 4 (le_refl 4)]
  cases hv : x.qnakValid with
  | true =>
    simp only [CoreState.noteQnak, hv, if_true]
  | false => simp only [CoreState.noteQnak, hv, Bool.false_eq_true, if_false]

/-- The first NAK of a network reason is logged (spec/08 R207). -/
theorem CoreState.noteNak_first {x : CoreState} (h : x.netValid = false) (p : Packet) : x.noteNak p = { x with
    netNak := sat1 x.netNak
    netReason := BitVec.ofNat 4 (nfld p.h1.toNat 0 4)
    netX := BitVec.ofNat 10 p.sx
    netY := BitVec.ofNat 10 p.sy
    netValid := true } := by
  rw [← extractLsb'_eq_nfld p.h1 0 (le_refl 4)]
  simp only [CoreState.noteNak, h, Bool.false_eq_true, if_false]

end

/-! ### NETRD (spec/08 R216, Table 8.4) -/

section

variable {s : State} {c : CoreId} {p : Packet} {f : Nat}

/-- A core's READ of a core of its own field enters the network there, uncounted. -/
theorem State.handCore_read (s : State) (eng : Nat) (hf : coreField c = some f) (hty : p.ptype = 3) (hmc : p.mc = false)
    (hkind : p.dkind = 0) (hdst : coreField p.dstCore = some f) :
    s.handCore c eng p = { s with net := s.net ++ [coreStamped s c p] } := by
  have hlt : c.x < 768 := lt_of_coreField (by rw [hf]; rfl)
  have hcnt (q : Packet) (hq : q.mc = false) (hqk : q.dkind = 0) (hqd : q.dstCore = p.dstCore) : coreCounted c q [] = false := by
    simp [coreCounted, hq, hqk, hqd, hdst, hf]
  have hstamp : s.stampCore c p = ({ p with
      sx := c.x, sy := c.y, epoch := (s.core c).epoch, slot := (s.coreJob c).getD 0, counted := false }, []) := by
    simp [State.stampCore, hmc, hcnt p hmc hkind rfl]
  have hheld (q : Packet) (hx : q.sx = c.x) (hy : q.sy = c.y) : s.injectionHeld q = (s.field f).rtHeld := by
    simp [State.injectionHeld, State.entryField, Packet.srcEnd, hx, hy, hlt, hf]
  simp [State.handCore, hstamp, State.handOff, hf, hty, hmc, pWrite, pQsend, State.send, hheld, coreStamped]

/-- H1 of a READ (spec/08 Table 8.4). -/
theorem packFields_read (da word rq cmb : Nat) :
    packFields [(0, da), (48, word), (61, rq), (62, cmb)] = da + word * 2 ^ 48 + rq * 2 ^ 61 + cmb * 2 ^ 62 := by
  rw [packFields, List.foldl_cons, List.foldl_cons, List.foldl_cons, List.foldl_cons, List.foldl_nil, Nat.zero_add, Nat.pow_zero,
    Nat.mul_one]

/-- The READ of a scratchpad word of a core that exists (spec/08 R216). -/
theorem netrdPacket_core (w0 w1 : Word) {da : Nat} (hda : nfld w0.toNat 0 48 = da)
    (hdest : daDest da = some (0, (daTarget da).x, (daTarget da).y)) : netrdPacket w0 w1 =
      { ptype := 3
        dx := (daTarget da).x
        dy := (daTarget da).y
        len := nfld w0.toNat 48 12
        qid := nfld w1.toNat 14 4
        h1 := BitVec.ofNat 64 (da + nfld w1.toNat 0 13 * 2 ^ 48 + nfld w1.toNat 13 1 * 2 ^ 61 + nfld w1.toNat 18 1 * 2 ^ 62) } := by
  rw [netrdPacket, hda, packFields_read, hdest]
  rfl

theorem exec_netrd1Write (h : Runs s c) (hrun : (s.core c).run = true) (v : Word) : exec (.netrd1Write c v) s =
    .next (s.handCore c (ownEngine (coreKind c)) (netrdPacket (s.router c).netrd0 v)) :=
  congrArg Host.Outcome.next (s.progWrite_defined c 0xE48 v (State.coreRuns_of_Runs h) hrun rfl (by decide) rfl)

end

/-- Settles O21: each arrival by what the core's port does with it once it has come there, and the write of NETRD by the packet it
hands over. -/
theorem readsNaksAndRemoteReads : Obligations.ReadsNaksAndRemoteReads := by
  unfold Obligations.ReadsNaksAndRemoteReads
  refine ⟨fun s k p c hcnt => ?arrivals, fun s c v h hrun => ?netrd⟩
  case arrivals =>
    intro x w f
    refine ⟨fun h hsx hda hspace hlen hw hclean => ?read, fun h hcmb hrq hw d po hpay => ?rdata, fun h hreason => ?queueNak,
      fun h hreason hnoted hfirst => ?netNak⟩
    case read =>
      obtain ⟨u, hexec, hu⟩ := exec_readArrival h hsx
      refine ⟨_, hexec, ?_⟩
      rw [hu.coreRead h hcnt hda hspace hlen hw hclean]
      exact hu.landed_send _ _ hcnt
    case rdata =>
      obtain ⟨u, hexec, hu⟩ := exec_rdataArrival h (State.noCombined_of_hubs hcmb) hrq
      obtain ⟨g, hg⟩ := Option.isSome_iff_exists.1 (isSome_of_lands h)
      have hfield : f = g := by simp [f, hg]
      refine ⟨_, hexec, ?_⟩
      rw [u.writeIn_rdata (ptype_of_lands h) hpay hw, State.takeOff_uncounted _ _ hcnt, stagedAt_rdata (ptype_of_lands h) hg, hu.core,
        hfield]
      exact hu.landed _
    case queueNak =>
      obtain ⟨u, hexec, hu⟩ := exec_nakReceive h
      refine ⟨_, hexec, ?_⟩
      rw [hu.coreNak_queue h hcnt hreason, CoreState.noteQnak_eq]
      exact hu.landed _
    case netNak =>
      obtain ⟨u, hexec, hu⟩ := exec_nakReceive h
      refine ⟨_, hexec, ?_⟩
      rw [hu.coreNak_net h hcnt hreason hnoted, CoreState.noteNak_first hfirst]
      exact hu.landed _
  case netrd =>
    intro w0 da j hspace hoff hfield
    obtain ⟨⟨f, -, hf, -⟩, -⟩ := id h
    have hdst : coreField (daTarget da) = some f := hfield.trans hf
    have hdest : daDest da = some (0, (daTarget da).x, (daTarget da).y) := daDest_core hspace hoff (by rw [hdst]; rfl)
    rw [exec_netrd1Write h hrun v, netrdPacket_core _ v rfl hdest]
    exact congrArg Host.Outcome.next (s.handCore_read _ hf rfl rfl rfl hdst)

end Sys2Proof.Machine

/-! SUPPORT. READs that combine at a hub, links that fail or ask for a replay (spec/08 R198, R212, R217, spec/15 Table 15.7). -/

namespace Sys2Proof.Machine

/-! ### READs at a hub (spec/08 R217) -/

section

variable {s : State} {k hx hy : Nat} {p : Packet}

theorem State.arriving_read (hnet : s.net[k]? = some p) (hty : p.ptype = 3) (hkind : p.dkind ≤ 2)
    (hfirst : ∀ o ∈ s.net.take k, samePath p o = false) : s.arriving k [pRead] [0, 1, 2] = some p := by
  have hany : (s.net.take k).any (samePath p) = false := by simpa using hfirst
  have hmem : p.dkind = 0 ∨ p.dkind = 1 ∨ p.dkind = 2 := by omega
  simp [State.arriving, hnet, hty, pRead, hany, hmem]

theorem exec_hubReadCombine (k hx hy : Nat) (s : State) : exec (.hubReadCombine k hx hy) s = .next (s.hubRead k hx hy) := rfl

/-- The first READ at a hub takes its place there. -/
theorem State.hubRead_first (harr : s.arriving k [pRead] [0, 1, 2] = some p) (hsrc : p.srcCore.isSome = true)
    (hpass : s.passes p hx hy = true) (hcmb : (s.hub hx hy).cmb = []) : s.hubRead k hx hy =
      s.setHub hx hy { s.hub hx hy with cmb := [{ lead := p, expo := s.hubExpo hx hy, waiters := [] }] } := by
  have hsome : p.srcCore.isNone = false := by rw [← Option.not_isSome, hsrc, Bool.not_true]
  simp only [State.hubRead, harr, hsome, hpass, hcmb, List.any_nil, List.find?_nil, Bool.not_true, Bool.or_self, Bool.false_eq_true,
    if_false, List.nil_append]

/-- A later READ of the same words and exposure combines where its CMB bit allows it, and otherwise goes on. -/
theorem State.hubRead_later (harr : s.arriving k [pRead] [0, 1, 2] = some p) (hsrc : p.srcCore.isSome = true)
    (hpass : s.passes p hx hy = true) {l : Packet} (hcmb : (s.hub hx hy).cmb = [{ lead := l, expo := s.hubExpo hx hy, waiters := [] }])
    (hne : l ≠ p) (hsame : sameRead l p = true) : s.hubRead k hx hy =
      if p.h1.getLsbD 62 then ({ s with net := s.net.eraseIdx k } : State).setHub hx hy
        { s.hub hx hy with
          cmb := [{ lead := l, expo := s.hubExpo hx hy, waiters := [p] }]
          cmbCount := sat1 (s.hub hx hy).cmbCount }
      else s := by
  have hsome : p.srcCore.isNone = false := by rw [← Option.not_isSome, hsrc, Bool.not_true]
  cases hbit : p.h1.getLsbD 62 with
  | true => simp [State.hubRead, harr, hsome, hpass, hcmb, hne, hsame, hbit, State.dropNet, -BitVec.getLsbD_eq_getElem]
  | false => simp [State.hubRead, harr, hsome, hpass, hcmb, hne, hsame, hbit, -BitVec.getLsbD_eq_getElem]

end

/-! ### What a fault of a part leaves (spec/15 Table 15.7) -/

/-- The job's next develop point is held for a fault that rolls it back in place. -/
def Job.RollsInPlace (q : Job) : Prop := q.inPlace = true ∧ q.holds.fault = true

/-- `t` is `s` after faults of parts of the network: the in-service list, the records, the field controllers' reports and the holds of
jobs; a job whose roll-back in place was due keeps it. -/
def State.Faulted (s t : State) : Prop :=
  t = { s with
    fields := t.fields, jobs := t.jobs, service := t.service, errs := t.errs, errNext := t.errNext, flashErrs := t.flashErrs
    flashWait := t.flashWait, flashCopy := t.flashCopy, ports := t.ports, mc := t.mc, mgmt := t.mgmt, mod := t.mod } ∧
  (∀ g, t.field g = { s.field g with reports := (t.field g).reports, busy := (t.field g).busy }) ∧
  ∀ j, (t.job j).state = (s.job j).state ∧ ((s.job j).RollsInPlace → (t.job j).RollsInPlace)

theorem State.Faulted.refl (s : State) : s.Faulted s := ⟨rfl, fun _ => rfl, fun _ => ⟨rfl, id⟩⟩

theorem State.Faulted.trans {s t u : State} (h : s.Faulted t) (k : t.Faulted u) : s.Faulted u := by
  obtain ⟨hst, hfield, hjob⟩ := h
  obtain ⟨hst', hfield', hjob'⟩ := k
  refine ⟨by rw [hst', hst], fun g => by rw [hfield' g, hfield g], fun j => ?_⟩
  obtain ⟨hs, hr⟩ := hjob j
  obtain ⟨hs', hr'⟩ := hjob' j
  exact ⟨hs'.trans hs, hr' ∘ hr⟩

/-- A change of nothing but the in-service list and the records. -/
theorem State.faulted_of_eq {s t : State} (h : t = { s with
    service := t.service, errs := t.errs, errNext := t.errNext, flashErrs := t.flashErrs, flashWait := t.flashWait
    flashCopy := t.flashCopy, ports := t.ports, mc := t.mc, mgmt := t.mgmt, mod := t.mod }) : s.Faulted t := by
  refine ⟨?_, fun g => ?_, fun j => ?_⟩
  · rw [h]
  · rw [h]
    rfl
  · rw [h]
    exact ⟨rfl, id⟩

theorem State.Recorded.faulted {s t : State} (h : s.Recorded t) : s.Faulted t := by
  obtain ⟨hrec, -⟩ := h
  exact State.faulted_of_eq (by rw [hrec])

theorem State.faulted_modJob (s : State) (j : Nat) {g : Job → Job} (hg : ∀ q, (g q).state = q.state ∧ (q.RollsInPlace → (g q).RollsInPlace)) :
    s.Faulted (s.modJob j g) := by
  refine ⟨rfl, fun _ => rfl, fun m => ?_⟩
  rw [State.job_modJob]
  split
  · exact hg _
  · exact ⟨rfl, id⟩

theorem State.faulted_faultInPlace (s : State) (j : Nat) : s.Faulted (s.faultInPlace j) := by
  refine s.faulted_modJob j (fun q => ?_)
  split
  · exact ⟨rfl, fun _ => ⟨rfl, rfl⟩⟩
  · exact ⟨rfl, id⟩

theorem State.faulted_faultField (s : State) (f : Nat) : s.Faulted (s.faultField f) := by
  unfold State.faultField
  split
  · refine s.faulted_modJob _ (fun q => ?_)
    split
    · exact ⟨rfl, fun h => ⟨h.1, rfl⟩⟩
    · exact ⟨rfl, id⟩
  · exact State.Faulted.refl s

theorem State.faulted_protect (s : State) (f n : Nat) : s.Faulted (s.modField f (fun x => x.protect n)) := by
  refine ⟨rfl, fun g => ?_, fun _ => ⟨rfl, id⟩⟩
  rw [State.field_modField]
  split <;> rfl

theorem State.faulted_fence (s : State) (c : CoreId) (code : BitVec 2) : s.Faulted (s.fence c code) := by
  unfold State.fence State.keepFlash
  split
  · split
    · exact State.faulted_of_eq rfl
    · exact State.faulted_of_eq rfl
  · exact State.Faulted.refl s

theorem State.faulted_applyGrade (s : State) : s.Faulted s.applyGrade := by
  unfold State.applyGrade
  split
  · exact State.Faulted.refl s
  · exact (s.recorded_errorRecord _).faulted

theorem State.faulted_deadCore (s : State) (c : CoreId) (code : BitVec 2) : s.Faulted (s.deadCore c code) := by
  have hlist := (s.faulted_fence c code).trans (State.faulted_applyGrade _)
  unfold State.deadCore State.fenceCore
  cases coreField c with
  | none => exact hlist
  | some f => exact (hlist.trans (State.faulted_protect _ f 6)).trans (State.faulted_faultField _ f)

theorem State.Faulted.frame {s t : State} (h : s.Faulted t) :
    t.cores = s.cores ∧ t.net = s.net ∧ t.hubs = s.hubs ∧ t.stk = s.stk := by
  obtain ⟨hst, -⟩ := h
  rw [hst]
  exact ⟨rfl, rfl, rfl, rfl⟩

theorem State.Faulted.fieldJob {s t : State} (h : s.Faulted t) (f : Nat) : t.fieldJob f = s.fieldJob f := by
  obtain ⟨-, hfield, -⟩ := h
  rw [State.fieldJob, hfield]
  rfl

theorem State.Faulted.router {s t : State} (h : s.Faulted t) (c : CoreId) : t.router c = s.router c := by
  obtain ⟨hst, -⟩ := h
  rw [hst]
  rfl

theorem State.Faulted.routerDead {s t : State} (h : s.Faulted t) (c : CoreId) : t.routerDead c = s.routerDead c := by
  simp only [State.routerDead, h.router]

/-! ### Roll-backs in place of the partitions of a link (spec/08 R212) -/

/-- The partition of a field rolls back in place. -/
def State.rollField (s : State) (f : Nat) : State :=
  match s.fieldJob f with
  | some j => s.faultInPlace j
  | none => s

theorem State.faulted_rollField (s : State) (f : Nat) : s.Faulted (s.rollField f) := by
  unfold State.rollField
  split
  · exact s.faulted_faultInPlace _
  · exact State.Faulted.refl s

theorem State.rollField_rolls {s : State} {f j : Nat} (hj : j < 16) (hf : s.fieldJob f = some j) (hrun : (s.job j).state = .running) :
    ((s.rollField f).job j).RollsInPlace := by
  simp [State.rollField, hf, State.faultInPlace, State.job_modJob, hj, hrun, Job.RollsInPlace]

theorem State.faulted_rollFields (s : State) (l : List Nat) : s.Faulted (l.foldl State.rollField s) :=
  List.foldlRecOn (motive := s.Faulted) l _ (State.Faulted.refl s) (fun t h f _ => h.trans (t.faulted_rollField f))

theorem State.rollFields_rolls {s : State} {l : List Nat} {f j : Nat} (hmem : f ∈ l) (hj : j < 16) (hf : s.fieldJob f = some j)
    (hrun : (s.job j).state = .running) : ((l.foldl State.rollField s).job j).RollsInPlace := by
  induction l generalizing s with
  | nil => cases hmem
  | cons g l ih =>
    have hstep := s.faulted_rollField g
    obtain ⟨-, -, hstate⟩ := id hstep
    obtain ⟨-, -, hkeep⟩ := State.faulted_rollFields (s.rollField g) l
    rcases List.mem_cons.1 hmem with rfl | hrest
    · exact (hkeep j).2 (State.rollField_rolls hj hf hrun)
    · exact ih hrest ((hstep.fieldJob f).trans hf) ((hstate j).1.trans hrun)

theorem State.rollFields_fields (s : State) (l : List Nat) : (l.foldl State.rollField s).fields = s.fields := by
  refine List.foldlRecOn (motive := fun t : State => t.fields = s.fields) l _ rfl (fun t h f _ => ?_)
  unfold State.rollField
  split
  · exact h
  · exact h

/-! ### Routers with every link down (spec/15 Table 15.7) -/

/-- A router that has failed leaves service. -/
def State.retireDead (s : State) (c : CoreId) : State := if s.routerDead c then s.routerFailed c else s

theorem State.faulted_retireDead (s : State) (c : CoreId) : s.Faulted (s.retireDead c) := by
  unfold State.retireDead State.routerFailed
  split
  · split
    · exact State.Faulted.refl s
    · exact s.faulted_deadCore c 2
  · exact State.Faulted.refl s

theorem State.retireDead_live {s : State} {c : CoreId} (h : s.routerDead c = false) : s.retireDead c = s := by
  simp [State.retireDead, h]

/-- A router with a live link to another core has not failed. -/
theorem State.routerDead_of_link {s : State} {c : CoreId} {e : Nat} (he : e < 4) (hup : (s.router c).down.getLsbD e = false)
    {m : Nat × Nat} (hstep : stepDir c.x c.y e = some m) (hm : (coreField { x := m.1, y := m.2 }).isSome = true) :
    s.routerDead c = false := by
  rw [State.routerDead, List.all_eq_false]
  refine ⟨e, List.mem_range.2 he, ?_⟩
  simp [hup, hstep, Option.isSome_iff_ne_none.1 hm]

/-! ### Fine links (spec/08 R195, R198) -/

theorem stepDir_ne {x y d : Nat} {m : Nat × Nat} (h : stepDir x y d = some m) : m ≠ (x, y) := by
  unfold stepDir at h
  split at h
  · split at h
    · cases h
    · cases h
      simp only [ne_eq, Prod.mk.injEq]
      omega
  · cases h
    simp
  · cases h
    simp
  · split at h
    · cases h
    · cases h
      simp only [ne_eq, Prod.mk.injEq]
      omega

/-- One direction of a fine link down at the router that sends there. -/
def State.fineDown (s : State) (c : CoreId) (d : Nat) : State :=
  s.setRouter c { s.router c with down := (s.router c).down ||| BitVec.ofNat 4 (2 ^ d) }

theorem getLsbD_or_two_pow (v : BitVec 4) {d e : Nat} (he : e < 4) : (v ||| BitVec.ofNat 4 (2 ^ d)).getLsbD e = (v.getLsbD e || e == d) := by
  rw [BitVec.getLsbD_or, BitVec.getLsbD_ofNat, Nat.testBit_two_pow]
  simp [he, beq_eq_decide, eq_comm]

theorem State.router_setRouter (s : State) (c r : CoreId) (v : Router) :
    (s.setRouter c v).router r = if coreKey r = coreKey c then v else s.router r := by
  simp [State.router, State.setRouter, KMap.get_put]

theorem State.router_setRouter_ne {s : State} {c r : CoreId} (v : Router) (hc : (coreField c).isSome = true)
    (hr : (coreField r).isSome = true) (h : r ≠ c) : (s.setRouter c v).router r = s.router r := by
  rw [State.router_setRouter, if_neg (fun e => h (coreKey_inj (lt_of_coreField hr) (lt_of_coreField hc) e))]

theorem State.fineDown_same (s : State) (c : CoreId) (d : Nat) {e : Nat} (he : e < 4) :
    ((s.fineDown c d).router c).down.getLsbD e = ((s.router c).down.getLsbD e || e == d) := by
  rw [State.fineDown, State.router_setRouter_same]
  exact getLsbD_or_two_pow _ he

section

variable {s : State} {c b : CoreId} {d : Nat}

theorem linkExists_fine (hd : d < 4) (hc : (coreField c).isSome = true) : linkExists (.fine c d) =
    ((stepDir c.x c.y d).bind (fun p => coreField { x := p.1, y := p.2 })).isSome := by
  rw [linkExists, Nat.mod_eq_of_lt hd, hc, Bool.true_and]

theorem mem_linkFields_fine (hd : d < 4) (hstep : stepDir c.x c.y d = some (b.x, b.y)) {f : Nat}
    (h : coreField c = some f ∨ coreField b = some f) : f ∈ linkFields (.fine c d) := by
  rw [linkFields, Nat.mod_eq_of_lt hd, hstep, Option.bind_some]
  rcases h with h | h
  · cases coreField b with
    | none => simp [h]
    | some g =>
      simp only [h]
      split <;> simp
  · cases coreField c with
    | none => simp [h]
    | some g =>
      simp only [h]
      split
      · next hsame => simp [hsame]
      · simp

theorem State.markDown_fine (hd : d < 4) (hc : (coreField c).isSome = true) (hb : (coreField b).isSome = true)
    (hstep : stepDir c.x c.y d = some (b.x, b.y)) : s.markDown (.fine c d) = (s.fineDown c d).fineDown b ((d + 2) % 4) := by
  have hc' : (coreField c).isNone = false := by rw [← Option.not_isSome, hc, Bool.not_true]
  have hb' : (coreField b).isNone = false := by rw [← Option.not_isSome, hb, Bool.not_true]
  simp only [State.markDown, Nat.mod_eq_of_lt hd, hstep, hc', hb', Bool.false_eq_true, if_false]
  rfl

theorem State.linkFault_fine (hd : d < 4) (hb : (coreField b).isSome = true) (hstep : stepDir c.x c.y d = some (b.x, b.y)) :
    s.linkFault (.fine c d) = (((linkFields (.fine c d)).foldl State.rollField s).retireDead c).retireDead b := by
  simp only [State.linkFault, Nat.mod_eq_of_lt hd, hstep, Option.map_some, hb, Bool.true_and]
  rfl

/-- LINK_DOWN of a link that exists: a record, and what the down link leads to. -/
theorem State.linkDown_exists (s : State) {l : LinkId} (h : linkExists l = true) :
    ∃ r, s.linkDown l = ((s.markDown l).errorRecord r).linkFault l := by
  refine ⟨_, if_neg (c := (!(linkExists l)) = true) ?_⟩
  rw [h]
  decide

theorem State.linkDown_fine (hd : d < 4) (hc : (coreField c).isSome = true) (hb : (coreField b).isSome = true)
    (hstep : stepDir c.x c.y d = some (b.x, b.y)) : ∃ u, ((s.fineDown c d).fineDown b ((d + 2) % 4)).Recorded u ∧
      s.linkDown (.fine c d) = (((linkFields (.fine c d)).foldl State.rollField u).retireDead c).retireDead b := by
  have hexists : linkExists (.fine c d) = true := by
    rw [linkExists_fine hd hc, hstep]
    exact hb
  obtain ⟨r, hr⟩ := s.linkDown_exists hexists
  rw [State.markDown_fine hd hc hb hstep, State.linkFault_fine hd hb hstep] at hr
  exact ⟨_, State.recorded_errorRecord _ r, hr⟩

theorem exec_linkDown (l : LinkId) (s : State) : exec (.linkDown l) s = .next (s.linkDown l) := rfl
theorem exec_flitReplay (l : LinkId) (far : Bool) (s : State) : exec (.flitReplay l far) s = .next (s.flitReplay l far) := rfl

theorem State.linkDown_missing (s : State) {l : LinkId} (h : linkExists l = false) : s.linkDown l = s := by
  simp [State.linkDown, h]

theorem State.flitReplay_missing (s : State) {l : LinkId} (far : Bool) (h : linkExists l = false) : s.flitReplay l far = s := by
  simp [State.flitReplay, h]

/-- A replay counts at the receiver, which is the end that asks for it (spec/08 R198). -/
theorem State.flitReplay_end (s : State) {l : LinkId} {far : Bool} {a : At} (h : linkExists l = true) (ha : linkEnd l far = some a) :
    s.flitReplay l far = s.countReplay a := by
  simp [State.flitReplay, h, ha]

end

end Sys2Proof.Machine

/-! SUPPORT. LINK_DOWN of a fine link, and the route tables of a field (spec/08 R198, R204, R209, R211-R213). -/

namespace Sys2Proof

/-! ### Maps -/

/-- A change of the entries whose keys pass a test, where it leaves the default as it is. -/
theorem KMap.get_mapIf {α : Type} (d : α) (p : Nat → Bool) (f : Nat → α → α) (m : KMap α) (k : Nat) (hd : f k d = d) :
    KMap.get d (KMap.mapIf p f m) k = if p k then f k (KMap.get d m k) else KMap.get d m k := by
  induction m with
  | nil => simp [KMap.mapIf, KMap.get, hd]
  | cons e t ih =>
    rw [KMap.mapIf] at ih
    by_cases hk : e.1 = k
    · by_cases hp : p k = true
      · simp [KMap.mapIf, KMap.get, hk, hp]
      · simp [KMap.mapIf, KMap.get, hk, hp]
    · by_cases hp : p e.1 = true
      · simp [KMap.mapIf, KMap.get, hk, hp, ih]
      · simp [KMap.mapIf, KMap.get, hk, hp, ih]

namespace Machine

open Sys2Proof.Claims

/-! ### LINK_DOWN of a fine link -/

section

variable {s : State} {c b : CoreId} {d : Nat}

theorem ne_of_stepDir (hstep : stepDir c.x c.y d = some (b.x, b.y)) : b ≠ c := by
  rintro rfl
  exact stepDir_ne hstep rfl

theorem State.fineDown_other {r : CoreId} (hc : (coreField c).isSome = true) (hr : (coreField r).isSome = true) (h : r ≠ c) :
    (s.fineDown c d).router r = s.router r := State.router_setRouter_ne _ hc hr h

/-- The link is down at the router that names it. -/
theorem State.fineDowns_near (hc : (coreField c).isSome = true) (hb : (coreField b).isSome = true) (hne : b ≠ c) (d' : Nat) {e : Nat}
    (he : e < 4) : (((s.fineDown c d).fineDown b d').router c).down.getLsbD e = ((s.router c).down.getLsbD e || e == d) := by
  rw [State.fineDown_other hb hc hne.symm, State.fineDown_same _ _ _ he]

/-- The link is down at the router at its other end. -/
theorem State.fineDowns_far (hc : (coreField c).isSome = true) (hb : (coreField b).isSome = true) (hne : b ≠ c) (d' : Nat) {e : Nat}
    (he : e < 4) : (((s.fineDown c d).fineDown b d').router b).down.getLsbD e = ((s.router b).down.getLsbD e || e == d') := by
  rw [State.fineDown_same _ _ _ he, State.fineDown_other hc hb hne]

theorem State.linkDown_fine_faulted (hd : d < 4) (hc : (coreField c).isSome = true) (hb : (coreField b).isSome = true)
    (hstep : stepDir c.x c.y d = some (b.x, b.y)) :
    ((s.fineDown c d).fineDown b ((d + 2) % 4)).Faulted (s.linkDown (.fine c d)) := by
  obtain ⟨u, hu, hdown⟩ := State.linkDown_fine (s := s) hd hc hb hstep
  rw [hdown]
  exact ((hu.faulted.trans (State.faulted_rollFields _ _)).trans (State.faulted_retireDead _ c)).trans (State.faulted_retireDead _ b)

/-- The partitions at the two ends of the link roll back in place (spec/08 R212). -/
theorem State.linkDown_fine_rolls (hd : d < 4) (hc : (coreField c).isSome = true) (hb : (coreField b).isSome = true)
    (hstep : stepDir c.x c.y d = some (b.x, b.y)) {j : Nat} (hj : j < 16) (hjob : s.coreJob c = some j ∨ s.coreJob b = some j)
    (hrun : (s.job j).state = .running) : ((s.linkDown (.fine c d)).job j).RollsInPlace := by
  obtain ⟨u, hu, hdown⟩ := State.linkDown_fine (s := s) hd hc hb hstep
  obtain ⟨f, hf, hfj⟩ : ∃ f, (coreField c = some f ∨ coreField b = some f) ∧ s.fieldJob f = some j := by
    rcases hjob with h | h
    · obtain ⟨f, hf, hfj⟩ := Option.bind_eq_some_iff.1 h
      exact ⟨f, .inl hf, hfj⟩
    · obtain ⟨f, hf, hfj⟩ := Option.bind_eq_some_iff.1 h
      exact ⟨f, .inr hf, hfj⟩
  obtain ⟨-, -, hstate⟩ := hu.faulted
  have hroll := State.rollFields_rolls (s := u) (mem_linkFields_fine hd hstep hf) hj ((hu.faulted.fieldJob f).trans hfj)
    ((hstate j).1.trans hrun)
  obtain ⟨-, -, hkeep⟩ := (State.faulted_retireDead ((linkFields (.fine c d)).foldl State.rollField u) c).trans
    (State.faulted_retireDead _ b)
  rw [hdown]
  exact (hkeep j).2 hroll

/-- A router has a live link other than the one in direction `d`. -/
def State.HasLink (s : State) (c : CoreId) (d : Nat) : Prop :=
  ∃ e < 4, e ≠ d ∧ (s.router c).down.getLsbD e = false ∧
    ∃ m, stepDir c.x c.y e = some m ∧ (coreField { x := m.1, y := m.2 }).isSome = true

/-- A router that keeps another live link has not failed. -/
theorem State.HasLink.alive {t : State} (h : s.HasLink c d)
    (ht : ∀ e < 4, (t.router c).down.getLsbD e = ((s.router c).down.getLsbD e || e == d)) : t.routerDead c = false := by
  obtain ⟨e, he, hne, hup, m, hm, hcore⟩ := h
  refine State.routerDead_of_link he ?_ hm hcore
  rw [ht e he, hup, Bool.false_or, beq_eq_false_iff_ne]
  exact hne

/-- Where both routers keep a live link, neither leaves service (spec/15 Table 15.7). -/
theorem State.linkDown_fine_fields (hd : d < 4) (hc : (coreField c).isSome = true) (hb : (coreField b).isSome = true)
    (hstep : stepDir c.x c.y d = some (b.x, b.y)) (hlc : s.HasLink c d) (hlb : s.HasLink b ((d + 2) % 4)) :
    (s.linkDown (.fine c d)).fields = s.fields := by
  have hne := ne_of_stepDir hstep
  obtain ⟨u, hu, hdown⟩ := State.linkDown_fine (s := s) hd hc hb hstep
  have hroll := hu.faulted.trans (State.faulted_rollFields u (linkFields (.fine c d)))
  have halive : ((linkFields (.fine c d)).foldl State.rollField u).routerDead c = false := by
    rw [hroll.routerDead]
    exact hlc.alive (fun e he => State.fineDowns_near hc hb hne _ he)
  have halive' : ((linkFields (.fine c d)).foldl State.rollField u).routerDead b = false := by
    rw [hroll.routerDead]
    exact hlb.alive (fun e he => State.fineDowns_far hc hb hne _ he)
  obtain ⟨hrec, -⟩ := hu
  rw [hdown, State.retireDead_live halive, State.retireDead_live halive', State.rollFields_fields, hrec]
  rfl

end

/-! ### Reads of the tables (spec/08 R204) -/

theorem coreOfKey_coreKey {c : CoreId} (h : c.x < 768) : coreOfKey (coreKey c) = c := by
  obtain ⟨x, y⟩ := c
  simp only [coreOfKey, coreKey, CoreId.mk.injEq] at *
  omega

theorem tableOf_foldl (l : List (BitVec 32)) (n i : Nat) (m : KMap (BitVec 32)) (hm : KMap.rising m = true) :
    KMap.get 0 ((l.zipIdx n).foldl (fun m e => KMap.set 0 m e.2 e.1) m) i =
      if n ≤ i ∧ i < n + l.length then l.getD (i - n) 0 else KMap.get 0 m i := by
  induction l generalizing n m with
  | nil => simp [Nat.not_lt.2]
  | cons v t ih =>
    rw [List.zipIdx_cons, List.foldl_cons, ih _ _ (KMap.rising_set 0 m n v hm), KMap.get_set 0 m n i v hm, List.length_cons]
    rcases lt_trichotomy i n with h | rfl | h
    · rw [if_neg (by omega), if_neg (by omega), if_neg (by omega)]
    · rw [if_neg (by omega), if_pos rfl, if_pos (by omega), Nat.sub_self, List.getD_cons_zero]
    · obtain ⟨k, rfl⟩ : ∃ k, i = n + 1 + k := ⟨i - (n + 1), by omega⟩
      have hk : n + 1 + k - n = k + 1 := by omega
      rw [hk, List.getD_cons_succ, Nat.add_sub_cancel_left]
      by_cases hin : k < t.length
      · rw [if_pos (by omega), if_pos (by omega)]
      · rw [if_neg (by omega), if_neg (by omega), if_neg (by omega)]

/-- The entries that the route builder lists, the others not in use. -/
theorem tableOf_get (l : List (BitVec 32)) {n i : Nat} (h : i < n) : KMap.get 0 (tableOf n l) i = l.getD i 0 := by
  rw [tableOf, tableOf_foldl _ _ _ _ rfl]
  by_cases hi : i < l.length
  · rw [if_pos (by simp; omega), Nat.sub_zero, List.getD_eq_getElem?_getD, List.getD_eq_getElem?_getD, List.getElem?_take_of_lt h]
  · rw [if_neg (by simp; omega), List.getD_eq_default _ _ (by omega)]
    rfl

/-! ### ROUTE_ARM (spec/08 R204, R209, R211) -/

section

variable {s : State} {f : Nat} {c : CoreId}

/-- A field armed for the swap, with one router's or hub's shadow tables written. -/
def State.armed (s : State) (f : Nat) (t : Tables) : State :=
  ((s.clearShadows f).writeShadow f t).modField f (fun x => { x with rtArmed := true, rtMissArmed := s.stoppedFields })

theorem exec_routeArm (hf : f < 60) (t : Tables) : ∃ u, exec (.routeArm f [t]) s = .next u ∧ (s.armed f t).Recorded u := by
  have hexec : exec (.routeArm f [t]) s = .next ((s.armed f t).latencyRecord f ((s.armed f t).slowPairs f)) :=
    congrArg Host.Outcome.next (if_pos hf)
  refine ⟨_, hexec, ?_⟩
  generalize (s.armed f t).slowPairs f = l
  cases l with
  | nil => exact State.Recorded.refl _
  | cons p l => exact State.recorded_errorRecord _ _

/-- The same tables are in force at every router. -/
def State.SameTables (s t : State) : Prop := ∀ r, (t.router r).exA = (s.router r).exA ∧ (t.router r).fkA = (s.router r).fkA

theorem State.sameTables_clearShadows (s : State) (f : Nat) : s.SameTables (s.clearShadows f) := by
  intro r
  have hget := KMap.get_mapIf {} (fun k => coreField (coreOfKey k) == some f) (fun _ r => { r with exS := [], fkS := [] } : Nat → Router → Router)
    s.routers (coreKey r) rfl
  simp only [State.router, State.clearShadows, hget]
  split
  · exact ⟨rfl, rfl⟩
  · exact ⟨rfl, rfl⟩

theorem State.sameTables_setRouter (s : State) (c : CoreId) {v : Router} (hex : v.exA = (s.router c).exA) (hfk : v.fkA = (s.router c).fkA) :
    s.SameTables (s.setRouter c v) := by
  intro r
  rw [State.router_setRouter]
  split
  · next h =>
    have hr : s.router r = s.router c := by rw [State.router, h, State.router]
    rw [hr]
    exact ⟨hex, hfk⟩
  · exact ⟨rfl, rfl⟩

theorem State.armed_router (hc : coreField c = some f) (ex fk : List (BitVec 32)) : s.armed f (.router c ex fk) =
    ((s.clearShadows f).setRouter c { (s.clearShadows f).router c with exS := tableOf 8 ex, fkS := tableOf 16 fk }).modField f
      (fun x => { x with rtArmed := true, rtMissArmed := s.stoppedFields }) := by
  rw [State.armed, State.writeShadow, if_pos hc]

theorem State.armed_written (hc : coreField c = some f) (ex fk : List (BitVec 32)) : (s.armed f (.router c ex fk)).router c =
    { (s.clearShadows f).router c with exS := tableOf 8 ex, fkS := tableOf 16 fk } := by
  rw [State.armed_router hc, State.router_modField, State.router_setRouter_same]

theorem State.armed_sameTables (hc : coreField c = some f) (ex fk : List (BitVec 32)) : s.SameTables (s.armed f (.router c ex fk)) := by
  intro r
  rw [State.armed_router hc, State.router_modField]
  obtain ⟨hex, hfk⟩ := s.sameTables_clearShadows f r
  obtain ⟨hex', hfk'⟩ := (s.clearShadows f).sameTables_setRouter c
    (v := { (s.clearShadows f).router c with exS := tableOf 8 ex, fkS := tableOf 16 fk }) rfl rfl r
  exact ⟨hex'.trans hex, hfk'.trans hfk⟩

theorem State.armed_field (hf : f < 60) (hc : coreField c = some f) (ex fk : List (BitVec 32)) (g : Nat) :
    (s.armed f (.router c ex fk)).field g =
      if g = f then { s.field f with rtArmed := true, rtMissArmed := s.stoppedFields } else s.field g := by
  rw [State.armed_router hc, State.field_modField, State.field_setRouter]
  by_cases h : g = f
  · rw [if_pos ⟨h.symm, h ▸ hf⟩, if_pos h, h]
    rfl
  · rw [if_neg (fun e => h e.1.symm), if_neg h]
    rfl

theorem State.armed_frame (hc : coreField c = some f) (ex fk : List (BitVec 32)) : s.armed f (.router c ex fk) = { s with
    routers := (s.armed f (.router c ex fk)).routers
    hubs := (s.armed f (.router c ex fk)).hubs
    fields := (s.armed f (.router c ex fk)).fields } := by
  rw [State.armed_router hc]
  rfl

theorem State.Recorded.field {s t : State} (h : s.Recorded t) (g : Nat) : t.field g = s.field g := by
  obtain ⟨hrec, -⟩ := h
  rw [hrec]
  rfl

/-- A record written after a state that differs from `s` in routers, hubs and fields alone. -/
theorem State.Recorded.recordOnly {u t : State} (h : u.Recorded t) (hu : u = { s with routers := u.routers, hubs := u.hubs, fields := u.fields }) :
    RecordOnly { s with routers := t.routers, hubs := t.hubs, fields := t.fields } t := by
  obtain ⟨hrec, -⟩ := h
  unfold RecordOnly
  rw [hrec, hu]

/-! ### ROUTE_SWAP (spec/08 R211, R213) -/

/-- The tables in force and the shadows exchanged. -/
def Router.exchanged (r : Router) : Router := { r with exA := r.exS, exS := r.exA, fkA := r.fkS, fkS := r.fkA }

theorem State.router_swapTables (hc : (coreField c).isSome = true) :
    (s.swapTables f).router c = if coreField c = some f then (s.router c).exchanged else s.router c := by
  have hget := KMap.get_mapIf {} (fun k => coreField (coreOfKey k) == some f) (fun _ => Router.exchanged) s.routers (coreKey c) rfl
  simp only [coreOfKey_coreKey (lt_of_coreField hc), beq_iff_eq] at hget
  exact hget

theorem exec_routeSwap (f : Nat) (s : State) : exec (.routeSwap f) s =
    .next (if (s.field f).rtArmed && ((s.field f).rtHeld || s.noneRuns) && !(s.net.any (s.enteredIn f)) then s.swapTables f else s) := rfl

/-- A packet that entered in the field and is no longer held at its port may still be in the field, unless it stands outside. -/
theorem State.enteredIn_iff (p : Packet) : s.enteredIn f p = true ↔
    s.entryField p = some f ∧ p.out = false ∧ ∀ q, p.pos = some q → q.at_.field = some f := by
  cases hpos : p.pos with
  | none => simp [State.enteredIn, hpos]
  | some q => simp [State.enteredIn, hpos, and_assoc]

/-- The field is drained: every packet that entered there waits at its port or stands outside. -/
theorem State.drained_iff : s.net.any (s.enteredIn f) = false ↔
    ∀ p ∈ s.net, s.entryField p = some f → p.out = true ∨ ∃ q, p.pos = some q ∧ q.at_.field ≠ some f := by
  simp only [List.any_eq_false, State.enteredIn_iff]
  refine forall₂_congr (fun p _ => ?_)
  cases p.out <;> simp

end

/-- Settles O22: at a hub by whether a READ is the first there, at a link by the routers at its ends, at the route tables by whether the
field is drained. -/
theorem routersLinksAndHubs : Obligations.RoutersLinksAndHubs := by
  unfold Obligations.RoutersLinksAndHubs
  refine ⟨fun s k hx hy p hnet hty hkind hfirst hsrc hpass => ?hub, fun s c d hd hc => ?link, fun s f hf => ?tables⟩
  case hub =>
    have harr := State.arriving_read hnet hty hkind hfirst
    refine ⟨fun hcmb => ?first, fun l hcmb hne hda hlen hslot hdk hbit => ?combines, fun l hcmb hne hda hlen hslot hdk hbit => ?goesOn⟩
    case first => rw [exec_hubReadCombine, State.hubRead_first harr hsrc hpass hcmb]
    case combines =>
      have hsame : sameRead l p = true := by simp [sameRead, hda, hlen, hslot, hdk]
      rw [exec_hubReadCombine, State.hubRead_later harr hsrc hpass hcmb hne hsame, if_pos hbit]
    case goesOn =>
      have hsame : sameRead l p = true := by simp [sameRead, hda, hlen, hslot, hdk]
      rw [exec_hubReadCombine, State.hubRead_later harr hsrc hpass hcmb hne hsame, hbit, if_neg Bool.false_ne_true]
  case link =>
    intro n b live
    have hstepTo (h : (stepDir c.x c.y d).isSome = true) : stepDir c.x c.y d = some (b.x, b.y) := by
      obtain ⟨m, hm⟩ := Option.isSome_iff_exists.1 h
      simp [b, n, hm]
    refine ⟨fun hstep hb => ?down, fun hstep hb => ?replays, fun hcentral => ?attachment, fun hmissing => ?missing⟩
    case down =>
      have hto := hstepTo hstep
      have hne := ne_of_stepDir hto
      have hfault := State.linkDown_fine_faulted (s := s) hd hc hb hto
      obtain ⟨hcores, hnet, hhubs, hstk⟩ := hfault.frame
      obtain ⟨-, hfield, -⟩ := id hfault
      refine ⟨_, exec_linkDown _ s, fun e he => ?_, fun e he => ?_, fun r hrc hrb hr => ?_, fun j hj hjob hrun => ?_, hcores, hnet, hhubs, hstk,
        hfield, fun hlc hlb => State.linkDown_fine_fields hd hc hb hto hlc hlb⟩
      · rw [hfault.router, State.fineDowns_near hc hb hne _ he]
      · rw [hfault.router, State.fineDowns_far hc hb hne _ he]
      · rw [hfault.router, State.fineDown_other hb hr hrb, State.fineDown_other hc hr hrc]
      · exact State.linkDown_fine_rolls hd hc hb hto hj hjob hrun
    case replays =>
      have hexists : linkExists (.fine c d) = true := by
        rw [linkExists_fine hd hc, hstepTo hstep]
        exact hb
      have hfar : linkEnd (.fine c d) true = some (.router b) := by
        rw [linkEnd, Nat.mod_eq_of_lt hd, hstepTo hstep]
        rfl
      have hnear : linkEnd (.fine c d) false = some (.router c) := rfl
      exact ⟨congrArg Host.Outcome.next (s.flitReplay_end hexists hnear), congrArg Host.Outcome.next (s.flitReplay_end hexists hfar)⟩
    case attachment =>
      have hexists : linkExists (.attach c) = true := by simp [linkExists, hc, hcentral]
      have hhub : linkEnd (.attach c) true = some (.hub (c.x / 16) (c.y / 16)) := rfl
      exact congrArg Host.Outcome.next (s.flitReplay_end hexists hhub)
    case missing =>
      have hnone : linkExists (.fine c d) = false := by
        rw [linkExists_fine hd hc]
        cases hstep : stepDir c.x c.y d with
        | none => rfl
        | some m =>
          have hb : b = { x := m.1, y := m.2 } := by simp [b, n, hstep]
          simpa [hb, hstep] using hmissing
      exact ⟨congrArg Host.Outcome.next (s.linkDown_missing hnone), fun far => congrArg Host.Outcome.next (s.flitReplay_missing far hnone)⟩
  case tables =>
    refine ⟨fun c ex fk hc => ?arm, fun harmed hheld hdrained => ?swap, fun harmed hinside => ?notDrained⟩
    case arm =>
      obtain ⟨t, hexec, hrec⟩ := exec_routeArm (s := s) hf (.router c ex fk)
      have hrouter := hrec.faulted.router
      refine ⟨t, hexec, fun i hi => ?_, fun i hi => ?_, fun r => ?_, ?_, fun g hg => ?_, hrec.recordOnly (State.armed_frame hc ex fk)⟩
      · rw [hrouter, State.armed_written hc, tableOf_get ex hi]
      · rw [hrouter, State.armed_written hc, tableOf_get fk hi]
      · rw [hrouter]
        exact State.armed_sameTables hc ex fk r
      · rw [hrec.field, State.armed_field hf hc, if_pos rfl]
      · rw [hrec.field, State.armed_field hf hc, if_neg hg]
    case swap =>
      have hempty : s.net.any (s.enteredIn f) = false := State.drained_iff.2 hdrained
      have hexec : exec (.routeSwap f) s = .next (s.swapTables f) := by
        rw [exec_routeSwap, harmed, hheld, hempty]
        rfl
      refine ⟨_, hexec, fun c hc => ?_, fun c hsome hc => ?_, ?_, fun g hg => ?_, rfl, rfl⟩
      · rw [State.router_swapTables (by rw [hc]; rfl), if_pos hc]
        exact ⟨rfl, rfl, rfl, rfl⟩
      · rw [State.router_swapTables hsome, if_neg hc]
      · rw [State.swapTables, State.field_modField, if_pos ⟨rfl, hf⟩]
        rfl
      · rw [State.swapTables, State.field_modField, if_neg (fun e => hg e.1.symm)]
        rfl
    case notDrained =>
      obtain ⟨p, hp, hentry, hout, hpos⟩ := hinside
      have hin : s.net.any (s.enteredIn f) = true :=
        List.any_eq_true.2 ⟨p, hp, State.enteredIn_iff p |>.2 ⟨hentry, hout, fun q hq => by rw [hpos] at hq; cases hq⟩⟩
      rw [exec_routeSwap, hin, Bool.not_true, Bool.and_false]
      rfl

end Machine
end Sys2Proof

/-! SUPPORT. Writes of XPDONE (spec/09 R229, R231), the completion of journaled commands (spec/13 R342-R347), and the commands that wait for
a develop point (spec/09 R226, R243, R245, R255, R256). -/

namespace Sys2Proof.Machine

open Sys2Proof.Claims

/-! ### XPDONE (spec/09 R229, R231, R245) -/

section

variable {s : State} {c : CoreId}

theorem State.xpdone_first (e : Nat) (h : (s.core c).done = false) :
    s.xpdone c e = s.setCore c { s.core c with done := true, stopped := (s.core c).stopat } := by
  simp [State.xpdone, State.modCore, h]

theorem State.xpdone_again (e : Nat) (h : (s.core c).done = true) :
    s.xpdone c e = s.setCore c { s.core c with xpdWait := (s.core c).xpdWait ++ [e] } := by
  simp [State.xpdone, State.modCore, h]

theorem exec_xpdone (e : Nat) (hr : Runs s c) (hrun : (s.core c).run = true) : exec (.xpdone c e) s = .next (s.xpdone c e) := by
  show Host.Outcome.next (if s.coreRuns c && (s.core c).run then s.xpdone c e else s) = _
  rw [State.coreRuns_of_Runs hr, hrun]
  rfl

theorem exec_xpdoneDeferred (c : CoreId) (s : State) : exec (.xpdoneDeferred c) s = .next (s.xpdoneDeferred c) := rfl

/-- The oldest waiting write takes effect once DONE is 0; a thread that waited with it goes on. -/
theorem State.xpdoneDeferred_due {e : Nat} {rest : List Nat} (hr : Runs s c) (hw : (s.core c).xpdWait = e :: rest)
    (hd : (s.core c).done = false) : s.xpdoneDeferred c =
      (s.setCore c (if coreKind c = .sx ∧ e < 4 ∧ ((s.core c).thread e).wait = .xpdone
        then ({ s.core c with xpdWait := rest } : CoreState).sxWait e .none else { s.core c with xpdWait := rest })).xpdone c e := by
  simp only [State.xpdoneDeferred, hw, hd, State.coreRuns_of_Runs hr]
  rfl

theorem State.xpdoneDeferred_done (hd : (s.core c).done = true) : s.xpdoneDeferred c = s := by
  cases hw : (s.core c).xpdWait with
  | nil => simp [State.xpdoneDeferred, hw]
  | cons e rest => simp [State.xpdoneDeferred, hw, hd]

end

/-- Settles O23: a write by DONE, a deferred one by the kind of its writer. -/
theorem xpdoneWrites : Obligations.XpdoneWrites := by
  unfold Obligations.XpdoneWrites
  intro s c e hr hrun x
  simp only [exec_xpdone e hr hrun, exec_xpdoneDeferred]
  refine ⟨fun h => ?first, fun h => ?again, fun rest hw hd hk => ?sequencer, fun rest t hw hd hk hwait => ?thread,
    fun _ hd => ?waits⟩
  case first => rw [State.xpdone_first e h]
  case again => rw [State.xpdone_again e h]
  case sequencer =>
    rw [State.xpdoneDeferred_due hr hw hd, if_neg (fun h => hk h.1), State.xpdone_first e (by simpa using hd)]
    simp [x]
  case thread =>
    rw [State.xpdoneDeferred_due hr hw hd, if_pos ⟨hk, t.isLt, hwait⟩, State.xpdone_first _ (by rw [State.core_setCore_same]; exact hd)]
    simp only [State.core_setCore_same, State.setCore_setCore]
    rfl
  case waits => rw [State.xpdoneDeferred_done hd]

/-! ### Replies (spec/13 R342-R347) -/

/-- `t` is `s` after commands have completed and the hosts have been told: the journal may have lost commands, and the ports carry the
messages. -/
def State.Replied (s t : State) : Prop :=
  t = { s with ports := t.ports, cp := { s.cp with journal := t.cp.journal } } ∧ (∀ q, (s.port q).Told (t.port q)) ∧
    t.cp.journal ⊆ s.cp.journal

theorem State.Replied.refl (s : State) : s.Replied s := ⟨rfl, fun _ => PortState.Told.refl _, List.Subset.refl _⟩

theorem State.Replied.trans {s t u : State} (h : s.Replied t) (k : t.Replied u) : s.Replied u := by
  obtain ⟨hst, hports, hjournal⟩ := h
  obtain ⟨hst', hports', hjournal'⟩ := k
  refine ⟨?_, fun q => (hports q).trans (hports' q), List.Subset.trans hjournal' hjournal⟩
  rw [hst', hst]

theorem State.PortsTold.replied {s t : State} (h : s.PortsTold t) : s.Replied t := by
  obtain ⟨hst, hports⟩ := h
  have hcp : t.cp = s.cp := by rw [hst]
  refine ⟨?_, hports, by rw [hcp]; exact List.Subset.refl _⟩
  rw [hcp]
  exact hst

/-- TICK as the active die holds it is no message. -/
theorem State.now_of_told {s t : State} (hcp : t.cp.cpact = s.cp.cpact) (h : ∀ q, (s.port q).Told (t.port q)) : t.now = s.now := by
  unfold State.now
  rw [hcp, (h s.cp.cpact).1]

theorem State.portsTold_jobEvent (s : State) (j code reason expno : Nat) : s.PortsTold (s.jobEvent j code reason expno) := by
  unfold State.jobEvent
  split
  · exact ⟨rfl, fun _ => PortState.Told.refl _⟩
  · exact s.portsTold_modPort _ _ (PortState.told_eventTo _ _ _ _)

@[simp] theorem State.jobEvent_cp (s : State) (j code reason expno : Nat) : (s.jobEvent j code reason expno).cp = s.cp := by
  rw [(s.portsTold_jobEvent j code reason expno).1]

/-- A completed command leaves the journal, and no other does. -/
@[simp] theorem State.complete_cp (s : State) (e : Entry) (status : Nat) (pay : List Byte) :
    (s.complete e status pay).cp = { s.cp with journal := s.cp.journal.filter (fun x => x.id ≠ e.id) } := by
  unfold State.complete
  dsimp only
  split <;> rfl

theorem State.replied_complete (s : State) (e : Entry) (status : Nat) (pay : List Byte) : s.Replied (s.complete e status pay) := by
  have hsub : (s.complete e status pay).cp.journal ⊆ s.cp.journal := by
    simp only [State.complete_cp]
    exact List.filter_sublist.subset
  unfold State.complete at hsub ⊢
  dsimp only at hsub ⊢
  split at hsub
  · next hd =>
    rw [if_pos hd]
    exact ⟨rfl, fun _ => PortState.Told.refl _, hsub⟩
  · next hd =>
    rw [if_neg hd]
    refine ⟨rfl, fun q => ?_, hsub⟩
    rw [State.port_modPort]
    split
    · next hq =>
      subst hq
      exact PortState.Told.trans (PortState.told_of_eq rfl) (PortState.told_put _ _ _ _)
    · exact PortState.Told.refl _

theorem State.replied_completeIf (s : State) (sel : Entry → Bool) (status : Nat) (pay : State → Entry → List Byte) :
    s.Replied (s.completeIf sel status pay) := by
  unfold State.completeIf
  exact List.foldlRecOn (motive := s.Replied) _ _ (State.Replied.refl s) (fun t h e _ => h.trans (t.replied_complete e _ _))

theorem State.replied_abortWaiting (s : State) (j : Nat) : s.Replied (s.abortWaiting j) := s.replied_completeIf _ _ _

/-! ### A command that has started -/

section

variable {s : State} {n op : Nat} {e : Entry} {used : List (Nat × Nat)} {ok : Entry → Bool}

/-- A started command with parameters in range has its opcode's effect. -/
theorem State.cmd_started (h : Started s n op e) (hc : e.clean used = true) (hok : ok e = true) (f : Entry → State) :
    s.cmd n op used ok f = f e := by
  obtain ⟨hentry, hstarted, hop, hcp, -⟩ := h
  simp [State.cmd, hentry, hstarted, hop, hcp, hc, hok]

theorem not_waiting_of_started (h : Started s n op e) : e.waiting = false := by
  obtain ⟨-, -, -, -, -, hw, -⟩ := h
  exact hw

end

section

variable {s : State} {n : Nat} {e : Entry}

theorem exec_pause (h : Started s n 0x0203 e) (hj : e.p 0 1 < 16) (hc : e.clean [(0, 1)] = true) :
    exec (.pause n) s = .next (s.pauseCmd e) :=
  congrArg _ (State.cmd_started h hc (decide_eq_true hj) _)

theorem exec_preempt (h : Started s n 0x0205 e) (hj : e.p 0 1 < 16) (hc : e.clean [(0, 1)] = true) :
    exec (.preempt n) s = .next (s.preemptCmd e) :=
  congrArg _ (State.cmd_started h hc (decide_eq_true hj) _)

theorem exec_applyMode (h : Started s n 0x0208 e) (hj : e.p 0 1 < 16) (hi : e.p 1 1 < 64) (hc : e.clean [(0, 2)] = true) :
    exec (.applyMode n) s = .next (s.applyMode e) :=
  congrArg _ (State.cmd_started h hc (by simp [slotOk, hj, hi]) _)

theorem exec_resume (h : Started s n 0x0204 e) (hj : e.p 0 1 < 16) (hc : e.clean [(0, 1)] = true) :
    exec (.resume n) s = .next (s.resumeCmd e) :=
  congrArg _ (State.cmd_started h hc (decide_eq_true hj) _)

theorem exec_commit (h : Started s n 0x0209 e) (hj : e.p 0 1 < 16) (hc : e.clean [(0, 1)] = true) :
    exec (.commit n) s = .next (s.commitCmd e) :=
  congrArg _ (State.cmd_started h hc (decide_eq_true hj) _)

end

/-! ### PAUSE, PREEMPT, APPLY_MODE -/

section

variable {s : State} {e : Entry}

theorem State.pauseCmd_running (hw : e.waiting = false) (h : (s.job (e.p 0 1)).state = .running) :
    s.pauseCmd e = (s.modJob (e.p 0 1) (fun q => { q with pauseReq := true })).wait e := by
  simp [State.pauseCmd, hw, h]

theorem State.pauseCmd_badState (hw : e.waiting = false) (h : (s.job (e.p 0 1)).state ≠ .running) :
    s.pauseCmd e = s.complete e stBadState [] := by
  simp [State.pauseCmd, hw, h]

theorem State.preemptCmd_running (hw : e.waiting = false) (h : (s.job (e.p 0 1)).state = .running) :
    s.preemptCmd e = (s.modJob (e.p 0 1) (fun q => { q with preemptReq := true })).wait e := by
  simp [State.preemptCmd, hw, h]

theorem State.preemptCmd_badState (hw : e.waiting = false) (h : (s.job (e.p 0 1)).state ≠ .running) :
    s.preemptCmd e = s.complete e stBadState [] := by
  simp [State.preemptCmd, hw, h]

/-- The mode overlay of an entry is the active table's, unless that is a fault overlay (spec/09 R242). -/
theorem Job.modeAt_eq {q : Job} {i k : Nat} {o : Overlay} (hfind : q.ovActive.find? (fun v => v.1 == i) = some (k, o))
    (hfault : o.fault = none) : q.modeAt i = some o := by
  simp [Job.modeAt, hfind, hfault]

theorem State.applyMode_stages (hw : e.waiting = false) (h : (s.job (e.p 0 1)).state = .running)
    (hs : (s.job (e.p 0 1)).safelight = .idle) {o : Overlay} (ho : (s.job (e.p 0 1)).modeAt (e.p 1 1) = some o) :
    s.applyMode e = (s.modJob (e.p 0 1) (fun q => { q with safelight := .staged o })).wait e := by
  simp [State.applyMode, hw, h, hs, ho]

theorem State.applyMode_badState (hw : e.waiting = false)
    (h : (s.job (e.p 0 1)).state ≠ .running ∨ (s.job (e.p 0 1)).safelight ≠ .idle) : s.applyMode e = s.complete e stBadState [] := by
  simp [State.applyMode, hw, h]

/-! ### RESUME (spec/09 R226, R255) -/

/-- Without a faulty field no spare leaves. -/
theorem State.dropSpares_faultFields {j : Nat} (h : (s.job j).faultFields = []) : ((s.dropSpares j).job j).faultFields = [] := by
  simp only [State.dropSpares, h, List.filter_nil, List.foldl_nil, State.job_modJob]
  split
  · simp
  · exact h

/-- Without a faulty field no fault overlay takes effect. -/
theorem State.coverAll_none {j : Nat} (stuck : Stuck) (h : (s.job j).faultFields = []) : s.coverAll j stuck = s := by
  simp [State.coverAll, h]

/-- The job as RESUME lets it go on. -/
def Job.resumed (q : Job) (warn : Option Nat) : Job :=
  { q with state := .running, noCover := false, pauseReq := false, holds := { q.holds with pause := false }, warnFrom := warn }

theorem State.resumeCmd_paused (hw : e.waiting = false) (h : (s.job (e.p 0 1)).state = .paused)
    (hf : (s.job (e.p 0 1)).faultFields = []) (hr : (s.job (e.p 0 1)).rolled = false) (hs : s.mod.supply = .normal) :
    s.resumeCmd e = ((s.wait e).modJob (e.p 0 1) (fun q => q.resumed none)).jobEvent (e.p 0 1) 2 0 (s.job (e.p 0 1)).expNo := by
  have hfault := s.dropSpares_faultFields hf
  simp only [State.resumeCmd, hw, h, State.coverAll_none [] hfault, hfault, hr, State.wait, State.modEntry, hs]
  rfl

theorem State.resumeCmd_badState (hw : e.waiting = false) (h : (s.job (e.p 0 1)).state ≠ .paused) :
    s.resumeCmd e = s.complete e stBadState [] := by
  simp [State.resumeCmd, hw, h]

/-! ### COMMIT (spec/09 R243) -/

/-- The job with its overlay tables exchanged. -/
def Job.exchanged (q : Job) : Job := { q with ovActive := q.ovShadow, ovShadow := q.ovActive, commitReq := false }

theorem State.commitTables_none {j : Nat} (h : (s.job j).commitReq = false) : s.commitTables j = s := by
  simp [State.commitTables, h]

theorem State.commitTables_due {j : Nat} (h : (s.job j).commitReq = true) : s.commitTables j =
    (s.modJob j Job.exchanged).completeIf (fun e => e.started && e.opcode == 0x209 && e.p 0 1 == j) stOk
      (fun s _ => leBytes 8 (s.invalidMarks (s.job j))) := by
  simp only [State.commitTables, h]
  rfl

theorem Job.applying_iff (q : Job) : q.applying = true ↔ (q.faultFields ≠ [] ∨ q.inPlace = true) ∧ q.noCover = false := by
  simp [Job.applying]

/-- A COMMIT once it waits. -/
def State.commitAsked (s : State) (e : Entry) : State := (s.wait e).modJob (e.p 0 1) (fun q => { q with commitReq := true })

theorem State.job_commitAsked (hj : e.p 0 1 < 16) :
    (s.commitAsked e).job (e.p 0 1) = { s.job (e.p 0 1) with commitReq := true } := by
  simp only [State.commitAsked, State.job_modJob, hj, and_self, if_true]
  rfl

theorem State.commitCmd_resident (hw : e.waiting = false) (h : (s.job (e.p 0 1)).state ≠ .empty) : s.commitCmd e =
    if ((s.commitAsked e).job (e.p 0 1)).state = .running then s.commitAsked e else (s.commitAsked e).commitNow (e.p 0 1) := by
  simp only [State.commitCmd, hw, State.resident, bne_iff_ne.2 h, beq_iff_eq]
  rfl

theorem State.commitCmd_badState (hw : e.waiting = false) (h : (s.job (e.p 0 1)).state = .empty) :
    s.commitCmd e = s.complete e stBadState [] := by
  simp [State.commitCmd, hw, State.resident, h]

/-- The COMMIT that waits alone in the journal completes with the exchange. -/
theorem State.commitNow_alone (hj : e.p 0 1 < 16) (hstart : e.started = true) (hop : e.opcode = 0x0209) (hjournal : s.cp.journal = [e])
    (happ : (s.job (e.p 0 1)).applying = false) :
    ((s.commitAsked e).commitNow (e.p 0 1)).jobs = (s.modJob (e.p 0 1) Job.exchanged).jobs ∧
      ((s.commitAsked e).commitNow (e.p 0 1)).cp.journal = [] := by
  have hjob := s.job_commitAsked hj
  have happ' : ((s.commitAsked e).job (e.p 0 1)).applying = false := by rw [hjob]; exact happ
  have hnow : (s.commitAsked e).commitNow (e.p 0 1) = (s.commitAsked e).commitTables (e.p 0 1) := by simp [State.commitNow, happ']
  have hwait : (s.commitAsked e).cp.journal = [{ e with waiting := true }] := by
    simp [State.commitAsked, State.wait, State.modEntry, hjournal]
  rw [hnow, State.commitTables_due (by rw [hjob])]
  constructor
  · rw [(State.replied_completeIf _ _ _ _).1]
    simp only [State.modJob, State.commitAsked, tmod, hj, dif_pos, State.wait, State.modEntry, Vector.set_set,
      Vector.getElem_set_self]
    rfl
  · simp only [State.completeIf, State.modJob_cp, hwait]
    have hsel : List.filter (fun d : Entry => d.started && d.opcode == 0x209 && d.p 0 1 == e.p 0 1) [{ e with waiting := true }] =
        [{ e with waiting := true }] := by
      simp [hstart, hop, Entry.p]
    rw [hsel]
    simp [hwait]

end

/-- Settles O40, command by command: the state of the job decides whether the command waits for a develop point, takes effect at once or
ends BAD_STATE. -/
theorem developPointCommands : Obligations.DevelopPointCommands := by
  unfold Obligations.DevelopPointCommands
  intro s n e hj j q waits
  refine ⟨fun h hc => ?pause, fun h hc => ?preempt, fun i o h hc hi => ?applyMode, fun h hc => ?resume, fun h hc => ?commit⟩
  case pause =>
    rw [exec_pause h hj hc]
    exact ⟨fun hr => congrArg _ (State.pauseCmd_running (not_waiting_of_started h) hr),
      fun hr => congrArg _ (State.pauseCmd_badState (not_waiting_of_started h) hr)⟩
  case preempt =>
    rw [exec_preempt h hj hc]
    exact ⟨fun hr => congrArg _ (State.preemptCmd_running (not_waiting_of_started h) hr),
      fun hr => congrArg _ (State.preemptCmd_badState (not_waiting_of_started h) hr)⟩
  case applyMode =>
    rw [exec_applyMode h hj hi hc]
    refine ⟨fun hr hs hfind hfault => ?_, fun hr => ?_, fun hs => ?_⟩
    · exact congrArg _ (State.applyMode_stages (not_waiting_of_started h) hr hs (Job.modeAt_eq hfind hfault))
    · exact congrArg _ (State.applyMode_badState (not_waiting_of_started h) (.inl hr))
    · have hstaged : (s.job (e.p 0 1)).safelight = .staged o := hs
      exact congrArg _ (State.applyMode_badState (not_waiting_of_started h) (.inr (by simp [hstaged])))
  case resume =>
    rw [exec_resume h hj hc]
    refine ⟨fun hp hf hr hs => ⟨_, congrArg _ (State.resumeCmd_paused (not_waiting_of_started h) hp hf hr hs), ?_⟩,
      fun hp => congrArg _ (State.resumeCmd_badState (not_waiting_of_started h) hp)⟩
    rw [(State.portsTold_jobEvent _ _ _ _ _).1]
    exact ⟨rfl, rfl, rfl, rfl, rfl⟩
  case commit =>
    obtain ⟨hentry, hstart, hop, -⟩ := id h
    have hjob := s.job_commitAsked hj
    rw [exec_commit h hj hc]
    refine ⟨fun hr => ?_, fun hp hcov happ => ?_, fun hst hfree hjournal => ?_, fun hr => ?_⟩
    · rw [State.commitCmd_resident (not_waiting_of_started h) (by rw [hr]; decide), hjob, if_pos hr]
      rfl
    · have happ : ((s.commitAsked e).job (e.p 0 1)).applying = true := by
        rw [hjob]
        exact (Job.applying_iff _).2 ⟨happ, hcov⟩
      rw [State.commitCmd_resident (not_waiting_of_started h) (by rw [hp]; decide), hjob, if_neg (by rw [hp]; decide), State.commitNow, if_pos happ]
      rfl
    · have happ : (s.job (e.p 0 1)).applying = false := by
        rw [Bool.eq_false_iff, ne_eq, Job.applying_iff]
        rintro ⟨hfault, hcov⟩
        rcases hfree with hno | ⟨hnone, hplace⟩
        · exact Bool.noConfusion (hno.symm.trans hcov)
        · rcases hfault with hfault | hfault
          · exact hfault hnone
          · exact Bool.noConfusion (hplace.symm.trans hfault)
      have hne : (s.job (e.p 0 1)).state ≠ .empty := by rcases hst with hst | hst <;> rw [hst] <;> decide
      have hrun : ¬ ((s.commitAsked e).job (e.p 0 1)).state = .running := by
        rw [hjob]
        rcases hst with hst | hst <;> rw [hst] <;> decide
      rw [State.commitCmd_resident (not_waiting_of_started h) hne, if_neg hrun]
      exact ⟨_, rfl, State.commitNow_alone hj hstart hop hjournal happ⟩
    · exact congrArg _ (State.commitCmd_badState (not_waiting_of_started h) hr)

end Sys2Proof.Machine

/-! SUPPORT. What a develop point is made of (spec/09 R227-R239): folds over cores and fields, packets handed to the network, the publication of
staged counts, the beginning of an exposure, and the end of commands that waited. -/

namespace Sys2Proof.Machine

open Sys2Proof.Claims

/-! ### Folds over the parts of the module -/

/-- What every step keeps, and the step of one element brings about, holds at the end of a fold over a list with that element. -/
theorem foldl_reaches {β : Type} {f : State → β → State} {before after : State → Prop} {b : β} {l : List β} {s : State}
    (hbefore : ∀ t d, before t → before (f t d)) (hafter : ∀ t d, after t → after (f t d)) (hstep : ∀ t, before t → after (f t b))
    (hs : before s) (hb : b ∈ l) : after (l.foldl f s) := by
  induction l generalizing s with
  | nil => cases hb
  | cons d l ih =>
    rcases List.mem_cons.1 hb with rfl | hb
    · exact List.foldlRecOn (motive := after) l f (hstep s hs) (fun t ht e _ => hafter t e ht)
    · exact ih (hbefore s d hs) hb

theorem State.core_congr (s : State) {c d : CoreId} (h : coreKey c = coreKey d) : s.core c = s.core d := by
  rw [State.core, State.core, h]

/-- A change of one core stands to every core as it does to that one, or leaves it. -/
theorem State.modCore_rel {R : CoreState → CoreState → Prop} (hrefl : ∀ x, R x x) (s : State) (d : CoreId) {g : CoreState → CoreState}
    (hg : R (s.core d) (g (s.core d))) (c : CoreId) : R (s.core c) ((s.modCore d g).core c) := by
  rw [State.core_modCore]
  split
  · next h => rw [s.core_congr h]; exact hg
  · exact hrefl _

/-- A change of one field stands to every field as it does to that one, or leaves it. -/
theorem State.modField_rel {R : FieldState → FieldState → Prop} (hrefl : ∀ x, R x x) (s : State) (n : Nat) {g : FieldState → FieldState}
    (hg : ∀ x, R x (g x)) (f : Nat) : R (s.field f) ((s.modField n g).field f) := by
  rw [State.field_modField]
  split
  · exact hg _
  · exact hrefl _

/-- Fields changed one after the other: nothing else changes. -/
theorem State.foldl_modField_frame (s : State) (l : List Nat) (g : FieldState → FieldState) :
    l.foldl (fun s f => s.modField f g) s = { s with fields := (l.foldl (fun s f => s.modField f g) s).fields } :=
  List.foldlRecOn (motive := fun t : State => t = { s with fields := t.fields }) l _ rfl (fun t h f _ => by
    conv_lhs => rw [h]
    rfl)

theorem State.foldl_modField_field (s : State) (l : List Nat) (g : FieldState → FieldState) (hl : l.Nodup) (f : Nat) (hf : f < 60) :
    (l.foldl (fun s f => s.modField f g) s).field f = if f ∈ l then g (s.field f) else s.field f := by
  induction l generalizing s with
  | nil => rfl
  | cons a l ih =>
    obtain ⟨hal, hl⟩ := List.nodup_cons.1 hl
    rw [List.foldl_cons, ih _ hl, State.field_modField]
    by_cases haf : a = f
    · subst haf
      simp [hal, hf]
    · simp [haf, Ne.symm haf]

/-- Cores changed one after the other: nothing else changes. -/
theorem State.foldl_modCore_frame (s : State) (l : List CoreId) (g : CoreId → CoreState → CoreState) :
    l.foldl (fun s c => s.modCore c (g c)) s = { s with cores := (l.foldl (fun s c => s.modCore c (g c)) s).cores } :=
  List.foldlRecOn (motive := fun t : State => t = { s with cores := t.cores }) l _ rfl (fun t h f _ => by
    conv_lhs => rw [h]
    rfl)

/-- The scheduled cores depend on the image, the placement and the schedule alone. -/
theorem State.schedCores_congr {s t : State} {j : Nat} (himage : (t.job j).image = (s.job j).image)
    (hfields : (t.job j).fields = (s.job j).fields) (hsched : ∀ c, (t.core c).sched = (s.core c).sched) :
    t.schedCores j = s.schedCores j := by
  have hplace : (t.job j).place = (s.job j).place := by
    funext p
    rw [Job.place, Job.place, hfields]
  simp only [State.schedCores, himage, hplace, hsched]

/-! ### Packets handed to the network (spec/09 R233, R234) -/

/-- `t` is `s` after packets have been handed to the network and counted. -/
def State.Sent (s t : State) : Prop := t = { s with net := t.net, fields := t.fields, stk := t.stk, dieDelta := t.dieDelta }

theorem State.Sent.refl (s : State) : s.Sent s := rfl

theorem State.Sent.trans {s t u : State} (h : s.Sent t) (k : t.Sent u) : s.Sent u := by
  unfold State.Sent at *
  rw [k, h]

theorem State.Sent.core {s t : State} (h : s.Sent t) (c : CoreId) : t.core c = s.core c := by
  rw [h]
  rfl

theorem State.sent_foldl {β : Type} {f : State → β → State} (hf : ∀ (t : State) (b : β), t.Sent (f t b)) (l : List β) (s : State) :
    s.Sent (l.foldl f s) :=
  List.foldlRecOn (motive := s.Sent) l f (State.Sent.refl s) (fun t h b _ => h.trans (hf t b))

theorem State.sent_send (s : State) (e : NetEnd) (p : Packet) : s.Sent (s.send e p) := by
  unfold State.send
  dsimp only
  split
  · cases e <;> rfl
  · rfl

theorem State.sent_handOff (s : State) (c : CoreId) (p : Packet) (ms : List CoreId) : s.Sent (s.handOff c p ms) := by
  unfold State.handOff
  split
  · exact State.Sent.refl s
  · split
    · exact State.Sent.refl s
    · split
      · exact State.sent_foldl (fun t _ => State.sent_send t _ _) _ s
      · exact s.sent_send _ _

/-- While DONE is 0 a core's packet is not held. -/
theorem State.sent_handCore {s : State} {c : CoreId} (hd : (s.core c).done = false) (eng : Nat) (p : Packet) :
    s.Sent (s.handCore c eng p) := by
  simp only [State.handCore, hd, Bool.and_false, Bool.false_eq_true, if_false]
  exact s.sent_handOff c _ _

theorem State.sent_creditReturn {s : State} {c : CoreId} (hd : (s.core c).done = false) (q n : Nat) : s.Sent (s.creditReturn c q n) := by
  simp only [State.creditReturn, hd, Bool.and_false, Bool.false_eq_true, if_false]
  split
  · exact State.Sent.refl s
  · exact s.sent_handOff c _ _

/-! ### What is held leaves (spec/09 R235) -/

/-- A core whose held packets and credit returns have left; `n` names the free value that its wait took (log 9). -/
def CoreState.released (x : CoreState) (n : Nat) : CoreState :=
  { x with
    done := false
    held := []
    credHold := Vector.replicate 16 0
    xphWait := if x.heldAny then satAdd x.xphWait (Config.stallCycles n).toNat else x.xphWait
    th := x.th.map (fun t => if t.wait == .held then { t with wait := .none } else t) }

/-- While DONE is 0 a core hands over what it is given: packets, then credit returns. -/
theorem State.sent_handOver {s : State} {c : CoreId} (hd : (s.core c).done = false) (held : List (Nat × Packet)) (credits : Nat → Nat) :
    s.Sent ((List.range 16).foldl (fun t q => t.creditReturn c q (credits q)) (held.foldl (fun t h => t.handCore c h.1 h.2) s)) := by
  have hdone {t : State} (h : s.Sent t) : (t.core c).done = false := by rw [h.core, hd]
  have hheld : s.Sent (held.foldl (fun t h => t.handCore c h.1 h.2) s) :=
    List.foldlRecOn (motive := s.Sent) held _ (State.Sent.refl s) (fun t h p _ => h.trans (State.sent_handCore (hdone h) p.1 p.2))
  exact List.foldlRecOn (motive := s.Sent) (List.range 16) _ hheld (fun t h q _ => h.trans (State.sent_creditReturn (hdone h) q _))

theorem State.sent_releaseHeld (s : State) (c : CoreId) :
    (s.draw.2.setCore c ((s.core c).released s.freeCtr)).Sent (s.releaseHeld c) := by
  have hd : ((s.draw.2.setCore c ((s.core c).released s.freeCtr)).core c).done = false := by
    rw [State.core_setCore_same]
    rfl
  exact State.sent_handOver hd (s.core c).held (fun q => (s.core c).credHold.get (BitVec.ofNat 4 q))

theorem State.core_releaseHeld (s : State) (c d : CoreId) :
    (s.releaseHeld c).core d = if coreKey d = coreKey c then (s.core c).released s.freeCtr else s.core d := by
  rw [(s.sent_releaseHeld c).core, State.core_setCore]
  rfl

/-- A release stands to every core as it does to its own, or leaves it. -/
theorem State.releaseHeld_rel {R : CoreState → CoreState → Prop} (hrefl : ∀ x, R x x) (hrel : ∀ x n, R x (x.released n)) (s : State)
    (c d : CoreId) : R (s.core d) ((s.releaseHeld c).core d) := by
  rw [State.core_releaseHeld]
  split
  · next h => rw [s.core_congr h]; exact hrel _ _
  · exact hrefl _

/-! ### Publication (spec/09 R235, R236, Table 9.2) -/

/-- `t` is `s` but for its cores and the free values drawn. -/
def State.CoresOnly (s t : State) : Prop := t = { s with cores := t.cores, freeCtr := t.freeCtr }

theorem State.CoresOnly.refl (s : State) : s.CoresOnly s := rfl

theorem State.CoresOnly.trans {s t u : State} (h : s.CoresOnly t) (k : t.CoresOnly u) : s.CoresOnly u := by
  unfold State.CoresOnly at *
  rw [k, h]

theorem State.CoresOnly.job {s t : State} (h : s.CoresOnly t) (m : Nat) : t.job m = s.job m := by
  rw [h]
  rfl

theorem State.coresOnly_modCore (s : State) (c : CoreId) (g : CoreState → CoreState) : s.CoresOnly (s.modCore c g) := rfl

theorem State.coresOnly_failAt (s : State) (c : CoreId) (code q : Nat) (src : Option (Nat × Nat)) : s.CoresOnly (s.failAt c code q src) := rfl

theorem State.coresOnly_foldl {β : Type} {f : State → β → State} (hf : ∀ (t : State) (b : β), t.CoresOnly (f t b)) (l : List β) (s : State) :
    s.CoresOnly (l.foldl f s) :=
  List.foldlRecOn (motive := s.CoresOnly) l f (State.CoresOnly.refl s) (fun t h b _ => h.trans (hf t b))

theorem State.coresOnly_publishQueue (s : State) (c : CoreId) (n : Nat) : s.CoresOnly (s.publishQueue c n) := by
  unfold State.publishQueue
  dsimp only
  split
  · split
    · exact State.CoresOnly.refl s
    · split
      · exact (s.coresOnly_modCore c _).trans (State.coresOnly_failAt _ _ _ _ _)
      · rfl
  · rfl

/-- Rows that wait for their commit are staged no more: the rest of the core stays. -/
def CoreState.unstaged (x : CoreState) : CoreState := { x with rows := x.rows.map (fun r => { r with staged := false }) }

@[simp] theorem CoreState.unstaged_qu (x : CoreState) (n : Nat) : x.unstaged.qu n = x.qu n := rfl

theorem State.publishCore_eq (s : State) (c : CoreId) :
    s.publishCore c = ((List.range 16).foldl (fun s n => s.publishQueue c n) s).modCore c CoreState.unstaged := rfl

theorem State.coresOnly_publishCore (s : State) (c : CoreId) : s.CoresOnly (s.publishCore c) := by
  rw [State.publishCore_eq]
  exact (State.coresOnly_foldl (fun t n => State.coresOnly_publishQueue t c n) (List.range 16) s).trans (State.coresOnly_modCore _ c _)

theorem State.coresOnly_publish (s : State) (j : Nat) : s.CoresOnly (s.publish j) :=
  State.coresOnly_foldl State.coresOnly_publishCore _ s

/-- `y` has the scratchpad, the semaphores, the schedule and the engines' commands of `x`: no work of the core is lost. -/
structure CoreState.KeepsWork (x y : CoreState) : Prop where
  mem : y.mem = x.mem
  sem : y.sem = x.sem
  sched : y.sched = x.sched
  e1 : y.e1 = x.e1
  e2 : y.e2 = x.e2
  e3 : y.e3 = x.e3

theorem CoreState.KeepsWork.refl (x : CoreState) : x.KeepsWork x := ⟨rfl, rfl, rfl, rfl, rfl, rfl⟩

theorem CoreState.KeepsWork.trans {x y z : CoreState} (h : x.KeepsWork y) (k : y.KeepsWork z) : x.KeepsWork z :=
  ⟨k.mem.trans h.mem, k.sem.trans h.sem, k.sched.trans h.sched, k.e1.trans h.e1, k.e2.trans h.e2, k.e3.trans h.e3⟩

theorem CoreState.keepsWork_failQueue (x : CoreState) (code epc engine q : Nat) (src : Option (Nat × Nat)) :
    x.KeepsWork (x.failQueue code epc engine q src) := by
  unfold CoreState.failQueue CoreState.fail
  split <;> exact ⟨rfl, rfl, rfl, rfl, rfl, rfl⟩

theorem CoreState.keepsWork_released (x : CoreState) (n : Nat) : x.KeepsWork (x.released n) := ⟨rfl, rfl, rfl, rfl, rfl, rfl⟩

@[simp] theorem CoreState.failQueue_qu (x : CoreState) (code epc engine q n : Nat) (src : Option (Nat × Nat)) :
    (x.failQueue code epc engine q src).qu n = x.qu n := by
  unfold CoreState.failQueue CoreState.fail
  split <;> rfl

theorem State.keepsWork_failAt (s : State) (c : CoreId) (code q : Nat) (src : Option (Nat × Nat)) (d : CoreId) :
    (s.core d).KeepsWork ((s.failAt c code q src).core d) :=
  State.modCore_rel CoreState.KeepsWork.refl s.draw.2 c (CoreState.keepsWork_failQueue _ _ _ _ _ _) d

theorem State.keepsWork_publishQueue (s : State) (c : CoreId) (n : Nat) (d : CoreId) :
    (s.core d).KeepsWork ((s.publishQueue c n).core d) := by
  have hset (v : CoreState → Queue) : (s.core d).KeepsWork ((s.modCore c (fun x => x.setQ n (v x))).core d) :=
    State.modCore_rel CoreState.KeepsWork.refl s c ⟨rfl, rfl, rfl, rfl, rfl, rfl⟩ d
  unfold State.publishQueue
  dsimp only
  split
  · split
    · exact CoreState.KeepsWork.refl _
    · split
      · exact (hset _).trans (State.keepsWork_failAt _ _ _ _ _ d)
      · exact hset _
  · exact hset _

theorem CoreState.keepsWork_unstaged (x : CoreState) : x.KeepsWork x.unstaged := ⟨rfl, rfl, rfl, rfl, rfl, rfl⟩

theorem State.keepsWork_publishCore (s : State) (c d : CoreId) : (s.core d).KeepsWork ((s.publishCore c).core d) := by
  have hqueues := List.foldlRecOn (motive := fun t : State => (s.core d).KeepsWork (t.core d)) (List.range 16)
    (fun s n => s.publishQueue c n) (CoreState.KeepsWork.refl _) (fun t h n _ => h.trans (t.keepsWork_publishQueue c n d))
  rw [State.publishCore_eq]
  exact hqueues.trans (State.modCore_rel CoreState.KeepsWork.refl _ c (CoreState.keepsWork_unstaged _) d)

theorem State.keepsWork_publish (s : State) (j : Nat) (d : CoreId) : (s.core d).KeepsWork ((s.publish j).core d) :=
  List.foldlRecOn (motive := fun t : State => (s.core d).KeepsWork (t.core d)) (s.schedCores j) _ (CoreState.KeepsWork.refl _)
    (fun t h c _ => h.trans (t.keepsWork_publishCore c d))

/-- A PLAIN queue of one-word entries with one staged entry that has landed. -/
def Queue.OneStaged (u : Queue) : Prop :=
  u.d.mode = 0 ∧ u.d.esize = 1 ∧ u.slots = [] ∧ ∃ id, u.rsv = [{ id := id, entries := 1, done := 1, counted := 0, staged := true }]

/-- The queue once its one staged entry counts. -/
def Queue.counted (u : Queue) : Queue := { u with rsv := [], count := u.count + 1 }

/-- A queue that stands before or after the publication of its one staged entry. -/
def Queue.StagedOrCounted (u v : Queue) : Prop := v = u ∨ v = u.counted

/-- The queue with nothing of it staged any more. -/
def Queue.unstaged (v : Queue) : Queue :=
  { v with
    rsv := v.rsv.map (fun r => { r with staged := false })
    slots := v.slots.map (fun e => (e.1, { e.2 with staged := false })) }

theorem Queue.recount_plain {v : Queue} (h : v.isPot = false) :
    v.recount = { v with rsv := (countEntries v.width v.rsv).1, count := v.count + (countEntries v.width v.rsv).2 } := by
  rw [Queue.recount, h]
  rfl

theorem Queue.recount_counted {u : Queue} (h : u.OneStaged) {v : Queue} (hv : u.StagedOrCounted v) :
    v.isCredit = false ∧ v.unstaged.recount = u.counted := by
  obtain ⟨hmode, hesize, hslots, id, hrsv⟩ := h
  have hd : v.d = u.d := by rcases hv with rfl | rfl <;> rfl
  have hpot : v.unstaged.isPot = false := by simp [Queue.isPot, Queue.unstaged, hd, hmode]
  have hwidth : v.unstaged.width = 1 := by simp [Queue.width, Queue.esize, Queue.unstaged, hd, hmode, hesize]
  refine ⟨by simp [Queue.isCredit, hd, hesize], ?_⟩
  rw [Queue.recount_plain hpot, hwidth]
  rcases hv with rfl | rfl
  · simp [Queue.unstaged, hslots, hrsv, countEntries, Queue.counted]
  · simp [Queue.unstaged, hslots, countEntries, Queue.counted]

theorem State.publishQueue_plain {s : State} {c : CoreId} {n : Nat} (h : ((s.core c).qu n).isCredit = false) :
    s.publishQueue c n = s.setCore c ((s.core c).setQ n ((s.core c).qu n).unstaged.recount) := by
  simp only [State.publishQueue, h, State.modCore]
  rfl

section

variable {u : Queue} {d : CoreId} {n : Nat}

/-- A publication of the queue counts its staged entry; that of any other leaves it. -/
theorem State.publishQueue_qu (hu : u.OneStaged) (s : State) (c : CoreId) (m : Nat) (h : u.StagedOrCounted ((s.core d).qu n)) :
    ((s.publishQueue c m).core d).qu n =
      if coreKey d = coreKey c ∧ BitVec.ofNat 4 n = BitVec.ofNat 4 m then u.counted else (s.core d).qu n := by
  split
  · next hown =>
    obtain ⟨hkey, hnum⟩ := hown
    have hq : (s.core c).qu m = (s.core d).qu n := by rw [s.core_congr hkey, CoreState.qu, CoreState.qu, hnum]
    obtain ⟨hcredit, hcount⟩ := Queue.recount_counted hu h
    rw [State.publishQueue_plain (by rw [hq]; exact hcredit), State.core_setCore, if_pos hkey, hq, hcount, CoreState.qu, CoreState.setQ,
      hnum, RegFile.get_set_same]
  · next hown =>
    have hset (t : State) (v : CoreState → Queue) : ((t.modCore c (fun x => x.setQ m (v x))).core d).qu n = (t.core d).qu n := by
      rw [State.core_modCore]
      split
      · next hkey =>
        rw [CoreState.qu, CoreState.setQ, RegFile.get_set_ne _ _ _ _ (fun e => hown ⟨hkey, e.symm⟩), t.core_congr hkey]
        rfl
      · rfl
    have hfail (t : State) (code q : Nat) : ((t.failAt c code q none).core d).qu n = (t.core d).qu n := by
      refine State.modCore_rel (R := fun x y => y.qu n = x.qu n) (fun _ => rfl) t.draw.2 c ?_ d
      simp
    unfold State.publishQueue
    dsimp only
    split
    · split
      · rfl
      · split
        · rw [hfail, hset]
        · exact hset _ _
    · exact hset _ _

/-- A publication leaves such a queue staged or counted, and a counted one counted. -/
theorem State.publishQueue_staged (hu : u.OneStaged) (s : State) (c : CoreId) (m : Nat) (h : u.StagedOrCounted ((s.core d).qu n)) :
    u.StagedOrCounted (((s.publishQueue c m).core d).qu n) := by
  rw [State.publishQueue_qu hu s c m h]
  split
  · exact .inr rfl
  · exact h

theorem State.publishQueue_counted (hu : u.OneStaged) (s : State) (c : CoreId) (m : Nat) (h : (s.core d).qu n = u.counted) :
    ((s.publishQueue c m).core d).qu n = u.counted := by
  rw [State.publishQueue_qu hu s c m (.inr h), h, ite_self]

theorem State.publishCore_qu (s : State) (c : CoreId) :
    ((s.publishCore c).core d).qu n = (((List.range 16).foldl (fun s n => s.publishQueue c n) s).core d).qu n := by
  rw [State.publishCore_eq]
  exact State.modCore_rel (R := fun x y => y.qu n = x.qu n) (fun _ => rfl) _ c (CoreState.unstaged_qu _ n) d

theorem State.publishCore_staged (hu : u.OneStaged) (s : State) (c : CoreId) (h : u.StagedOrCounted ((s.core d).qu n)) :
    u.StagedOrCounted (((s.publishCore c).core d).qu n) := by
  rw [State.publishCore_qu]
  exact List.foldlRecOn (motive := fun t : State => u.StagedOrCounted ((t.core d).qu n)) (List.range 16)
    (fun s n => s.publishQueue c n) h (fun t ht m _ => t.publishQueue_staged hu c m ht)

theorem State.publishCore_keepsCounted (hu : u.OneStaged) (s : State) (c : CoreId) (h : (s.core d).qu n = u.counted) :
    ((s.publishCore c).core d).qu n = u.counted := by
  rw [State.publishCore_qu]
  exact List.foldlRecOn (motive := fun t : State => (t.core d).qu n = u.counted) (List.range 16)
    (fun s n => s.publishQueue c n) h (fun t ht m _ => t.publishQueue_counted hu c m ht)

/-- The publication of a core reaches each of its sixteen queues. -/
theorem State.publishCore_counted (hu : u.OneStaged) (hn : n < 16) (s : State) (h : u.StagedOrCounted ((s.core d).qu n)) :
    ((s.publishCore d).core d).qu n = u.counted := by
  rw [State.publishCore_qu]
  exact foldl_reaches (f := fun s n => s.publishQueue d n) (before := fun t => u.StagedOrCounted ((t.core d).qu n))
    (after := fun t => (t.core d).qu n = u.counted)
    (fun t m ht => t.publishQueue_staged hu d m ht) (fun t m ht => t.publishQueue_counted hu d m ht)
    (fun t ht => by rw [State.publishQueue_qu hu t d n ht, if_pos ⟨rfl, rfl⟩]) h (List.mem_range.2 hn)

/-- Staged entries count at the develop point (spec/09 R236). -/
theorem State.publish_counted (hu : u.OneStaged) (hn : n < 16) (s : State) (j : Nat) (hd : d ∈ s.schedCores j)
    (h : (s.core d).qu n = u) : ((s.publish j).core d).qu n = u.counted :=
  foldl_reaches (before := fun t => u.StagedOrCounted ((t.core d).qu n)) (after := fun t => (t.core d).qu n = u.counted)
    (fun t c ht => t.publishCore_staged hu c ht) (fun t c ht => t.publishCore_keepsCounted hu c ht)
    (fun t ht => t.publishCore_counted hu hn ht) (.inl h) hd

end

end Sys2Proof.Machine

/-! SUPPORT. The beginning of an exposure and the develop point that falls (spec/09 R228, R235, R251, R254). -/

namespace Sys2Proof.Machine

open Sys2Proof.Claims

/-! ### Beginning an exposure (spec/09 R228) -/

/-- The job at the beginning of exposure `n` at TICK `t`. -/
def Job.begun (q : Job) (t n : Nat) : Job :=
  { q with
    expNo := n
    begin_ := t
    sched := t + q.expLen
    held := false
    lateTicks := 0
    waitAll := []
    warnFrom := none
    poisonAt := if q.replayTo.isSome then q.poisonAt else [] }

/-- A core whose XPSTAT notes nothing of the new exposure yet. -/
def CoreState.unnoted (x : CoreState) : CoreState := { x with xpZero := false }

theorem CoreState.keepsWork_unnoted (x : CoreState) : x.KeepsWork x.unnoted := ⟨rfl, rfl, rfl, rfl, rfl, rfl⟩

/-- `y` is in the partition of `x`, with its counts. -/
def FieldState.KeepsJob (x y : FieldState) : Prop := y.job = x.job ∧ y.delta = x.delta

theorem FieldState.KeepsJob.refl (x : FieldState) : x.KeepsJob x := ⟨rfl, rfl⟩

theorem FieldState.KeepsJob.trans {x y z : FieldState} (h : x.KeepsJob y) (k : y.KeepsJob z) : x.KeepsJob z :=
  ⟨k.1.trans h.1, k.2.trans h.2⟩

/-- A field at the beginning of an exposure of its partition: its notes and its gate are cleared. -/
def FieldState.begun (x : FieldState) : FieldState := { x with nakNoted := false, gated := false }

theorem FieldState.keepsJob_begun (x : FieldState) : x.KeepsJob x.begun := ⟨rfl, rfl⟩

/-- The module as exposure `n` of a job begins, before its waiting commands complete and its log is replayed. -/
def State.exposed (s : State) (j n : Nat) : State :=
  let s := s.modJob j (fun q => q.begun s.now n)
  let s := (s.job j).allFields.foldl (fun s f => s.modField f FieldState.begun) s
  (s.schedCores j).foldl (fun s c => s.modCore c CoreState.unnoted) s

theorem State.foldl_modField_keepsJob (s : State) (l : List Nat) {g : FieldState → FieldState} (hg : ∀ x : FieldState, x.KeepsJob (g x))
    (f : Nat) :
    (s.field f).KeepsJob ((l.foldl (fun s f => s.modField f g) s).field f) :=
  List.foldlRecOn (motive := fun t : State => (s.field f).KeepsJob (t.field f)) l _ (FieldState.KeepsJob.refl _)
    (fun t h n _ => h.trans (State.modField_rel FieldState.KeepsJob.refl t n hg f))

theorem State.foldl_modCore_rel {R : CoreState → CoreState → Prop} (hrefl : ∀ x, R x x) (htrans : ∀ {x y z}, R x y → R y z → R x z)
    (s : State) (l : List CoreId) {g : CoreId → CoreState → CoreState} (hg : ∀ c x, R x (g c x)) (d : CoreId) :
    R (s.core d) ((l.foldl (fun s c => s.modCore c (g c)) s).core d) :=
  List.foldlRecOn (motive := fun t : State => R (s.core d) (t.core d)) l _ (hrefl _)
    (fun t h c _ => htrans h (State.modCore_rel hrefl t c (hg c _) d))

/-- What the beginning of an exposure changes. -/
theorem State.exposed_frame (s : State) (j n : Nat) :
    s.exposed j n = { s with
      cores := (s.exposed j n).cores, fields := (s.exposed j n).fields, jobs := (s.modJob j (fun q => q.begun s.now n)).jobs } := by
  unfold State.exposed
  dsimp only
  rw [State.foldl_modCore_frame, State.foldl_modField_frame]
  rfl

theorem State.exposed_field (s : State) (j n f : Nat) : (s.field f).KeepsJob ((s.exposed j n).field f) := by
  unfold State.exposed
  dsimp only
  rw [State.foldl_modCore_frame]
  exact State.foldl_modField_keepsJob (s.modJob j _) _ FieldState.keepsJob_begun f

theorem State.exposed_core {R : CoreState → CoreState → Prop} (hrefl : ∀ x, R x x) (htrans : ∀ {x y z}, R x y → R y z → R x z)
    (hR : ∀ x, R x x.unnoted) (s : State) (j n : Nat) (c : CoreId) : R (s.core c) ((s.exposed j n).core c) := by
  unfold State.exposed
  dsimp only
  refine htrans ?_ (State.foldl_modCore_rel hrefl htrans _ _ (fun _ => hR) c)
  rw [State.foldl_modField_frame]
  exact hrefl _

/-- `t` is `s` after the replay of a job's log: packets have been sent, and the replay may be over (spec/09 R254). -/
structure State.Replayed (j : Nat) (s t : State) : Prop where
  state : t = { s with net := t.net, fields := t.fields, stk := t.stk, dieDelta := t.dieDelta, jobs := t.jobs }
  job : t.job j = { s.job j with replayTo := (t.job j).replayTo }
  other : ∀ m, m ≠ j → t.job m = s.job m

theorem State.Sent.replayed {s t : State} (h : s.Sent t) (j : Nat) : State.Replayed j s t := by
  have hjobs : t.jobs = s.jobs := by rw [h]
  have hjob (m : Nat) : t.job m = s.job m := by rw [State.job, State.job, hjobs]
  refine ⟨?_, by rw [hjob], fun m _ => hjob m⟩
  rw [hjobs]
  exact h

/-- A replay that is over ends. -/
theorem State.replayed_end (s : State) (j : Nat) : State.Replayed j s (s.modJob j (fun q => { q with replayTo := none })) := by
  refine ⟨rfl, ?_, fun m hm => ?_⟩
  · rw [State.job_modJob]
    split <;> rfl
  · rw [State.job_modJob, if_neg (fun h => hm h.1.symm)]

theorem State.replayed_replay (s : State) (j : Nat) : State.Replayed j s (s.replay j) := by
  unfold State.replay
  dsimp only
  split
  · exact (State.Sent.refl s).replayed j
  · split
    · exact s.replayed_end j
    · refine (State.sent_foldl (fun t e => ?_) _ s).replayed j
      unfold State.replayOne
      dsimp only
      split
      · exact t.sent_send _ _
      · exact State.Sent.refl t

/-- Without a logged input no packet is sent again. -/
theorem State.replay_noLog {s : State} {j : Nat} (h : (s.job j).replayTo = none ∨ (s.job j).log = []) :
    s.replay j = { s with jobs := (s.replay j).jobs } := by
  unfold State.replay
  dsimp only
  split
  · rfl
  · next last hlast =>
    split
    · rfl
    · rcases h with h | h
      · rw [h] at hlast
        cases hlast
      · rw [h]
        rfl

/-- `t` is `s` once exposure `n` of job `j` has begun: the job's schedule is set, and its cores, its fields and the network may have changed
with its waiting commands and its replay. -/
structure State.Begins (j n : Nat) (s t : State) : Prop where
  state : t = { s with
    cores := t.cores, jobs := t.jobs, fields := t.fields, stk := t.stk, dieDelta := t.dieDelta, net := t.net, ports := t.ports
    cp := { s.cp with journal := t.cp.journal } }
  job : j < 16 → t.job j = { (s.job j).begun s.now n with replayTo := (t.job j).replayTo }
  other : ∀ m, m ≠ j → t.job m = s.job m
  told : ∀ q, (s.port q).Told (t.port q)
  journal : t.cp.journal ⊆ s.cp.journal

theorem State.beginExposure_eq (s : State) (j n : Nat) : ∃ u, (s.exposed j n).Replied u ∧ s.beginExposure j n = u.replay j :=
  ⟨_, (State.replied_completeIf _ _ _ _).trans (State.replied_completeIf _ _ _ _), rfl⟩

theorem State.begins_beginExposure (s : State) (j n : Nat) : State.Begins j n s (s.beginExposure j n) := by
  obtain ⟨u, ⟨hu, hports, hjournal⟩, heq⟩ := s.beginExposure_eq j n
  have hreplay := u.replayed_replay j
  rw [heq]
  generalize u.replay j = t at hreplay
  obtain ⟨ht, hjob, hother⟩ := hreplay
  have hexp := s.exposed_frame j n
  generalize s.exposed j n = v at *
  have hujob (m : Nat) : u.job m = (s.modJob j (fun q => q.begun s.now n)).job m := by rw [hu, hexp]; rfl
  have htold (q : Port) : (s.port q).Told (u.port q) := by
    have h := hports q
    rw [hexp] at h
    exact h
  refine ⟨?_, fun hj => ?_, fun m hm => ?_, fun q => ?_, ?_⟩
  · rw [ht, hu, hexp]
  · have h := hujob j
    rw [State.job_modJob, if_pos ⟨rfl, hj⟩] at h
    rw [hjob, h]
  · rw [hother m hm, hujob, State.job_modJob, if_neg (fun h => hm h.1.symm)]
  · rw [ht]
    exact htold q
  · rw [ht]
    rw [hexp] at hjournal
    exact hjournal

theorem State.beginExposure_cores (s : State) (j n : Nat) : (s.beginExposure j n).cores = (s.exposed j n).cores := by
  obtain ⟨u, ⟨hu, -⟩, heq⟩ := s.beginExposure_eq j n
  rw [heq, (u.replayed_replay j).state, hu]

/-- What the beginning of an exposure does to a core is to clear its note. -/
theorem State.beginExposure_core {R : CoreState → CoreState → Prop} (hrefl : ∀ x, R x x) (htrans : ∀ {x y z}, R x y → R y z → R x z)
    (hR : ∀ x, R x x.unnoted) (s : State) (j n : Nat) (c : CoreId) : R (s.core c) ((s.beginExposure j n).core c) := by
  rw [State.core, State.core, State.beginExposure_cores]
  exact s.exposed_core hrefl htrans hR j n c

/-- An exposure that replays nothing sends no packet and counts none. -/
theorem State.beginExposure_noLog {s : State} {j : Nat} (hj : j < 16) (n : Nat) (h : (s.job j).replayTo = none ∨ (s.job j).log = []) :
    (s.beginExposure j n).net = s.net ∧ (s.beginExposure j n).stk = s.stk ∧ (s.beginExposure j n).dieDelta = s.dieDelta ∧
      ∀ f, (s.field f).KeepsJob ((s.beginExposure j n).field f) := by
  obtain ⟨u, ⟨hu, -⟩, heq⟩ := s.beginExposure_eq j n
  have hexp := s.exposed_frame j n
  have hfield := s.exposed_field j n
  generalize s.exposed j n = v at *
  have hjob : u.job j = (s.job j).begun s.now n := by
    rw [hu, hexp]
    show (s.modJob j _).job j = _
    rw [State.job_modJob, if_pos ⟨rfl, hj⟩]
  have hreplay : u.replay j = { u with jobs := (u.replay j).jobs } := State.replay_noLog (by rw [hjob]; exact h)
  generalize u.replay j = t at *
  rw [heq, hreplay, hu]
  refine ⟨by rw [hexp], by rw [hexp], by rw [hexp], hfield⟩

end Sys2Proof.Machine

/-! SUPPORT. The develop point: its fall, its hold, PAUSE there, and the overrun (spec/09 R226, R235-R239, R251). -/

namespace Sys2Proof.Machine

open Sys2Proof.Claims

/-! ### The end of commands that waited -/

/-- `t` is `s` after commands of job `j` have ended: the hosts have their replies, the inputs of the job may be gone, and its overlay
tables may have been exchanged for a COMMIT (spec/09 R243). -/
structure State.Concludes (j : Nat) (s t : State) : Prop where
  state : t = { s with jobs := t.jobs, ports := t.ports, cp := { s.cp with journal := t.cp.journal } }
  job : t.job j = { s.job j with
    ovActive := (t.job j).ovActive, ovShadow := (t.job j).ovShadow, commitReq := (t.job j).commitReq, inputs := (t.job j).inputs }
  other : ∀ m, m ≠ j → t.job m = s.job m
  told : ∀ q, (s.port q).Told (t.port q)
  journal : t.cp.journal ⊆ s.cp.journal

theorem State.Concludes.trans {j : Nat} {s t u : State} (h : State.Concludes j s t) (k : State.Concludes j t u) :
    State.Concludes j s u where
  state := by rw [k.state, h.state]
  job := by rw [k.job, h.job]
  other m hm := (k.other m hm).trans (h.other m hm)
  told q := (h.told q).trans (k.told q)
  journal := List.Subset.trans k.journal h.journal

theorem State.Replied.concludes {s t : State} (h : s.Replied t) (j : Nat) : State.Concludes j s t := by
  obtain ⟨hst, hports, hjournal⟩ := h
  have hjobs : t.jobs = s.jobs := by rw [hst]
  have hjob (m : Nat) : t.job m = s.job m := by rw [State.job, State.job, hjobs]
  refine ⟨?_, by rw [hjob], fun m _ => hjob m, hports, hjournal⟩
  rw [hjobs]
  exact hst

/-- A change of the job's overlay tables and inputs alone. -/
theorem State.concludes_modJob (s : State) (j : Nat) {g : Job → Job} (hg : ∀ q, g q = { q with
      ovActive := (g q).ovActive, ovShadow := (g q).ovShadow, commitReq := (g q).commitReq, inputs := (g q).inputs }) :
    State.Concludes j s (s.modJob j g) := by
  refine ⟨rfl, ?_, fun m hm => ?_, fun _ => PortState.Told.refl _, List.Subset.refl _⟩
  · rw [State.job_modJob]
    split
    · exact hg _
    · rfl
  · rw [State.job_modJob, if_neg (fun h => hm h.1.symm)]

theorem State.concludes_commitTables (s : State) (j : Nat) : State.Concludes j s (s.commitTables j) := by
  cases h : (s.job j).commitReq with
  | false =>
    rw [State.commitTables_none h]
    exact (State.Replied.refl s).concludes j
  | true =>
    rw [State.commitTables_due h]
    exact (s.concludes_modJob j (fun _ => rfl)).trans ((State.replied_completeIf _ _ _ _).concludes j)

theorem State.concludes_commitNow (s : State) (j : Nat) : State.Concludes j s (s.commitNow j) := by
  unfold State.commitNow
  split
  · exact (State.Replied.refl s).concludes j
  · exact s.concludes_commitTables j

theorem State.concludes_abortInputs (s : State) (j : Nat) : State.Concludes j s (s.abortInputs j) :=
  ((s.replied_completeIf _ _ _).concludes j).trans (State.concludes_modJob _ j (fun _ => rfl))

theorem State.concludes_jobEvent (s : State) (j code reason expno : Nat) : State.Concludes j s (s.jobEvent j code reason expno) :=
  (s.portsTold_jobEvent j code reason expno).replied.concludes j

/-! ### The hold of a develop point (spec/09 R237, R239) -/

/-- The job whose develop point is held, with the queues that wait on and the begin of a supply warning. -/
def Job.heldSince (q : Job) (waits : List (CoreId × Nat)) (warn : Option Nat) : Job :=
  { q with held := true, waitAll := waits, warnFrom := warn }

/-- The supply warning under which a hold begins, if there is one. -/
def State.warnNow (s : State) : Option Nat := if s.mod.supply = .warning then some s.mod.ctl else none

/-- A field counts one more hold of its develop point. -/
def FieldState.countHold (x : FieldState) : FieldState := { x with xpHolds := sat1 x.xpHolds }

theorem State.beginHold_eq (s : State) (j : Nat) : s.beginHold j =
    (s.job j).allFields.foldl (fun s f => s.modField f FieldState.countHold)
      (s.modJob j (fun q => q.heldSince (s.waitingQueues j) s.warnNow)) := by
  unfold State.beginHold State.warnNow
  simp only [beq_iff_eq]
  rfl

theorem State.beginHold_frame (s : State) (j : Nat) : s.beginHold j = { s with
    fields := (s.beginHold j).fields, jobs := (s.modJob j (fun q => q.heldSince (s.waitingQueues j) s.warnNow)).jobs } := by
  rw [State.beginHold_eq, State.foldl_modField_frame]
  rfl

theorem State.beginHold_job (s : State) (j m : Nat) :
    (s.beginHold j).job m = (s.modJob j (fun q => q.heldSince (s.waitingQueues j) s.warnNow)).job m := by
  rw [State.beginHold_frame]
  rfl

theorem State.beginHold_field (s : State) (j : Nat) (hl : (s.job j).allFields.Nodup) (f : Nat) (hf : f < 60) :
    (s.beginHold j).field f = if f ∈ (s.job j).allFields then (s.field f).countHold else s.field f := by
  rw [State.beginHold_eq, State.foldl_modField_field _ _ _ hl f hf]
  rfl

/-! ### PAUSE at a develop point (spec/09 R226) -/

/-- The job PAUSED at its held develop point. -/
def Job.paused (q : Job) : Job :=
  { q with state := .paused, pauseReq := false, preemptReq := false, holds := { q.holds with pause := true } }

/-- The develop point is held before the job pauses there. -/
def State.heldAt (s : State) (j : Nat) : State := if (s.job j).held then s else s.beginHold j

theorem State.heldAt_frame (s : State) (j : Nat) : s.heldAt j = { s with fields := (s.heldAt j).fields, jobs := (s.heldAt j).jobs } := by
  unfold State.heldAt
  split
  · rfl
  · rw [State.beginHold_frame]

theorem State.heldAt_job (s : State) {j : Nat} (hj : j < 16) :
    ∃ waits warn, (s.heldAt j).job j = (s.job j).heldSince waits warn := by
  unfold State.heldAt
  split
  · next h => exact ⟨(s.job j).waitAll, (s.job j).warnFrom, by rw [Job.heldSince, ← h]⟩
  · exact ⟨_, _, by rw [State.beginHold_job, State.job_modJob, if_pos ⟨rfl, hj⟩]⟩

theorem State.cancelStaged_idle {s : State} {j : Nat} (h : (s.job j).safelight = .idle) : s.cancelStaged j = s := by
  simp [State.cancelStaged, h]

/-- With no overlay staged, entering PAUSED ends the commands that waited for the develop point. -/
theorem State.concludes_enterPaused {s : State} {j : Nat} (hj : j < 16) (h : (s.job j).safelight = .idle) (reason : Nat) :
    State.Concludes j ((s.heldAt j).modJob j Job.paused) (s.enterPaused j reason) := by
  obtain ⟨waits, warn, hheld⟩ := s.heldAt_job hj
  have hpause := State.replied_completeIf ((s.heldAt j).modJob j Job.paused) (fun e => e.started && e.opcode == 0x203 && e.p 0 1 == j)
    stOk (fun _ _ => leBytes 8 (s.job j).expNo)
  have hidle := hpause.concludes j
  have hcancel := State.cancelStaged_idle (s := State.completeIf _ _ _ _) (by
    rw [hidle.job, State.job_modJob, if_pos ⟨rfl, hj⟩, hheld]
    exact h)
  have heq : s.enterPaused j reason = (((State.cancelStaged (State.completeIf ((s.heldAt j).modJob j Job.paused)
      (fun e => e.started && e.opcode == 0x203 && e.p 0 1 == j) stOk (fun _ _ => leBytes 8 (s.job j).expNo)) j).abortWaiting j).commitNow
        j).jobEvent j 3 reason (s.job j).expNo := rfl
  rw [heq, hcancel]
  exact ((hidle.trans ((State.replied_abortWaiting _ j).concludes j)).trans (State.concludes_commitNow _ j)).trans
    (State.concludes_jobEvent _ j 3 reason _)

/-- What PAUSED is: the job stands at its held develop point, and nothing of it moves. -/
theorem State.enterPaused_spec {s : State} {j : Nat} (hj : j < 16) (h : (s.job j).safelight = .idle) (reason : Nat) :
    ((s.enterPaused j reason).job j).state = .paused ∧ ((s.enterPaused j reason).job j).pauseReq = false ∧
      ((s.enterPaused j reason).job j).held = true ∧ ((s.enterPaused j reason).job j).expNo = (s.job j).expNo ∧
      ((s.enterPaused j reason).job j).noCover = (s.job j).noCover ∧
      (s.enterPaused j reason).cores = s.cores ∧ (s.enterPaused j reason).net = s.net := by
  have hend := State.concludes_enterPaused hj h reason
  obtain ⟨waits, warn, hheld⟩ := s.heldAt_job hj
  rw [hend.job, State.job_modJob, if_pos ⟨rfl, hj⟩, hheld]
  refine ⟨rfl, rfl, rfl, rfl, rfl, ?_, ?_⟩
  · rw [hend.state, State.modJob_cores, State.heldAt_frame]
  · rw [hend.state, State.modJob_net, State.heldAt_frame]

/-! ### Overrun (spec/09 R238, R239) -/

theorem State.overrun_due {s : State} {j : Nat} (hrun : (s.job j).state = .running) (hheld : (s.job j).held = true)
    (hlate : (s.job j).holdMax < (s.job j).lateTicks) : exec (.overrun j) s = .next
      (((s.modJob j (fun x => { x with overrun := some (s.overrunRecord j) })).errorRecord
        { mkRec clsOverrun 3 5 with job := j, action := 4 }).stopJob j 1) := by
  show Host.Outcome.next (if _ then _ else _) = _
  rw [if_pos (by simp [hrun, hheld, hlate])]

theorem State.overrun_none {s : State} {j : Nat} (hlate : (s.job j).lateTicks ≤ (s.job j).holdMax) : exec (.overrun j) s = .next s := by
  show Host.Outcome.next (if _ then _ else _) = _
  rw [if_neg (by simp [Nat.not_lt.2 hlate])]

/-- The job STOPPED. -/
def Job.stopped (q : Job) : Job :=
  { q with state := .stopped, held := false, safelight := .idle, pauseReq := false, preemptReq := false }

theorem State.concludes_stopJob (s : State) (j reason : Nat) : State.Concludes j (s.modJob j Job.stopped) (s.stopJob j reason) :=
  ((((State.concludes_commitTables _ j).trans (State.concludes_abortInputs _ j)).trans
    ((State.replied_abortWaiting _ j).concludes j)).trans (State.concludes_jobEvent _ j 5 reason _))

/-- The overrun stops the job and leaves its record; cores, fields and network stay as they are. -/
theorem State.overrun_spec {s : State} {j : Nat} (hj : j < 16) (r : ErrRec) (reason : Nat) (o : OverrunRec) :
    let t := ((s.modJob j (fun x => { x with overrun := some o })).errorRecord r).stopJob j reason
    (t.job j).state = .stopped ∧ (t.job j).overrun = some o ∧ t.cores = s.cores ∧ t.net = s.net ∧ t.fields = s.fields := by
  intro t
  have hend : State.Concludes j _ t := State.concludes_stopJob _ j reason
  have hrec := (State.recorded_errorRecord (s.modJob j (fun x => { x with overrun := some o })) r).1
  generalize State.errorRecord _ r = u at hend hrec
  have hjob : u.job j = { s.job j with overrun := some o } := by
    rw [hrec]
    show (s.modJob j _).job j = _
    rw [State.job_modJob, if_pos ⟨rfl, hj⟩]
  rw [hend.job, State.job_modJob, if_pos ⟨rfl, hj⟩, hjob]
  refine ⟨rfl, rfl, ?_, ?_, ?_⟩
  · rw [hend.state, State.modJob_cores, hrec, State.modJob_cores]
  · rw [hend.state, State.modJob_net, hrec, State.modJob_net]
  · rw [hend.state, State.modJob_fields, hrec, State.modJob_fields]

/-! ### The develop point that falls (spec/09 R227, R232, R234, R235) -/

/-- What the tree shows is what the model reads of it. -/
theorem State.treeReady_of_shows {s : State} {j : Nat} (h : TreeShows s j) : s.treeReady j = true := by
  obtain ⟨hfields, hsum⟩ := h
  have hready (f : Nat) (hf : f ∈ (s.job j).workFields) : s.fieldReady j f = true := by
    obtain ⟨hpend, hcores⟩ := hfields f hf
    simp only [State.fieldReady, Bool.and_eq_true, List.all_eq_true, List.mem_filter, beq_iff_eq, decide_eq_true_eq]
    refine ⟨fun c hc => ?_, hpend⟩
    have hdone := hcores c hc.1 hc.2
    by_cases hpart : (s.core c).part = true
    · by_cases hcode : s.code c = 0
      · simp [State.coreDone, hdone hpart hcode]
      · simp [State.coreDone, State.inService, hcode]
    · simp [State.coreDone, hpart]
  simp only [State.treeReady, Bool.and_eq_true, List.all_eq_true, beq_iff_eq]
  exact ⟨hready, hsum⟩

theorem State.treeReady_of_sum {s : State} {j : Nat} (h : s.deltaSum j ≠ 0) : s.treeReady j = false :=
  Bool.and_eq_false_iff.2 (.inr (beq_eq_false_iff_ne.2 h))

theorem State.otherHold_of_noHold {s : State} {j : Nat} (h : NoHold s j) : s.otherHold j = false := by
  obtain ⟨hfault, herror, htest, htime, hsupply⟩ := h
  simp [State.otherHold, hfault, herror, htest, htime, hsupply]

theorem Job.inSafelight_idle {q : Job} (h : q.safelight = .idle) : q.inSafelight = false := by
  rw [Job.inSafelight, h]

theorem exec_developPoint (j : Nat) (stuck : Stuck) (s : State) : exec (.developPoint j stuck) s =
    .next (if !s.developReady j then s else if (s.job j).pauseReq then s.enterPaused j 0 else s.develop j stuck) := rfl

theorem exec_developHold (j : Nat) (s : State) : exec (.developHold j) s = .next (s.developHold j) := rfl

section

variable {s : State} {j : Nat}

theorem State.developReady_falls (hrun : RunningJob s j) (hno : NoHold s j) (htree : TreeShows s j) (hsafe : (s.job j).safelight = .idle)
    (hdue : (s.job j).sched ≤ s.now) : s.developReady j = true := by
  obtain ⟨-, hstate, hrolled⟩ := hrun
  simp [State.developReady, hstate, hrolled, hdue, Job.inSafelight_idle hsafe, State.treeReady_of_shows htree,
    State.otherHold_of_noHold hno]

theorem State.developReady_sum (h : s.deltaSum j ≠ 0) : s.developReady j = false := by
  simp [State.developReady, State.treeReady_of_sum h]

/-- A develop point that is due, and that PAUSE or a count holds back, begins its hold. -/
theorem State.developHold_begins (hrun : RunningJob s j) (hsafe : (s.job j).safelight = .idle) (hheld : (s.job j).held = false)
    (hdue : (s.job j).sched ≤ s.now) (hback : (s.job j).pauseReq = true ∨ s.deltaSum j ≠ 0) : s.developHold j = s.beginHold j := by
  obtain ⟨-, hstate, -⟩ := hrun
  rcases hback with hpause | hsum
  · simp [State.developHold, hstate, Job.inSafelight_idle hsafe, hheld, hdue, hpause]
  · simp [State.developHold, hstate, Job.inSafelight_idle hsafe, hheld, hdue, State.treeReady_of_sum hsum]

/-- The job as its develop point falls at TICK `t`: LASTCKPT follows a checkpoint exposure, whose log is freed (spec/09 R251). -/
def Job.developed (q : Job) (t : Nat) : Job :=
  { if q.isCkpt q.expNo then { q with lastCkpt := q.expNo + 1, log := q.log.filter (fun e => decide (q.expNo + 1 ≤ e.expo)) } else q with
    lastDev := t }

/-- The module as a develop point falls, before the fields take up what waited for it. -/
def State.fallen (s : State) (j : Nat) : State := (s.modJob j (fun q => q.developed s.now)).reattach

theorem State.modJob_modJob (s : State) (j : Nat) (f g : Job → Job) : (s.modJob j f).modJob j g = s.modJob j (fun q => g (f q)) := by
  unfold State.modJob tmod
  by_cases hj : j < 16
  · simp [hj]
  · simp [hj]

theorem State.fallen_eq (s : State) (j : Nat) : ((s.recordCkpt j).modJob j (fun x => { x with lastDev := s.now })).reattach = s.fallen j := by
  rw [State.recordCkpt, State.modJob_modJob]
  rfl

theorem State.reattach_frame (s : State) : s.reattach = { s with ports := s.reattach.ports } ∧
    ∀ p, (s.reattach.port p).tick = (s.port p).tick := by
  have hone (t : State) (p : Port) : (if t.fieldOk (dieField p) then t.modPort p (fun x => { x with viaPeer := false }) else t) =
      { t with ports := (if t.fieldOk (dieField p) then t.modPort p (fun x => { x with viaPeer := false }) else t).ports } ∧
      ∀ q, ((if t.fieldOk (dieField p) then t.modPort p (fun x => { x with viaPeer := false }) else t).port q).tick = (t.port q).tick := by
    split
    · refine ⟨rfl, fun q => ?_⟩
      rw [State.port_modPort]
      split
      · next h => rw [h]
      · rfl
    · exact ⟨rfl, fun _ => rfl⟩
  simp only [State.reattach, List.foldl_cons, List.foldl_nil]
  obtain ⟨ha, hta⟩ := hone s .a
  generalize (if s.fieldOk (dieField .a) then _ else s) = t at *
  obtain ⟨hb, htb⟩ := hone t .b
  exact ⟨by rw [hb, ha], fun p => (htb p).trans (hta p)⟩

theorem State.fallen_frame (s : State) (j : Nat) : s.fallen j = { s with
    jobs := (s.modJob j (fun q => q.developed s.now)).jobs, ports := (s.fallen j).ports } := by
  unfold State.fallen
  rw [(State.reattach_frame _).1]
  rfl

theorem State.fallen_now (s : State) (j : Nat) : (s.fallen j).now = s.now := by
  have hcp : (s.fallen j).cp = s.cp := by rw [State.fallen_frame]
  rw [State.now, State.now, hcp]
  exact congrArg BitVec.toNat ((State.reattach_frame _).2 _)

theorem State.fallen_job (s : State) (j m : Nat) : (s.fallen j).job m = (s.modJob j (fun q => q.developed s.now)).job m := by
  rw [State.fallen_frame]
  rfl

theorem Job.developed_keeps (q : Job) (t : Nat) : (q.developed t).safelight = q.safelight ∧ (q.developed t).commitReq = q.commitReq ∧
    (q.developed t).image = q.image ∧ (q.developed t).fields = q.fields ∧ (q.developed t).expNo = q.expNo ∧
    (q.developed t).expLen = q.expLen ∧ (q.developed t).state = q.state := by
  unfold Job.developed
  split <;> exact ⟨rfl, rfl, rfl, rfl, rfl, rfl, rfl⟩

/-- With nothing that waits for the develop point the staged counts are published and the next exposure begins (spec/09 R235). -/
theorem State.develop_falls {stuck : Stuck} (hj : j < 16) (hsafe : (s.job j).safelight = .idle) (hpreempt : (s.job j).preemptReq = false)
    (hreplace : s.mod.replace = false) (hcommit : (s.job j).commitReq = false) :
    s.develop j stuck = (((s.fallen j).fieldsDevelop j).publish j).nextExposure j := by
  have hjob : (s.fallen j).job j = (s.job j).developed s.now := by rw [State.fallen_job, State.job_modJob, if_pos ⟨rfl, hj⟩]
  obtain ⟨hsafe', hcommit', -⟩ := (s.job j).developed_keeps s.now
  have htables : (s.fallen j).commitTables j = s.fallen j := State.commitTables_none (by rw [hjob, hcommit', hcommit])
  have hdrain : (s.fallen j).drain = false := by rw [State.drain, State.fallen_frame, hreplace, Bool.false_and]
  have hpub : ((((s.fallen j).fieldsDevelop j).publish j).job j).safelight = .idle := by
    rw [(State.coresOnly_publish _ j).job]
    show ((s.fallen j).job j).safelight = .idle
    rw [hjob, hsafe', hsafe]
  have harm : (((s.fallen j).fieldsDevelop j).publish j).armStaged j = ((s.fallen j).fieldsDevelop j).publish j := by
    simp [State.armStaged, hpub]
  simp only [State.develop, State.fallen_eq, hdrain, hpreempt, htables, hsafe, harm, Bool.or_self, Bool.false_and, Bool.false_eq_true,
    if_false]

end

end Sys2Proof.Machine

/-! SUPPORT. The next exposure: what is held leaves, and the statement about the develop point (spec/09 R235). -/

namespace Sys2Proof.Machine

open Sys2Proof.Claims

/-- `t` is `s` after what cores held has left: cores, counts and packets in flight have changed. -/
def State.Handed (s t : State) : Prop :=
  t = { s with cores := t.cores, net := t.net, fields := t.fields, stk := t.stk, dieDelta := t.dieDelta, freeCtr := t.freeCtr }

theorem State.Handed.trans {s t u : State} (h : s.Handed t) (k : t.Handed u) : s.Handed u := by
  unfold State.Handed at *
  rw [k, h]

theorem State.handed_releaseHeld (s : State) (c : CoreId) : s.Handed (s.releaseHeld c) := by
  have h := s.sent_releaseHeld c
  unfold State.Handed
  generalize s.releaseHeld c = t at h
  rw [h]
  rfl

theorem State.handed_releaseAll (s : State) (l : List CoreId) : s.Handed (l.foldl State.releaseHeld s) :=
  List.foldlRecOn (motive := s.Handed) l _ rfl (fun t h c _ => h.trans (t.handed_releaseHeld c))

section

variable (s : State) (j : Nat)

theorem State.nextExposure_eq : s.nextExposure j =
    ((s.beginExposure j ((s.job j).expNo + 1)).schedCores j).foldl State.releaseHeld (s.beginExposure j ((s.job j).expNo + 1)) := rfl

theorem State.nextExposure_job (m : Nat) : (s.nextExposure j).job m = (s.beginExposure j ((s.job j).expNo + 1)).job m := by
  rw [State.nextExposure_eq, State.job, State.handed_releaseAll]
  rfl

/-- The next exposure as it begins: its schedule follows from TICK, whatever becomes of the replay. -/
theorem State.nextExposure_begun {s : State} {j : Nat} (hj : j < 16) : (s.nextExposure j).job j =
    { (s.job j).begun s.now ((s.job j).expNo + 1) with replayTo := ((s.nextExposure j).job j).replayTo } := by
  have h := (s.begins_beginExposure j ((s.job j).expNo + 1)).job hj
  rwa [← State.nextExposure_job] at h

theorem State.nextExposure_other {m : Nat} (hm : m ≠ j) : (s.nextExposure j).job m = s.job m := by
  rw [State.nextExposure_job]
  exact (s.begins_beginExposure j _).other m hm

/-- What the next exposure may change. -/
theorem State.nextExposure_frame : s.nextExposure j = { s with
    cores := (s.nextExposure j).cores, jobs := (s.nextExposure j).jobs, fields := (s.nextExposure j).fields
    stk := (s.nextExposure j).stk, dieDelta := (s.nextExposure j).dieDelta, net := (s.nextExposure j).net
    ports := (s.nextExposure j).ports, cp := { s.cp with journal := (s.nextExposure j).cp.journal }
    freeCtr := (s.nextExposure j).freeCtr } := by
  have hbegin := (s.begins_beginExposure j ((s.job j).expNo + 1)).state
  have hhand := (s.beginExposure j ((s.job j).expNo + 1)).handed_releaseAll ((s.beginExposure j ((s.job j).expNo + 1)).schedCores j)
  rw [State.nextExposure_eq]
  generalize s.beginExposure j ((s.job j).expNo + 1) = w at *
  generalize (w.schedCores j).foldl State.releaseHeld w = t at *
  rw [hhand, hbegin]

/-- What clearing its note and letting its packets go do to a core, the next exposure does. -/
theorem State.nextExposure_core {R : CoreState → CoreState → Prop} (hrefl : ∀ x, R x x) (htrans : ∀ {x y z}, R x y → R y z → R x z)
    (hnote : ∀ x, R x x.unnoted) (hrelease : ∀ x n, R x (x.released n)) (c : CoreId) : R (s.core c) ((s.nextExposure j).core c) := by
  rw [State.nextExposure_eq]
  exact List.foldlRecOn (motive := fun t : State => R (s.core c) (t.core c)) _ _ (s.beginExposure_core hrefl htrans hnote j _ c)
    (fun t h d _ => htrans h (t.releaseHeld_rel hrefl hrelease d c))

theorem State.nextExposure_keepsWork (c : CoreId) : (s.core c).KeepsWork ((s.nextExposure j).core c) :=
  s.nextExposure_core j CoreState.KeepsWork.refl CoreState.KeepsWork.trans CoreState.keepsWork_unnoted CoreState.keepsWork_released c

theorem State.nextExposure_qu (c : CoreId) (n : Nat) : ((s.nextExposure j).core c).qu n = (s.core c).qu n :=
  s.nextExposure_core (R := fun x y => y.qu n = x.qu n) j (fun _ => rfl) (fun h k => k.trans h) (fun _ => rfl) (fun _ _ => rfl) c

theorem State.beginExposure_schedCores (n : Nat) : (s.beginExposure j n).schedCores j = s.schedCores j := by
  have hjob : ((s.beginExposure j n).job j).image = (s.job j).image ∧ ((s.beginExposure j n).job j).fields = (s.job j).fields := by
    by_cases hj : j < 16
    · rw [(s.begins_beginExposure j n).job hj]
      exact ⟨rfl, rfl⟩
    · have h (t : State) : t.job j = {} := by rw [State.job, tget, dif_neg hj]
      rw [h, h]
      exact ⟨rfl, rfl⟩
  refine State.schedCores_congr hjob.1 hjob.2 (fun c => ?_)
  exact (s.beginExposure_core CoreState.KeepsWork.refl CoreState.KeepsWork.trans CoreState.keepsWork_unnoted j n c).sched

/-- Every scheduled core begins the exposure with DONE 0 and nothing held. -/
theorem State.nextExposure_released {c : CoreId} (hc : c ∈ s.schedCores j) :
    ((s.nextExposure j).core c).done = false ∧ ((s.nextExposure j).core c).held = [] := by
  rw [State.nextExposure_eq]
  rw [← s.beginExposure_schedCores j ((s.job j).expNo + 1)] at hc
  refine foldl_reaches (before := fun _ => True) (after := fun t => (t.core c).done = false ∧ (t.core c).held = [])
    (fun _ _ _ => trivial) (fun t d h => ?_) (fun t _ => ?_) trivial hc
  · rw [State.core_releaseHeld]
    split
    · exact ⟨rfl, rfl⟩
    · exact h
  · rw [State.core_releaseHeld, if_pos rfl]
    exact ⟨rfl, rfl⟩

end

section

variable (s : State) (j : Nat)

/-- The module at the develop point with its staged counts published. -/
def State.published (s : State) (j : Nat) : State := ((s.fallen j).fieldsDevelop j).publish j

theorem State.published_frame : s.published j = { s with
    cores := (s.published j).cores, freeCtr := (s.published j).freeCtr, fields := (s.published j).fields
    ports := (s.published j).ports, jobs := (s.modJob j (fun q => q.developed s.now)).jobs } := by
  have h := State.coresOnly_publish ((s.fallen j).fieldsDevelop j) j
  unfold State.published
  rw [h, State.fieldsDevelop, State.fallen_frame]

theorem State.published_now : (s.published j).now = s.now := by
  have h := State.coresOnly_publish ((s.fallen j).fieldsDevelop j) j
  rw [← s.fallen_now j, State.published, h]
  rfl

theorem State.published_job (m : Nat) : (s.published j).job m = (s.modJob j (fun q => q.developed s.now)).job m := by
  rw [State.published_frame]
  rfl

theorem State.fallen_cores (c : CoreId) : ((s.fallen j).fieldsDevelop j).core c = s.core c := by
  rw [State.fieldsDevelop, State.fallen_frame]
  rfl

theorem State.published_keepsWork (c : CoreId) : (s.core c).KeepsWork ((s.published j).core c) := by
  have h := State.keepsWork_publish ((s.fallen j).fieldsDevelop j) j c
  rwa [State.fallen_cores] at h

variable {j}

theorem State.schedCores_fallen (hj : j < 16) : ((s.fallen j).fieldsDevelop j).schedCores j = s.schedCores j := by
  have hjob : ((s.fallen j).fieldsDevelop j).job j = (s.job j).developed s.now := by
    show (s.fallen j).job j = _
    rw [State.fallen_job, State.job_modJob, if_pos ⟨rfl, hj⟩]
  obtain ⟨-, -, himage, hfields, -⟩ := (s.job j).developed_keeps s.now
  exact State.schedCores_congr (by rw [hjob, himage]) (by rw [hjob, hfields]) (fun c => by rw [State.fallen_cores])

theorem State.schedCores_published (hj : j < 16) : (s.published j).schedCores j = s.schedCores j := by
  rw [← s.schedCores_fallen hj]
  have h := (State.coresOnly_publish ((s.fallen j).fieldsDevelop j) j).job j
  refine State.schedCores_congr (congrArg Job.image h) (congrArg Job.fields h) (fun c => ?_)
  exact (State.keepsWork_publish ((s.fallen j).fieldsDevelop j) j c).sched

end

/-- A develop point that nothing holds and at which nothing waits: the next exposure begins at TICK, every scheduled core's DONE and held
packets clear, staged entries count and LASTCKPT follows a checkpoint exposure. -/
theorem State.published_next_spec {s : State} {j : Nat} (hj : j < 16) (hstate : (s.job j).state = .running) :
    let q := s.job j
    let spacing := max 1 q.image.ckptSpacing
    let t := (s.published j).nextExposure j
    ((t.job j).expNo = q.expNo + 1 ∧ (t.job j).begin_ = s.now ∧ (t.job j).sched = s.now + q.expLen ∧ (t.job j).lastDev = s.now ∧
      (t.job j).held = false ∧ (t.job j).lateTicks = 0 ∧ (t.job j).state = .running ∧
      (t.job j).lastCkpt = if (q.expNo + 1) % spacing = 0 then q.expNo + 1 else q.lastCkpt) ∧
    (∀ m, m ≠ j → t.job m = s.job m) ∧
    (∀ c ∈ s.schedCores j, (t.core c).done = false ∧ (t.core c).held = [] ∧ (t.core c).mem = (s.core c).mem ∧
      (t.core c).sem = (s.core c).sem) ∧
    (∀ c ∈ s.schedCores j, ∀ n < 16, ((s.core c).qu n).OneStaged → (t.core c).qu n = ((s.core c).qu n).counted) ∧
    t = { s with cores := t.cores, jobs := t.jobs, fields := t.fields, stk := t.stk, dieDelta := t.dieDelta, net := t.net,
                 ports := t.ports, cp := t.cp, freeCtr := t.freeCtr } := by
  intro q spacing t
  have hjob : (s.published j).job j = q.developed s.now := by rw [State.published_job, State.job_modJob, if_pos ⟨rfl, hj⟩]
  obtain ⟨-, -, -, -, hexp, hlen, hrun⟩ := q.developed_keeps s.now
  have hckpt : (q.developed s.now).lastCkpt = if (q.expNo + 1) % spacing = 0 then q.expNo + 1 else q.lastCkpt := by
    simp only [Job.developed, Job.isCkpt, beq_iff_eq]
    split <;> rfl
  have hnow := s.published_now j
  obtain ⟨r, hbegun⟩ : ∃ r, t.job j = { (q.developed s.now).begun s.now ((q.developed s.now).expNo + 1) with replayTo := r } :=
    ⟨_, by rw [← hjob, ← hnow]; exact State.nextExposure_begun hj⟩
  refine ⟨?job, fun m hm => ?other, fun c hc => ?cores, fun c hc n hn hu => ?queues, ?frame⟩
  case job =>
    have hdev : (q.developed s.now).lastDev = s.now := rfl
    rw [hbegun]
    generalize q.developed s.now = d at hexp hlen hrun hckpt hdev
    exact ⟨congrArg (· + 1) hexp, rfl, congrArg (s.now + ·) hlen, hdev, rfl, rfl, hrun.trans hstate, hckpt⟩
  case other =>
    show (State.nextExposure _ j).job m = _
    rw [State.nextExposure_other _ _ hm, State.published_job, State.job_modJob, if_neg (fun h => hm h.1.symm)]
  case cores =>
    have hwork := (s.published_keepsWork j c).trans ((s.published j).nextExposure_keepsWork j c)
    have hrel := (s.published j).nextExposure_released j (c := c) (by rw [s.schedCores_published hj]; exact hc)
    exact ⟨hrel.1, hrel.2, hwork.mem, hwork.sem⟩
  case queues =>
    show ((State.nextExposure _ j).core c).qu n = _
    rw [State.nextExposure_qu]
    exact State.publish_counted hu hn _ j (by rw [s.schedCores_fallen hj]; exact hc) (by rw [State.fallen_cores])
  case frame =>
    have hnext : t = _ := (s.published j).nextExposure_frame j
    clear_value t
    rw [hnext, State.published_frame]

/-- Settles O24: the develop point that falls by its publication and the next exposure; the hold by the one job and the fields that it counts in;
PAUSE and the overrun by what they leave. -/
theorem developPoints : Obligations.DevelopPoints := by
  unfold Obligations.DevelopPoints
  refine ⟨fun s j hrun hno htree hsafe hdue hpause hpreempt hreplace hcommit => ?falls, fun s j hrun hsafe => ?held⟩
  case falls =>
    have hfall : exec (.developPoint j []) s = .next ((s.published j).nextExposure j) := by
      rw [exec_developPoint, State.developReady_falls hrun hno htree hsafe hdue, hpause,
        State.develop_falls hrun.1 hsafe hpreempt hreplace hcommit]
      rfl
    obtain ⟨hjob, hother, hcores, hqueues, hframe⟩ := State.published_next_spec hrun.1 hrun.2.1
    refine ⟨_, hfall, hjob, hother, hcores, ?_, hframe⟩
    intro c hc n hn id u hmode hesize hslots hrsv
    exact hqueues c hc n hn ⟨hmode, hesize, hslots, id, hrsv⟩
  case held =>
    obtain ⟨hj, hstate, -⟩ := id hrun
    refine ⟨fun hheld hdue hback hnodup => ?hold, fun _ hsum => ?back, fun hno htree hdue hpause => ?pause, fun hheld hlate => ?overrun,
      fun hlate => State.overrun_none hlate⟩
    case hold =>
      refine ⟨s.beginHold j, by rw [exec_developHold, State.developHold_begins hrun hsafe hheld hdue hback], ?_, fun f hf => ?_,
        fun m hm => ?_, ?_⟩
      · rw [State.beginHold_job, State.job_modJob, if_pos ⟨rfl, hj⟩]
        rfl
      · exact State.beginHold_field s j hnodup f hf
      · rw [State.beginHold_job, State.job_modJob, if_neg (fun h => hm h.1.symm)]
      · rw [State.beginHold_frame]
    case back =>
      rw [exec_developPoint, State.developReady_sum hsum]
      rfl
    case pause =>
      obtain ⟨hpaused, hreq, hstands, hexp, -, hcores, hnet⟩ := State.enterPaused_spec hj hsafe 0
      refine ⟨_, ?_, hpaused, hreq, hstands, hexp, hcores, hnet⟩
      rw [exec_developPoint, State.developReady_falls hrun hno htree hsafe hdue, hpause]
      rfl
    case overrun =>
      obtain ⟨hstop, hrec, hcores, hnet, hfields⟩ :=
        State.overrun_spec (s := s) hj { mkRec clsOverrun 3 5 with job := j, action := 4 } 1 (s.overrunRecord j)
      exact ⟨_, _, State.overrun_due hstate hheld hlate, hstop, hrec, rfl, rfl, rfl, rfl, rfl, hcores, hnet, hfields⟩

end Sys2Proof.Machine

/-! SUPPORT. Washing, loading and restoring a partition (spec/05 R144-R147, spec/09 R253, spec/16 R418), and the roll-back (spec/09 R253-R255). -/

namespace Sys2Proof.Machine

open Sys2Proof.Claims

/-! ### What washes and loads leave of the module -/

/-- `t` is `s` after washes and loads: cores and stack memories have new contents, fences and records may have come of it, and every field
keeps its partition and its counts. -/
structure State.Reloads (s t : State) : Prop where
  state : t = { s with
    cores := t.cores, fields := t.fields, stk := t.stk, service := t.service, flashCopy := t.flashCopy, errs := t.errs, errNext := t.errNext
    flashErrs := t.flashErrs, flashWait := t.flashWait, ports := t.ports, mc := t.mc, mgmt := t.mgmt
    mod := { s.mod with advised := t.mod.advised } }
  told : ∀ q, (s.port q).Told (t.port q)
  field : ∀ f, (s.field f).KeepsJob (t.field f)
  stack : ∀ n, (t.stack n).delta = (s.stack n).delta

theorem State.Reloads.refl (s : State) : s.Reloads s :=
  ⟨rfl, fun _ => PortState.Told.refl _, fun _ => FieldState.KeepsJob.refl _, fun _ => rfl⟩

theorem State.Reloads.trans {s t u : State} (h : s.Reloads t) (k : t.Reloads u) : s.Reloads u where
  state := by rw [k.state, h.state]
  told q := (h.told q).trans (k.told q)
  field f := (h.field f).trans (k.field f)
  stack n := (k.stack n).trans (h.stack n)

theorem State.reloads_foldl {β : Type} {f : State → β → State} (hf : ∀ (t : State) (b : β), t.Reloads (f t b)) (l : List β) (s : State) :
    s.Reloads (l.foldl f s) :=
  List.foldlRecOn (motive := s.Reloads) l f (State.Reloads.refl s) (fun t h b _ => h.trans (hf t b))

theorem State.Recorded.reloads {s t : State} (h : s.Recorded t) : s.Reloads t := by
  obtain ⟨hst, hports⟩ := h
  have hfields : t.fields = s.fields := by rw [hst]
  have hstk : t.stk = s.stk := by rw [hst]
  refine ⟨by rw [hst], hports, fun f => ?_, fun n => ?_⟩
  · rw [State.field, State.field, hfields]
    exact FieldState.KeepsJob.refl _
  · rw [State.stack, State.stack, hstk]

theorem State.reloads_cores (s : State) (m : KMap CoreState) : s.Reloads { s with cores := m } :=
  ⟨rfl, fun _ => PortState.Told.refl _, fun _ => FieldState.KeepsJob.refl _, fun _ => rfl⟩

theorem State.reloads_modField (s : State) (n : Nat) {g : FieldState → FieldState} (hg : ∀ x : FieldState, x.KeepsJob (g x)) :
    s.Reloads (s.modField n g) :=
  ⟨rfl, fun _ => PortState.Told.refl _, State.modField_rel FieldState.KeepsJob.refl s n hg, fun _ => rfl⟩

theorem State.reloads_stackPut (s : State) (n w : Nat) (d : Word) (p : Bool) : s.Reloads (s.stackPut n w d p) := by
  refine ⟨rfl, fun _ => PortState.Told.refl _, fun _ => FieldState.KeepsJob.refl _, fun m => ?_⟩
  rw [State.stackPut, State.stack_modStack]
  split <;> rfl

/-! ### Fences and washes -/

theorem State.reloads_fence (s : State) (c : CoreId) (v : BitVec 2) : s.Reloads (s.fence c v) := by
  have hkeep : s.Reloads s.keepFlash := by
    unfold State.keepFlash
    split
    · exact ⟨rfl, fun _ => PortState.Told.refl _, fun _ => FieldState.KeepsJob.refl _, fun _ => rfl⟩
    · exact State.Reloads.refl s
  unfold State.fence
  split
  · exact hkeep.trans ⟨rfl, fun _ => PortState.Told.refl _, fun _ => FieldState.KeepsJob.refl _, fun _ => rfl⟩
  · exact State.Reloads.refl s

theorem State.reloads_fenceCore (s : State) (c : CoreId) (v : BitVec 2) : s.Reloads (s.fenceCore c v) := by
  have hgrade : s.Reloads (s.fence c v).applyGrade := by
    refine (s.reloads_fence c v).trans ?_
    unfold State.applyGrade
    split
    · exact State.Reloads.refl _
    · exact (State.recorded_errorRecord _ _).reloads
  unfold State.fenceCore
  cases coreField c with
  | none => exact hgrade
  | some f => exact hgrade.trans (State.reloads_modField _ f (fun _ => ⟨rfl, rfl⟩))

/-- A field whose pending fence of a core has been taken up. -/
def FieldState.fenceTaken (c : CoreId) (x : FieldState) : FieldState := { x with pendFence := x.pendFence.erase c }

theorem FieldState.keepsJob_fenceTaken (c : CoreId) (x : FieldState) : x.KeepsJob (x.fenceTaken c) := ⟨rfl, rfl⟩

theorem State.reloads_setCore (s : State) (c : CoreId) (v : CoreState) : s.Reloads (s.setCore c v) := s.reloads_cores _

theorem State.reloads_washCore (s : State) (c : CoreId) (stuck : List (Nat × Code)) : s.Reloads (s.washCore c stuck) := by
  unfold State.washCore
  split
  · exact State.Reloads.refl s
  · next f _ =>
    have hsweep : s.Reloads (s.sweepCore f c) := s.reloads_modField f (fun _ => ⟨rfl, rfl⟩)
    have hfence (t : State) : t.Reloads (if (t.field f).pendFence.contains c then
        (t.modField f (FieldState.fenceTaken c)).fenceCore c 1 else t) := by
      split
      · exact (t.reloads_modField f (FieldState.keepsJob_fenceTaken c)).trans (State.reloads_fenceCore _ c 1)
      · exact State.Reloads.refl _
    have hfail (t : State) (b : Bool) : t.Reloads (if b then t.washFailed c else t) := by
      split
      · exact (t.recorded_errorRecord _).reloads.trans (State.reloads_fenceCore _ c 1)
      · exact State.Reloads.refl _
    generalize washedCore (coreKind c) stuck = w
    have hwash (t : State) : t.Reloads (if w = {} then { t with cores := KMap.del t.cores (coreKey c) } else t.setCore c w) := by
      split
      · exact t.reloads_cores _
      · exact t.reloads_setCore c w
    exact ((hsweep.trans (hwash _)).trans (hfence _)).trans (hfail _ _)

theorem State.reloads_washField (s : State) (f : Nat) (stuck : Stuck) : s.Reloads (s.washField f stuck) :=
  State.reloads_foldl (fun t c => t.reloads_washCore c _) _ s

/-! ### Stack words (spec/15 R402) -/

theorem State.reloads_stackFetch (s : State) (n w : Nat) : s.Reloads (s.stackFetch n w).1 := by
  have hue (sev : Nat) : s.Reloads (s.stackUe n w sev) := (s.recorded_errorRecord _).reloads
  unfold State.stackFetch
  dsimp only
  split
  · split <;> exact State.Reloads.refl s
  · split
    · exact State.Reloads.refl s
    · split
      · split
        · exact (hue 2).trans (State.reloads_stackPut _ _ _ _ _)
        · exact hue 1
      · exact (hue 1).trans (State.reloads_stackPut _ _ _ _ _)
    · exact s.reloads_stackPut _ _ _ _

/-! ### Loading (spec/09 R225, R241, R251) -/

theorem State.reloads_loadConfig (s : State) (j : Nat) : s.Reloads (s.loadConfig j) := by
  refine State.reloads_foldl (fun t ci => ?_) _ s
  split
  · split
    · exact State.Reloads.refl t
    · exact t.reloads_cores _
  · exact State.Reloads.refl t

theorem State.reloads_loadCarried (s : State) (j : Nat) : s.Reloads (s.loadCarried j) := by
  unfold State.loadCarried
  dsimp only
  split
  · exact State.Reloads.refl s
  · refine State.reloads_foldl (fun t it => ?_) _ s
    split
    · exact State.Reloads.refl t
    · refine State.reloads_foldl (fun t i => ?_) _ t
      split
      · exact State.Reloads.refl t
      · exact (t.reloads_stackFetch _ _).trans (State.reloads_cores _ _)

/-! ### Counts (spec/09 R234) -/

theorem State.deltaSum_congr {s t : State} {j : Nat} (hfield : ∀ f, (t.field f).delta = (s.field f).delta)
    (hstack : ∀ n, (t.stack n).delta = (s.stack n).delta) (hdie : t.dieDelta = s.dieDelta) : t.deltaSum j = s.deltaSum j := by
  have hf : t.fields.map (fun x => tget 0 x.delta j) = s.fields.map (fun x => tget 0 x.delta j) := by
    ext i hi
    have h := hfield i
    simp only [State.field, tget, hi, dif_pos] at h
    simp [h]
  have hs : t.stk.map (fun x => tget 0 x.delta j) = s.stk.map (fun x => tget 0 x.delta j) := by
    ext i hi
    have h := hstack i
    simp only [State.stack, tget, hi, dif_pos] at h
    simp [h]
  simp only [State.deltaSum, ← Vector.toList_map, hf, hs, hdie]

theorem foldl_add_zero (l : List (BitVec 32)) (h : ∀ v ∈ l, v = 0) : l.foldl (· + ·) 0 = 0 :=
  List.foldlRecOn (motive := fun v => v = 0) l _ rfl (fun a ha b hb => by rw [ha, h b hb]; rfl)

/-- Every count of the slot is 0 after they have been cleared. -/
theorem State.deltaSum_clearDelta (s : State) {j : Nat} (hj : j < 16) : (s.clearDelta j).deltaSum j = 0 := by
  have hset (v : Vector (BitVec 32) 16) : tget 0 (tset v j 0) j = 0 := by simp [tget_tset, hj]
  have hf : ((s.clearDelta j).fields.toList.map (fun x => tget 0 x.delta j)).foldl (· + ·) 0 = 0 := by
    refine foldl_add_zero _ (fun v hv => ?_)
    simp only [State.clearDelta, Vector.toList_map, List.map_map, List.mem_map] at hv
    obtain ⟨x, -, rfl⟩ := hv
    exact hset _
  have hs : ((s.clearDelta j).stk.toList.map (fun x => tget 0 x.delta j)).foldl (· + ·) 0 = 0 := by
    refine foldl_add_zero _ (fun v hv => ?_)
    simp only [State.clearDelta, Vector.toList_map, List.map_map, List.mem_map] at hv
    obtain ⟨x, -, rfl⟩ := hv
    exact hset _
  rw [State.deltaSum, hf, hs]
  show 0 + 0 + tget 0 (tset _ j 0) j + tget 0 (tset _ j 0) j = 0
  rw [hset, hset]
  rfl

theorem State.clearDelta_field (s : State) (j f : Nat) : ((s.clearDelta j).field f).job = (s.field f).job := by
  simp only [State.field, State.clearDelta, tget]
  split
  · simp
  · rfl

/-! ### The partition reset (spec/16 R418) -/

/-- What becomes of the packets and of the combined READs of a slot at its partition reset. -/
def State.netReset (s : State) (j : Nat) : State :=
  { s with
    net := s.net.flatMap (Packet.atReset j)
    hubs := KMap.mapIf (fun _ => true) (fun _ h => { h with cmb := h.cmb.filter (fun m => m.lead.slot ≠ j) }) s.hubs }

/-- A field's votes and awaited proofs end with its washed cores. -/
def FieldState.noProofs (x : FieldState) : FieldState := { x with votes := [], prfPend := [] }

theorem State.partitionReset_eq (s : State) (j : Nat) (stuck : Stuck) :
    ∃ u, (s.netReset j).Reloads u ∧ s.partitionReset j stuck = u.clearDelta j :=
  ⟨_, State.reloads_foldl (fun t f => (t.reloads_washField f stuck).trans
    (State.reloads_modField _ f (g := FieldState.noProofs) (fun _ => ⟨rfl, rfl⟩))) (s.job j).allFields (s.netReset j), rfl⟩

/-- No packet of a slot that is bound for a core outlives the slot's partition reset, but messages of field controllers. -/
theorem Packet.atReset_spec {j : Nat} {p r : Packet} (h : r ∈ p.atReset j) (hslot : r.slot = j) (hcore : r.dkind = 0) : r.ptype = 6 := by
  unfold Packet.atReset at h
  split at h
  · next hkeep =>
    rw [List.mem_singleton.1 h] at hslot hcore ⊢
    rcases hkeep with hk | hk | hk
    · exact absurd hslot hk
    · exact hk
    · rw [hcore] at hk
      cases hk
  · split at h
    · next hk =>
      rw [List.mem_singleton.1 h] at hcore
      exact absurd hcore hk
    · split at h
      · next hsx =>
        have hreply (ty sx sy : Nat) : (p.reply ty sx sy).dkind = 2 := by
          rw [Packet.reply]
          simp only
          rw [if_neg (by omega), if_neg (by omega)]
        have hnone (ty : Nat) : (p.reply ty p.dx p.dy).dkind ≠ 0 := by rw [hreply]; decide
        rcases List.mem_cons.1 h with rfl | h
        · exact absurd hcore (hnone pNak)
        · split at h
          · rw [List.mem_singleton.1 h] at hcore
            exact absurd hcore (hnone pRdata)
          · cases h
      · cases h

end Sys2Proof.Machine

/-! SUPPORT. The roll-back, its pause for want of a fault overlay, and the restart (spec/09 R253-R255). -/

namespace Sys2Proof.Machine

open Sys2Proof.Claims

/-! ### Lost spares (spec/09 R253) -/

theorem State.modJob_congr (s : State) (j : Nat) {g h : Job → Job} (hg : g (s.job j) = h (s.job j)) : s.modJob j g = s.modJob j h := by
  simp only [State.job, tget] at hg
  unfold State.modJob tmod
  split
  · next hj =>
    rw [dif_pos hj] at hg
    rw [hg]
  · rfl

/-- The job without a lost spare: its fault hold stands while a working field is faulty or a roll-back in place is due. -/
def Job.noSpareLost (q : Job) : Job :=
  { q with holds := { q.holds with fault := q.holds.fault && (q.inPlace || q.faultFields.any (fun _ => true)) } }

theorem State.dropSpares_working {s : State} {j : Nat} (h : ∀ f ∈ (s.job j).faultFields, some f ∉ (s.job j).spareFields) :
    s.dropSpares j = s.modJob j Job.noSpareLost := by
  have hgone : (s.job j).faultFields.filter (fun f => (s.job j).spareFields.contains (some f)) = [] := by
    rw [List.filter_eq_nil_iff]
    intro f hf
    simpa using h f hf
  simp only [State.dropSpares, hgone, List.foldl_nil]
  refine State.modJob_congr s j ?_
  have hnone (o : Option Nat) : (o.map (fun f => ([] : List Nat).contains f)).getD false = false := by cases o <;> rfl
  simp [Job.noSpareLost, hnone]

/-! ### Roll-back in place (spec/09 R253) -/

section

variable {s t : State} {j : Nat}

theorem State.Reloads.job (h : s.Reloads t) (m : Nat) : t.job m = s.job m := by rw [h.state]; rfl

theorem State.Reloads.net (h : s.Reloads t) : t.net = s.net := by rw [h.state]

theorem State.Reloads.deltaSum (h : s.Reloads t) (m : Nat) : t.deltaSum m = s.deltaSum m :=
  State.deltaSum_congr (fun f => (h.field f).2) h.stack (by rw [h.state])

end

/-- A roll-back holds injection at the gates armed for a swap of route tables (spec/08 R211). -/
def FieldState.swapHeld (x : FieldState) : FieldState := { x with rtHeld := x.rtHeld || x.rtArmed }

/-- The job as a roll-back has washed it: its epochs are advanced and its develop point is no longer held. -/
def Job.rewound (q : Job) : Job :=
  { q with
    epochAdd := (q.epochAdd + 1) % 4
    rolled := true
    held := false
    safelight := match q.safelight with
      | .armed o => .staged o
      | .drain o => .staged o
      | .apply o => .staged o
      | x => x }

/-- The job as a roll-back leaves it: what still keeps it from its restart are the fields found bad. -/
def Job.restored (bad : List Nat) (q : Job) : Job :=
  { q with faultFields := bad, inPlace := false, noCover := false, holds := { q.holds with fault := !bad.isEmpty, coreError := false } }

/-- What a roll-back in place leaves of the job. -/
theorem Job.restored_rewound (bad : List Nat) (q : Job) : (q.rewound.restored bad).rolled = true ∧
    (q.rewound.restored bad).epochAdd = (q.epochAdd + 1) % 4 ∧ (q.rewound.restored bad).inPlace = false ∧
    (q.rewound.restored bad).holds.coreError = false ∧ (q.rewound.restored bad).held = false ∧
    (q.rewound.restored bad).expNo = q.expNo ∧ (q.rewound.restored bad).state = q.state := ⟨rfl, rfl, rfl, rfl, rfl, rfl, rfl⟩

/-- The module as a roll-back has washed it: the gates of the partition are held and its job is rewound. -/
def State.rewound (s : State) (j : Nat) : State :=
  ((s.job j).allFields.foldl (fun s f => s.modField f FieldState.swapHeld) s).modJob j Job.rewound

/-- The configuration and the carried state of a job have been loaded (spec/09 R241, R251). -/
def State.loaded (s : State) (j : Nat) : State := (s.loadConfig j).loadCarried j

theorem State.reloads_loaded (s : State) (j : Nat) : s.Reloads (s.loaded j) :=
  (s.reloads_loadConfig j).trans (State.reloads_loadCarried _ j)

theorem State.restore_eq (s : State) (j : Nat) (stuck : Stuck) : ∃ u, (s.netReset j).Reloads u ∧
    s.restore j stuck = (((u.clearDelta j).rewound j).loaded j).modJob j
      (Job.restored ((((u.clearDelta j).rewound j).loaded j).badFields j)) := by
  obtain ⟨u, hu, heq⟩ := s.partitionReset_eq j stuck
  refine ⟨u, hu, ?_⟩
  rw [← heq]
  rfl

/-- The roll-back in place: the epochs are advanced, the counts of the slot and its packets for cores are gone. -/
theorem State.restore_spec (s : State) {j : Nat} (hj : j < 16) (stuck : Stuck) :
    (∃ bad, (s.restore j stuck).job j = ((s.job j).rewound).restored bad) ∧ (∀ m, m ≠ j → (s.restore j stuck).job m = s.job m) ∧
      (s.restore j stuck).deltaSum j = 0 ∧ (s.restore j stuck).net = s.net.flatMap (Packet.atReset j) := by
  obtain ⟨u, hu, heq⟩ := s.restore_eq j stuck
  have hv := ((u.clearDelta j).rewound j).reloads_loaded j
  rw [heq]
  generalize ((u.clearDelta j).rewound j).loaded j = v at *
  generalize v.badFields j = bad
  unfold State.rewound at hv
  have hgates := State.foldl_modField_frame (u.clearDelta j) ((u.clearDelta j).job j).allFields FieldState.swapHeld
  have hkeep := State.foldl_modField_keepsJob (u.clearDelta j) ((u.clearDelta j).job j).allFields (g := FieldState.swapHeld)
    (fun _ => ⟨rfl, rfl⟩)
  generalize ((u.clearDelta j).job j).allFields.foldl (fun s f => s.modField f FieldState.swapHeld) (u.clearDelta j) = w at *
  have hjobs (m : Nat) : w.job m = s.job m := by
    rw [hgates]
    exact hu.job m
  have hother (m : Nat) (hm : m ≠ j) (t : State) (g : Job → Job) : (t.modJob j g).job m = t.job m := by
    rw [State.job_modJob, if_neg (fun h => hm h.1.symm)]
  refine ⟨⟨bad, ?job⟩, fun m hm => ?other, ?counts, ?net⟩
  case job => rw [State.job_modJob, if_pos ⟨rfl, hj⟩, hv.job, State.job_modJob, if_pos ⟨rfl, hj⟩, hjobs]
  case other => rw [hother m hm, hv.job, hother m hm, hjobs]
  case counts =>
    calc v.deltaSum j = (w.modJob j Job.rewound).deltaSum j := hv.deltaSum j
      _ = (u.clearDelta j).deltaSum j :=
        State.deltaSum_congr (fun f => (hkeep f).2) (fun n => by rw [State.stack, State.modJob, hgates]; rfl)
          (by rw [State.modJob, hgates])
      _ = 0 := u.deltaSum_clearDelta hj
  case net =>
    rw [State.modJob_net, hv.net, State.modJob_net, hgates]
    exact hu.net

/-! ### When a roll-back happens (spec/01 R15, spec/15 R400) -/

section

variable {s : State} {j : Nat}

theorem exec_rollBack (j : Nat) (stuck : Stuck) (s : State) : exec (.rollBack j stuck) s = .next (s.rollBack j stuck) := rfl

theorem exec_rollbackRestart (j : Nat) (s : State) : exec (.rollbackRestart j) s =
    .next (if s.cpRuns && (s.job j).state == .running && (s.job j).rolled && (s.job j).faultFields.isEmpty && !(s.job j).inPlace
      then s.restart j else s) := rfl

theorem State.noVote_iff : s.noVote j = true ↔ ∀ f ∈ (s.job j).workFields, (s.field f).votes = [] := by
  simp [State.noVote]

theorem State.rollBack_halted (stuck : Stuck) (h : s.cpRuns = false) : s.rollBack j stuck = s := by
  simp [State.rollBack, h]

theorem State.rollBack_voting (stuck : Stuck) (h : s.noVote j = false) : s.rollBack j stuck = s := by
  simp [State.rollBack, h]

/-- A running job's roll-back once it may happen: what its lost working fields leave of it decides. -/
theorem State.rollBack_due (hj : j < 16) (stuck : Stuck) (hcp : s.cpRuns = true) (hvote : s.noVote j = true)
    (hrun : (s.job j).state = .running) (hspare : ∀ f ∈ (s.job j).faultFields, some f ∉ (s.job j).spareFields)
    (hcov : (s.job j).noCover = false) (hdue : (s.job j).faultFields ≠ [] ∨ (s.job j).inPlace = true) :
    s.rollBack j stuck = if (((s.modJob j Job.noSpareLost).coverAll j stuck).job j).faultFields.isEmpty
      then ((s.modJob j Job.noSpareLost).coverAll j stuck).restore j stuck else (s.modJob j Job.noSpareLost).uncovered j := by
  have hjob : (s.modJob j Job.noSpareLost).job j = (s.job j).noSpareLost := by rw [State.job_modJob, if_pos ⟨rfl, hj⟩]
  have hstate : ((s.job j).noSpareLost).state = .running := hrun
  have hcov' : ((s.job j).noSpareLost).noCover = false := hcov
  have hdue' : (((s.job j).noSpareLost).faultFields.isEmpty && !((s.job j).noSpareLost).inPlace) = false := by
    show ((s.job j).faultFields.isEmpty && !(s.job j).inPlace) = false
    rcases hdue with hfault | hplace
    · simp [hfault]
    · simp [hplace]
  simp only [State.rollBack, hcp, hvote, hrun, State.dropSpares_working hspare, hjob, hstate, hcov', hdue']
  rfl

/-- No fault overlay is in the active table: none covers a lost field. -/
theorem State.coverOf_noOverlay (f : Nat) (h : (s.job j).ovActive = []) : s.coverOf j f = none := by
  have hnone : (s.job j).faultOverlay = fun _ => none := by
    funext lf
    simp [Job.faultOverlay, h]
  simp [State.coverOf, hnone]

theorem State.coverAll_noOverlay (stuck : Stuck) (h : (s.job j).ovActive = []) : s.coverAll j stuck = s := by
  have hone (f : Nat) : (match s.coverOf j f with
      | some o => s.applyCover j stuck o
      | none => s) = s := by rw [State.coverOf_noOverlay f h]
  exact List.foldlRecOn (motive := fun t => t = s) _ _ rfl (fun t ht f _ => by rw [ht]; exact hone f)

/-- A running job pauses for want of a valid fault overlay (spec/09 R255). -/
theorem State.uncovered_running (h : (s.job j).state = .running) :
    s.uncovered j = (s.modJob j (fun x => { x with noCover := true })).enterPaused j 2 := by
  simp [State.uncovered, h]

end

/-! ### The restart (spec/09 R253, R254) -/

/-- The job as its restart begins: exposure LASTCKPT comes next, and its log is replayed up to the exposure that was held. -/
def Job.restarting (q : Job) (last : Nat) : Job := { q with rolled := false, expNo := q.lastCkpt, replayTo := some last }

theorem CoreState.start_keeps (k : Kind) (x : CoreState) : (x.start k).run = true ∧ (x.start k).entry = x.entry ∧
    (x.start k).sched = x.sched ∧ (x.start k).pc = if k = .sx then x.pc else x.entry := by
  cases k <;> exact ⟨rfl, rfl, rfl, rfl⟩

theorem State.startCores_frame (s : State) (j : Nat) : s.startCores j = { s with cores := (s.startCores j).cores } :=
  State.foldl_modCore_frame s _ (fun c => CoreState.start (coreKind c))

/-- Every scheduled core runs from its entry address once all have started. -/
theorem State.startCores_core (s : State) {j : Nat} {c : CoreId} (hc : c ∈ s.schedCores j) :
    ((s.startCores j).core c).run = true ∧ (coreKind c ≠ .sx → ((s.startCores j).core c).pc = (s.core c).entry) := by
  have hstart (t : State) (d : CoreId) : ∃ y, (y = t.core c ∨ ∃ k, y = (t.core c).start k) ∧
      (t.modCore d (CoreState.start (coreKind d))).core c = y := by
    refine ⟨_, ?_, rfl⟩
    rw [State.core_modCore]
    split
    · next h => exact .inr ⟨coreKind d, by rw [t.core_congr h]⟩
    · exact .inl rfl
  have hall := foldl_reaches (f := fun s c => s.modCore c (CoreState.start (coreKind c))) (s := s)
    (before := fun t => (t.core c).entry = (s.core c).entry)
    (after := fun t => (t.core c).entry = (s.core c).entry ∧ (t.core c).run = true ∧
      (coreKind c ≠ .sx → (t.core c).pc = (s.core c).entry))
    (fun t d h => by
      obtain ⟨y, hy | ⟨k, hy⟩, heq⟩ := hstart t d <;> rw [heq, hy]
      · exact h
      · exact ((t.core c).start_keeps k).2.1.trans h)
    (fun t d h => by
      obtain ⟨hentry, hrun, hpc⟩ := h
      obtain ⟨y, hy | ⟨k, hy⟩, heq⟩ := hstart t d <;> rw [heq, hy]
      · exact ⟨hentry, hrun, hpc⟩
      · obtain ⟨hrun', hentry', -, hpc'⟩ := (t.core c).start_keeps k
        refine ⟨hentry'.trans hentry, hrun', fun hk => ?_⟩
        rw [hpc']
        split
        · exact hpc hk
        · exact hentry)
    (fun t h => by
      obtain ⟨hrun', hentry', -, hpc'⟩ := (t.core c).start_keeps (coreKind c)
      rw [State.core_modCore, if_pos rfl]
      exact ⟨hentry'.trans h, hrun', fun hk => by rw [hpc', if_neg hk, h]⟩)
    rfl hc
  exact hall.2

theorem State.restart_eq (s : State) (j : Nat) : s.restart j =
    (((s.clearDelta j).startCores j).modJob j (fun q => q.restarting (max (s.job j).expNo ((s.job j).replayTo.getD 0)))).beginExposure j
      (s.job j).lastCkpt := rfl

/-- The restart begins exposure LASTCKPT: the counts are 0, every scheduled core runs from its entry address, and without a logged input
nothing is sent. -/
theorem State.restart_spec {s : State} {j : Nat} (hj : j < 16) (hlog : (s.job j).log = []) :
    ((s.restart j).job j).expNo = (s.job j).lastCkpt ∧ ((s.restart j).job j).rolled = false ∧
      ((s.restart j).job j).sched = s.now + (s.job j).expLen ∧ (s.restart j).deltaSum j = 0 ∧
      (∀ c ∈ s.schedCores j, ((s.restart j).core c).run = true ∧ (coreKind c ≠ .sx → ((s.restart j).core c).pc = (s.core c).entry)) ∧
      (s.restart j).net = s.net := by
  have hframe := (s.clearDelta j).startCores_frame j
  have hsched : (s.clearDelta j).schedCores j = s.schedCores j := rfl
  have hcores (c : CoreId) (hc : c ∈ s.schedCores j) := (s.clearDelta j).startCores_core (hsched ▸ hc)
  rw [State.restart_eq]
  generalize max (s.job j).expNo ((s.job j).replayTo.getD 0) = last
  generalize (s.clearDelta j).startCores j = u at *
  have hujob : u.job j = s.job j := by rw [hframe]; rfl
  have hwjob : (u.modJob j (fun q => q.restarting last)).job j = (s.job j).restarting last := by
    rw [State.job_modJob, if_pos ⟨rfl, hj⟩, hujob]
  have hnow : (u.modJob j (fun q => q.restarting last)).now = s.now := by rw [hframe]; rfl
  have hbegin := State.begins_beginExposure (u.modJob j (fun q => q.restarting last)) j (s.job j).lastCkpt
  have hrun (c : CoreId) := State.beginExposure_core (R := fun x y => y.run = x.run ∧ y.pc = x.pc) (fun _ => ⟨rfl, rfl⟩)
    (fun h k => ⟨k.1.trans h.1, k.2.trans h.2⟩) (fun _ => ⟨rfl, rfl⟩) (u.modJob j (fun q => q.restarting last)) j (s.job j).lastCkpt c
  obtain ⟨hnet, hstk, hdie, hfields⟩ := State.beginExposure_noLog (s := u.modJob j (fun q => q.restarting last)) hj (s.job j).lastCkpt
    (.inr (by rw [hwjob]; exact hlog))
  have hjob := hbegin.job hj
  rw [hwjob, hnow] at hjob
  generalize State.beginExposure _ j (s.job j).lastCkpt = t at *
  have hu0 : (u.modJob j (fun q => q.restarting last)).deltaSum j = 0 := by
    rw [← s.deltaSum_clearDelta hj, hframe]
    rfl
  refine ⟨by rw [hjob]; rfl, by rw [hjob]; rfl, by rw [hjob]; rfl, ?counts, fun c hc => ?cores, ?net⟩
  case counts =>
    rw [← hu0]
    exact State.deltaSum_congr (fun f => (hfields f).2) (fun n => by rw [State.stack, State.stack, hstk]) hdie
  case cores =>
    obtain ⟨hrunning, hentry⟩ := hcores c hc
    obtain ⟨hrun', hpc'⟩ := hrun c
    exact ⟨hrun'.trans hrunning, fun hk => hpc'.trans (hentry hk)⟩
  case net => rw [hnet, State.modJob_net, hframe]; rfl

/-- Settles O25: the roll-back in place by what it restores, the missing overlay by the pause that it becomes, the restart by the exposure that
it begins. -/
theorem rollBacks : Obligations.RollBacks := by
  unfold Obligations.RollBacks
  intro s j hj hrun q noVote
  refine ⟨fun hcp hvote hfault hplace hcov => ?inPlace, fun f hcp hvote hfault _ hspare hact hcov hsafe => ?uncovered,
    fun hcp hrolled hfault hplace hlog => ?restart, fun hcp => ?halted, fun hvote => ?voting⟩
  case inPlace =>
    have hno : (s.job j).faultFields = [] := hfault
    have hjob : (s.modJob j Job.noSpareLost).job j = q.noSpareLost := by rw [State.job_modJob, if_pos ⟨rfl, hj⟩]
    have hfault' : ((s.modJob j Job.noSpareLost).job j).faultFields = [] := by rw [hjob]; exact hfault
    have heq : s.rollBack j [] = (s.modJob j Job.noSpareLost).restore j [] := by
      rw [State.rollBack_due hj [] hcp (State.noVote_iff.2 hvote) hrun (by rw [hno]; exact fun _ h => absurd h List.not_mem_nil) hcov
        (.inr hplace), State.coverAll_none [] hfault', hfault']
      rfl
    obtain ⟨⟨bad, hres⟩, hother, hcounts, hnet⟩ := (s.modJob j Job.noSpareLost).restore_spec hj []
    refine ⟨_, exec_rollBack j [] s, ?_⟩
    obtain ⟨hrolled, hepoch, hin, herror, hheld, hexp, hstate⟩ := Job.restored_rewound bad q.noSpareLost
    rw [heq, hres, hjob, hcounts, hnet]
    refine ⟨hrolled, hepoch, hin, herror, hheld, hexp, hstate.trans hrun, rfl, fun p hp => ?_, fun m hm => ?_⟩
    · obtain ⟨r, -, hr⟩ := List.mem_flatMap.1 hp
      exact Packet.atReset_spec hr
    · rw [hother m hm, State.job_modJob, if_neg (fun h => hm h.1.symm)]
  case uncovered =>
    have hone : (s.job j).faultFields = [f] := hfault
    have hjob : (s.modJob j Job.noSpareLost).job j = q.noSpareLost := by rw [State.job_modJob, if_pos ⟨rfl, hj⟩]
    have hact' : ((s.modJob j Job.noSpareLost).job j).ovActive = [] := by rw [hjob]; exact hact
    have hfault' : ((s.modJob j Job.noSpareLost).job j).faultFields = [f] := by rw [hjob]; exact hfault
    have heq : s.rollBack j [] = ((s.modJob j Job.noSpareLost).modJob j (fun x => { x with noCover := true })).enterPaused j 2 := by
      rw [State.rollBack_due hj [] hcp (State.noVote_iff.2 hvote) hrun ?_ hcov (.inl (by rw [hone]; simp)),
        State.coverAll_noOverlay [] hact', hfault', State.uncovered_running (by rw [hjob]; exact hrun)]
      · rfl
      · rw [hone]
        exact fun g hg => by rw [List.mem_singleton.1 hg]; exact hspare
    have hjob' : ((s.modJob j Job.noSpareLost).modJob j (fun x => { x with noCover := true })).job j =
        { q.noSpareLost with noCover := true } := by rw [State.job_modJob, if_pos ⟨rfl, hj⟩, hjob]
    obtain ⟨hpaused, -, hheld, -, hnone, hcores, hnet⟩ := State.enterPaused_spec (s := (s.modJob j Job.noSpareLost).modJob j
      (fun x => { x with noCover := true })) hj (by rw [hjob']; exact hsafe) 2
    refine ⟨_, exec_rollBack j [] s, ?_⟩
    rw [heq]
    exact ⟨hpaused, hnone.trans (by rw [hjob']), hheld, hcores, hnet⟩
  case restart =>
    refine ⟨s.restart j, ?_, State.restart_spec hj hlog⟩
    have hno : (s.job j).faultFields = [] := hfault
    have hback : (s.job j).rolled = true := hrolled
    have hplace' : (s.job j).inPlace = false := hplace
    rw [exec_rollbackRestart, if_pos (by simp [hcp, hrun, hback, hno, hplace'])]
  case halted =>
    rw [exec_rollBack, exec_rollbackRestart, State.rollBack_halted [] hcp, if_neg (by simp [hcp])]
    exact ⟨rfl, rfl⟩
  case voting =>
    obtain ⟨f, hf, hvotes⟩ := hvote
    have hopen : s.noVote j = false := by
      rw [Bool.eq_false_iff]
      exact fun h => hvotes (State.noVote_iff.1 h f hf)
    rw [exec_rollBack, State.rollBack_voting [] hopen]

end Sys2Proof.Machine

/-! SUPPORT. LOAD_JOB and UNLOAD_JOB (spec/13 R351, R353, Table 13.9): where a region finds its place, the reads of an image, and the end of
a slot. -/

namespace Sys2Proof.Machine

open Sys2Proof.Claims

/-! ### Stack writes (spec/15 R402-R404) -/

theorem State.reloads_stackParity (s : State) (n w : Nat) (old new : Word × Bool) : s.Reloads (s.stackParity n w old new) := by
  unfold State.stackParity
  dsimp only
  split
  · exact State.Reloads.refl s
  · split
    · exact State.Reloads.refl s
    · exact s.reloads_stackPut _ _ _ _

theorem State.reloads_stackWrite (s : State) (n w : Nat) (mask : BitVec 8) (d : Word) (p : Bool) :
    s.Reloads (s.stackWrite n w mask d p) := by
  have hfetch (b : Bool) : s.Reloads (if b = true then (s, (0 : Word), false) else s.stackFetch n w).1 := by
    split
    · exact State.Reloads.refl s
    · exact s.reloads_stackFetch n w
  unfold State.stackWrite
  split
  · exact State.Reloads.refl s
  · have hread := hfetch (mask = 0xFF && !s.mod.memMode)
    generalize (if (mask = 0xFF && !s.mod.memMode) = true then (s, (0 : Word), false) else s.stackFetch n w) = r at *
    obtain ⟨t, old, oldP⟩ := r
    have hparity (new : Word × Bool) : s.Reloads (t.stackParity n w (old, oldP) new) :=
      State.Reloads.trans hread (t.reloads_stackParity n w _ new)
    dsimp only
    generalize (if mask = 0xFF then (d, p) else _) = new
    have hnew := hparity new
    generalize t.stackParity n w (old, oldP) new = u at *
    split
    · exact hnew.trans (u.reloads_stackPut _ _ _ _)
    · exact hnew

theorem State.reloads_zeroRange (s : State) (n off size : Nat) : s.Reloads (s.zeroRange n off size) :=
  State.reloads_foldl (fun t w => t.reloads_stackWrite n w _ _ _) _ s

theorem State.reloads_storeMain (s : State) (off size : Nat) (bs : List Byte) : s.Reloads (s.storeMain off size bs) :=
  State.reloads_foldl (fun t _ => t.reloads_stackWrite _ _ _ _ _) _ s

/-! ### Where a region finds its place (spec/13 R351) -/

section

variable {s : State} {sts : List Nat} {size : Nat}

/-- The end of a region, up to the next multiple of 2^20. -/
def Region.nextFree (r : Region) : Nat := (r.off + r.size + 1048575) / 1048576 * 1048576

/-- Where a region may begin: at 0, or behind what the stacks hold. -/
def State.candidates (s : State) (sts : List Nat) : List Nat :=
  0 :: (s.used.filter (fun r => sts.contains r.stack)).map Region.nextFree

theorem State.lowestFree_eq (s : State) (sts : List Nat) (size : Nat) :
    s.lowestFree sts size = ((s.candidates sts).filter (fun o => s.freeAt sts o size)).min? := by
  unfold State.lowestFree State.candidates
  dsimp only
  split
  · next h => exact (congrArg List.min? h).symm
  · next h => exact (congrArg List.min? h).symm

theorem State.candidates_aligned {o : Nat} (h : o ∈ s.candidates sts) : o % 1048576 = 0 := by
  rcases List.mem_cons.1 h with rfl | h
  · rfl
  · obtain ⟨r, -, rfl⟩ := List.mem_map.1 h
    exact Nat.mul_mod_left _ _

theorem State.freeAt_iff {o : Nat} : s.freeAt sts o size = true ↔
    o + size ≤ s.dataBytes ∧ ∀ r ∈ s.used.filter (fun r => sts.contains r.stack), o + size ≤ r.off ∨ r.off + r.size ≤ o := by
  simp only [State.freeAt, Bool.and_eq_true, List.all_eq_true, decide_eq_true_eq]

/-- The lowest free place is a candidate: something ends less than 2^20 below it, or it is 0. -/
theorem State.lowest_mem_candidates {off : Nat} (h : Lowest s sts size off) : off ∈ s.candidates sts := by
  obtain ⟨halign, hfree, hlow⟩ := h
  obtain ⟨hroom, hapart⟩ := State.freeAt_iff.1 hfree
  rcases Nat.eq_zero_or_pos off with rfl | hpos
  · exact List.mem_cons_self
  · have hbelow := hlow (off - 1048576) (by omega) (by omega)
    rw [Bool.eq_false_iff, ne_eq, State.freeAt_iff, not_and] at hbelow
    obtain ⟨r, hr, hmeets⟩ : ∃ r ∈ s.used.filter (fun r => sts.contains r.stack),
        ¬ (off - 1048576 + size ≤ r.off ∨ r.off + r.size ≤ off - 1048576) := by
      by_contra hnone
      refine hbelow (by omega) (fun r hr => ?_)
      by_contra hmeets
      exact hnone ⟨r, hr, hmeets⟩
    have hends := hapart r hr
    have heq : r.nextFree = off := by unfold Region.nextFree; omega
    exact List.mem_cons_of_mem _ (List.mem_map.2 ⟨r, hr, heq⟩)

/-- The placement finds the lowest free multiple of 2^20. -/
theorem State.lowestFree_of_lowest {off : Nat} (h : Lowest s sts size off) : s.lowestFree sts size = some off := by
  rw [State.lowestFree_eq, List.min?_eq_some_iff]
  refine ⟨List.mem_filter.2 ⟨State.lowest_mem_candidates h, h.2.1⟩, fun o ho => ?_⟩
  obtain ⟨hcand, hfree⟩ := List.mem_filter.1 ho
  by_contra hlt
  exact Bool.noConfusion ((h.2.2 o (Nat.lt_of_not_le hlt) (State.candidates_aligned hcand)).symm.trans hfree)

/-- Without a free multiple of 2^20 there is no place. -/
theorem State.lowestFree_none (h : ∀ o, o % 1048576 = 0 → s.freeAt sts o size = false) : s.lowestFree sts size = none := by
  rw [State.lowestFree_eq, List.min?_eq_none_iff, List.filter_eq_nil_iff]
  exact fun o ho => by rw [h o (State.candidates_aligned ho)]; exact Bool.false_ne_true

/-- The places depend on the regions, the reservations and the memory mode alone. -/
theorem State.lowestFree_congr {t : State} (hjobs : t.jobs = s.jobs) (hsnaps : t.snaps = s.snaps) (hmod : t.mod = s.mod) :
    t.lowestFree sts size = s.lowestFree sts size := by
  have hused : t.used = s.used := by rw [State.used, State.used, hjobs, hsnaps]
  have hfree (o : Nat) : t.freeAt sts o size = s.freeAt sts o size := by
    rw [State.freeAt, State.freeAt, hused, State.dataBytes, State.dataBytes, hmod]
  rw [State.lowestFree_eq, State.lowestFree_eq, State.candidates, State.candidates, hused]
  simp only [hfree]

end

/-! ### The reads of an image (spec/12 R317, R318, spec/13 R353) -/

/-- With fuel above the length the read requests cover it. -/
theorem readsOf_readReqs (size tag fuel addr len : Nat) (hsize : 0 < size) (hfuel : len < fuel) :
    ReadsOf size addr len (readReqs size tag fuel addr len) := by
  induction fuel generalizing addr len with
  | zero => exact absurd hfuel (Nat.not_lt_zero _)
  | succ fuel ih =>
    unfold readReqs
    split
    · next h => exact h
    · next h =>
      exact ⟨tag, _, rfl, by omega, by omega, by omega, by omega, ih _ _ (by omega)⟩

section

variable {s : State} {n : Nat} {e : Entry}

theorem State.dataCut_iff : s.dataCut = true ↔ ¬ Reaches s := by
  cases ha : (s.port .a).viaPeer <;> cases hb : (s.port .b).viaPeer <;>
    simp [State.dataCut, State.dieAttach, Port.other, Reaches, ha, hb]

theorem PortState.noOutbound_iff {x : PortState} : x.noOutbound = true ↔ ¬ Posts x := by
  cases hl : x.linkUp <;> cases hd : x.d3 <;> cases hb : x.busMaster <;> simp [PortState.noOutbound, Posts, hl, hd, hb]

theorem exec_loadJob (h : Started s n 0x0200 e) (hj : e.p 0 1 < 16) (hc : e.clean [(0, 1), (8, 16)] = true) (r : HostRead JobImage) :
    exec (.loadJob n r) s = .next (s.loadJob e r) :=
  congrArg _ (State.cmd_started h hc (decide_eq_true hj) _)

theorem State.loadJob_badState (r : HostRead JobImage) (h : (s.job (e.p 0 1)).state ≠ .empty ∨ ¬ Reaches s) :
    s.loadJob e r = s.complete e stBadState [] := by
  rw [State.loadJob, if_pos]
  rw [Bool.or_eq_true]
  exact h.imp (fun h => bne_iff_ne.2 h) (fun h => State.dataCut_iff.2 h)

theorem State.loadJob_reads (r : HostRead JobImage) (hempty : (s.job (e.p 0 1)).state = .empty) (hreach : Reaches s) :
    s.loadJob e r = match s.brought e r with
      | .failed => (s.imageReads e).complete e stHostRead []
      | .bad => (s.imageReads e).complete e stImage []
      | .ok im => (s.imageReads e).loadAt e im ((s.imageReads e).lowestFree allStacks (region0Size im.region0)) := by
  have hcut : s.dataCut = false := by
    rw [Bool.eq_false_iff]
    exact fun h => State.dataCut_iff.1 h hreach
  rw [State.loadJob]
  exact if_neg (by simp [State.resident, hempty, hcut])

theorem State.loadJob_unsent (r : HostRead JobImage) (hempty : (s.job (e.p 0 1)).state = .empty) (hreach : Reaches s)
    (hpost : ¬ Posts (s.port e.port)) : s.loadJob e r = s.complete e stHostRead [] := by
  have hno := PortState.noOutbound_iff.2 hpost
  rw [State.loadJob_reads r hempty hreach, State.brought, if_pos hno, State.imageReads, if_pos hno]

/-- A port that can send hands the reads of the image to its link. -/
theorem State.imageReads_sending (hpost : Posts (s.port e.port)) (hsize : 0 < (s.port e.port).maxReadReq) :
    ∃ l, ReadsOf (s.port e.port).maxReadReq (e.p 8 8) (e.p 16 8) l ∧ s.imageReads e = sending s e.port l ∧
      ∀ (r : HostRead JobImage), s.brought e r = r := by
  have hno : (s.port e.port).noOutbound = false := by
    rw [Bool.eq_false_iff]
    exact fun h => PortState.noOutbound_iff.1 h hpost
  have hmax : max 1 (s.port e.port).maxReadReq = (s.port e.port).maxReadReq := by omega
  refine ⟨_, readsOf_readReqs _ (s.port e.port).freeTag (e.p 16 8 + 1) _ _ hsize (by omega), ?_, fun r => ?_⟩
  · rw [State.imageReads, if_neg (by simp [hno])]
    refine State.modPort_congr ?_
    rw [hmax]
  · rw [State.brought, if_neg (by simp [hno])]

end

/-! ### The slot that LOAD_JOB fills (spec/13 R351) -/

/-- A completed command whose event has gone out: the slots are as before, and the command has left the journal. -/
theorem State.complete_event_frame (s : State) (e : Entry) (status : Nat) (pay : List Byte) (j code reason expno : Nat) :
    (∀ m, ((s.complete e status pay).jobEvent j code reason expno).job m = s.job m) ∧
      ((s.complete e status pay).jobEvent j code reason expno).fields = s.fields ∧
      ((s.complete e status pay).jobEvent j code reason expno).cp =
        { s.cp with journal := s.cp.journal.filter (fun x => x.id ≠ e.id) } := by
  obtain ⟨hstate, -⟩ := (s.replied_complete e status pay).trans (State.portsTold_jobEvent _ j code reason expno).replied
  exact ⟨fun m => by rw [State.job, hstate]; rfl, by rw [hstate], by rw [State.jobEvent_cp, State.complete_cp]⟩

/-- A slot LOADED with an image whose region 0 stands at `off` in the stacks. -/
def Job.filled (im : JobImage) (off : Nat) : Job :=
  { state := .loaded, image := im, expLen := im.expLen, holdMax := im.holdMax
    regions := allStacks.map (fun n => { id := 0, stack := n, off := off, size := region0Size im.region0 }) }

/-- Ranges that have been zeroed in stacks. -/
def State.zeroed (s : State) (sts : List Nat) (off size : Nat) : State := sts.foldl (fun s n => s.zeroRange n off size) s

theorem State.reloads_zeroed (s : State) (sts : List Nat) (off size : Nat) : s.Reloads (s.zeroed sts off size) :=
  State.reloads_foldl (fun t n => t.reloads_zeroRange n off size) sts s

/-- A slot that holds an image alone, not yet a region. -/
def Job.imaged (im : JobImage) : Job := { state := .loaded, image := im, expLen := im.expLen, holdMax := im.holdMax }

/-- A job with one more region at the same offset in every named stack. -/
def Job.placed (q : Job) (id : Nat) (sts : List Nat) (off size : Nat) : Job :=
  { q with regions := q.regions ++ sts.map (fun n => { id := id, stack := n, off := off, size := size }) }

theorem State.loadInto_eq (s : State) (e : Entry) (im : JobImage) (off : Nat) : ∃ u,
    ((((s.modJob (e.p 0 1) (fun _ => Job.imaged im)).zeroed allStacks off (region0Size im.region0)).modJob (e.p 0 1)
      (fun q => q.placed 0 allStacks off (region0Size im.region0))).Reloads u) ∧
    s.loadInto e im off = (u.complete e stOk (leBytes 8 off ++ leBytes 8 (region0Size im.region0))).jobEvent (e.p 0 1) 1 0 0 :=
  ⟨_, State.reloads_storeMain _ off (region0Size im.region0) im.mainBytes, rfl⟩

theorem State.loadInto_spec {s : State} {e : Entry} (hj : e.p 0 1 < 16) (im : JobImage) (off : Nat) :
    (s.loadInto e im off).job (e.p 0 1) = Job.filled im off ∧ (∀ m, m ≠ e.p 0 1 → (s.loadInto e im off).job m = s.job m) ∧
      (s.loadInto e im off).cp = { s.cp with journal := s.cp.journal.filter (fun x => x.id ≠ e.id) } := by
  obtain ⟨u, hu, heq⟩ := s.loadInto_eq e im off
  have hzero := (s.modJob (e.p 0 1) (fun _ => Job.imaged im)).reloads_zeroed allStacks off (region0Size im.region0)
  generalize (s.modJob (e.p 0 1) (fun _ => Job.imaged im)).zeroed allStacks off (region0Size im.region0) = v at *
  obtain ⟨hjobs, -, hcp⟩ := u.complete_event_frame e stOk (leBytes 8 off ++ leBytes 8 (region0Size im.region0)) (e.p 0 1) 1 0 0
  have hucp : u.cp = s.cp := by rw [hu.state, State.modJob_cp, hzero.state, State.modJob_cp]
  rw [heq]
  refine ⟨?_, fun m hm => ?_, by rw [hcp, hucp]⟩
  · rw [hjobs, hu.job, State.job_modJob, if_pos ⟨rfl, hj⟩, hzero.job, State.job_modJob, if_pos ⟨rfl, hj⟩]
    rfl
  · rw [hjobs, hu.job, State.job_modJob, if_neg (fun h => hm h.1.symm), hzero.job, State.job_modJob, if_neg (fun h => hm h.1.symm)]

/-! ### The slot that UNLOAD_JOB empties -/

/-- No inbound window of a port belongs to the job. -/
def PortState.Closed (j : Nat) (x : PortState) : Prop := ∀ m w, m < 64 → tget none x.inWin m = some w → w.job ≠ j

theorem PortState.Told.closed {j : Nat} {x y : PortState} (h : x.Told y) (hx : x.Closed j) : y.Closed j := by
  intro m w hm hw
  rw [h.1] at hw
  exact hx m w hm hw

/-- A port whose windows of a job are shut. -/
def PortState.shut (sel : InWin → Bool) (x : PortState) : PortState := { x with inWin := x.inWin.map (fun w => w.filter (fun i => !sel i)) }

theorem PortState.closed_shut (j : Nat) (x : PortState) : (x.shut (fun w => w.job == j)).Closed j := by
  intro m w hm hw
  simp only [PortState.shut, tget, hm, dif_pos, Vector.getElem_map] at hw
  simpa using (Option.filter_eq_some_iff.1 hw).2

theorem State.closeInbound_told (s : State) (p : Port) (sel : InWin → Bool) :
    (s.modPort p (PortState.shut sel)).PortsTold (s.closeInbound p sel) := by
  unfold State.closeInbound
  dsimp only
  split
  · exact State.portsTold_portEvent _ p evWinClosed
  · exact ⟨rfl, fun _ => PortState.Told.refl _⟩

/-- Once both ports have shut a job's windows, none is open. -/
theorem State.closeBoth_spec (s : State) (j : Nat) :
    (∀ p, ((s.closeBoth (fun w => w.job == j)).port p).Closed j) ∧
      s.closeBoth (fun w => w.job == j) = { s with ports := (s.closeBoth (fun w => w.job == j)).ports } := by
  unfold State.closeBoth
  obtain ⟨ha, hta⟩ := s.closeInbound_told .a (fun w => w.job == j)
  obtain ⟨hb, htb⟩ := (s.closeInbound .a (fun w => w.job == j)).closeInbound_told .b (fun w => w.job == j)
  generalize s.closeInbound .a (fun w => w.job == j) = t at *
  generalize t.closeInbound .b (fun w => w.job == j) = u at *
  refine ⟨fun p => ?_, by rw [hb, ha]; rfl⟩
  refine (htb p).closed ?_
  rw [State.port_modPort]
  split
  · exact PortState.closed_shut j _
  · next hp =>
    refine (hta p).closed ?_
    cases p with
    | a =>
      rw [State.port_modPort_same]
      exact PortState.closed_shut j _
    | b => exact absurd rfl hp

end Sys2Proof.Machine

/-! SUPPORT. START (spec/09 R224-R228, R257), and the statement about LOAD_JOB, UNLOAD_JOB and START. -/

namespace Sys2Proof.Machine

open Sys2Proof.Claims

/-! ### UNLOAD_JOB -/

section

variable {s : State} {n : Nat} {e : Entry}

theorem exec_unloadJob (h : Started s n 0x0201 e) (hj : e.p 0 1 < 16) (hc : e.clean [(0, 1)] = true) :
    exec (.unloadJob n) s = .next (s.unloadJob e) :=
  congrArg _ (State.cmd_started h hc (decide_eq_true hj) _)

theorem State.unloadJob_empties (h : (s.job (e.p 0 1)).state = .loaded ∨ (s.job (e.p 0 1)).state = .suspended) :
    s.unloadJob e = (s.emptySlot (e.p 0 1)).complete e stOk [] := by
  rw [State.unloadJob]
  exact if_pos (by simpa using h)

theorem State.unloadJob_badState (hl : (s.job (e.p 0 1)).state ≠ .loaded) (hs : (s.job (e.p 0 1)).state ≠ .suspended) :
    s.unloadJob e = s.complete e stBadState [] := by
  rw [State.unloadJob]
  exact if_neg (by simp [hl, hs])

end

theorem State.withdrawSnap_frame (s : State) (j : Nat) : s.withdrawSnap j = { s with snaps := (s.withdrawSnap j).snaps } := by
  unfold State.withdrawSnap
  split <;> rfl

/-- The emptied slot: no window of its job is open, and every other slot is as before. -/
theorem State.emptySlot_spec (s : State) {j : Nat} (hj : j < 16) : (s.emptySlot j).job j = {} ∧
    (∀ m, m ≠ j → (s.emptySlot j).job m = s.job m) ∧ ∀ p, ((s.emptySlot j).port p).Closed j := by
  obtain ⟨hclosed, hclose⟩ := s.closeBoth_spec j
  have hsnap := (s.closeBoth (fun w => w.job == j)).withdrawSnap_frame j
  have hend := (((s.closeBoth (fun w => w.job == j)).withdrawSnap j).concludes_abortInputs j).trans ((State.replied_completeIf _
    (fun e => e.started && e.opcode == 0x302 && e.p 0 1 == j) stAborted (fun _ _ => [])).concludes j)
  have heq : s.emptySlot j = (((((s.closeBoth (fun w => w.job == j)).withdrawSnap j).abortInputs j).completeIf
    (fun e => e.started && e.opcode == 0x302 && e.p 0 1 == j) stAborted (fun _ _ => [])).modJob j (fun _ => {})).jobEvent j 0 0
      (s.job j).expNo := rfl
  generalize State.completeIf _ _ _ _ = v at heq hend
  obtain ⟨hstate, htold⟩ := (v.modJob j (fun _ => {})).portsTold_jobEvent j 0 0 (s.job j).expNo
  generalize (v.modJob j (fun _ => {})).jobEvent j 0 0 (s.job j).expNo = t at *
  generalize (s.closeBoth (fun w => w.job == j)).withdrawSnap j = u at *
  generalize s.closeBoth (fun w => w.job == j) = r at *
  have hjob (m : Nat) : t.job m = (v.modJob j (fun _ => {})).job m := by rw [hstate]; rfl
  rw [heq]
  refine ⟨?_, fun m hm => ?_, fun p => ?_⟩
  · rw [hjob, State.job_modJob, if_pos ⟨rfl, hj⟩]
  · rw [hjob, State.job_modJob, if_neg (fun h => hm h.1.symm), hend.other m hm, hsnap, hclose]
    rfl
  · have hu : (u.port p).Closed j := by
      rw [hsnap]
      exact hclosed p
    exact (htold p).closed ((hend.told p).closed hu)

/-! ### The fields of a partition (spec/09 R224) -/

/-- The working fields and the spares have joined the partition. -/
def State.joined (s : State) (j : Nat) (work spare : List Nat) : State := (s.joinFields j work false).joinFields j spare true

/-- A field in the partition of job `j`. -/
def FieldState.member (j : Nat) (spare : Bool) (i : Nat) (x : FieldState) : FieldState := { x with job := some j, spare := spare, logical := i }

theorem State.joinFields_eq (s : State) (j : Nat) (fs : List Nat) (spare : Bool) :
    s.joinFields j fs spare = fs.zipIdx.foldl (fun s e => s.modField e.1 (FieldState.member j spare e.2)) s := rfl

theorem State.joinFields_frame (s : State) (j : Nat) (fs : List Nat) (spare : Bool) :
    s.joinFields j fs spare = { s with fields := (s.joinFields j fs spare).fields } :=
  List.foldlRecOn (motive := fun t : State => t = { s with fields := t.fields }) fs.zipIdx
    (fun s e => s.modField e.1 (FieldState.member j spare e.2)) rfl (fun t h e _ => by
      conv_lhs => rw [h]
      rfl)

theorem State.joined_frame (s : State) (j : Nat) (work spare : List Nat) :
    s.joined j work spare = { s with fields := (s.joined j work spare).fields } := by
  unfold State.joined
  rw [State.joinFields_frame (s.joinFields j work false), State.joinFields_frame s]

/-- A member of the partition stays one as other fields join. -/
theorem State.modField_member (s : State) (j n f i : Nat) (spare : Bool) (h : (s.field f).job = some j) :
    ((s.modField n (FieldState.member j spare i)).field f).job = some j := by
  rw [State.field_modField]
  split
  · rfl
  · exact h

theorem State.joinFields_keeps {s : State} {j f : Nat} (fs : List Nat) (spare : Bool) (h : (s.field f).job = some j) :
    ((s.joinFields j fs spare).field f).job = some j :=
  List.foldlRecOn (motive := fun t : State => (t.field f).job = some j) fs.zipIdx
    (fun s e => s.modField e.1 (FieldState.member j spare e.2)) h (fun t ht e _ => t.modField_member j e.1 f e.2 spare ht)

theorem State.joinFields_job (s : State) (j : Nat) {f : Nat} (hf : f < 60) {fs : List Nat} (spare : Bool) (h : f ∈ fs) :
    ((s.joinFields j fs spare).field f).job = some j := by
  obtain ⟨i, hi⟩ := List.mem_iff_getElem?.1 h
  have hmem : (f, i) ∈ fs.zipIdx := List.mk_mem_zipIdx_iff_getElem?.2 hi
  rw [State.joinFields_eq]
  exact foldl_reaches (before := fun _ => True)
    (after := fun t => (t.field f).job = some j) (fun _ _ _ => trivial) (fun t e ht => t.modField_member j e.1 f e.2 spare ht)
    (fun t _ => by rw [State.field_modField, if_pos ⟨rfl, hf⟩]; rfl) trivial hmem

theorem State.joined_job (s : State) (j : Nat) {f : Nat} (hf : f < 60) {work spare : List Nat} (h : f ∈ work ++ spare) :
    ((s.joined j work spare).field f).job = some j := by
  rcases List.mem_append.1 h with h | h
  · exact State.joinFields_keeps spare true (s.joinFields_job j hf false h)
  · exact State.joinFields_job _ j hf true h

/-! ### The placement (spec/09 R225, R257) -/

/-- `t` has the slots, the control processors, TICK and the partitions of `s`. -/
structure State.Settles (s t : State) : Prop where
  jobs : t.jobs = s.jobs
  cp : t.cp = s.cp
  now : t.now = s.now
  field : ∀ f, (t.field f).job = (s.field f).job

theorem State.Settles.trans {s t u : State} (h : s.Settles t) (k : t.Settles u) : s.Settles u :=
  ⟨k.jobs.trans h.jobs, k.cp.trans h.cp, k.now.trans h.now, fun f => (k.field f).trans (h.field f)⟩

theorem State.Settles.job {s t : State} (h : s.Settles t) (m : Nat) : t.job m = s.job m := by rw [State.job, State.job, h.jobs]

theorem State.Reloads.settles {s t : State} (h : s.Reloads t) : s.Settles t := by
  have hcp : t.cp = s.cp := by rw [h.state]
  exact ⟨by rw [h.state], hcp, State.now_of_told (by rw [hcp]) h.told, fun f => (h.field f).1⟩

theorem State.settles_clearDelta (s : State) (j : Nat) : s.Settles (s.clearDelta j) := ⟨rfl, rfl, rfl, s.clearDelta_field j⟩

theorem State.settles_startCores (s : State) (j : Nat) : s.Settles (s.startCores j) := by
  rw [State.startCores_frame]
  exact ⟨rfl, rfl, rfl, fun _ => rfl⟩

theorem State.settles_netReset (s : State) (j : Nat) : s.Settles (s.netReset j) := ⟨rfl, rfl, rfl, fun _ => rfl⟩

/-- The job with its placement, before its configuration is loaded; `again` after a suspension. -/
def Job.placing (again : Bool) (work spare : List Nat) (q : Job) : Job :=
  { q with
    state := .running
    fields := work.map some
    spareFields := spare.map some
    inForce := if again then q.inForce else []
    renews := if again then q.renews else []
    epochAdd := if again then (q.epochAdd + 1) % 4 else 0
    holds := {}
    rolled := false
    noCover := false
    inPlace := false
    log := []
    replayTo := none
    inputs := []
    nextInput := 0
    poisonAt := [] }

/-- The job with the fields that its wash has found bad. -/
def Job.checked (bad : List Nat) (q : Job) : Job := { q with faultFields := bad, holds := { fault := !bad.isEmpty } }

/-- The exposure with which START begins (spec/09 R228, R257). -/
def Job.firstExposure (q : Job) : Nat := if q.state == .suspended then q.lastCkpt else 0

/-- The partition, washed and loaded. -/
theorem State.placeJob_eq (s : State) (j : Nat) (work spare : List Nat) (stuck : Stuck) : ∃ u bad,
    ((s.modJob j (Job.placing ((s.job j).state == .suspended) work spare)).joined j work spare).Settles u ∧
    s.placeJob j work spare stuck = (((u.modJob j (Job.checked bad)).clearDelta j).startCores j).beginExposure j (s.job j).firstExposure := by
  obtain ⟨u, hu, heq⟩ := ((s.modJob j (Job.placing ((s.job j).state == .suspended) work spare)).joined j work spare).partitionReset_eq j stuck
  refine ⟨(u.clearDelta j).loaded j, ((u.clearDelta j).loaded j).badFields j, ?_, ?_⟩
  · exact (State.settles_netReset _ j).trans (hu.settles.trans ((u.settles_clearDelta j).trans (State.reloads_loaded _ j).settles))
  · rw [← heq]
    rfl

/-- START places the job on its fields and begins its first exposure. -/
theorem State.placeJob_spec (s : State) {j : Nat} (hj : j < 16) (work spare : List Nat) (stuck : Stuck) :
    let t := s.placeJob j work spare stuck
    (∃ bad r, t.job j = { (((s.job j).placing ((s.job j).state == .suspended) work spare).checked bad).begun s.now (s.job j).firstExposure
      with replayTo := r }) ∧
    (∀ m, m ≠ j → t.job m = s.job m) ∧ (∀ f < 60, f ∈ work ++ spare → (t.field f).job = some j) ∧
    t.cp.owner = s.cp.owner := by
  intro t
  obtain ⟨u, bad, hu, heq⟩ := s.placeJob_eq j work spare stuck
  have hstart := ((u.modJob j (Job.checked bad)).settles_clearDelta j).trans (State.settles_startCores _ j)
  generalize ((u.modJob j (Job.checked bad)).clearDelta j).startCores j = w at *
  have hjoined := (s.modJob j (Job.placing ((s.job j).state == .suspended) work spare)).joined_frame j work spare
  have hmember (f : Nat) (hf : f < 60) (h : f ∈ work ++ spare) :=
    (s.modJob j (Job.placing ((s.job j).state == .suspended) work spare)).joined_job j hf h
  generalize State.joined _ j work spare = v at *
  have hjob (m : Nat) : u.job m = (s.modJob j (Job.placing ((s.job j).state == .suspended) work spare)).job m := by
    rw [hu.job, hjoined]
    rfl
  have hwjob : w.job j = ((s.job j).placing ((s.job j).state == .suspended) work spare).checked bad := by
    rw [hstart.job, State.job_modJob, if_pos ⟨rfl, hj⟩, hjob, State.job_modJob, if_pos ⟨rfl, hj⟩]
  have hnow : w.now = s.now := by
    rw [hstart.now]
    exact hu.now.trans (by rw [hjoined]; rfl)
  have hcp : w.cp = s.cp := by
    rw [hstart.cp]
    exact hu.cp.trans (by rw [hjoined]; rfl)
  have hbegin := w.begins_beginExposure j (s.job j).firstExposure
  obtain ⟨-, -, -, hfields⟩ := State.beginExposure_noLog (s := w) hj (s.job j).firstExposure (.inl (by rw [hwjob]; rfl))
  have ht : t = w.beginExposure j (s.job j).firstExposure := heq
  clear_value t
  rw [← ht] at hbegin hfields
  refine ⟨⟨bad, (t.job j).replayTo, ?_⟩, fun m hm => ?_, fun f hf h => ?_, ?_⟩
  · have htjob := hbegin.job hj
    rwa [hwjob, hnow] at htjob
  · rw [hbegin.other m hm, hstart.job, State.job_modJob, if_neg (fun h => hm h.1.symm), hjob, State.job_modJob,
      if_neg (fun h => hm h.1.symm)]
  · rw [(hfields f).1, hstart.field]
    exact (hu.field f).trans (hmember f hf h)
  · rw [hbegin.state, hcp]

/-! ### START (spec/09 R225, Table 13.9) -/

section

variable {s : State} {n : Nat} {e : Entry} {stuck : Stuck}

theorem exec_start (h : Started s n 0x0202 e) (hj : e.p 0 1 < 16) (ha : e.p 1 1 < 60) (hc : e.clean [(0, 2)] = true) :
    exec (.start n stuck) s = .next (s.startJob e stuck) :=
  congrArg _ (State.cmd_started h hc (by simp [slotOk, hj, ha]) _)

theorem State.startJob_badState (hl : (s.job (e.p 0 1)).state ≠ .loaded) (hs : (s.job (e.p 0 1)).state ≠ .suspended) :
    s.startJob e stuck = s.complete e stBadState [] := by
  rw [State.startJob]
  exact if_pos (by simp [hl, hs])

theorem State.firstOut_none {q : Job} {work : List Nat} (h : ∀ ci ∈ q.image.cores, ∃ f, work[ci.at_.lf]? = some f ∧
    s.code (coreAtPos f ci.at_.pos) = 0 ∧ s.hubOut ((coreAtPos f ci.at_.pos).x / 16) ((coreAtPos f ci.at_.pos).y / 16) = false) :
    s.firstOut q work = none := by
  rw [State.firstOut, List.find?_eq_none]
  intro p hp
  obtain ⟨ci, hci, rfl⟩ := List.mem_map.1 hp
  obtain ⟨f, hf, hcode, hhub⟩ := h ci hci
  simp [hf, State.inService, hcode, hhub]

/-- START of a job whose regions, fields, configuration and positions are as spec/09 R225 asks. -/
theorem State.startJob_places {work spare : List Nat} (hst : (s.job (e.p 0 1)).state = .loaded ∨ (s.job (e.p 0 1)).state = .suspended)
    (hreg : s.regionsOk (e.p 0 1) = true) (hdrain : s.drain = false)
    (hplace : placeShape (e.p 1 1) ((s.job (e.p 0 1)).image.working ++ (s.job (e.p 0 1)).image.spares) = some (work ++ spare))
    (hlen : work.length = (s.job (e.p 0 1)).image.working.length)
    (hfree : ∀ f ∈ work ++ spare, s.fieldOk f = true ∧ (s.field f).job = none)
    (hconfig : configBad (s.job (e.p 0 1)).image (s.job (e.p 0 1)).inForce = none)
    (hpos : s.firstOut (s.job (e.p 0 1)) work = none) :
    s.startJob e stuck = ((s.placeJob (e.p 0 1) work spare stuck).complete e stOk
      (leBytes 8 ((s.placeJob (e.p 0 1) work spare stuck).job (e.p 0 1)).expNo ++
        leBytes 8 ((s.placeJob (e.p 0 1) work spare stuck).job (e.p 0 1)).begin_)).jobEvent (e.p 0 1) 2 0
      ((s.placeJob (e.p 0 1) work spare stuck).job (e.p 0 1)).expNo := by
  have hguard : (!((s.job (e.p 0 1)).state == .loaded || (s.job (e.p 0 1)).state == .suspended) || !s.regionsOk (e.p 0 1) ||
      s.drain) = false := by
    rcases hst with h | h <;> simp [h, hreg, hdrain]
  have htaken : (work ++ spare).any (fun f => !s.fieldOk f || (s.field f).job.isSome) = false := by
    rw [List.any_eq_false]
    intro f hf
    obtain ⟨hok, hjob⟩ := hfree f hf
    simp [hok, hjob]
  have htake : (work ++ spare).take (s.job (e.p 0 1)).image.working.length = work := by rw [← hlen, List.take_left]
  have hdrop : (work ++ spare).drop (s.job (e.p 0 1)).image.working.length = spare := by rw [← hlen, List.drop_left]
  simp only [State.startJob, hguard, hplace, htaken, hconfig, htake, hdrop, hpos]
  rfl

end

/-- Settles O39: LOAD_JOB by what its reads bring and by the place of region 0; UNLOAD_JOB by the emptied slot; START by the placement and the
beginning of its first exposure. -/
theorem loadingAndStarting : Obligations.LoadingAndStarting := by
  unfold Obligations.LoadingAndStarting
  intro s n e stuck hj j q x others gone
  refine ⟨fun h hc hempty hreach hpost hsize => ?load, fun r h hc => ?loadRefused, fun h hc hst => ?unload,
    fun work spare h hc ha hst hreg hdrain hplace hlen hfree hconfig hpos => ?start, fun h hc hl hs => ?unloadRefused,
    fun h hc ha hl hs => ?startRefused⟩
  case load =>
    obtain ⟨l, hl, hsend, hbrought⟩ := State.imageReads_sending hpost hsize
    have hexec (r : HostRead JobImage) := exec_loadJob h hj hc r
    simp only [State.loadJob_reads _ hempty hreach, hbrought, hsend] at hexec
    have hplace (im : JobImage) : (sending s e.port l).lowestFree allStacks (region0Size im.region0) =
        s.lowestFree allStacks (region0Size im.region0) := State.lowestFree_congr rfl rfl rfl
    have hok (im : JobImage) : exec (.loadJob n (.ok im)) s =
        .next ((sending s e.port l).loadAt e im (s.lowestFree allStacks (region0Size im.region0))) := by
      rw [← hplace im]
      exact hexec (.ok im)
    refine ⟨l, hl, hexec .failed, hexec .bad, fun im off => ⟨fun hlow => ?_, fun hnone => ?_⟩⟩
    · have hfound : s.lowestFree allStacks (region0Size im.region0) = some off := State.lowestFree_of_lowest hlow
      have hload := hok im
      rw [hfound] at hload
      obtain ⟨hslot, hother, hcp⟩ := State.loadInto_spec (s := sending s e.port l) hj im off
      refine ⟨_, hload, ?_⟩
      show (State.job ((sending s e.port l).loadInto e im off) (e.p 0 1)).state = _ ∧ _
      rw [show j = e.p 0 1 from rfl, show State.loadAt (sending s e.port l) e im (some off) = (sending s e.port l).loadInto e im off from rfl,
        hslot]
      exact ⟨rfl, rfl, rfl, rfl, rfl, fun k _ hk => hother k hk, congrArg CpState.journal hcp, by rw [hcp]; rfl⟩
    · have hfull : s.lowestFree allStacks (region0Size im.region0) = none := State.lowestFree_none hnone
      have hload := hok im
      rwa [hfull] at hload
  case loadRefused =>
    rw [exec_loadJob h hj hc]
    exact ⟨fun hbad => congrArg _ (State.loadJob_badState r hbad),
      fun hempty hreach hpost => congrArg _ (State.loadJob_unsent r hempty hreach hpost)⟩
  case unload =>
    obtain ⟨hslot, hother, hclosed⟩ := s.emptySlot_spec hj
    obtain ⟨hstate, htold, -⟩ := (s.emptySlot (e.p 0 1)).replied_complete e stOk []
    have hcp := (s.emptySlot (e.p 0 1)).complete_cp e stOk []
    refine ⟨_, (exec_unloadJob h hj hc).trans (congrArg _ (State.unloadJob_empties hst)), ?_⟩
    generalize State.complete _ e stOk [] = t at *
    have hjob (m : Nat) : t.job m = (s.emptySlot (e.p 0 1)).job m := by rw [State.job, hstate]; rfl
    refine ⟨(hjob _).trans hslot, fun k _ hk => (hjob k).trans (hother k hk), fun d hd => ?_, fun p => (htold p).closed (hclosed p)⟩
    rw [hcp] at hd
    simpa using (List.mem_filter.1 hd).2
  case start =>
    have hstart := (exec_start (stuck := stuck) h hj ha hc).trans (congrArg _ (State.startJob_places hst hreg hdrain hplace hlen hfree hconfig
      (State.firstOut_none hpos)))
    obtain ⟨⟨bad, r, hjob⟩, hother, hmember, howner⟩ := s.placeJob_spec hj work spare stuck
    obtain ⟨hjobs, hfields, hcp⟩ := (s.placeJob (e.p 0 1) work spare stuck).complete_event_frame e stOk
      (leBytes 8 ((s.placeJob (e.p 0 1) work spare stuck).job (e.p 0 1)).expNo ++
        leBytes 8 ((s.placeJob (e.p 0 1) work spare stuck).job (e.p 0 1)).begin_) (e.p 0 1) 2 0
      ((s.placeJob (e.p 0 1) work spare stuck).job (e.p 0 1)).expNo
    refine ⟨_, hstart, ?_⟩
    generalize State.jobEvent _ (e.p 0 1) 2 0 _ = t at *
    have htjob : t.job j = _ := (hjobs j).trans hjob
    have hfirst : (s.job j).firstExposure = if q.state = .suspended then q.lastCkpt else 0 := by
      simp only [Job.firstExposure, beq_iff_eq]
      rfl
    rw [htjob]
    refine ⟨rfl, rfl, rfl, hfirst, rfl, rfl, rfl, fun f hf => ?_, fun k _ hk => (hjobs k).trans (hother k hk), fun d hd => ?_, ?_⟩
    · have hlt : f < 60 := by
        have hok := (hfree f hf).1
        simp only [State.fieldOk, Bool.and_eq_true, decide_eq_true_eq] at hok
        obtain ⟨⟨⟨⟨hlt, -⟩, -⟩, -⟩, -⟩ := hok
        exact hlt
      rw [State.field, hfields]
      exact hmember f hlt hf
    · rw [hcp] at hd
      simpa using (List.mem_filter.1 hd).2
    · rw [hcp]
      exact howner
  case unloadRefused => exact (exec_unloadJob h hj hc).trans (congrArg _ (State.unloadJob_badState hl hs))
  case startRefused => exact (exec_start h hj ha hc).trans (congrArg _ (State.startJob_badState hl hs))

end Sys2Proof.Machine

/-! SUPPORT. Reports of field controllers, the comparison of TICK copies, and the tick (spec/01 R16, spec/09 R221, R222, spec/14 R364, R366). -/

namespace Sys2Proof.Machine

open Sys2Proof.Claims

/-! ### Reports and TICK copies (spec/01 R16, spec/09 R222) -/

theorem exec_faultReport (f : Nat) (s : State) : exec (.faultReport f) s =
    .next (if s.cpRuns then s.modField f (fun x => { x with reports := [], busy := false }) else s) := rfl

theorem exec_tickCompare (h : TickCopy) (s : State) : exec (.tickCompare h) s = .next (s.tickCompare h) := rfl

section

variable {s : State} {f : Nat}

/-- The active die's copy of TICK, with which the others are compared. -/
def State.tickNow (s : State) : BitVec 64 := (s.port s.cp.cpact).tick

/-- What the next tick makes up of a difference. -/
def tickMend (d : Int) : Int := if d = 1 then -1 else if d = -1 then 1 else 0

theorem State.tickCompare_field (hf : f < 60) : s.tickCompare (.field f) =
    if 2 ≤ (tickDiff (s.field f).tick s.tickNow).natAbs then s.timebaseFault f
    else s.modField f (fun x => { x with tickAdj := tickMend (tickDiff (s.field f).tick s.tickNow) }) :=
  if_neg (Nat.not_le.2 hf)

theorem State.tickCompare_field_near (hf : f < 60) {d : Int} (hd : tickDiff (s.field f).tick s.tickNow = d) (h : d.natAbs < 2) :
    s.tickCompare (.field f) = s.modField f (fun x => { x with tickAdj := tickMend d }) := by
  rw [State.tickCompare_field hf, hd, if_neg (Nat.not_le.2 h)]

theorem State.tickCompare_stack_ahead {n : Nat} (hn : n < 16) (h : (s.stack n).tick = s.tickNow + 1)
    (hmax : s.tickNow ≠ BitVec.allOnes 64) : s.tickCompare (.stack n) = s.modStack n (fun x => { x with tickAdj := -1 }) := by
  have hd : tickDiff (s.stack n).tick s.tickNow = 1 := by
    have hlt := s.tickNow.isLt
    have hne : s.tickNow.toNat ≠ 2 ^ 64 - 1 := fun h => hmax (BitVec.eq_of_toNat_eq (by rw [h, BitVec.toNat_allOnes]))
    have hone : (1 : BitVec 64).toNat = 1 := rfl
    rw [tickDiff, h, BitVec.toNat_add, hone]
    omega
  have heq : s.tickCompare (.stack n) = if 2 ≤ (tickDiff (s.stack n).tick s.tickNow).natAbs
      then s.errorRecord { mkRec clsTimebase 2 4 with unit := n }
      else s.modStack n (fun x => { x with tickAdj := tickMend (tickDiff (s.stack n).tick s.tickNow) }) := if_neg (Nat.not_le.2 hn)
  rw [heq, hd]
  rfl

theorem State.tickCompare_die_same {p : Port} (h : (s.port p).tick = s.tickNow) :
    s.tickCompare (.die p) = s.modPort p (fun x => { x with tickAdj := 0 }) := by
  have hd : tickDiff (s.port p).tick s.tickNow = 0 := by rw [tickDiff, h, Int.sub_self]
  have heq : s.tickCompare (.die p) = if 2 ≤ (tickDiff (s.port p).tick s.tickNow).natAbs
      then s.errorRecord { mkRec clsTimebase 2 5 with unit := p.num }
      else s.modPort p (fun x => { x with tickAdj := tickMend (tickDiff (s.port p).tick s.tickNow) }) := rfl
  rw [heq, hd]
  rfl

/-- A fault of a field holds its job's develop point. -/
theorem State.faultField_holds {j : Nat} (hj : j < 16) (hjob : (s.field f).job = some j) (hrun : (s.job j).state = .running) :
    ((s.faultField f).job j).holds.fault = true ∧ f ∈ ((s.faultField f).job j).faultFields := by
  have heq : s.faultField f = s.modJob j (fun q =>
      if q.state == .running || q.state == .paused then
        { q with holds := { q.holds with fault := true }, faultFields := if q.faultFields.contains f then q.faultFields else q.faultFields ++ [f] }
      else q) := by
    rw [State.faultField, State.fieldJob, hjob]
  rw [heq, State.job_modJob, if_pos ⟨rfl, hj⟩, hrun, if_pos (by decide)]
  refine ⟨rfl, ?_⟩
  show f ∈ if _ then _ else _
  split
  · next h => simpa using h
  · simp

theorem State.faultField_frame (s : State) (f : Nat) : s.faultField f = { s with jobs := (s.faultField f).jobs } := by
  unfold State.faultField
  split <;> rfl

/-- A time-base fault loses the field; its job has a faulty field more. -/
theorem State.timebaseFault_spec (s : State) (hf : f < 60) : (s.timebaseFault f).field f = { s.field f with lost := true } ∧
    (∀ j < 16, (s.field f).job = some j → (s.job j).state = .running →
      ((s.timebaseFault f).job j).holds.fault = true ∧ f ∈ ((s.timebaseFault f).job j).faultFields) ∧
    (∀ g, g ≠ f → (s.timebaseFault f).field g = s.field g) ∧ (s.timebaseFault f).cores = s.cores ∧ (s.timebaseFault f).net = s.net ∧
    (s.timebaseFault f).stk = s.stk := by
  have hrec := (s.recorded_errorRecord { mkRec clsTimebase 2 3 with field := f, job := (s.fieldJob f).getD 0xFF }).1
  have heq : s.timebaseFault f = ((s.errorRecord { mkRec clsTimebase 2 3 with field := f, job := (s.fieldJob f).getD 0xFF }).faultField
    f).modField f (fun x => { x with lost := true }) := rfl
  generalize s.errorRecord { mkRec clsTimebase 2 3 with field := f, job := (s.fieldJob f).getD 0xFF } = t at *
  have hframe := t.faultField_frame f
  have hholds {j : Nat} (hj : j < 16) := State.faultField_holds (s := t) (f := f) hj
  generalize t.faultField f = u at *
  have hufield (g : Nat) : u.field g = s.field g := by rw [hframe, hrec]; rfl
  rw [heq]
  refine ⟨?_, fun j hj hjob hrun => ?_, fun g hg => ?_, ?_, ?_, ?_⟩
  · rw [State.field_modField, if_pos ⟨rfl, hf⟩, hufield]
  · have htjob : (t.field f).job = some j := by rw [hrec]; exact hjob
    have htrun : (t.job j).state = .running := by rw [hrec]; exact hrun
    exact hholds hj htjob htrun
  · rw [State.field_modField, if_neg (fun h => hg h.1.symm), hufield]
  · rw [State.modField_cores, hframe, hrec]
  · rw [State.modField_net, hframe, hrec]
  · rw [State.modField_stk, hframe, hrec]

end

/-! ### The tick (spec/09 R221, spec/14 R364, R366) -/

section

variable {s : State}

/-- The clocks of the standby and the control domain have gone on. -/
def State.clocked (s : State) : State :=
  { s with mod := { s.mod with
    sby := s.mod.sby + b2n s.mod.standby
    ctl := s.mod.ctl + b2n (s.ports.a.refPresent || s.ports.b.refPresent) } }

theorem State.step_idle (h : s.pending = []) : step s = .next s.tick := by rw [step, h]

theorem State.serveAllHeld_none {p : Port} (h : (s.port p).heldReads = []) : s.serveAllHeld p = s := by
  simp [State.serveAllHeld, h]

/-- Without a held read a tick is the clocks alone, and what TICK counts while a time source is present. -/
theorem State.tick_eq (h : ∀ p, (s.port p).heldReads = []) : s.tick = if s.mod.tsPresent
    then (List.range 16).foldl State.rebuildOn ((List.range 16).foldl State.tickJob s.clocked.advance) else s.clocked := by
  have hserve : (s.clocked.serveAllHeld .a).serveAllHeld .b = s.clocked := by
    rw [State.serveAllHeld_none (s := s.clocked) (h .a), State.serveAllHeld_none (s := s.clocked) (h .b)]
  have heq : s.tick = if ((s.clocked.serveAllHeld .a).serveAllHeld .b).mod.tsPresent then (List.range 16).foldl State.rebuildOn
      ((List.range 16).foldl State.tickJob ((s.clocked.serveAllHeld .a).serveAllHeld .b).advance)
    else (s.clocked.serveAllHeld .a).serveAllHeld .b := rfl
  rw [heq, hserve]
  rfl

/-- `t` is `s` with counts of develop points and of safelight intervals: no copy of TICK has changed. -/
structure State.Counted (s t : State) : Prop where
  state : t = { s with jobs := t.jobs, fields := t.fields }
  tick : ∀ f, (t.field f).tick = (s.field f).tick

theorem State.Counted.refl (s : State) : s.Counted s := ⟨rfl, fun _ => rfl⟩

theorem State.Counted.trans {s t u : State} (h : s.Counted t) (k : t.Counted u) : s.Counted u :=
  ⟨by rw [k.state, h.state], fun f => (k.tick f).trans (h.tick f)⟩

theorem State.counted_modFields (s : State) (l : List Nat) {g : FieldState → FieldState} (hg : ∀ x : FieldState, (g x).tick = x.tick) :
    s.Counted (l.foldl (fun s f => s.modField f g) s) :=
  List.foldlRecOn (motive := s.Counted) l _ (State.Counted.refl s) (fun t h n _ => h.trans
    ⟨rfl, State.modField_rel (R := fun x y => y.tick = x.tick) (fun _ => rfl) t n hg⟩)

theorem State.counted_modJob (s : State) (j : Nat) (g : Job → Job) : s.Counted (s.modJob j g) := ⟨rfl, fun _ => rfl⟩

theorem State.counted_tickJob (s : State) (j : Nat) : s.Counted (s.tickJob j) := by
  unfold State.tickJob
  dsimp only
  split
  · exact State.Counted.refl s
  · split
    · exact (s.counted_modJob j _).trans (State.counted_modFields _ _ (fun _ => rfl))
    · split
      · exact s.counted_modFields _ (fun _ => rfl)
      · exact State.Counted.refl s

/-- Without a rebuild in progress a tick rebuilds nothing. -/
theorem State.rebuildOn_none (h : ∀ n < 16, (s.stack n).rebuild = none) : (List.range 16).foldl State.rebuildOn s = s := by
  refine List.foldlRecOn (motive := fun t => t = s) _ _ rfl (fun t ht n hn => ?_)
  rw [ht, State.rebuildOn, h n (List.mem_range.1 hn)]

theorem tickOn_zero (t : BitVec 64) : tickOn t 0 = t + 1 := rfl

theorem State.advance_field {f : Nat} (hf : f < 60) : (s.advance.field f).tick = tickOn (s.field f).tick (s.field f).tickAdj := by
  simp [State.field, State.advance, tget, hf]

theorem State.advance_stack {n : Nat} (hn : n < 16) : (s.advance.stack n).tick = tickOn (s.stack n).tick (s.stack n).tickAdj ∧
    (s.advance.stack n).rebuild = (s.stack n).rebuild := by
  simp [State.stack, State.advance, tget, hn]

theorem State.advance_port (p : Port) : (s.advance.port p).tick = tickOn (s.port p).tick (s.port p).tickAdj := by
  cases p <;> rfl

/-- With a time source every copy of TICK advances by one in a tick. -/
theorem State.tick_advances (hheld : ∀ p, (s.port p).heldReads = []) (hts : s.mod.tsPresent = true)
    (hre : ∀ n < 16, (s.stack n).rebuild = none) :
    (∀ p, (s.tick.port p).tick = tickOn (s.port p).tick (s.port p).tickAdj) ∧
    (∀ f < 60, (s.tick.field f).tick = tickOn (s.field f).tick (s.field f).tickAdj) ∧
    (∀ n < 16, (s.tick.stack n).tick = tickOn (s.stack n).tick (s.stack n).tickAdj) ∧ s.tick.cores = s.cores ∧ s.tick.net = s.net := by
  have hcount : s.clocked.advance.Counted ((List.range 16).foldl State.tickJob s.clocked.advance) :=
    List.foldlRecOn (motive := s.clocked.advance.Counted) _ _ (State.Counted.refl _) (fun t h j _ => h.trans (t.counted_tickJob j))
  rw [State.tick_eq hheld, if_pos hts]
  generalize (List.range 16).foldl State.tickJob s.clocked.advance = t at *
  obtain ⟨hstate, htick⟩ := hcount
  have hstack (n : Nat) : t.stack n = s.clocked.advance.stack n := by rw [hstate]; rfl
  rw [State.rebuildOn_none (fun n hn => by rw [hstack, (State.advance_stack hn).2]; exact hre n hn)]
  refine ⟨fun p => ?_, fun f hf => ?_, fun n hn => ?_, by rw [hstate]; rfl, by rw [hstate]; rfl⟩
  · rw [hstate]
    exact State.advance_port (s := s.clocked) p
  · rw [htick]
    exact State.advance_field (s := s.clocked) hf
  · rw [hstack]
    exact (State.advance_stack (s := s.clocked) hn).1

end

end Sys2Proof.Machine

/-! SUPPORT. The safelight interval (spec/09 R246, R249, Table 9.7), and the statement about it, the reports, the TICK copies and the tick. -/

namespace Sys2Proof.Machine

open Sys2Proof.Claims

/-! ### The drain of a safelight interval (spec/09 R249) -/

section

variable {s : State} {j : Nat} {o : Overlay}

theorem exec_safelightDrainEnd (hrun : (s.job j).state = .running) (h : (s.job j).safelight = .drain o) : exec (.safelightDrainEnd j) s =
    .next (if s.slotInNet j then s else s.modJob j (fun x => { x with safelight := .apply o })) := by
  have heq : exec (.safelightDrainEnd j) s = .next (match (s.job j).safelight with
    | .drain o => if (s.job j).state != .running || s.slotInNet j then s else s.modJob j (fun q => { q with safelight := .apply o })
    | _ => s) := rfl
  rw [heq, h, hrun]
  rfl

theorem State.slotInNet_iff : s.slotInNet j = true ↔ ∃ p ∈ s.net, p.slot = j ∧ (s.route p).pos = none := by
  simp [State.slotInNet]

/-! ### The start of the next exposure (spec/09 R246) -/

/-- The job with an overlay in force that changes no core. -/
def Job.lit (o : Overlay) (q : Job) : Job :=
  { q with
    renews := q.renews ++ []
    inForce := q.inForce ++ [o]
    expLen := o.expLen.getD q.expLen
    holdMax := o.holdMax.getD q.holdMax
    safelight := .idle }

/-- A core let go: STOPAT no longer stops it. -/
def CoreState.letGo (x : CoreState) : CoreState := { x with stopat := false, stopped := false }

theorem CoreState.keepsWork_letGo (x : CoreState) : x.KeepsWork x.letGo := ⟨rfl, rfl, rfl, rfl, rfl, rfl⟩

/-- Without a queue renewed or reset no input is lost. -/
theorem State.concludes_abortRenewed (j : Nat) (h : o.discards = []) : State.Concludes j s (s.abortRenewed j o) := by
  have hnone : (s.job j).inputs.filter (fun x => o.discards.contains (x.dest, x.queue)) = [] := by
    rw [h, List.filter_eq_nil_iff]
    exact fun _ _ => Bool.false_ne_true
  unfold State.abortRenewed
  rw [hnone]
  exact s.concludes_modJob j (fun _ => rfl)

/-- The module as the overlay is in force and the command that asked for it has its reply, its cores still stopped. -/
def State.lit (s : State) (j : Nat) (o : Overlay) : State :=
  ((s.modJob j (Job.lit o)).abortRenewed j o).completeIf (fun e => e.started && e.opcode == 0x208 && e.p 0 1 == j) stOk (fun _ _ => [])

/-- All scheduled cores of a job let go. -/
def State.letGo (s : State) (j : Nat) : State := (s.schedCores j).foldl (fun s c => s.modCore c CoreState.letGo) s

theorem State.safelightStart_eq (h : (s.job j).safelight = .apply o) (hch : o.changes = []) : s.safelightStart j =
    ((((s.lit j o).letGo j).nextExposure j).schedCores j).foldl (fun s c => State.kick kickFuel s c) (((s.lit j o).letGo j).nextExposure j) := by
  unfold State.safelightStart
  rw [h]
  simp only [hch, List.foldl_nil, List.flatMap_nil]
  rfl

theorem State.concludes_lit (s : State) (j : Nat) (hch : o.changes = []) : State.Concludes j (s.modJob j (Job.lit o)) (s.lit j o) :=
  (State.concludes_abortRenewed j (by rw [Overlay.discards, hch]; rfl)).trans ((State.replied_completeIf _ _ _ _).concludes j)

theorem State.letGo_frame (s : State) (j : Nat) : s.letGo j = { s with cores := (s.letGo j).cores } :=
  State.foldl_modCore_frame s _ (fun _ => CoreState.letGo)

theorem State.letGo_keepsWork (s : State) (j : Nat) (c : CoreId) : (s.core c).KeepsWork ((s.letGo j).core c) :=
  State.foldl_modCore_rel CoreState.KeepsWork.refl CoreState.KeepsWork.trans s _ (fun _ => CoreState.keepsWork_letGo) c

theorem State.letGo_core {c : CoreId} (hc : c ∈ s.schedCores j) :
    ((s.letGo j).core c).stopat = false ∧ ((s.letGo j).core c).stopped = false := by
  unfold State.letGo
  refine foldl_reaches (before := fun _ => True) (after := fun t => (t.core c).stopat = false ∧ (t.core c).stopped = false)
    (fun _ _ _ => trivial) (fun t d h => ?_) (fun t _ => ?_) trivial hc
  · rw [State.core_modCore]
    split
    · exact ⟨rfl, rfl⟩
    · exact h
  · rw [State.core_modCore, if_pos rfl]
    exact ⟨rfl, rfl⟩

/-- Cores with nothing queued start nothing. -/
theorem State.kicks_idle {l : List CoreId} (h : ∀ c ∈ l, NoQueued (s.core c)) (n : Nat) :
    l.foldl (fun s c => State.kick n s c) s = s := by
  refine List.foldlRecOn (motive := fun t => t = s) l _ rfl (fun t ht c hc => ?_)
  obtain ⟨h1, h2, h3⟩ := h c hc
  rw [ht, State.kick_idle s c n h1 h2 h3]

theorem CoreState.KeepsWork.noQueued {x y : CoreState} (h : x.KeepsWork y) (hx : NoQueued x) : NoQueued y := by
  obtain ⟨h1, h2, h3⟩ := hx
  exact ⟨by rw [h.e1, h1], by rw [h.e2, h2], by rw [h.e3, h3]⟩

/-- The next exposure once the overlay is in force. -/
theorem State.safelightStart_spec (hj : j < 16) (h : (s.job j).safelight = .apply o) (hch : o.changes = [])
    (hidle : ∀ c ∈ s.schedCores j, NoQueued (s.core c)) :
    (∃ active shadow commit inputs replay, (s.safelightStart j).job j = { (({ (s.job j).lit o with
      ovActive := active, ovShadow := shadow, commitReq := commit, inputs := inputs } : Job).begun s.now ((s.job j).expNo + 1)) with
        replayTo := replay }) ∧
    (∀ c ∈ s.schedCores j, ((s.safelightStart j).core c).stopat = false ∧ ((s.safelightStart j).core c).stopped = false ∧
      ((s.safelightStart j).core c).done = false) ∧
    (∀ m, m ≠ j → (s.safelightStart j).job m = s.job m) ∧ (s.safelightStart j).mod = s.mod ∧ (s.safelightStart j).fw = s.fw := by
  have hlit := s.concludes_lit (o := o) j hch
  have heq := State.safelightStart_eq h hch
  generalize s.lit j o = u at *
  have hcores (c : CoreId) : u.core c = s.core c := by rw [hlit.state]; rfl
  have hsched := hlit.job
  rw [State.job_modJob, if_pos ⟨rfl, hj⟩] at hsched
  obtain ⟨active, shadow, commit, inputs, hjob⟩ : ∃ active shadow commit inputs, u.job j = { (s.job j).lit o with
      ovActive := active, ovShadow := shadow, commitReq := commit, inputs := inputs } := ⟨_, _, _, _, hsched⟩
  have husched : u.schedCores j = s.schedCores j :=
    State.schedCores_congr (by rw [hjob]; rfl) (by rw [hjob]; rfl) (fun c => by rw [hcores])
  have hgo (c : CoreId) (hc : c ∈ s.schedCores j) := State.letGo_core (s := u) (husched ▸ hc)
  have hkeep := u.letGo_keepsWork j
  have hframe := u.letGo_frame j
  generalize u.letGo j = v at *
  have hvjob (m : Nat) : v.job m = u.job m := by rw [hframe]; rfl
  have hvsched : v.schedCores j = s.schedCores j := by
    rw [← husched]
    exact State.schedCores_congr (by rw [hvjob]) (by rw [hvjob]) (fun c => (hkeep c).sched)
  have hnow : v.now = s.now := by
    rw [hframe]
    exact State.now_of_told (by rw [hlit.state]; rfl) hlit.told
  have hbegun := State.nextExposure_begun (s := v) hj
  have hother (m : Nat) (hm : m ≠ j) := State.nextExposure_other v j hm
  have hstops (c : CoreId) := v.nextExposure_core (R := fun x y => y.stopat = x.stopat ∧ y.stopped = x.stopped) j
    (fun _ => ⟨rfl, rfl⟩) (fun h k => ⟨k.1.trans h.1, k.2.trans h.2⟩) (fun _ => ⟨rfl, rfl⟩) (fun _ _ => ⟨rfl, rfl⟩) c
  have hreleased (c : CoreId) (hc : c ∈ s.schedCores j) := v.nextExposure_released j (hvsched.symm ▸ hc)
  have hwork := v.nextExposure_keepsWork j
  have hnext := v.nextExposure_frame j
  generalize v.nextExposure j = w at *
  have hwsched : w.schedCores j = s.schedCores j := by
    rw [← hvsched]
    exact State.schedCores_congr (by rw [hbegun]; rfl) (by rw [hbegun]; rfl) (fun c => (hwork c).sched)
  have hkicks := State.kicks_idle (s := w) (l := w.schedCores j) (fun c hc => ((hkeep c).trans (hwork c)).noQueued (by
    rw [hcores]
    exact hidle c (hwsched ▸ hc))) kickFuel
  rw [heq, hkicks]
  refine ⟨⟨active, shadow, commit, inputs, (w.job j).replayTo, ?job⟩, fun c hc => ?cores, fun m hm => ?other, ?mod, ?fw⟩
  case job =>
    rw [hvjob, hnow, hjob] at hbegun
    exact hbegun
  case cores =>
    obtain ⟨hstopat, hstopped⟩ := hgo c hc
    exact ⟨(hstops c).1.trans hstopat, (hstops c).2.trans hstopped, (hreleased c hc).1⟩
  case other => rw [hother m hm, hvjob, hlit.other m hm, State.job_modJob, if_neg (fun h => hm h.1.symm)]
  case mod => rw [hnext, hframe, hlit.state]; rfl
  case fw => rw [hnext, hframe, hlit.state]; rfl

theorem exec_safelightStart (hrun : (s.job j).state = .running) : exec (.safelightStart j) s = .next (s.safelightStart j) := by
  have heq : exec (.safelightStart j) s = .next (if (s.job j).state == .running then s.safelightStart j else s) := rfl
  rw [heq, hrun]
  rfl

end

/-- Settles O60: the interval by its drain and by the exposure that it begins; reports and copies of TICK by what the comparison finds; the tick
by what it counts. -/
theorem safelightReportsAndTime : Obligations.SafelightReportsAndTime := by
  unfold Obligations.SafelightReportsAndTime
  refine ⟨fun s j o hj hrun => ?safelight, fun s f hf => ?copies, fun s hpend hheld => ?tick⟩
  case safelight =>
    refine ⟨fun hdrain hgone => ?drained, fun hdrain hleft => ?draining, fun happly hch hidle => ?start⟩
    case drained =>
      rw [exec_safelightDrainEnd hrun hdrain, if_neg]
      rw [State.slotInNet_iff]
      rintro ⟨p, hp, hslot, hpos⟩
      have hin := hgone p hp hslot
      rw [hpos] at hin
      cases hin
    case draining => rw [exec_safelightDrainEnd hrun hdrain, if_pos (State.slotInNet_iff.2 hleft)]
    case start =>
      obtain ⟨⟨active, shadow, commit, inputs, replay, hjob⟩, hcores, hother, hmod, hfw⟩ := State.safelightStart_spec hj happly hch hidle
      refine ⟨_, exec_safelightStart hrun, ?_⟩
      rw [hjob]
      exact ⟨rfl, rfl, rfl, rfl, rfl, rfl, hcores, hother, hmod, hfw⟩
  case copies =>
    have hnear {d : Int} (hd : tickDiff (s.field f).tick s.tickNow = d) (h : d.natAbs < 2) :
        exec (.tickCompare (.field f)) s = .next (s.modField f (fun x => { x with tickAdj := tickMend d })) := by
      rw [exec_tickCompare, State.tickCompare_field_near hf hd h]
    refine ⟨fun hcp => ?_, fun hcp => ?_, fun hd => hnear hd (by decide), fun hd => hnear hd (by decide), fun hd => hnear hd (by decide),
      fun hd => ?_, fun n hn htick hmax => ?_, fun p htick => ?_⟩
    · rw [exec_faultReport, if_pos hcp]
    · rw [exec_faultReport, if_neg (by simp [hcp])]
    · refine ⟨_, ?_, s.timebaseFault_spec hf⟩
      rw [exec_tickCompare, State.tickCompare_field hf]
      exact congrArg _ (if_pos hd)
    · rw [exec_tickCompare, State.tickCompare_stack_ahead hn htick hmax]
    · rw [exec_tickCompare, State.tickCompare_die_same htick]
  case tick =>
    refine ⟨fun hts hre hports hfields hstacks => ⟨s.tick, State.step_idle hpend, ?_⟩, fun hts => ⟨s.tick, State.step_idle hpend, ?_⟩⟩
    · obtain ⟨hport, hfield, hstack, hcores, hnet⟩ := State.tick_advances hheld hts hre
      refine ⟨fun p => ?_, fun f hf => ?_, fun n hn => ?_, hcores, hnet⟩
      · rw [hport, hports, tickOn_zero]
      · rw [hfield f hf, hfields f hf, tickOn_zero]
      · rw [hstack n hn, hstacks n hn, tickOn_zero]
    · have heq : s.tick = s.clocked := by rw [State.tick_eq hheld, if_neg (by simp [hts])]
      rw [heq]
      exact ⟨rfl, rfl, rfl⟩

end Sys2Proof.Machine

/-! SUPPORT. One port updated and one entry of a table written: what two updates in a row come to, and bytes in little-endian order
(spec/00 R11). -/

namespace Sys2Proof

theorem tmod_eq_tset {α : Type} {n : Nat} (d : α) (v : Vector α n) (i : Nat) (f : α → α) : tmod v i f = tset v i (f (tget d v i)) := by
  by_cases h : i < n <;> simp [tmod, tset, tget, h]

@[simp] theorem tset_tset {α : Type} {n : Nat} (v : Vector α n) (i : Nat) (x y : α) : tset (tset v i x) i y = tset v i y := by
  by_cases h : i < n <;> simp [tset, h]

theorem leNat_leBytes (n v : Nat) : leNat (leBytes n v) = v % 256 ^ n := by
  induction n generalizing v with
  | zero => rw [Nat.pow_zero, Nat.mod_one]; rfl
  | succ n ih =>
    have hbyte : (BitVec.ofNat 8 v).toNat = v % 256 := rfl
    rw [leBytes, leNat, ih, hbyte, Nat.pow_succ', Nat.mod_mul]

theorem leNat_leBytes_word (d : Word) : leNat (leBytes 8 d.toNat) = d.toNat :=
  (leNat_leBytes 8 d.toNat).trans (Nat.mod_eq_of_lt d.isLt)

@[simp] theorem leBytes_length (n v : Nat) : (leBytes n v).length = n := by
  induction n generalizing v with
  | zero => rfl
  | succ n ih => rw [leBytes, List.length_cons, ih]

/-- A search over numbers that can find only one of them. -/
theorem findSome?_range_single {α : Type} {n i : Nat} (hi : i < n) (f : Nat → Option α) (h : ∀ m < n, m ≠ i → f m = none) :
    (List.range n).findSome? f = f i := by
  induction n with
  | zero => exact absurd hi (Nat.not_lt_zero i)
  | succ n ih =>
    rw [List.range_succ, List.findSome?_append, List.findSome?_singleton]
    rcases Nat.lt_succ_iff_lt_or_eq.1 hi with hlt | rfl
    · rw [ih hlt (fun m hm => h m (by omega)), h n (by omega) (by omega), Option.or_none]
    · have hnone : (List.range i).findSome? f = none :=
        List.findSome?_eq_none_iff.2 fun m hm => h m (by have := List.mem_range.1 hm; omega) (List.mem_range.1 hm).ne
      rw [hnone, Option.none_or]

namespace Machine

@[simp] theorem State.modPort_modPort (s : State) (p : Port) (f g : PortState → PortState) :
    (s.modPort p f).modPort p g = s.modPort p (fun x => g (f x)) := by
  cases p <;> rfl

@[simp] theorem Port.ofNum_num (p : Port) : Port.ofNum p.num = p := by cases p <;> rfl

theorem State.dieAttach_own {s : State} {p : Port} (h : (s.port p).viaPeer = false) : s.dieAttach p = some p := by
  simp [State.dieAttach, h]

end Machine
end Sys2Proof

/-! SUPPORT. The inbound windows of a port: the window a TLP is in, the part of it that goes to one destination, and the packets of a
companion die (spec/12 R309-R315, spec/09 R233, R254). -/

namespace Sys2Proof.Machine

open Sys2Proof.Claims

/-! ### The window a TLP is in (spec/12 R309, R315) -/

theorem InWin.holds_iff (w : InWin) (req : BitVec 16) (off len : Nat) : w.holds req off len = true ↔ WindowHolds w req off len := by
  simp [InWin.holds, WindowHolds, and_assoc]

section

variable {x : PortState} {i : Nat} {w : InWin} {req : BitVec 16} {off len : Nat}

theorem PortState.findWin_only (h : OnlyWindow x i w) (ok : InWin → Bool) :
    x.findWin ok req off len = if w.holds req off len && ok w then some (i, w) else none := by
  obtain ⟨hi, honly⟩ := h
  have hhere : tget none x.inWin i = some w := (honly i hi).trans (if_pos rfl)
  rw [PortState.findWin, findSome?_range_single hi]
  · rw [hhere]
    rfl
  · intro m hm hne
    rw [honly m hm, if_neg hne]
    rfl

theorem PortState.findWin_holds (h : OnlyWindow x i w) (hold : WindowHolds w req off len) {ok : InWin → Bool} (hok : ok w = true) :
    x.findWin ok req off len = some (i, w) := by
  rw [PortState.findWin_only h, (w.holds_iff req off len).2 hold, hok]
  rfl

theorem PortState.findWin_misses (h : OnlyWindow x i w) (hold : ¬ WindowHolds w req off len) (ok : InWin → Bool) :
    x.findWin ok req off len = none := by
  have hno : w.holds req off len = false := Bool.eq_false_iff.2 (fun hw => hold ((w.holds_iff req off len).1 hw))
  rw [PortState.findWin_only h, hno]
  rfl

theorem PortState.findWin_none (h : ∀ m < 64, tget none x.inWin m = none) (ok : InWin → Bool) : x.findWin ok req off len = none :=
  List.findSome?_eq_none_iff.2 fun m hm => by
    rw [h m (List.mem_range.1 hm)]
    rfl

end

/-! ### Where an offset of a window leads (spec/12 R310, Tables 12.4, 12.5) -/

/-- The destination that a window to a stack region has at offset `a`. -/
def regionDest (w : InWin) (r : Region) (a : Nat) : WinDest :=
  { dkind := 1, dx := w.stack, dy := 0, da := 2 ^ 44 + w.stack * 2 ^ 37 + (r.off + w.roff + a), lpos := none, room := w.size - a }

/-- The first core of a window to cores. -/
def firstPos (w : InWin) : LPos := { lf := w.lf, pos := 96 * w.ly0 + w.lx0 }

/-- The destination that a window to one core has at its first byte. -/
def coreDest (w : InWin) (c : CoreId) : WinDest :=
  { dkind := 0, dx := c.x, dy := c.y, da := c.x * 2 ^ 34 + c.y * 2 ^ 24, lpos := some (firstPos w), room := w.size }

theorem packFields_three (a b c x y z : Nat) : packFields [(a, x), (b, y), (c, z)] = x * 2 ^ a + y * 2 ^ b + z * 2 ^ c := by
  rw [packFields, List.foldl_cons, List.foldl_cons, List.foldl_cons, List.foldl_nil, Nat.zero_add]

theorem packFields_region (stack off : Nat) : packFields [(44, 1), (37, stack), (0, off)] = 2 ^ 44 + stack * 2 ^ 37 + off := by
  rw [packFields_three, Nat.one_mul, Nat.pow_zero, Nat.mul_one]

theorem daCore_zero (c : CoreId) : daCore c 0 = c.x * 2 ^ 34 + c.y * 2 ^ 24 := by
  rw [daCore, packFields_three, Nat.zero_mul, Nat.add_zero]

theorem State.winDest_region (s : State) {w : InWin} {r : Region} (a : Nat) (hkind : w.kind = 1)
    (hr : (s.job w.job).region w.region w.stack = some r) : s.winDest w a = some (regionDest w r a) := by
  simp [State.winDest, hkind, hr, packFields_region, regionDest]

theorem Job.place_working {q : Job} {f : Nat} {at_ : LPos} (h : q.fields[at_.lf]? = some (some f)) :
    q.place at_ = some (coreAtPos f at_.pos) := by
  simp [Job.place, h]

theorem State.winDest_core (s : State) {w : InWin} {c : CoreId} (hkind : w.kind = 0) (hstride : w.stride = w.size) (hb : w.boff = 0)
    (hpart : (s.job w.job).holdsPartition = true) (hplace : (s.job w.job).place (firstPos w) = some c) :
    s.winDest w 0 = some (coreDest w c) := by
  rw [firstPos] at hplace
  simp [State.winDest, hkind, hstride, hb, hpart, hplace, daCore_zero, coreDest, firstPos]

theorem State.splitRun_nil {α : Type} (s : State) (w : InWin) (n a : Nat) : s.splitRun w n a ([] : List α) = some [] := by
  cases n <;> rfl

/-- A run of bytes that one destination takes whole. -/
theorem State.splitRun_one {α : Type} {s : State} {w : InWin} {d : WinDest} {a : Nat} {bs : List α} (n : Nat)
    (hd : s.winDest w a = some d) (hpos : 0 < bs.length) (hroom : bs.length ≤ d.room) : s.splitRun w (n + 1) a bs = some [(d, bs)] := by
  have hne : bs.isEmpty = false := by
    cases bs with
    | nil => exact absurd hpos (Nat.lt_irrefl 0)
    | cons _ _ => rfl
  have hle : bs.length ≤ max 1 d.room := Nat.le_trans hroom (Nat.le_max_right 1 _)
  simp [State.splitRun, hne, hd, List.drop_eq_nil_of_le hle, State.splitRun_nil, List.take_of_length_le hle]

/-! ### One word of a window (spec/12 R311) -/

theorem enabledBytes_length (d : Word) : ((leBytes 8 d.toNat).map some).length = 8 := by
  rw [List.length_map, leBytes_length]

/-- Eight enabled bytes at an aligned address are one word with all its bytes. -/
theorem wordsOf_word {start : Nat} (h : start % 8 = 0) (d : Word) :
    wordsOf start ((leBytes 8 d.toNat).map some) = [(d, 0xFF)] := by
  have hnat := leNat_leBytes_word d
  have hmask : ((((leBytes 8 d.toNat).map some).zipIdx.map (fun e => if e.1.isSome then 2 ^ e.2 else 0)).foldl (· + ·) 0) = 255 := rfl
  have hword : BitVec.ofNat 64 (leNat ((((leBytes 8 d.toNat).map some).map (fun b => b.getD 0)))) = d := by
    rw [List.map_map, show ((fun b : Option Byte => b.getD 0) ∘ some) = id from rfl, List.map_id, hnat, BitVec.ofNat_toNat,
      BitVec.setWidth_eq]
  have hlen := enabledBytes_length d
  simp only [wordsOf, h, List.replicate_zero, List.nil_append, hlen]
  rw [show (8 + 7) / 8 = 1 from rfl, List.range_one, List.map_singleton, Nat.mul_zero, List.drop_zero,
    List.take_of_length_le (Nat.le_of_eq hlen), hword, hmask]
  rfl

/-! ### Packets of a companion die (spec/09 R233, R234, R254) -/

section

variable {s : State} {q : Packet} {p : Port}

@[simp] theorem State.send_ports (s : State) (e : NetEnd) (q : Packet) : (s.send e q).ports = s.ports := by
  rw [s.sent_send e q]

@[simp] theorem State.dieSend_ports (s : State) (p : Port) (q : Packet) (dest : Option LPos) (log : Bool) :
    (s.dieSend p q dest log).ports = s.ports := by
  unfold State.dieSend
  dsimp only
  split
  · rw [State.modJob_ports, State.send_ports]
  · rw [State.send_ports]

theorem State.dieSend_uncounted (s : State) (p : Port) (h : q.counted = false) (dest : Option LPos) (log : Bool) :
    s.dieSend p q dest log = { s with net := s.net ++ [entering s q] } := by
  simp [State.dieSend, h, State.send_uncounted]

/-- A counted packet that a die sends is counted at that die, and logged with its logical destination. -/
theorem State.dieSend_logged (s : State) (p : Port) (h : q.counted = true) (dest : Option LPos) : s.dieSend p q dest true = { s with
    net := s.net ++ [entering s q]
    dieDelta := s.dieDelta.modify p (fun d => tmod d q.slot (· + 1))
    jobs := tmod s.jobs q.slot (fun j => { j with log := j.log ++ [{ expo := j.expNo, die := p, pkt := q, dest := dest }] }) } := by
  simp [State.dieSend, h, State.send, State.addDelta, State.modJob, entering]

end

end Sys2Proof.Machine

/-! SUPPORT. Memory write TLPs in inbound windows, and the statement about them (spec/12 R309-R315, R322, spec/09 R233, R254). -/

namespace Sys2Proof.Machine

open Sys2Proof.Claims

section

variable {s : State} {p : Port} {req : BitVec 16} {off i : Nat} {w : InWin} {bs : List (Option Byte)}

theorem exec_windowWriteTlp (p : Port) (req : BitVec 16) (off : Nat) (bs : List (Option Byte)) (po : Bool) (s : State) :
    exec (.windowWriteTlp p req off bs po) s = .next (s.windowWrite p req off bs po) := rfl

theorem State.windowWrite_in (hs : Serves s p) (ho : Owns s p) (hw : OnlyWindow (s.port p) i w) (hold : WindowHolds w req off bs.length)
    (hperm : w.perm.getLsbD 1 = true) (po : Bool) : s.windowWrite p req off bs po = s.windowWriteIn p i w off bs po := by
  simp [State.windowWrite, State.serves_of_Serves hs, (s.ownsPort_iff p).2 ho, PortState.findWin_holds hw hold, hperm]

/-- A write outside the owner's windows (spec/12 R315). -/
theorem State.windowWrite_denied (hs : Serves s p)
    (h : ¬ Owns s p ∨ OnlyWindow (s.port p) i w ∧ ¬ WindowHolds w req off bs.length) (po : Bool) :
    s.windowWrite p req off bs po = s.wrDenied p := by
  by_cases ho : s.ownsPort p = true
  · rcases h with h | ⟨hw, hold⟩
    · exact absurd ((s.ownsPort_iff p).1 ho) h
    · simp [State.windowWrite, State.serves_of_Serves hs, ho, PortState.findWin_misses hw hold]
  · simp [State.windowWrite, State.serves_of_Serves hs, ho]

theorem State.withheld_region (hkind : w.kind = 1) (hroll : (s.job w.job).rolled = false) (hrep : (s.job w.job).replayTo = none)
    (htab : (s.port p).fenceTab = []) (n : Nat) : s.withheld p w n = false := by
  simp [State.withheld, hkind, hroll, hrep, htab]

/-- A short write to cores finds room in an empty log (spec/09 R254). -/
theorem State.withheld_core (hroll : (s.job w.job).rolled = false) (hrep : (s.job w.job).replayTo = none)
    (htab : (s.port p).fenceTab = []) (hlog : (s.job w.job).log = []) {n : Nat} (hn : n ≤ 4096) : s.withheld p w n = false := by
  have hdiv : n / max 1 w.stride ≤ n := Nat.div_le_self n _
  have hroom : n + 16 * (n / max 1 w.stride + 2) ≤ 134217728 := by omega
  simp [State.withheld, hroll, hrep, htab, Job.logBytes, hlog, hroom]

theorem PortState.noteDest_first {x : PortState} (h : x.fenceTab = []) (q : Packet) (i : Nat) :
    x.noteDest q i = { x with fenceTab := [(fenceRead q, i)] } := by
  simp [PortState.noteDest, h]

/-- A write that one destination takes whole leaves as one packet; the table takes that destination, and WINACC counts the TLP. -/
theorem State.windowWriteIn_one {d : WinDest} (hkind : w.kind ≠ 2) (hvia : (s.port p).viaPeer = false)
    (hgo : s.withheld p w bs.length = false) (htab : (s.port p).fenceTab = []) (hd : s.winDest w (off - w.base) = some d)
    (hpos : 0 < bs.length) (hroom : bs.length ≤ d.room) (po : Bool) : s.windowWriteIn p i w off bs po =
      (s.dieSend p (s.winWritePacket p i w d bs po) d.lpos (w.kind ≠ 1)).modPort p (fun x => { x with
        winAcc := tset x.winAcc i (sat1 (tget 0 x.winAcc i))
        fenceTab := [(fenceRead (s.winWritePacket p i w d bs po), i)] }) := by
  have hports := s.dieSend_ports p (s.winWritePacket p i w d bs po) d.lpos (w.kind ≠ 1)
  rw [State.windowWriteIn, if_neg (fun h => hkind h.1), State.dieAttach_own hvia, hgo, State.splitRun_one _ hd hpos hroom]
  simp only [State.sendWrites, State.modPort_modPort, Option.isNone_some, Bool.false_eq_true, if_false]
  generalize s.winWritePacket p i w d bs po = q at *
  generalize s.dieSend p q d.lpos (w.kind ≠ 1) = t at *
  have hport : (t.port p).fenceTab = [] := by rw [State.port, hports]; exact htab
  have hnote := PortState.noteDest_first hport q i
  rw [State.fenceFull, if_neg]
  · refine State.modPort_congr ?_
    simp only [hnote, tmod_eq_tset (0 : BitVec 32)]
  · rw [State.port_modPort_same, hnote]
    exact Nat.not_le_of_lt (show 1 < 4096 by decide)

end

/-! ### The packets (spec/12 R309, R311, R312, spec/08 Table 8.4) -/

section

variable {s : State} {w : InWin} {d : WinDest}

theorem State.winEpoch_plain (h : w.kind ≠ 2) : s.winEpoch w = w.epoch := if_pos h

/-- The WRITE of one word that a window's TLP becomes. -/
def windowWord (s : State) (p : Port) (i : Nat) (w : InWin) (d : WinDest) (v : Word) (po : Bool) : Packet :=
  { ptype := 0, dkind := d.dkind, dx := d.dx, dy := d.dy, sx := 784 + p.num, epoch := w.epoch, len := 1
    counted := (s.job w.job).holdsPartition, slot := w.job, tag := 64 * p.num + i, pay := [(v, po)]
    h1 := BitVec.ofNat 64 (d.da + 0xFF * 2 ^ 48 + 0xFF * 2 ^ 56) }

theorem State.winWritePacket_word (p : Port) (i : Nat) (hkind : w.kind ≠ 2) (hda : d.da % 8 = 0) (v : Word) (po : Bool) :
    s.winWritePacket p i w d ((leBytes 8 v.toNat).map some) po = windowWord s p i w d v po := by
  simp only [State.winWritePacket, wordsOf_word hda, if_neg hkind, hda, Nat.sub_zero, State.winPacket, State.winEpoch_plain hkind,
    windowWord, ← packFields_write]
  rfl

theorem nfld_writeDa {da : Nat} (h : da < 2 ^ 48) (m : Nat) : nfld ((da + m * 2 ^ 48) % 2 ^ 64) 0 48 = da := by
  unfold nfld
  omega

theorem Packet.da_write {q : Packet} {da : Nat} (h : da < 2 ^ 48) (h1 : q.h1 = BitVec.ofNat 64 (da + 0xFF * 2 ^ 48 + 0xFF * 2 ^ 56)) :
    q.da = da := by
  rw [Packet.da, h1, BitVec.toNat_ofNat, Nat.add_assoc, show 0xFF * 2 ^ 48 + 0xFF * 2 ^ 56 = (0xFF + 0xFF * 2 ^ 8) * 2 ^ 48 from rfl]
  exact nfld_writeDa h _

end

theorem fenceRead_eq {q : Packet} {da : Nat} (hlen : q.len = 1) (hqid : q.qid = 0) (hcounted : q.counted = false) (hda : q.da = da) :
    fenceRead q = { q with ptype := 3, pay := [], h1 := BitVec.ofNat 64 da } := by
  rw [fenceRead, hda, ← hlen, ← hqid, ← hcounted]
  rfl

/-- Settles O31: a write in the owner's window leaves as the packet of its one destination; every other is denied. -/
theorem windowWrites : Obligations.WindowWrites := by
  unfold Obligations.WindowWrites
  constructor
  · intro s p req off i w r d po hs bs da q
    have hlen : bs.length = 8 := enabledBytes_length d
    refine ⟨fun ho hw hold hperm hkind hr hpart hda hvia hroll hrep htab hstack hend => ?region, fun ho => ?foreign,
      fun ho hw hold => ?outside⟩
    case region =>
      obtain ⟨hlo, hhi, -⟩ := id hold
      have hk2 : w.kind ≠ 2 := by omega
      have hpkt : s.winWritePacket p i w (regionDest w r (off - w.base)) bs po = q := by
        rw [State.winWritePacket_word p i hk2 hda, windowWord, hpart]
        rfl
      have hread := fenceRead_eq (q := q) rfl rfl rfl (Packet.da_write (by omega) rfl)
      have hroom : bs.length ≤ (regionDest w r (off - w.base)).room := by
        show bs.length ≤ w.size - (off - w.base)
        omega
      rw [exec_windowWriteTlp, State.windowWrite_in hs ho hw (hlen ▸ hold) hperm, State.windowWriteIn_one hk2 hvia
        (State.withheld_region hkind hroll hrep htab _) htab (s.winDest_region _ hkind hr) (by omega) hroom, hpkt,
        State.dieSend_uncounted _ _ rfl, hread]
    case foreign => rw [exec_windowWriteTlp, State.windowWrite_denied (i := i) (w := w) hs (.inl ho)]; rfl
    case outside => rw [exec_windowWriteTlp, State.windowWrite_denied hs (.inr ⟨hw, hlen ▸ hold⟩)]; rfl
  · intro s p req off i f w d po hs ho bs c q hw hold hperm hkind _ hstride hb hoff hsize hj hrun hplace _ _ hvia hroll hrep hlog htab _
    have hlen : bs.length = 8 := enabledBytes_length d
    have hk2 : w.kind ≠ 2 := by omega
    have hpart : q.holdsPartition = true := by simp [Job.holdsPartition, hrun]
    have hd : s.winDest w (off - w.base) = some (coreDest w c) := by
      rw [hoff, Nat.sub_self]
      exact s.winDest_core hkind hstride hb hpart (Job.place_working hplace)
    have hda : (coreDest w c).da % 8 = 0 := by simp only [coreDest]; omega
    have hcounted : (windowWord s p i w (coreDest w c) d po).counted = true := hpart
    have hgo := State.withheld_core (p := p) hroll hrep htab hlog (by omega : bs.length ≤ 4096)
    have hwrite := State.windowWriteIn_one (i := i) hk2 hvia hgo htab hd (by omega) (show bs.length ≤ w.size by omega) po
    rw [State.winWritePacket_word p i hk2 hda, decide_eq_true (by omega : w.kind ≠ 1), State.dieSend_logged _ _ hcounted] at hwrite
    have hexec : exec (.windowWriteTlp p req off bs po) s = .next (s.windowWriteIn p i w off bs po) := by
      rw [exec_windowWriteTlp, State.windowWrite_in hs ho hw (hlen ▸ hold) hperm]
    rw [hwrite] at hexec
    refine ⟨_, windowWord s p i w (coreDest w c) d po, hexec, rfl, rfl, rfl, rfl, rfl, rfl, rfl, rfl, hcounted, rfl, rfl, ?logged, ?delta, rfl⟩
    case logged =>
      rw [State.job_modPort, State.job, tget_tmod, if_pos ⟨rfl, hj⟩]
      show q.log ++ _ = _
      rw [hlog]
      rfl
    case delta =>
      rw [State.modPort_dieDelta, Pair.modify, Pair.get_set_same, tget_tmod]
      exact if_pos ⟨rfl, hj⟩

end Sys2Proof.Machine

/-! SUPPORT. Memory read TLPs in inbound windows and their timeout, and the statement about them (spec/12 R305, R311, R315, R320,
spec/09 R254). -/

namespace Sys2Proof.Machine

open Sys2Proof.Claims

/-! ### What a packet's entry into the network depends on (spec/08 R211, spec/15 R405) -/

section

variable {s t : State}

theorem State.dieAttach_congr (h : ∀ p, (t.port p).viaPeer = (s.port p).viaPeer) (p : Port) : t.dieAttach p = s.dieAttach p := by
  rw [State.dieAttach, State.dieAttach, h, h]

theorem entering_congr (hfields : t.fields = s.fields) (h : ∀ p, (t.port p).viaPeer = (s.port p).viaPeer) (q : Packet) :
    entering t q = entering s q := by
  have hentry : t.entryField q = s.entryField q := by simp only [State.entryField, State.dieAttach_congr h]
  simp only [entering, State.injectionHeld, hentry, State.field, hfields]

/-- What an update of a port keeps of it, it keeps of both. -/
theorem State.modPort_keeps {α : Type} (s : State) (p : Port) {f : PortState → PortState} (g : PortState → α) (h : ∀ x, g (f x) = g x)
    (q : Port) : g ((s.modPort p f).port q) = g (s.port q) := by
  rw [State.port_modPort]
  split
  · next hq => rw [h, hq]
  · rfl

theorem entering_modPort (s : State) (p : Port) {f : PortState → PortState} (h : ∀ x, (f x).viaPeer = x.viaPeer) (q : Packet) :
    entering (s.modPort p f) q = entering s q :=
  entering_congr (s := s) (t := s.modPort p f) rfl (s.modPort_keeps p PortState.viaPeer h) q

end

/-! ### A read in a window (spec/12 R311, R315, R320) -/

section

variable {s : State} {p : Port} {req : BitVec 16} {off i len : Nat} {w : InWin} {d : WinDest}

theorem exec_windowReadTlp (p : Port) (req : BitVec 16) (tag off len : Nat) (s : State) :
    exec (.windowReadTlp p req tag off len) s = .next (s.windowRead p req tag off len) := rfl

theorem State.readWindow_own (hw : OnlyWindow (s.port p) i w) (hold : WindowHolds w req off len) (hperm : w.perm.getLsbD 0 = true) :
    s.readWindow p req off len = some (p, i, w) := by
  rw [State.readWindow, PortState.findWin_holds hw hold hperm]

theorem State.readWindow_none (h : ∀ q, ∀ m < 64, tget none (s.port q).inWin m = none) : s.readWindow p req off len = none := by
  rw [State.readWindow, PortState.findWin_none (h p), PortState.findWin_none (h p.other)]
  rfl

/-- Below the control views a read goes to the window it is in (spec/12 Table 12.3). -/
theorem State.windowRead_in (hs : Serves s p) (hoff : off < 0xC00000000) {o : Port} (hwin : s.readWindow p req off len = some (o, i, w))
    (tag : Nat) : s.windowRead p req tag off len = s.windowReadIn p o i w s.mod.ctl tag off len := by
  simp [State.windowRead, State.serves_of_Serves hs, Nat.not_le.2 hoff, hwin]

theorem State.windowRead_denied (hs : Serves s p) (hoff : off < 0xC00000000) (hwin : s.readWindow p req off len = none) (tag : Nat) :
    s.windowRead p req tag off len = s.readDenied p tag := by
  simp [State.windowRead, State.serves_of_Serves hs, Nat.not_le.2 hoff, hwin]

theorem State.windowReadIn_held (hkind : w.kind ≠ 2) (hvia : (s.port p).viaPeer = false)
    (h : (s.job w.job).rolled = true ∨ (s.job w.job).replayTo.isSome = true) (o : Port) (at_ tag : Nat) :
    s.windowReadIn p o i w at_ tag off len = s.modPort p (fun x => { x with
      heldReads := x.heldReads ++ [{ tag := tag, at_ := at_, win := (o, i), off := off, len := len }] }) := by
  rw [State.windowReadIn, if_neg hkind, State.dieAttach_own hvia, if_neg (by simp), if_pos (Bool.or_eq_true_iff.2 h)]

/-- The READ of one word that a window's TLP becomes, with the `n`-th tag of its die. -/
def windowReadWord (s : State) (p : Port) (w : InWin) (d : WinDest) (n : Nat) : Packet :=
  { ptype := 3, dkind := d.dkind, dx := d.dx, dy := d.dy, sx := 784 + p.num, epoch := w.epoch, len := 1
    counted := (s.job w.job).holdsPartition, slot := w.job, tag := n, h1 := BitVec.ofNat 64 (d.da + n % 8192 * 2 ^ 48) }

theorem packFields_tag (da n : Nat) : packFields [(0, da), (48, n)] = da + n * 2 ^ 48 := by
  rw [packFields, List.foldl_cons, List.foldl_cons, List.foldl_nil, Nat.zero_add, Nat.pow_zero, Nat.mul_one]

theorem State.winReadPacket_word (p : Port) (i : Nat) (hkind : w.kind ≠ 2) (hda : d.da % 8 = 0) (n : Nat) :
    s.winReadPacket p i w d 8 n = windowReadWord s p w d n := by
  simp only [State.winReadPacket, hda, Nat.sub_zero, packFields_tag, State.winPacket, State.winEpoch_plain hkind]
  rfl

theorem State.sendReads_one (p : Port) (i : Nat) (hkind : w.kind ≠ 2) (hpart : (s.job w.job).holdsPartition = false)
    (hda : d.da % 8 = 0) : s.sendReads p i w [(d, List.replicate 8 ())] =
      (({ s with net := s.net ++ [entering s (windowReadWord s p w d (128 + (s.port p).tagNext))] } : State).modPort p
        (fun x => { x with tagNext := x.tagNext + 1 }), [128 + (s.port p).tagNext]) := by
  generalize hn : 128 + (s.port p).tagNext = n
  generalize hu : s.modPort p (fun x => { x with tagNext := x.tagNext + 1 }) = u
  have hent := entering_modPort s p (f := fun x => { x with tagNext := x.tagNext + 1 }) (fun _ => rfl) (windowReadWord s p w d n)
  have hpkt : u.winReadPacket p i w d 8 n = windowReadWord s p w d n := by
    rw [State.winReadPacket_word p i hkind hda, ← hu]
    rfl
  have hsend : s.sendReads p i w [(d, List.replicate 8 ())] = (u.send (.die p) (u.winReadPacket p i w d 8 n), [n]) := by
    rw [← hu, ← hn]
    rfl
  rw [hsend, hpkt, State.send_uncounted u _ (show (windowReadWord s p w d n).counted = false from hpart), ← hu, hent]
  rfl

/-- A read of one word of a stack sends one READ, and waits for its data. -/
theorem State.windowReadIn_word (hkind : w.kind ≠ 2) (hvia : (s.port p).viaPeer = false) (hroll : (s.job w.job).rolled = false)
    (hrep : (s.job w.job).replayTo = none) (hpart : (s.job w.job).holdsPartition = false) (hd : s.winDest w (off - w.base) = some d)
    (hroom : 8 ≤ d.room) (hda : d.da % 8 = 0) (at_ tag : Nat) :
    s.windowReadIn p p i w at_ tag off 8 =
      ({ s with net := s.net ++ [entering s (windowReadWord s p w d (128 + (s.port p).tagNext))] } : State).modPort p (fun y => { y with
        tagNext := y.tagNext + 1
        inReads := y.inReads ++ [{ tag := tag, at_ := at_, win := some (p, i), parts := [(128 + (s.port p).tagNext, none)] }]
        winAcc := tset y.winAcc i (sat1 (tget 0 y.winAcc i)) }) := by
  have hsplit : s.splitRun w (8 + 1) (off - w.base) (List.replicate 8 ()) = some [(d, List.replicate 8 ())] :=
    State.splitRun_one 8 hd (by decide) hroom
  rw [State.windowReadIn, if_neg hkind, State.dieAttach_own hvia, if_neg (by simp), if_neg (by simp [hroll, hrep]), hsplit]
  simp only [State.sendReads_one p i hkind hpart hda, State.modPort_modPort, tmod_eq_tset (0 : BitVec 32)]
  rfl

end

/-! ### The timeout (spec/12 R320) -/

section

variable {s : State} {p : Port} {tag : Nat}

theorem exec_inboundReadTimeout (p : Port) (tag : Nat) (s : State) :
    exec (.inboundReadTimeout p tag) s = execInboundReadTimeout p tag s := rfl

theorem execInboundReadTimeout_sent {d : InRead} (h : (s.port p).inReads = [d]) (htag : d.tag = tag) :
    execInboundReadTimeout p tag s = .next (if d.at_ + 100000 ≤ s.mod.ctl then
      s.modPort p (fun y => { y with inReads := [], rdTmo := sat1 y.rdTmo, tx := y.tx ++ [.cpl tag .ca []] }) else s) := by
  have hport : ((s.modPort p (fun x => { x with inReads := x.inReads.filter (fun y => y ≠ d) })).readAborted p tag) =
      s.modPort p (fun y => { y with inReads := [], rdTmo := sat1 y.rdTmo, tx := y.tx ++ [.cpl tag .ca []] })  :=
    (State.modPort_modPort _ _ _ _).trans (State.modPort_congr (by simp [h, PortState.send]))
  rw [← hport]
  simp [execInboundReadTimeout, h, htag]

theorem execInboundReadTimeout_held {d : HeldRead} (hnone : (s.port p).inReads = []) (h : (s.port p).heldReads = [d]) (htag : d.tag = tag) :
    execInboundReadTimeout p tag s = .next (if d.at_ + 100000 ≤ s.mod.ctl then
      s.modPort p (fun y => { y with heldReads := [], rdTmo := sat1 y.rdTmo, tx := y.tx ++ [.cpl tag .ca []] }) else s) := by
  have hport : ((s.modPort p (fun x => { x with heldReads := x.heldReads.filter (fun y => y ≠ d) })).readAborted p tag) =
      s.modPort p (fun y => { y with heldReads := [], rdTmo := sat1 y.rdTmo, tx := y.tx ++ [.cpl tag .ca []] })  :=
    (State.modPort_modPort _ _ _ _).trans (State.modPort_congr (by simp [h, PortState.send]))
  rw [← hport]
  simp [execInboundReadTimeout, hnone, h, htag]

end

/-- Settles O32: a read by the window it is in, and by how long it has waited. -/
theorem windowReads : Obligations.WindowReads := by
  unfold Obligations.WindowReads
  intro s p req tag off i w r hs hoff da n q
  simp only [exec_windowReadTlp, exec_inboundReadTimeout]
  refine ⟨fun hw hold hperm hkind hr hpart hda hvia hroll hrep _ => ?sent, fun hw hold hperm hkind hvia hwait => ?behind, fun hnone => ?outside,
    fun d hd htag hdue => ?late, fun d hnone hd htag hdue => ?lateHeld, fun d hd htag hearly => ?early⟩
  case sent =>
    obtain ⟨hlo, hhi, -⟩ := id hold
    have hroom : 8 ≤ (regionDest w r (off - w.base)).room := by
      show 8 ≤ w.size - (off - w.base)
      omega
    have hpkt : windowReadWord s p w (regionDest w r (off - w.base)) (128 + (s.port p).tagNext) = q := by
      rw [windowReadWord, hpart]
      rfl
    rw [State.windowRead_in hs hoff (State.readWindow_own hw hold hperm), State.windowReadIn_word (by omega) hvia hroll hrep hpart
      (s.winDest_region _ hkind hr) hroom hda, hpkt]
  case behind => rw [State.windowRead_in hs hoff (State.readWindow_own hw hold hperm), State.windowReadIn_held hkind hvia hwait]
  case outside =>
    rw [State.windowRead_denied hs hoff (State.readWindow_none (fun o m hm => ?_))]
    · rfl
    · cases o with
      | a => exact (hnone m hm).1
      | b => exact (hnone m hm).2
  case late => rw [execInboundReadTimeout_sent hd htag, if_pos hdue]
  case lateHeld => rw [execInboundReadTimeout_held hnone hd htag, if_pos hdue]
  case early => rw [execInboundReadTimeout_sent hd htag, if_neg (Nat.not_le.2 hearly)]

end Sys2Proof.Machine

/-! SUPPORT. Outbound WRITEs and READs at a companion die: the window they are in, the TLPs they become, and the tags that are free
(spec/12 R316-R318, Table 12.1). -/

namespace Sys2Proof

theorem leBytes_eq_map (n v : Nat) : leBytes n v = (List.range n).map (fun b => BitVec.ofNat 8 (v / 256 ^ b)) := by
  induction n generalizing v with
  | zero => rfl
  | succ n ih =>
    rw [leBytes, ih, List.range_succ_eq_map, List.map_cons, List.map_map]
    refine congrArg₂ List.cons (by rw [Nat.pow_zero, Nat.div_one]) (List.map_congr_left fun b _ => ?_)
    rw [Nat.div_div_eq_div_mul, ← Nat.pow_succ']
    rfl

theorem leBytes_word (v : Word) : leBytes 8 v.toNat = (List.range 8).map (fun b => v.extractLsb' (8 * b) 8) := by
  rw [leBytes_eq_map]
  refine List.map_congr_left fun b _ => BitVec.eq_of_toNat_eq ?_
  rw [BitVec.toNat_ofNat, BitVec.extractLsb'_toNat, Nat.shiftRight_eq_div_pow, Nat.pow_mul]

namespace Machine

open Sys2Proof.Claims

/-! ### The way to a companion die -/

/-- `u` is `s` when its `k`-th packet, no RDATA, has come to a companion die. -/
def ReachedDie (s u : State) (k : Nat) : Prop :=
  u = { s with net := s.net.eraseIdx k, routers := u.routers, hubs := u.hubs, freeCtr := u.freeCtr }

section

variable {s u : State} {k ty : Nat} {p : Packet} {d : Port}

theorem State.arriving_of_landsAtDie (h : LandsAtDie s k ty p d) : s.arriving k [ty] [2] = some p := by
  obtain ⟨hnet, hty, hkind, -, hfirst, -⟩ := h
  have hany : (s.net.take k).any (samePath p) = false := by simpa using hfirst
  simp [State.arriving, hnet, hty, hkind, hany]

/-- The arrival of a packet that lands is the die's work on the state in which it has come there. -/
theorem State.outArrive_of_landsAtDie (h : LandsAtDie s k ty p d) (hr : ty ≠ pRdata) (f : State → Port → Packet → State) :
    ∃ u, s.outArrive k ty f = f u d p ∧ ReachedDie s u k := by
  have harr := State.arriving_of_landsAtDie h
  obtain ⟨-, hty, hkind, hdx, -, hfin, -⟩ := h
  have hpass := (s.dropNet k).flitsOnly_passed (s.route p) (hty ▸ hr : p.ptype ≠ pRdata)
  refine ⟨(s.dropNet k).passed p (s.route p), ?_, hpass⟩
  simp [State.outArrive, harr, State.arrive, hfin, hdx, State.ungate, hkind]

theorem ReachedDie.port (hu : ReachedDie s u k) (q : Port) : u.port q = s.port q := by rw [hu]; rfl

theorem ReachedDie.entering (hu : ReachedDie s u k) (q : Packet) : entering u q = entering s q :=
  entering_congr (by rw [hu]) (fun o => by rw [hu.port]) q

/-- The die changes its port and hands over an answer. -/
theorem ReachedDie.landed_send (hu : ReachedDie s u k) (e : NetEnd) {q : Packet} (hq : q.counted = false) (d : Port)
    (f : PortState → PortState) : LandedAtDie s ((u.send e q).modPort d f) k [q] d (f (s.port d)) := by
  have hports : (u.modPort d f).ports = (s.modPort d (fun _ => f (s.port d))).ports := by
    rw [State.modPort_congr (g := fun _ => f (s.port d)) (by rw [hu.port]), hu]
    rfl
  rw [State.send_uncounted _ _ hq, hu.entering]
  unfold LandedAtDie
  rw [← hports, hu]
  rfl

/-- The die changes its port alone. -/
theorem ReachedDie.landed (hu : ReachedDie s u k) (d : Port) (f : PortState → PortState) :
    LandedAtDie s (u.modPort d f) k [] d (f (s.port d)) := by
  have hports : (u.modPort d f).ports = (s.modPort d (fun _ => f (s.port d))).ports := by
    rw [State.modPort_congr (g := fun _ => f (s.port d)) (by rw [hu.port]), hu]
    rfl
  unfold LandedAtDie
  rw [← hports, List.map_nil, List.append_nil, hu]
  rfl

end

/-! ### The window (spec/12 R316) -/

section

variable {x : PortState} {i off len : Nat} {w : OutWin}

theorem PortState.findOut_only (h : OnlyOutWindow x i w) :
    x.findOut off len = if w.base ≤ off ∧ off + len ≤ w.base + w.size then some w else none := by
  obtain ⟨hi, honly⟩ := h
  rw [PortState.findOut, findSome?_range_single hi]
  · rw [honly i hi, if_pos rfl]
    rfl
  · intro m hm hne
    rw [honly m hm, if_neg hne]
    rfl

/-- What an outbound packet of one word finds at its die. -/
theorem findOut_word (h : OnlyOutWindow x i w) (da : Nat) :
    (if nfld da 44 4 = 4 then x.findOut (nfld da 0 43) 8 else none) =
      if nfld da 44 4 = 4 ∧ w.base ≤ nfld da 0 43 ∧ nfld da 0 43 + 8 ≤ w.base + w.size then some w else none := by
  by_cases h4 : nfld da 44 4 = 4
  · rw [if_pos h4, PortState.findOut_only h]
    simp only [h4, true_and]
  · rw [if_neg h4, if_neg (fun hin => h4 hin.1)]

end

/-! ### The TLPs (spec/12 R317, R318) -/

/-- Bytes that are all enabled are one run. -/
theorem byteRuns_all (o : Nat) (b : Byte × Bool) (l : List (Byte × Bool)) : byteRuns o ((b :: l).map some) = [(o, b :: l)] := by
  induction l generalizing o b with
  | nil => rfl
  | cons c l ih =>
    have htail : byteRuns (o + 1) ((c :: l).map some) = [(o + 1, c :: l)] := ih (o + 1) c
    rw [List.map_cons, byteRuns, htail]
    simp

/-- A run within the payload size that crosses no boundary is one TLP. -/
theorem outTlps_one {mps addr : Nat} {bs : List (Byte × Bool)} (n : Nat) (hpos : bs ≠ []) (hmps : bs.length ≤ mps)
    (hpage : addr % 4096 + bs.length ≤ 4096) :
    outTlps mps (n + 1) addr bs = [.write addr (bs.map (·.1)) (bs.any (·.2))] := by
  have hle : bs.length ≤ min mps (4096 - addr % 4096) := by omega
  have hnil : ∀ a, outTlps mps n a [] = [] := fun a => by cases n <;> rfl
  simp [outTlps, hpos, List.drop_eq_nil_of_le hle, List.take_of_length_le hle, hnil]

theorem readReqs_one {size addr len : Nat} (tag n : Nat) (hpos : 0 < len) (hsize : len ≤ size) (hpage : addr % 4096 + len ≤ 4096) :
    readReqs size tag (n + 1) addr len = [.readReq tag addr len] := by
  have hmin : min len (min size (4096 - addr % 4096)) = len := by omega
  have hnil : ∀ a, readReqs size tag n a 0 = [] := fun a => by cases n <;> rfl
  simp [readReqs, Nat.ne_of_gt hpos, hmin, hnil]

/-- The bytes of a word with their poison, in address order. -/
def poisonedBytes (v : Word) (po : Bool) : List (Byte × Bool) := (List.range 8).map (fun b => (v.extractLsb' (8 * b) 8, po))

theorem Packet.outBytes_word {p : Packet} {v : Word} {po : Bool} (hty : p.ptype = 0) (hpay : p.pay = [(v, po)])
    (hmask : nfld p.h1.toNat 48 8 = 0xFF) : p.outBytes = (poisonedBytes v po).map some := by
  have hfull : ∀ b ∈ List.range 8, (writeMask p 0).getLsbD b = true := by
    rw [writeMask, if_neg (by simp [hty, pWrite]), if_pos rfl, hmask]
    decide
  rw [Packet.outBytes, hpay, List.zipIdx_singleton, List.flatMap_singleton, poisonedBytes, List.map_map]
  exact List.map_congr_left fun b hb => if_pos (hfull b hb)

/-- A full word in one page is one memory write. -/
theorem outTlps_word {mps addr : Nat} (v : Word) (po : Bool) (hmps : 8 ≤ mps) (hpage : addr % 4096 ≤ 4088) :
    (byteRuns 0 ((poisonedBytes v po).map some)).flatMap (fun r => outTlps mps (r.2.length + 1) (addr + r.1) r.2) =
      [.write addr (leBytes 8 v.toNat) po] := by
  have hlen : (poisonedBytes v po).length = 8 := by rw [poisonedBytes, List.length_map, List.length_range]
  have hbytes : (poisonedBytes v po).map (·.1) = leBytes 8 v.toNat := by rw [poisonedBytes, List.map_map, leBytes_word]; rfl
  have hpoison : (poisonedBytes v po).any (·.2) = po := by simp [poisonedBytes, List.range_succ]
  have hruns : byteRuns 0 ((poisonedBytes v po).map some) = [(0, poisonedBytes v po)] := byteRuns_all 0 _ _
  have hone := outTlps_one (mps := mps) (addr := addr) (bs := poisonedBytes v po) 8 (List.ne_nil_of_length_pos (by omega)) (by omega) (by omega)
  rw [hbytes, hpoison] at hone
  rw [hruns, List.flatMap_singleton]
  exact hone

/-! ### Free tags (spec/12 Table 12.1) -/

/-- While fewer than 256 READs are outstanding a tag is free. -/
theorem PortState.freeTag_spec {x : PortState} (h : x.outReads.length < 256) : x.freeTag < 256 ∧ ∀ r ∈ x.outReads, r.tag ≠ x.freeTag := by
  rw [PortState.freeTag]
  cases hfind : (List.range 256).find? (fun t => x.outReads.all (fun r => r.tag ≠ t)) with
  | some t =>
    have hfree := List.find?_some hfind
    simp only [List.all_eq_true, decide_eq_true_eq] at hfree
    exact ⟨List.mem_range.1 (List.mem_of_find?_eq_some hfind), hfree⟩
  | none =>
    have hused : List.range 256 ⊆ x.outReads.map (·.tag) := fun t ht => by
      have := List.find?_eq_none.1 hfind t ht
      simpa using this
    have hle := (List.nodup_range.subperm hused).length_le
    rw [List.length_range, List.length_map] at hle
    omega

/-! ### What the die does with a packet of one word (spec/12 R316-R318) -/

section

variable {s : State} {d : Port} {i : Nat} {w : OutWin} {p : Packet}

/-- The word that an outbound packet names lies in the window. -/
def InOutWindow (w : OutWin) (p : Packet) : Prop :=
  nfld p.da 44 4 = 4 ∧ w.base ≤ nfld p.da 0 43 ∧ nfld p.da 0 43 + 8 ≤ w.base + w.size

theorem State.outWriteAt_posts (hw : OnlyOutWindow (s.port d) i w) (hwf : p.wellFormed = true) (hc : p.counted = false) (hlen : p.len = 1)
    (hin : InOutWindow w p) {v : Word} {po : Bool} (hty : p.ptype = 0) (hpay : p.pay = [(v, po)]) (hmask : nfld p.h1.toNat 48 8 = 0xFF)
    (hup : Posts (s.port d)) (hmps : 8 ≤ (s.port d).maxPayload) (hpage : (w.haddr + (nfld p.da 0 43 - w.base)) % 4096 ≤ 4088) :
    s.outWriteAt d p = s.modPort d (fun x => { x with
      tx := x.tx ++ [.write (w.haddr + (nfld p.da 0 43 - w.base)) (leBytes 8 v.toNat) po] }) := by
  have hfind := (findOut_word hw p.da).trans (if_pos hin)
  have hno : (s.port d).noOutbound = false := Bool.eq_false_iff.2 (fun h => PortState.noOutbound_iff.1 h hup)
  have htlps := outTlps_word (mps := max 1 (s.port d).maxPayload) v po (by omega) hpage
  simp only [State.outWriteAt, hwf, hlen, Nat.mul_one, hfind, State.takeOff_uncounted s _ hc, hno, Packet.outBytes_word hty hpay hmask]
  exact State.modPort_congr (by rw [htlps])

theorem State.outWriteAt_discards (hw : OnlyOutWindow (s.port d) i w) (hwf : p.wellFormed = true) (hc : p.counted = false)
    (hlen : p.len = 1) (hin : InOutWindow w p) (hup : ¬ Posts (s.port d)) : s.outWriteAt d p = s.obCount d := by
  have hfind := (findOut_word hw p.da).trans (if_pos hin)
  have hno : (s.port d).noOutbound = true := PortState.noOutbound_iff.2 hup
  simp only [State.outWriteAt, hwf, hlen, Nat.mul_one, hfind, State.takeOff_uncounted s _ hc, hno]
  rfl

theorem State.outWriteAt_refuses (hw : OnlyOutWindow (s.port d) i w) (hwf : p.wellFormed = true) (hc : p.counted = false)
    (hlen : p.len = 1) (hty : p.ptype = 0) (hout : ¬ InOutWindow w p) :
    s.outWriteAt d p = (s.send (.die d) (p.nak (784 + d.num) 0 p.epoch nakUnmapped 1)).obCount d := by
  have hfind := (findOut_word hw p.da).trans (if_neg hout)
  simp only [State.outWriteAt, hwf, hlen, Nat.mul_one, hfind, State.outRefuse,
    State.refuseAt_uncounted s _ _ _ _ _ _ hc (by simp [hty, pRead])]
  rfl

theorem State.outReadAt_asks (hw : OnlyOutWindow (s.port d) i w) (hwf : p.wellFormed = true) (hc : p.counted = false) (hlen : p.len = 1)
    (hin : InOutWindow w p) (hperm : w.perm.getLsbD 0 = true) (hrep : (s.job p.slot).replayTo = none) (hsize : 8 ≤ (s.port d).maxReadReq)
    (hpage : (w.haddr + (nfld p.da 0 43 - w.base)) % 4096 ≤ 4088) :
    s.outReadAt d p = s.modPort d (fun x => { x with
      outReads := x.outReads ++ [{ tag := (s.port d).freeTag, pkt := p }]
      tx := x.tx ++ [.readReq (s.port d).freeTag (w.haddr + (nfld p.da 0 43 - w.base)) 8] }) := by
  have hfind := (findOut_word hw p.da).trans (if_pos hin)
  have hreq := readReqs_one (size := max 1 (s.port d).maxReadReq) (addr := w.haddr + (nfld p.da 0 43 - w.base)) (s.port d).freeTag 8
    (by decide : 0 < 8) (by omega) (by omega)
  simp only [State.outReadAt, hwf, hlen, Nat.mul_one, hfind, State.takeOff_uncounted s _ hc, hperm, hrep]
  exact State.modPort_congr (by rw [hreq])

/-- The data of an outbound READ of one word, or its failure, goes back as RDATA (spec/12 R318). -/
theorem State.outboundCompletion_word {tag : Nat} (h : (s.port d).outReads = [{ tag := tag, pkt := p }]) (hlen : p.len = 1)
    (hc : p.counted = false) {data : Option (List (Word × Bool))} {v : Word} {bad : Bool}
    (hdata : (data.getD [] ++ [(0, true)]).take 1 = [(v, bad)]) :
    s.outboundCompletion d tag data = ({ s with
      net := s.net ++ [entering s (p.rdata (784 + d.num) 0 p.epoch [(v, bad)])] } : State).modPort d (fun y => { y with outReads := [] }) := by
  have hent := entering_modPort s d (f := fun x => { x with outReads := x.outReads.filter (fun y => y.tag ≠ tag) }) (fun _ => rfl)
    (p.rdata (784 + d.num) 0 p.epoch [(v, bad)])
  have hport : s.modPort d (fun x => { x with outReads := x.outReads.filter (fun y => y.tag ≠ tag) }) =
      s.modPort d (fun y => { y with outReads := [] }) := State.modPort_congr (by simp [h])
  rw [hport] at hent
  simp only [State.outboundCompletion, h, List.find?_singleton, beq_self_eq_true, if_true, hlen, List.replicate_one, hdata, outRdata,
    List.map_singleton, List.any_cons, List.any_nil, Bool.or_false, hport]
  rw [State.dieSend_uncounted _ d (show (p.rdata (784 + d.num) 0 p.epoch [(v, bad)]).counted = false from hc), hent]
  rfl

end

end Machine
end Sys2Proof

/-! SUPPORT. Fences and the holdoff of MSI-X messages, and the statement about outbound traffic, fences and holdoff (spec/12 R316-R318,
R322, R324, R325). -/

namespace Sys2Proof

theorem tget_map {α β : Type} {n i : Nat} (h : i < n) (d : α) (e : β) (v : Vector α n) (f : α → β) :
    tget e (v.map f) i = f (tget d v i) := by
  simp [tget, h]

namespace Machine

open Sys2Proof.Claims

section

variable {s : State} {p : Port}

/-! ### Fences (spec/12 R322) -/

theorem State.fencing_none (h : (s.port p).await = []) (tag : Nat) : s.fencing p tag = false := by
  simp [State.fencing, h]

/-- A slot, and a journaled command, whose fence is complete. -/
def InSlot.unfenced (y : InSlot) : InSlot := { y with fence := [] }

def Entry.unfenced (e : Entry) : Entry := { e with fence := [] }

theorem State.filter_fencing (h : (s.port p).await = []) (l : List Nat) : l.filter (s.fencing p) = [] :=
  List.filter_eq_nil_iff.2 fun t _ => by simp [State.fencing_none h t]

theorem State.fenceComplete_slot (h : (s.port p).await = []) {i : Nat} (hi : i < 8) :
    tget {} ((s.fenceComplete p).port p).slots i = (tget {} (s.port p).slots i).unfenced := by
  have hslots : ((s.fenceComplete p).port p).slots = (s.port p).slots.map (fun y => { y with fence := y.fence.filter (s.fencing p) }) :=
    congrArg PortState.slots (State.port_modPort_same s p _)
  rw [hslots, tget_map hi ({} : InSlot)]
  simp only [State.filter_fencing h]
  rfl

theorem State.fenceComplete_journal (h : (s.port p).await = []) : (s.fenceComplete p).cp.journal =
    s.cp.journal.map (fun e => if e.port = p then e.unfenced else e) := by
  simp only [State.fenceComplete, State.filter_fencing h]
  rfl

/-! ### Messages held back (spec/12 R325) -/

variable {v : Nat}

theorem exec_msixHoldoffEnd (p : Port) (v : Nat) (s : State) : exec (.msixHoldoffEnd p v) s = execMsixHoldoffEnd p v s := rfl

theorem execMsixHoldoffEnd_early {a : Nat} (h : ((s.port p).vec v).last = some a) (hearly : s.mod.ctl < a + 100) :
    execMsixHoldoffEnd p v s = .next s := by
  simp [execMsixHoldoffEnd, h, Nat.not_le.2 hearly]

/-- A vector that nothing masks sends its message, once 100 ticks have gone since its last one. -/
theorem PortState.sendMsix_due {x : PortState} {now a : Nat} (hlast : (x.vec v).last = some a) (hdue : a + 100 ≤ now)
    (hen : x.msixEn = true) (hmask : x.msixMask = false) (hvec : (x.vec v).masked = false) (hd3 : x.d3 = false) (hup : x.linkUp = true) :
    PortState.sendMsix now x v = { x with
      msix := tset x.msix v { x.vec v with last := some now, pend := false, heldBack := false }
      tx := x.tx ++ [.msix (x.vec v).addr (x.vec v).data] } := by
  simp [PortState.sendMsix, hlast, Nat.not_lt.2 hdue, hen, hmask, hvec, hd3, hup, PortState.send]

theorem PortState.vec_setMsix (x : PortState) (hv : v < 64) (m : Msix) : ({ x with msix := tset x.msix v m } : PortState).vec v = m := by
  rw [PortState.vec, tget_tset, if_pos ⟨rfl, hv⟩]

theorem execMsixHoldoffEnd_due {a : Nat} (hv : v < 64) (hheld : ((s.port p).vec v).heldBack = true)
    (hlast : ((s.port p).vec v).last = some a) (hdue : a + 100 ≤ s.mod.ctl) (hen : (s.port p).msixEn = true)
    (hmask : (s.port p).msixMask = false) (hvec : ((s.port p).vec v).masked = false) (hd3 : (s.port p).d3 = false)
    (hup : (s.port p).linkUp = true) : execMsixHoldoffEnd p v s = .next (s.modPort p (fun y => { y with
      msix := tset y.msix v { (s.port p).vec v with last := some s.mod.ctl, pend := false, heldBack := false }
      tx := y.tx ++ [.msix ((s.port p).vec v).addr ((s.port p).vec v).data] })) := by
  have hset := (s.port p).vec_setMsix hv { (s.port p).vec v with heldBack := false }
  have hsend := PortState.sendMsix_due (v := v) (now := s.mod.ctl)
    (x := { s.port p with msix := tset (s.port p).msix v { (s.port p).vec v with heldBack := false } })
    (by rw [hset]; exact hlast) hdue hen hmask (by rw [hset]; exact hvec) hd3 hup
  rw [hset, tset_tset] at hsend
  have hgo : (((s.port p).vec v).heldBack && ((((s.port p).vec v).last.map (fun t => decide (t + 100 ≤ s.mod.ctl))).getD true)) = true := by
    rw [hheld, hlast]
    exact decide_eq_true hdue
  simp only [execMsixHoldoffEnd, hgo, if_true]
  exact congrArg _ (State.modPort_congr hsend)

end

/-! ### The commands -/

theorem exec_outboundWrite (k : Nat) (s : State) : exec (.outboundWrite k) s = .next (s.outArrive k pWrite State.outWriteAt) := rfl

theorem exec_outboundRead {s : State} {k : Nat} {p : Packet} {d : Port} (h : LandsAtDie s k 3 p d) :
    exec (.outboundRead k) s = .next (if 256 ≤ (s.port d).outReads.length then s else s.outArrive k pRead State.outReadAt) := by
  have hfull : s.outFull k = decide (256 ≤ (s.port d).outReads.length) := by
    have harr : s.arriving k [pRead] [2] = some p := State.arriving_of_landsAtDie h
    obtain ⟨-, -, -, hdx, -⟩ := h
    simp only [State.outFull, harr, hdx, Port.ofNum_num]
  show Host.Outcome.next _ = _
  rw [hfull]
  simp only [decide_eq_true_eq]

/-- Settles O33: outbound packets by their window and their link; fences and held messages by what they wait for. -/
theorem outboundAndFences : Obligations.OutboundAndFences := by
  unfold Obligations.OutboundAndFences
  constructor
  · intro s k i p d w hw hvia x off inside addr up
    refine ⟨fun v po h hlen hpay hmask hin hup hmps hpage => ?writes, fun h hlen hin hdown => ?discards, fun h hlen hout => ?refuses,
      fun h hlen hin hperm hrep hsize hpage hroom => ?asks, fun h hfull => ?full, fun tag v hone hlen hc => ?completes⟩
    case writes =>
      obtain ⟨u, harr, hu⟩ := State.outArrive_of_landsAtDie h (by decide) State.outWriteAt
      obtain ⟨-, hty, -, -, -, -, hwf, hc⟩ := h
      rw [← hu.port d] at hw
      refine ⟨_, exec_outboundWrite k s, ?_⟩
      rw [show pWrite = 0 from rfl, harr, State.outWriteAt_posts hw hwf hc hlen hin hty hpay hmask (by rw [hu.port]; exact hup)
        (by rw [hu.port]; exact hmps) hpage]
      exact hu.landed d _
    case discards =>
      obtain ⟨u, harr, hu⟩ := State.outArrive_of_landsAtDie h (by decide) State.outWriteAt
      obtain ⟨-, -, -, -, -, -, hwf, hc⟩ := h
      rw [← hu.port d] at hw
      have hno : ¬ Posts (u.port d) := by
        rintro ⟨hlink, -⟩
        rw [hu.port, hdown] at hlink
        cases hlink
      refine ⟨_, exec_outboundWrite k s, ?_⟩
      rw [show pWrite = 0 from rfl, harr, State.outWriteAt_discards hw hwf hc hlen hin hno]
      exact hu.landed d _
    case refuses =>
      obtain ⟨u, harr, hu⟩ := State.outArrive_of_landsAtDie h (by decide) State.outWriteAt
      obtain ⟨-, hty, -, -, -, -, hwf, hc⟩ := h
      rw [← hu.port d] at hw
      refine ⟨_, exec_outboundWrite k s, ?_⟩
      rw [show pWrite = 0 from rfl, harr, State.outWriteAt_refuses hw hwf hc hlen hty hout]
      exact hu.landed_send (q := p.nak (784 + d.num) 0 p.epoch nakUnmapped 1) _ hc d _
    case asks =>
      obtain ⟨u, harr, hu⟩ := State.outArrive_of_landsAtDie h (by decide) State.outReadAt
      have hexec := exec_outboundRead h
      obtain ⟨-, -, -, -, -, -, hwf, hc⟩ := h
      rw [← hu.port d] at hw
      have hread := State.outReadAt_asks hw hwf hc hlen hin hperm (by rw [hu]; exact hrep) (by rw [hu.port]; exact hsize) hpage
      rw [if_neg (Nat.not_le.2 hroom), show pRead = 3 from rfl, harr, hread, hu.port] at hexec
      obtain ⟨htag, hfree⟩ := PortState.freeTag_spec hroom
      exact ⟨_, _, hexec, htag, hfree, hu.landed d _⟩
    case full => rw [exec_outboundRead h, if_pos hfull]
    case completes =>
      exact ⟨congrArg Host.Outcome.next (State.outboundCompletion_word hone hlen hc rfl),
        congrArg Host.Outcome.next (State.outboundCompletion_word hone hlen hc rfl)⟩
  · intro s p v hv x m
    refine ⟨fun hnone => ⟨s.fenceComplete p, rfl, ?_⟩, fun a hheld hlast hdue hen hmask hvec hd3 hup => ?_, fun a hlast hearly => ?_⟩
    · rw [State.fenceComplete_journal hnone]
      refine ⟨fun e he hp => ?journal, fun i hi => ?slots, ?ids, rfl⟩
      case journal =>
        obtain ⟨d, -, rfl⟩ := List.mem_map.1 he
        split at hp
        · next hd => rw [if_pos hd, Entry.unfenced]
        · next hd => exact absurd hp hd
      case slots =>
        rw [State.fenceComplete_slot hnone hi]
        exact ⟨rfl, rfl⟩
      case ids =>
        rw [List.map_map]
        refine List.map_congr_left fun e _ => ?_
        show (if e.port = p then e.unfenced else e).id = e.id
        split <;> rfl
    · rw [exec_msixHoldoffEnd, execMsixHoldoffEnd_due hv hheld hlast hdue hen hmask hvec hd3 hup]
    · rw [exec_msixHoldoffEnd, execMsixHoldoffEnd_early hlast hearly]

end Machine
end Sys2Proof

/-! SUPPORT. OPEN_WINDOW and CLOSE_WINDOW, and the statement about them (spec/12 R309, R314, R316, spec/13 R350, Table 13.8). -/

namespace Sys2Proof

theorem tget_ext {α : Type} {n : Nat} {d : α} {u v : Vector α n} (h : ∀ i < n, tget d u i = tget d v i) : u = v :=
  Vector.ext fun i hi => by simpa [tget, hi] using h i hi

theorem leNat_lt (l : List Byte) : leNat l < 256 ^ l.length := by
  induction l with
  | nil => exact Nat.one_pos
  | cons b l ih =>
    have hb : b.toNat < 256 := b.isLt
    rw [leNat, List.length_cons, Nat.pow_succ']
    omega

theorem bytesAt_lt (l : List Byte) (lo n : Nat) : bytesAt l lo n < 256 ^ n :=
  (leNat_lt _).trans_le (Nat.pow_le_pow_right (by decide) (List.length_take_le n _))

namespace Machine

open Sys2Proof.Claims

/-! ### Tables of windows -/

/-- A test of the open windows of a table. -/
theorem any_open_iff {α : Type} {n : Nat} (v : Vector (Option α) n) (f : α → Bool) :
    v.toList.any (fun o => (o.map f).getD false) = true ↔ ∃ i < n, ∃ w, tget none v i = some w ∧ f w = true := by
  rw [List.any_eq_true]
  constructor
  · rintro ⟨o, ho, hf⟩
    obtain ⟨i, hi, rfl⟩ := Vector.getElem_of_mem (Vector.mem_toList_iff.1 ho)
    cases hw : v[i] with
    | none => simp [hw] at hf
    | some w => exact ⟨i, hi, w, by simp [tget, hi, hw], by simpa [hw] using hf⟩
  · rintro ⟨i, hi, w, hw, hf⟩
    have hget : v[i] = some w := by simpa [tget, hi] using hw
    exact ⟨v[i], Vector.mem_toList_iff.2 (Vector.getElem_mem hi), by simp [hget, hf]⟩

theorem any_open_none {α : Type} {n : Nat} {v : Vector (Option α) n} (h : ∀ i < n, tget none v i = none) (f : α → Bool) :
    v.toList.any (fun o => (o.map f).getD false) = false := by
  rw [Bool.eq_false_iff]
  intro hany
  obtain ⟨i, hi, w, hw, -⟩ := (any_open_iff v f).1 hany
  rw [h i hi] at hw
  cases hw

/-! ### Parameters (spec/13 R349, Table 13.2) -/

theorem Entry.p_lt (e : Entry) (n w : Nat) : e.p n w < 256 ^ w := bytesAt_lt _ n w

/-- Fewer bytes used are used in a wider range too. -/
theorem Entry.clean_mono {e : Entry} {used wide : List (Nat × Nat)} (h : e.clean used = true)
    (hsub : ∀ r ∈ used, ∃ v ∈ wide, v.1 ≤ r.1 ∧ r.1 + r.2 ≤ v.1 + v.2) : e.clean wide = true := by
  simp only [Entry.clean, Bool.and_eq_true, List.all_eq_true, Bool.or_eq_true, List.any_eq_true, decide_eq_true_eq] at h ⊢
  refine ⟨h.1, fun b hb => (h.2 b hb).imp_right ?_⟩
  rintro ⟨r, hr, hlo, hhi⟩
  obtain ⟨v, hv, hvlo, hvhi⟩ := hsub r hr
  exact ⟨v, hv, by omega, by omega⟩

section

variable {s : State} {n : Nat} {e : Entry} {p : Port}

theorem exec_openWindow (h : Started s n 0x0100 e) (hc : e.clean [(0, 64)] = true) : exec (.openWindow n) s = .next (s.openWindow e) :=
  congrArg _ (State.cmd_started h hc rfl _)

theorem exec_closeWindow (h : Started s n 0x0101 e) (hc : e.clean [(0, 3)] = true) (hok : closeOk e = true) :
    exec (.closeWindow n) s = .next (s.closeWindow e) :=
  congrArg _ (State.cmd_started h hc hok _)

/-! ### OPEN_WINDOW -/

/-- The parameters of a window to a stack region are in their ranges (spec/12 Table 12.5). -/
structure RegionParams (s : State) (e : Entry) (r : Region) : Prop where
  clean : e.clean [(0, 6), (8, 16), (24, 4), (40, 2), (48, 8)] = true
  num : e.p 1 1 < 64
  kind : e.p 2 1 = 1
  perm : e.p 3 1 < 64 ∧ e.p 3 1 % 4 ≠ 0 ∧ e.p 3 1 / 8 % 2 = 0
  job : e.p 4 1 < 16 ∧ (s.job (e.p 4 1)).state ≠ .empty
  port : e.p 5 1 < 2
  range : e.p 8 8 % 4096 = 0 ∧ e.p 16 8 % 4096 = 0 ∧ e.p 16 8 ≠ 0 ∧ e.p 8 8 + e.p 16 8 ≤ 0xC00000000
  region : e.p 41 1 < 16 ∧ e.p 48 8 % 4096 = 0 ∧ (s.job (e.p 4 1)).region (e.p 40 1) (e.p 41 1) = some r ∧ e.p 48 8 + e.p 16 8 ≤ r.size

theorem State.inWinOk_region {r : Region} (h : RegionParams s e r) : s.inWinOk e = true := by
  obtain ⟨hclean, hnum, hkind, ⟨hp64, hp4, hp8⟩, ⟨hjob, hres⟩, hport, ⟨hbase, hsize, hpos, hend⟩, hstack, hroff, hreg, hfit⟩ := h
  have hperm : ¬ BitVec.ofNat 2 (e.p 3 1) = 0#2 := fun h0 => hp4 (by simpa using congrArg BitVec.toNat h0)
  simp [State.inWinOk, Entry.inWin, State.resident, *]

/-- A table that keeps window `num` closed and in which no window meets the range. -/
def FreeRange {α : Type} (base size : α → Nat) (v : Vector (Option α) 64) (num b n : Nat) : Prop :=
  tget none v num = none ∧ v.toList.any (fun o => (o.map (fun w => rangesMeet (base w) (size w) b n)).getD false) = false

/-- Where no window is open the range is free. -/
theorem freeRange_of_none {α : Type} (base size : α → Nat) {v : Vector (Option α) 64} (h : ∀ m < 64, tget none v m = none) {num : Nat}
    (hnum : num < 64) (b n : Nat) : FreeRange base size v num b n :=
  ⟨h num hnum, any_open_none h _⟩

theorem State.openWindow_in (hdir : e.p 0 1 = 0) (hp : e.p 5 1 = p.num) (hok : s.inWinOk e = true)
    (hfree : FreeRange InWin.base InWin.size (s.port p).inWin (e.p 1 1) (e.p 8 8) (e.p 16 8)) :
    s.openWindow e = (s.modPort p (fun y => { y with inWin := tset y.inWin (e.p 1 1) (some e.inWin) })).complete e 0 [] := by
  obtain ⟨hclosed, hmeet⟩ := hfree
  have hmeet' : (s.port p).inWin.toList.any (fun o => (o.map (fun v => rangesMeet v.base v.size e.inWin.base e.inWin.size)).getD false) =
      false := hmeet
  simp only [State.openWindow, hdir, hp, Port.ofNum_num, hok, hclosed, hmeet']
  rfl

theorem State.openWindow_overlaps (hdir : e.p 0 1 = 0) (hp : e.p 5 1 = p.num) (hok : s.inWinOk e = true) {m : Nat} {o : InWin} (hm : m < 64)
    (ho : tget none (s.port p).inWin m = some o) (hlo : e.p 8 8 < o.base + o.size) (hhi : o.base < e.p 8 8 + e.p 16 8) :
    s.openWindow e = s.complete e 8 [] := by
  have hmeet : (s.port p).inWin.toList.any (fun o => (o.map (fun v => rangesMeet v.base v.size e.inWin.base e.inWin.size)).getD false) =
      true := (any_open_iff _ _).2 ⟨m, hm, o, ho, decide_eq_true ⟨hhi, hlo⟩⟩
  simp only [State.openWindow, hdir, hp, Port.ofNum_num, hok, hmeet, Bool.or_true]
  rfl

theorem State.openWindow_out (hdir : e.p 0 1 = 1) (hp : e.p 5 1 = p.num) (hok : outWinOk e = true)
    (hfree : FreeRange OutWin.base OutWin.size (s.port p).outWin (e.p 1 1) (e.p 8 8) (e.p 16 8)) :
    s.openWindow e = (s.modPort p (fun y => { y with outWin := tset y.outWin (e.p 1 1) (some
      { base := e.p 8 8, size := e.p 16 8, haddr := e.p 32 8, perm := BitVec.ofNat 2 (e.p 3 1), by_ := (e.port, e.sess) }) })).complete e 0
        [] := by
  obtain ⟨hclosed, hmeet⟩ := hfree
  simp only [State.openWindow, hdir, hp, Port.ofNum_num, hok, hclosed, hmeet]
  rfl

/-! ### CLOSE_WINDOW -/

theorem closeOk_of (hdir : e.p 0 1 = 0 ∨ e.p 0 1 = 1 ∧ p = e.port) (hi : e.p 1 1 < 64) (hp : e.p 2 1 = p.num) : closeOk e = true := by
  have hnum : p.num < 2 := by cases p <;> decide
  rcases hdir with hdir | ⟨hdir, rfl⟩ <;> simp [closeOk, hdir, hi, hp, Nat.lt_succ_iff.1 hnum]

/-- Window `i` no longer serves TLPs. -/
def PortState.closing (x : PortState) (i : Nat) (w : InWin) : PortState := { x with inWin := tset x.inWin i (some { w with closing := true }) }

theorem State.closeWindow_in {i : Nat} {w : InWin} (hdir : e.p 0 1 = 0) (hi : e.p 1 1 = i) (hi64 : i < 64) (hp : e.p 2 1 = p.num)
    (hw : tget none (s.port p).inWin i = some w) (hopen : w.closing = false) (hwait : e.waiting = false) :
    s.closeWindow e =
      if (s.modPort p (fun x => x.closing i w)).winOnWafer p i then (s.modPort p (fun x => x.closing i w)).wait e
      else (s.modPort p (fun y => { y with inWin := tset y.inWin i none })).complete e 0 [] := by
  have hclose : s.modPort p (fun x => { x with inWin := tmod x.inWin i (fun o => o.map (fun w => { w with closing := true })) }) =
      s.modPort p (fun x => x.closing i w) := State.modPort_congr (by rw [tmod_eq_tset none, hw]; rfl)
  have hgone : (s.modPort p (fun x => x.closing i w)).modPort p (fun x => { x with inWin := tmod x.inWin i (fun o => o.filter
      (fun w => !w.closing)) }) = s.modPort p (fun y => { y with inWin := tset y.inWin i none }) := by
    rw [State.modPort_modPort]
    refine State.modPort_congr ?_
    simp only [PortState.closing, tmod_eq_tset none, tset_tset, tget_tset, hi64, and_self, if_true]
    rfl
  simp only [State.closeWindow, hdir, hi, hp, Port.ofNum_num, hwait, hw, hopen, hclose, Option.map_some, Option.getD_some, Bool.not_false,
    Bool.true_and, Bool.true_eq_false, decide_false, Bool.false_eq_true, if_false, if_true, hgone]
  rfl

theorem State.closeWindow_notOpen (hdir : e.p 0 1 = 0) (hp : e.p 2 1 = p.num) (hw : tget none (s.port p).inWin (e.p 1 1) = none)
    (hwait : e.waiting = false) : s.closeWindow e = s.complete e 7 [] := by
  simp only [State.closeWindow, hdir, hp, Port.ofNum_num, hwait, hw]
  rfl

theorem State.closeWindow_out {w : OutWin} (hdir : e.p 0 1 = 1) (hp : e.p 2 1 = p.num) (hw : tget none (s.port p).outWin (e.p 1 1) = some w)
    (hwait : e.waiting = false) (hnet : ∀ q ∈ s.net, q.dkind ≠ 2) :
    s.closeWindow e = (s.modPort p (fun y => { y with outWin := tset y.outWin (e.p 1 1) none })).complete e 0 [] := by
  have hclear (t : State) (ht : t.net = s.net) : t.outOnWafer p w.base w.size = false := by
    rw [State.outOnWafer, ht, List.any_eq_false]
    intro q hq
    simp [hnet q hq]
  simp only [State.closeWindow, hdir, hp, Port.ofNum_num, hwait, hw, hclear _ (State.modPort_net s p _)]
  rfl

theorem Port.exists_iff {P : Port → Prop} : (∃ d, P d) ↔ P .a ∨ P .b :=
  ⟨fun ⟨d, h⟩ => by cases d with
    | a => exact .inl h
    | b => exact .inr h, fun h => h.elim (fun h => ⟨.a, h⟩) (fun h => ⟨.b, h⟩)⟩

theorem State.winOnWafer_iff {i : Nat} : s.winOnWafer p i = true ↔
    (∃ q ∈ s.net, q.tag = 64 * p.num + i ∧ 784 ≤ q.sx ∧ q.ptype ≠ pRead) ∨ ∃ d, ∃ r ∈ (s.port d).inReads, r.win = some (p, i) := by
  simp only [State.winOnWafer, Port.exists_iff, List.any_append, Bool.or_eq_true, List.any_eq_true, Bool.and_eq_true, beq_iff_eq,
    decide_eq_true_iff, and_assoc]

end

/-- Settles O37: each command by what its parameters name, and a close by what is still on the wafer. -/
theorem windowCommands : Obligations.WindowCommands := by
  unfold Obligations.WindowCommands
  intro s n e p i x base size
  have hport2 (q : Port) : q.num < 2 := by cases q <;> decide
  refine ⟨fun r h hc hdir hi hkind hp64 hp4 hp8 hjob hp hbase hsize hpos hend hres hstack hroff hreg hfit => ?openIn,
    fun h hc hdir hi hperm hp hbase hsize hpos hend haddr hnone => ?openOut, fun w h hc hdir hi hp hw hopen => ⟨fun hnet hreads => ?closed,
      fun q hq htag hsx hty => ?waits⟩, fun w h hc hdir hi hp hw hnet => ?closeOut, fun h hc hdir hi hp hw => ?notOpen⟩
  case openIn =>
    have hok : s.inWinOk e = true := State.inWinOk_region (r := r) ⟨hc, hi, hkind, ⟨hp64, hp4, hp8⟩, ⟨hjob, hres⟩, hp ▸ hport2 p,
      ⟨hbase, hsize, hpos, hend⟩, hstack, hroff, hreg, hfit⟩
    rw [exec_openWindow h (Entry.clean_mono hc (by decide))]
    constructor
    · intro hnone
      refine ⟨e.inWin, ?_, rfl, rfl, hkind, rfl, BitVec.toNat_ofNat _ _, ?epoch, rfl, rfl, rfl, ?reqId, ?reqMask, rfl, rfl⟩
      · rw [State.openWindow_in hdir hp hok (freeRange_of_none _ _ (fun m hm => (hnone m hm).1) hi _ _)]
      case epoch => exact Nat.mod_eq_of_lt (by omega)
      case reqId => exact Nat.mod_eq_of_lt (e.p_lt 24 2)
      case reqMask => exact Nat.mod_eq_of_lt (e.p_lt 26 2)
    · intro m o hm ho hlo hhi
      rw [State.openWindow_overlaps hdir hp hok hm ho hlo hhi]
  case openOut =>
    have hok : outWinOk e = true := by
      rcases hperm with h3 | h3 <;> simp [outWinOk, *] <;> omega
    rw [exec_openWindow h (Entry.clean_mono hc (by decide)),
      State.openWindow_out hdir hp hok (freeRange_of_none _ _ (fun m hm => (hnone m hm).2) hi _ _)]
  case closed =>
    have hclear : (s.modPort p (fun x => x.closing i w)).winOnWafer p i = false := by
      rw [Bool.eq_false_iff, ne_eq, State.winOnWafer_iff]
      rintro (⟨q, hq, htag, -⟩ | ⟨d, r, hr, hwin⟩)
      · exact hnet q hq htag
      · refine hreads d r ?_ hwin
        rw [← s.modPort_keeps p (f := fun x => x.closing i w) PortState.inReads (fun _ => rfl) d]
        exact hr
    rw [exec_closeWindow h hc (closeOk_of (.inl hdir) hi hp),
      State.closeWindow_in hdir rfl hi hp hw hopen (not_waiting_of_started h), if_neg (Bool.eq_false_iff.1 hclear)]
  case waits =>
    have hthere : (s.modPort p (fun x => x.closing i w)).winOnWafer p i = true :=
      State.winOnWafer_iff.2 (.inl ⟨q, hq, htag, hsx, by simp [hty, pRead]⟩)
    rw [exec_closeWindow h hc (closeOk_of (.inl hdir) hi hp),
      State.closeWindow_in hdir rfl hi hp hw hopen (not_waiting_of_started h), if_pos hthere]
    rfl
  case closeOut =>
    rw [exec_closeWindow h hc (closeOk_of (.inr ⟨hdir, rfl⟩) hi hp),
      State.closeWindow_out hdir hp hw (not_waiting_of_started h) hnet]
  case notOpen =>
    rw [exec_closeWindow h hc (closeOk_of (.inl hdir) hi hp),
      State.closeWindow_notOpen hdir hp hw (not_waiting_of_started h)]

end Machine
end Sys2Proof

/-! SUPPORT. HELLO, BYE, CLAIM, YIELD, SESSION_STATUS and GET_TICK, and the statement about them (spec/12 R327-R330, spec/13 R341,
R345, R349, Table 13.7). -/

namespace Sys2Proof

theorem lt_of_tget_some {α : Type} {n i : Nat} {v : Vector (Option α) n} {a : α} (h : tget none v i = some a) : i < n := by
  by_contra hi
  simp [tget, hi] at h

namespace Machine

open Sys2Proof.Claims

/-! ### What posting an entry leaves of a port's sessions (spec/13 R345, R347) -/

@[simp] theorem PortState.sendMsix_sess (now : Nat) (x : PortState) (v : Nat) : (PortState.sendMsix now x v).sess = x.sess := by
  unfold PortState.sendMsix
  dsimp only
  split
  · rfl
  · split <;> rfl

@[simp] theorem PortState.write_sess (now : Nat) (x : PortState) (n : Nat) (q : Session) (e : RingEntry) :
    (PortState.write now x n q e).sess = tset x.sess n (some { q with posted := q.posted + 1 }) := by
  unfold PortState.write
  dsimp only
  split
  · rfl
  · rw [PortState.sendMsix_sess]
    rfl

/-- `v` is `u` after a change of session `n`, which is open in both or in neither. -/
def SessionKept (n : Nat) (u v : Vector (Option Session) 16) : Prop :=
  ∀ m < 16, (m ≠ n → tget none v m = tget none u m) ∧ (tget none v m).isSome = (tget none u m).isSome

theorem SessionKept.refl (n : Nat) (u : Vector (Option Session) 16) : SessionKept n u u := fun _ _ => ⟨fun _ => rfl, rfl⟩

theorem SessionKept.trans {n : Nat} {u v w : Vector (Option Session) 16} (h : SessionKept n u v) (k : SessionKept n v w) :
    SessionKept n u w := fun m hm => by
  obtain ⟨hsame, hopen⟩ := h m hm
  obtain ⟨ksame, kopen⟩ := k m hm
  exact ⟨fun hne => (ksame hne).trans (hsame hne), kopen.trans hopen⟩

theorem sessionKept_tset {n : Nat} {u : Vector (Option Session) 16} {q : Session} (h : tget none u n = some q) (r : Session) :
    SessionKept n u (tset u n (some r)) := by
  intro m hm
  rw [tget_tset]
  constructor
  · intro hne
    rw [if_neg (fun hnm => hne hnm.1.symm)]
  · split
    · next hnm => rw [← hnm.1, h]; rfl
    · rfl

theorem PortState.sessionKept_flushKept (now fuel : Nat) (x : PortState) (n : Nat) :
    SessionKept n x.sess (PortState.flushKept now fuel x n).sess := by
  induction fuel generalizing x with
  | zero => exact SessionKept.refl n _
  | succ fuel ih =>
    have hwrite {q : Session} (hq : tget none x.sess n = some q) (r : Session) (e : RingEntry) :
        SessionKept n x.sess (PortState.flushKept now fuel (PortState.write now x n r e) n).sess := by
      refine SessionKept.trans ?_ (ih _)
      rw [PortState.write_sess]
      exact sessionKept_tset hq _
    unfold PortState.flushKept
    split
    · exact SessionKept.refl n _
    · next q hq =>
      split
      · exact SessionKept.refl n _
      · split
        · exact SessionKept.refl n _
        · split
          · exact hwrite hq _ _
          · exact hwrite hq _ _

theorem PortState.sessionKept_put (now : Nat) (x : PortState) (n : Nat) (e : RingEntry) :
    SessionKept n x.sess (PortState.put now x n e).sess := by
  unfold PortState.put
  split
  · exact SessionKept.refl n _
  · next q hq =>
    dsimp only
    split
    · exact (sessionKept_tset hq _).trans (PortState.sessionKept_flushKept now 2 _ n)
    · exact sessionKept_tset hq _

/-- An entry of a session that keeps none is posted, or it is the one entry kept. -/
theorem PortState.put_first (now : Nat) {x : PortState} {n : Nat} {q : Session} {e : RingEntry} (hq : tget none x.sess n = some q)
    (hkept : q.kept = []) (he : e.event = false) :
    tget none (PortState.put now x n e).sess n = some { q with posted := q.posted + 1, kept := [] } ∨
      tget none (PortState.put now x n e).sess n = some { q with kept := [e] } := by
  have hn : n < 16 := lt_of_tget_some hq
  simp only [PortState.put, hq, hkept, List.isEmpty_nil, if_true, List.nil_append, PortState.flushKept, tget_tset, hn, and_self, he,
    Bool.false_and, Bool.false_eq_true, if_false]
  split
  · exact .inr (by simp [tget_tset, hn])
  · refine .inl ?_
    simp [PortState.write_sess, tget_tset, hn]

/-- The reply of a command leaves the other sessions of its port. -/
theorem State.sessionKept_complete (s : State) (e : Entry) (st : Nat) (pay : List Byte) :
    SessionKept e.sess (s.port e.port).sess ((s.complete e st pay).port e.port).sess := by
  unfold State.complete
  dsimp only
  split
  · exact SessionKept.refl _ _
  · rw [State.port_modPort_same]
    refine SessionKept.trans ?_ (PortState.sessionKept_put _ _ _ _)
    show SessionKept e.sess (s.port e.port).sess (match tget none (s.port e.port).sess e.sess with
      | some q => tset (s.port e.port).sess e.sess (some (q.setStatus e.seq st))
      | none => (s.port e.port).sess)
    split
    · next q hq => exact sessionKept_tset hq _
    · exact SessionKept.refl _ _

/-! ### HELLO (spec/13 R341, R345) -/

theorem PortState.freeSession_eq {x : PortState} {k : Nat} (h1 : 1 ≤ k) (hk : k < 16) (hfree : tget none x.sess k = none)
    (hbusy : ∀ m, 1 ≤ m → m < k → (tget none x.sess m).isSome = true) : x.freeSession = some k := by
  obtain ⟨i, rfl⟩ : ∃ i, k = i + 1 := ⟨k - 1, by omega⟩
  rw [PortState.freeSession, List.find?_map]
  have hfind : (List.range 15).find? ((fun n => (tget none x.sess n).isNone) ∘ (· + 1)) = some i := by
    rw [List.find?_range_eq_some]
    refine ⟨by simp [hfree], List.mem_range.2 (by omega), fun j hj => ?_⟩
    obtain ⟨q, hq⟩ := Option.isSome_iff_exists.1 (hbusy (j + 1) (by omega) (by omega))
    simp [hq]
  rw [hfind]
  rfl

/-- The session that a HELLO's parameters describe. -/
def Entry.newSession (e : Entry) : Session :=
  { rbase := e.p 0 8, rlog2 := e.p 8 1, esize := e.p 9 1, vector := e.p 10 1
    subJobs := e.p 11 1 % 2 == 1, subErrs := e.p 11 1 / 2 == 1 }

/-- A port on which a HELLO has opened session `k`. -/
def PortState.opened (x : PortState) (e : Entry) (k : Nat) : PortState :=
  PortState.modSess { x with sess := tset x.sess k (some e.newSession), ringCons := tset x.ringCons k 0 } e.sess
    (fun q => q.setStatus e.seq stOk)

theorem PortState.opened_session (x : PortState) (e : Entry) {k : Nat} (hk : k < 16) :
    tget none (x.opened e k).sess k = some e.newSession := by
  simp only [PortState.opened, PortState.modSess, tget_tmod, tget_tset, hk, and_true]
  split <;> rfl

section

variable {s : State} {n : Nat} {e : Entry}

/-- The reply of a HELLO that opened session `k`. -/
def State.helloEntry (s : State) (e : Entry) (k : Nat) : RingEntry :=
  { tag := e.tag, status := stOk, opcode := e.opcode, quiet := e.quiet, payload := leBytes 4 k ++ s.genBytes ++ leBytes 8 s.now }

/-- `s` without command `e`. -/
def State.answering (s : State) (e : Entry) : State := { s with cp := { s.cp with journal := s.cp.journal.filter (fun d => d.id ≠ e.id) } }

theorem State.hello_opens {k : Nat} (hdeaf : e.deaf = false) (hk : (s.port e.port).freeSession = some k) :
    ∃ r : RingEntry, r.event = false ∧
      s.hello e = (s.answering e).modPort e.port (fun x => PortState.put s.mod.ctl (x.opened e k) k r) := by
  refine ⟨((s.openSession e k).retire e stOk).helloEntry e k, rfl, ?_⟩
  simp only [State.hello, hdeaf, hk, Bool.false_eq_true, if_false]
  show State.modPort _ e.port (fun x => PortState.put s.mod.ctl x k (((s.openSession e k).retire e stOk).helloEntry e k)) = _
  generalize State.helloEntry _ e k = r
  show (((s.answering e).modPort e.port (fun x => { x with sess := tset x.sess k (some e.newSession), ringCons := tset x.ringCons k 0 })).modPort
    e.port (fun x => x.modSess e.sess (fun q => q.setStatus e.seq stOk))).modPort e.port (fun x => PortState.put s.mod.ctl x k r) = _
  rw [State.modPort_modPort, State.modPort_modPort]
  rfl

theorem helloOk_of (hbase : e.p 0 8 % 64 = 0) (hlog : 4 ≤ e.p 8 1 ∧ e.p 8 1 ≤ 12) (hsize : e.p 9 1 ≤ 6)
    (hvec : 1 ≤ e.p 10 1 ∧ e.p 10 1 ≤ 63) (hsub : e.p 11 1 < 4) : helloOk e = true := by
  simp [helloOk, ringOk, hbase, hlog, hsize, hvec, hsub]

theorem exec_hello (h : Started s n 0x0000 e) (hc : e.clean [(0, 12)] = true) (hok : helloOk e = true) :
    exec (.hello n) s = .next (s.hello e) := by
  obtain ⟨hentry, hstarted, hop, hcp, -, -, hdeaf⟩ := h
  show execHello n s = _
  simp [execHello, State.helloCmd, hentry, hstarted, hop, hcp, hdeaf, hc, hok]

/-! ### BYE (spec/13 R341, spec/12 R314, R329) -/

theorem exec_bye (h : Started s n 0x0001 e) (hc : e.clean [] = true) : exec (.bye n) s = .next (s.bye e) :=
  congrArg _ (State.cmd_started h hc rfl _)

theorem State.mem_of_waitingClaim {d : Entry} (h : s.waitingClaim = some d) : d ∈ s.cp.journal := by
  obtain ⟨i, -, hi⟩ := Option.bind_eq_some_iff.1 h
  exact List.mem_of_find?_eq_some hi

/-- A session whose only command does not wait has none to abort. -/
theorem State.abortSession_alone {p : Port} {m : Nat} {claims : Bool} (honly : ∀ d ∈ s.cp.journal, d.port = p → d.sess = m → opWaits d.opcode = false) :
    s.abortSession p m claims = s := by
  have hsel (d : Entry) (hd : d ∈ s.cp.journal) :
      (d.port == p && d.sess == m && !d.deaf && opWaits d.opcode && (claims || d.opcode != 2)) = false := by
    rw [Bool.eq_false_iff]
    intro htrue
    simp only [Bool.and_eq_true, beq_iff_eq] at htrue
    obtain ⟨⟨⟨⟨hp, hm⟩, -⟩, hw⟩, -⟩ := htrue
    rw [honly d hd hp hm] at hw
    cases hw
  have hnone : s.cp.journal.filter (fun d => d.port == p && d.sess == m && !d.deaf && opWaits d.opcode && (claims || d.opcode != 2)) = [] :=
    List.filter_eq_nil_iff.2 fun d hd => Bool.eq_false_iff.1 (hsel d hd)
  have hclaim : (s.waitingClaim.map (fun d => d.port == p && d.sess == m && !d.deaf && opWaits d.opcode &&
      (claims || d.opcode != 2))).getD false = false := by
    cases hw : s.waitingClaim with
    | none => rfl
    | some d => exact hsel d (State.mem_of_waitingClaim hw)
  unfold State.abortSession
  simp [State.completeIf, hnone, hclaim]

theorem State.closeInbound_none {p : Port} (h : NoWindows (s.port p)) (sel : InWin → Bool) : s.closeInbound p sel = s := by
  have hnone (m : Nat) (hm : m < 64) : tget none (s.port p).inWin m = none := (h m hm).1
  have hsame : (s.port p).inWin.map (fun w => w.filter (fun i => !sel i)) = (s.port p).inWin :=
    tget_ext (d := none) fun m hm => by rw [tget_map hm none none, hnone m hm]; rfl
  simp only [State.closeInbound, any_open_none hnone, Bool.false_eq_true, if_false]
  exact (State.modPort_congr (by rw [hsame])).trans (s.modPort_id p)

/-- Where nothing of the session is left but its BYE, and its ring has room, BYE is answered and closes the session. -/
theorem State.bye_alone {q : Session} (hwait : e.waiting = false) (hq : tget none (s.port e.port).sess e.sess = some q) (hkept : q.kept = [])
    (hpost : (s.port e.port).canPost e.sess q = true)
    (honly : ∀ d ∈ s.cp.journal, d.port = e.port → d.sess = e.sess → opWaits d.opcode = false) (hwin : ∀ p, NoWindows (s.port p)) :
    ∃ fw, s.bye e = ((({ s with fw := fw } : State).wait e).complete e 0 []).endSession e.port e.sess := by
  have hclosed : s.closeSessionWindows e.port e.sess = s := by
    rw [State.closeSessionWindows, State.closeBoth, State.closeInbound_none (hwin .a), State.closeInbound_none (hwin .b)]
  obtain ⟨fw, hfw⟩ : ∃ fw, s.dropUpdateIf (fun u => u == .port e.port e.sess) = { s with fw := fw } := by
    unfold State.dropUpdateIf
    split
    · exact ⟨_, rfl⟩
    · exact ⟨s.fw, rfl⟩
  refine ⟨fw, ?_⟩
  have hports : ((({ s with fw := fw } : State).wait e).port e.port) = s.port e.port := rfl
  simp only [State.bye, hwait, Bool.false_eq_true, if_false, State.abortSession_alone honly, hclosed, hfw, hports, hq, hkept, List.isEmpty_nil,
    hpost, Bool.and_self, if_true]
  rfl

theorem State.endSession_session {p : Port} {m : Nat} (j : Nat) :
    tget none ((s.endSession p m).port p).sess j = if m = j ∧ j < 16 then none else tget none (s.port p).sess j := by
  show tget none ((s.modPort p (fun x => { x with sess := tset x.sess m none })).port p).sess j = _
  rw [State.port_modPort_same]
  exact tget_tset _ _ _ _ _

/-- A session with no command left in the journal marks none. -/
theorem State.endSession_journal {p : Port} {m : Nat} (hnone : ∀ d ∈ s.cp.journal, d.port = p → d.sess ≠ m) :
    (s.endSession p m).cp = s.cp := by
  have hmap : s.cp.journal.map (fun d => if d.port = p ∧ d.sess = m then { d with deaf := true } else d) = s.cp.journal :=
    (List.map_congr_left fun d hd => if_neg fun h => hnone d hd h.1 h.2).trans (List.map_id _)
  unfold State.endSession
  dsimp only
  rw [State.modPort_cp, hmap]

/-- A command that is to leave the journal may be changed first. -/
theorem filter_map_other (l : List Entry) (i : Nat) (f : Entry → Entry) (hf : ∀ d, (f d).id = d.id) :
    (l.map (fun d => if d.id = i then f d else d)).filter (fun d => d.id ≠ i) = l.filter (fun d => d.id ≠ i) := by
  induction l with
  | nil => rfl
  | cons d l ih => by_cases hd : d.id = i <;> simp_all

/-! ### CLAIM and YIELD (spec/12 Table 12.8, R327, R329, R330) -/

theorem exec_claim (h : Started s n 0x0002 e) (hc : e.clean [(0, 1)] = true) (hok : e.p 0 1 < 2) : exec (.claim n) s = .next (s.claim e) :=
  congrArg _ (State.cmd_started h hc (decide_eq_true hok) _)

theorem exec_yield (h : Started s n 0x0003 e) (hc : e.clean [] = true) : exec (.yield n) s = .next (s.yieldOwner e) :=
  congrArg _ (State.cmd_started h hc rfl _)

theorem State.dropUpdateIf_frame (sel : UpdSrc → Bool) : s.dropUpdateIf sel = { s with fw := (s.dropUpdateIf sel).fw } := by
  unfold State.dropUpdateIf
  split <;> rfl

/-- A port's windows are closed, and PORTEVT shows no less. -/
theorem State.closeInbound_shows (p : Port) (sel : InWin → Bool) :
    (s.closeInbound p sel).cp = s.cp ∧ ∀ q i, Shows s q i → Shows (s.closeInbound p sel) q i := by
  obtain ⟨hframe, htold⟩ := s.closeInbound_told p sel
  refine ⟨by rw [hframe]; rfl, fun q i hshow => (htold q).2 i ?_⟩
  rw [s.modPort_keeps p (f := PortState.shut sel) PortState.evt (fun _ => rfl) q]
  exact hshow

/-- One change of owner: OWNGEN counts it, and PORTEVT.OWNCHG shows it on both ports. -/
theorem State.setOwner_spec (s : State) (new : Option (Port × Nat)) :
    (s.setOwner new).cp = { s.cp with owner := new, ownGen := s.cp.ownGen + 1 } ∧ ∀ p, Shows (s.setOwner new) p 0 := by
  unfold State.setOwner
  extract_lets old _ owned changed left
  have hchanged : changed.cp = owned.cp ∧ ∀ p, Shows changed p 0 := by
    have hboth := owned.bothEvent_shows evOwnChg (by decide)
    have hcp : (owned.bothEvent evOwnChg).cp = owned.cp := by rw [(owned.portsTold_bothEvent evOwnChg).1]
    have hdrop : changed = _ := State.dropUpdateIf_frame UpdSrc.isPort
    rw [hdrop]
    exact ⟨hcp, hboth⟩
  have hleft : left.cp = owned.cp ∧ ∀ p, Shows left p 0 := by
    clear_value old changed
    cases old with
    | none => exact hchanged
    | some p =>
      by_cases hkeeps : new.map (·.1) = some p
      · rw [show left = changed from if_pos hkeeps]
        exact hchanged
      · obtain ⟨hcp, hshow⟩ := changed.closeInbound_shows p (fun _ => true)
        rw [show left = (changed.closeInbound p (fun _ => true)).dropSnaps (Snap.ofPort p) from if_neg hkeeps]
        exact ⟨hcp.trans hchanged.1, fun q => hshow q 0 (hchanged.2 q)⟩
  rw [left.sourceOfOwner_frame]
  exact hleft

/-- A change of owner that is answered: the owner, OWNGEN, the journal and PORTEVT.OWNCHG. -/
theorem State.setOwner_answered (s : State) (new : Option (Port × Nat)) (e : Entry) (st : Nat) (pay : List Byte) :
    let t := (s.setOwner new).complete e st pay
    t.cp.owner = new ∧ t.cp.ownGen = s.cp.ownGen + 1 ∧ Answered s t e ∧ ∀ p, (t.port p).evt.getLsbD 0 = true := by
  intro t
  obtain ⟨hcp, hshow⟩ := s.setOwner_spec new
  obtain ⟨-, htold, -⟩ := (s.setOwner new).replied_complete e st pay
  have ht : t.cp = _ := (s.setOwner new).complete_cp e st pay
  rw [Answered, ht, hcp]
  exact ⟨rfl, rfl, rfl, fun p => (htold p).2 0 (hshow p)⟩

theorem State.otherPreferred_iff {p : Port} : s.otherPreferred p = true ↔ s.mod.prefPort = some p.other := beq_iff_eq

theorem State.waitingClaim_none (h : s.cp.claim = none) : s.waitingClaim = none := by
  rw [State.waitingClaim, h]
  rfl

/-- A CLAIM waits. -/
def State.claimWaits (s : State) (e : Entry) : State := ({ s with cp := { s.cp with claim := some e.id } }).wait e

theorem State.claim_granted (hwait : e.waiting = false) (hown : s.cp.owner = none) (hpref : s.mod.prefPort ≠ some e.port.other) :
    s.claim e = (s.setOwner (some (e.port, e.sess))).complete e stOk (s.setOwner (some (e.port, e.sess))).genBytes := by
  simp [State.claim, hwait, hown, mt State.otherPreferred_iff.1 hpref]

theorem State.claim_preferred (hwait : e.waiting = false) (hown : s.cp.owner = none) (hpref : s.mod.prefPort = some e.port.other)
    (hclaim : s.cp.claim = none) : s.claim e = s.claimWaits e := by
  simp [State.claim, hwait, hown, State.otherPreferred_iff.2 hpref, State.waitingClaim_none hclaim, State.claimWaits]

theorem State.claim_refused {o : Port} {m : Nat} (hwait : e.waiting = false) (hown : s.cp.owner = some (o, m))
    (h : e.p 0 1 = 0 ∧ s.mod.prefPort ≠ some e.port.other ∨ o = e.port) : s.claim e = s.complete e 0xF s.genBytes := by
  have hnot : ¬ ((e.p 0 1 = 1 ∨ s.otherPreferred e.port = true) ∧ o ≠ e.port ∧ s.waitingClaim.isNone = true) := by
    rintro ⟨hasked, hother, -⟩
    rw [State.otherPreferred_iff] at hasked
    rcases h with ⟨hnowait, hpref⟩ | hsame
    · rcases hasked with hasked | hasked
      · omega
      · exact hpref hasked
    · exact hother hsame
  simp only [State.claim, hwait, hown, hnot, Bool.false_eq_true, if_false]
  rfl

theorem State.claim_behind {o : Port} {m : Nat} (hwait : e.waiting = false) (hown : s.cp.owner = some (o, m))
    (h : e.p 0 1 = 1 ∨ s.mod.prefPort = some e.port.other) (hother : o ≠ e.port) (hclaim : s.cp.claim = none) :
    s.claim e = s.claimWaits e := by
  have hyes : (e.p 0 1 = 1 ∨ s.otherPreferred e.port = true) ∧ o ≠ e.port ∧ s.waitingClaim.isNone = true :=
    ⟨h.imp_right State.otherPreferred_iff.2, hother, by rw [State.waitingClaim_none hclaim]; rfl⟩
  simp only [State.claim, State.claimWaits, hwait, hown, Bool.false_eq_true, if_false, if_pos hyes]

theorem State.yield_owner (hown : s.cp.owner = some (e.port, e.sess)) (hclaim : s.cp.claim = none) :
    s.yieldOwner e = (s.setOwner none).complete e stOk (s.setOwner none).genBytes := by
  simp [State.yieldOwner, hown, State.releaseOwner, State.waitingClaim_none hclaim]

theorem State.yield_badState (hown : s.cp.owner ≠ some (e.port, e.sess)) (hclaim : s.cp.claim = none) :
    s.yieldOwner e = s.complete e 7 [] := by
  simp [State.yieldOwner, hown, State.waitingClaim_none hclaim, stBadState]

/-! ### SESSION_STATUS (spec/13 Table 13.7) -/

theorem State.sessionStatus_open {q : Session} (hq : tget none (s.port e.port).sess e.sess = some q) :
    s.sessionStatus e = s.complete e 0 (leBytes 4 q.nextSeq ++
      leBytes 2 (s.cp.journal.filter (fun d => d.port = e.port ∧ d.sess = e.sess ∧ d.deaf = false)).length ++ leBytes 2 q.kept.length) := by
  have hsel : (fun d : Entry => d.port == e.port && d.sess == e.sess && !d.deaf) =
      fun d => decide (d.port = e.port ∧ d.sess = e.sess ∧ d.deaf = false) := by
    funext d
    rw [Bool.eq_iff_iff]
    simp [and_assoc]
  simp only [State.sessionStatus, hq, State.outstanding, hsel]
  rfl

/-- A command with a parameter out of its range (spec/13 R349). -/
theorem State.cmd_badParam {op : Nat} {used : List (Nat × Nat)} {ok : Entry → Bool} (h : Started s n op e) (hok : ok e = false)
    (f : Entry → State) : s.cmd n op used ok f = s.complete e stBadParam [] := by
  obtain ⟨hentry, hstarted, hop, hcp, -, hwait, -⟩ := h
  simp [State.cmd, hentry, hstarted, hop, hcp, hwait, hok]

/-- A BYE that is answered closes its session and no other, and leaves no command of it. -/
theorem exec_bye_alone {q : Session} (h : Started s n 0x0001 e) (hc : e.clean [] = true) (hq : HasSession s e.port e.sess q)
    (hkept : q.kept = []) (hpost : (s.port e.port).canPost e.sess q = true)
    (honly : ∀ d ∈ s.cp.journal, d.port = e.port → d.sess = e.sess → d = e) (hwin : ∀ p, NoWindows (s.port p)) :
    ∃ t, exec (.bye n) s = .next t ∧ tget none (t.port e.port).sess e.sess = none ∧ Answered s t e ∧
      (∀ m < 16, m ≠ e.sess → tget none (t.port e.port).sess m = tget none (s.port e.port).sess m) ∧ t.cp.owner = s.cp.owner := by
  obtain ⟨hsess, hq⟩ := hq
  obtain ⟨-, -, hop, -⟩ := id h
  have hnowait (d : Entry) (hd : d ∈ s.cp.journal) (hp : d.port = e.port) (hs : d.sess = e.sess) : opWaits d.opcode = false := by
    rw [honly d hd hp hs, hop]
    rfl
  obtain ⟨fw, hbye⟩ := State.bye_alone (not_waiting_of_started h) hq hkept hpost hnowait hwin
  generalize hu : ({ s with fw := fw } : State).wait e = u at hbye
  have hports : u.port e.port = s.port e.port := by rw [← hu]; rfl
  have hjournal : (u.complete e 0 []).cp = { s.cp with journal := s.cp.journal.filter (fun d => d.id ≠ e.id) } := by
    have hmap : u.cp.journal.filter (fun d => d.id ≠ e.id) = s.cp.journal.filter (fun d => d.id ≠ e.id) := by
      rw [← hu]
      exact filter_map_other _ _ _ (fun _ => rfl)
    rw [State.complete_cp, hmap, ← hu]
    rfl
  have hcp : ((u.complete e 0 []).endSession e.port e.sess).cp = (u.complete e 0 []).cp := by
    refine State.endSession_journal fun d hd hp hs => ?_
    rw [hjournal, List.mem_filter, decide_eq_true_iff] at hd
    exact hd.2 (by rw [honly d hd.1 hp hs])
  refine ⟨_, (exec_bye h hc).trans (congrArg _ hbye), ?_, ?_, fun m hm hne => ?_, ?_⟩
  · rw [State.endSession_session, if_pos ⟨rfl, hsess⟩]
  · rw [Answered, hcp, hjournal]
  · rw [State.endSession_session, if_neg (fun hsame => hne hsame.1.symm), (u.sessionKept_complete e 0 [] m hm).1 hne, hports]
  · rw [hcp, hjournal]

/-- A HELLO in range opens the lowest free session as its parameters say, with one entry posted or kept. -/
theorem exec_hello_opens {k : Nat} (h : Started s n 0x0000 e) (hc : e.clean [(0, 12)] = true) (hok : helloOk e = true) (hk : k < 16)
    (hfree : (s.port e.port).freeSession = some k) :
    ∃ t q, exec (.hello n) s = .next t ∧ HasSession t e.port k q ∧ q.posted + q.kept.length = 1 ∧
      q = { e.newSession with posted := q.posted, kept := q.kept } ∧ tget 0 (t.port e.port).ringCons k = 0 ∧ Answered s t e ∧
      t.cp.owner = s.cp.owner := by
  obtain ⟨-, -, -, -, -, -, hdeaf⟩ := id h
  obtain ⟨r, hr, hhello⟩ := State.hello_opens hdeaf hfree
  have hport : (s.hello e).port e.port = PortState.put s.mod.ctl ((s.port e.port).opened e k) k r := by
    rw [hhello, State.port_modPort_same]
    rfl
  have hcons : tget 0 ((s.hello e).port e.port).ringCons k = 0 := by
    rw [hport, (PortState.told_put _ _ _ _).1]
    exact (tget_tset _ _ _ _ _).trans (if_pos ⟨rfl, hk⟩)
  have hcp : (s.hello e).cp = (s.answering e).cp := by
    rw [hhello]
    rfl
  have howner : (s.hello e).cp.owner = s.cp.owner := by rw [hcp]; rfl
  have hput := PortState.put_first s.mod.ctl ((s.port e.port).opened_session e hk) rfl hr
  rw [← hport] at hput
  rcases hput with hq | hq
  · exact ⟨_, _, exec_hello h hc hok, ⟨hk, hq⟩, rfl, rfl, hcons, congrArg CpState.journal hcp, howner⟩
  · exact ⟨_, _, exec_hello h hc hok, ⟨hk, hq⟩, rfl, rfl, hcons, congrArg CpState.journal hcp, howner⟩

end

/-- Settles O36: each command by its case; what a reply leaves of the sessions, and what a change of owner is, are said once above. -/
theorem sessionCommands : Obligations.SessionCommands := by
  unfold Obligations.SessionCommands
  intro s n e x gen waiting
  refine ⟨fun k h hc hbase hlo hhi hsize hv1 hv63 hsub hk1 hk hfree hbusy => ?hello,
    fun q h hc hq hkept hlink hd3 hgrace hroom honly hwin => ?bye,
    fun h hc hp => ⟨fun hown hpref => ?granted, fun o m hown href => ?refused, fun o m hown hask hother hclaim => ?behind,
      fun hown hpref hclaim => ?preferred⟩,
    fun h hc hclaim => ⟨fun hown => ?released, fun hown => ?notOwner⟩, fun q h hc hq => ?status, fun h hc => ?tick, fun h hp => ?badParam⟩
  case hello =>
    obtain ⟨t, q, hexec, hq, hcount, hsame, hcons, hans, hown⟩ := exec_hello_opens h hc (helloOk_of hbase ⟨hlo, hhi⟩ hsize ⟨hv1, hv63⟩ hsub) hk
      (PortState.freeSession_eq hk1 hk hfree hbusy)
    refine ⟨t, q, hexec, hq, ?_, ?_, ?_, ?_, ?_, ?_, ?_, hcount, hcons, hans, hown⟩ <;> rw [hsame]
    · rfl
    · rfl
    · rfl
    · rfl
    · exact beq_iff_eq
    · exact beq_iff_eq.trans (by omega)
    · rfl
  case bye =>
    have hpost : x.canPost e.sess q = true := by
      simp only [PortState.canPost, hlink, hd3, hgrace, hroom]
      rfl
    exact exec_bye_alone h hc hq hkept hpost honly hwin
  case granted =>
    rw [exec_claim h hc hp, State.claim_granted (not_waiting_of_started h) hown hpref]
    exact ⟨_, rfl, State.setOwner_answered _ _ _ _ _⟩
  case refused => rw [exec_claim h hc hp, State.claim_refused (not_waiting_of_started h) hown href]; rfl
  case behind => rw [exec_claim h hc hp, State.claim_behind (not_waiting_of_started h) hown hask hother hclaim]; rfl
  case preferred => rw [exec_claim h hc hp, State.claim_preferred (not_waiting_of_started h) hown hpref hclaim]; rfl
  case released =>
    rw [exec_yield h hc, State.yield_owner hown hclaim]
    exact ⟨_, rfl, State.setOwner_answered _ _ _ _ _⟩
  case notOwner => rw [exec_yield h hc, State.yield_badState hown hclaim]
  case status =>
    obtain ⟨-, hq⟩ := hq
    exact congrArg _ ((State.cmd_started h hc rfl _).trans (State.sessionStatus_open hq))
  case tick => exact congrArg _ (State.cmd_started h hc rfl _)
  case badParam => exact congrArg _ (State.cmd_badParam h (decide_eq_false (Nat.not_lt.2 hp)) _)

end Machine
end Sys2Proof

/-! SUPPORT. Connectors, PERST#, link training, D3hot and D0, and the statement about them (spec/12 R302, R328, R331, R332, spec/19
R471). -/

namespace Sys2Proof.Machine

open Sys2Proof.Claims

/-! ### Kept entries and withheld messages go out (spec/12 R324, R331, spec/13 R347) -/

/-- `y` is `x` after messages to its host that open and close no session. -/
def PortState.ToldOpen (x y : PortState) : Prop := x.Told y ∧ ∀ m < 16, (tget none y.sess m).isSome = (tget none x.sess m).isSome

theorem PortState.ToldOpen.refl (x : PortState) : x.ToldOpen x := ⟨PortState.Told.refl x, fun _ _ => rfl⟩

theorem PortState.ToldOpen.trans {x y z : PortState} (h : x.ToldOpen y) (k : y.ToldOpen z) : x.ToldOpen z :=
  ⟨h.1.trans k.1, fun m hm => (k.2 m hm).trans (h.2 m hm)⟩

theorem PortState.toldOpen_flushAll (now : Nat) (x : PortState) : x.ToldOpen (PortState.flushAll now x) := by
  unfold PortState.flushAll
  refine List.foldlRecOn (motive := x.ToldOpen) _ _ (PortState.ToldOpen.refl x) (fun y hy n _ => hy.trans ?_)
  exact ⟨PortState.told_flushKept now _ y n, fun m hm => (PortState.sessionKept_flushKept now _ y n m hm).2⟩

theorem PortState.toldOpen_flushMsix (now : Nat) (x : PortState) : x.ToldOpen (PortState.flushMsix now x) := by
  unfold PortState.flushMsix
  refine List.foldlRecOn (motive := x.ToldOpen) _ _ (PortState.ToldOpen.refl x) (fun y hy v _ => ?_)
  split
  · exact hy.trans ⟨PortState.told_sendMsix now y v, fun m _ => by rw [PortState.sendMsix_sess]⟩
  · exact hy

theorem PortState.toldOpen_resume (now : Nat) (x : PortState) : x.ToldOpen (PortState.resume now x) :=
  (PortState.toldOpen_flushAll now x).trans (PortState.toldOpen_flushMsix now _)

/-! ### Links (spec/12 R302, R328, R332) -/

section

variable {s : State} {p : Port}

/-- A link may train: it is down outside a grace period, the cable mated, the REFCLK settled and no reset in force. -/
structure MayTrain (s : State) (p : Port) : Prop where
  down : (s.port p).linkUp = false
  noReset : (s.port p).reset = false
  noPerst : (s.port p).perst = false
  mated : (s.port p).cprsnt = false
  refclk : s.refUsable p = true
  noGrace : (s.port p).grace = none
  started : 3 ≤ s.mod.step

theorem State.trainLink_up (h : MayTrain s p) (rate width : Nat) :
    s.trainLink p rate width = (s.modPort p (fun x =>
      PortState.resume s.mod.ctl { x with linkUp := true, degraded := decide (rate < 16 ∨ width < 8) })).peerEvent p := by
  simp [State.trainLink, h.down, h.noReset, h.noPerst, h.mated, h.refclk, h.noGrace, Nat.not_lt.2 h.started]

/-- The link is up, degraded below its full rate or width, and the other port shows PEERLINK. -/
theorem State.trainLink_spec (h : MayTrain s p) (rate width : Nat) :
    let t := s.trainLink p rate width
    PortsOnly s t ∧ (t.port p).linkUp = true ∧ ((t.port p).degraded = true ↔ rate < 16 ∨ width < 8) ∧ Shows t p.other 5 ∧
      (t.port p.other).linkUp = (s.port p.other).linkUp := by
  intro t
  have ht : t = _ := State.trainLink_up h rate width
  generalize hu : s.modPort p (fun x =>
    PortState.resume s.mod.ctl { x with linkUp := true, degraded := decide (rate < 16 ∨ width < 8) }) = u at ht
  obtain ⟨hframe, htold⟩ := u.portsTold_portEvent p.other evPeerLink
  have hp := htold p
  have ho := htold p.other
  have hup : (u.port p).linkUp = true ∧ (u.port p).degraded = decide (rate < 16 ∨ width < 8) := by
    rw [← hu, State.port_modPort_same, (PortState.toldOpen_resume _ _).1.1]
    exact ⟨rfl, rfl⟩
  have hother : u.port p.other = s.port p.other := by rw [← hu, State.port_modPort_other]
  rw [ht]
  refine ⟨?_, ?_, ?_, State.portEvent_shows u p.other 5 (by decide), ?_⟩
  · refine hframe.trans ?_
    rw [← hu]
    rfl
  · exact hp.linkUp.trans hup.1
  · rw [show ((u.peerEvent p).port p).degraded = (u.port p).degraded by rw [State.peerEvent, hp.1], hup.2, decide_eq_true_iff]
  · exact ho.linkUp.trans (by rw [hother])

theorem State.trainLink_noRefclk (h : (s.port p).refPresent = false ∨ (s.port p).refSettled = false) (rate width : Nat) :
    s.trainLink p rate width = s := by
  have href : s.refUsable p = false := by
    rcases h with h | h <;> simp [State.refUsable, h]
  simp [State.trainLink, href]

/-- The loss of the owner's link begins a grace period, which both ports show (spec/12 R328). -/
theorem State.loseLink_owner {m : Nat} (hup : (s.port p).linkUp = true) (hown : s.cp.owner = some (p, m)) :
    ((s.loseLink p).port p).grace = some (s.mod.ctl + 25000000) ∧ ∀ q, Shows (s.loseLink p) q 1 := by
  unfold State.loseLink
  rw [hup, if_neg (by simp)]
  extract_lets down
  have hcp : down.cp = s.cp := rfl
  have hctl : down.mod = s.mod := rfl
  have howns : down.ownsPort p = true := by simp [State.ownsPort, hcp, hown]
  rw [if_pos howns, hctl]
  have hboth := State.portsTold_bothEvent (down.modPort p (fun x => { x with grace := some (s.mod.ctl + 25000000) })) evGraceStart
  refine ⟨?_, State.bothEvent_shows _ evGraceStart (by decide)⟩
  rw [(hboth.2 p).1, State.port_modPort_same]

/-- Unmating a cable is a link loss: no reset, the windows stay, and PERST# is void (spec/19 R471). -/
theorem State.unmate_spec (hup : (s.port p).linkUp = true) (st : Straps) :
    let t := s.cableChange p false st
    PortsOnly s t ∧ (t.port p).cprsnt = true ∧ (t.port p).perst = false ∧ (t.port p).reset = (s.port p).reset ∧ (t.port p).linkUp = false ∧
      (t.port p).inReads = [] ∧ (t.port p).inWin = (s.port p).inWin ∧ Shows t p.other 5 ∧
      ∀ m, s.cp.owner = some (p, m) → (t.port p).grace = some (s.mod.ctl + 25000000) ∧ Shows t p 1 ∧ Shows t p.other 1 := by
  intro t
  let pulled := s.modPort p (fun x => { x with cprsnt := true, perst := false })
  have hpulled : pulled.port p = { s.port p with cprsnt := true, perst := false } := s.port_modPort_same p _
  have hup' : (pulled.port p).linkUp = true := by
    rw [hpulled]
    exact hup
  have ht : t = pulled.loseLink p := rfl
  obtain ⟨hframe, ⟨g, hcut⟩, -, hshow⟩ := pulled.loseLink_of_up p hup'
  rw [hpulled] at hcut
  rw [ht]
  refine ⟨hframe, ?_, ?_, ?_, ?_, ?_, ?_, hshow, fun m hm => ?_⟩
  · rw [hcut.1]; rfl
  · rw [hcut.1]; rfl
  · rw [hcut.1]; rfl
  · rw [hcut.1]; rfl
  · rw [hcut.1]; rfl
  · rw [hcut.1]; rfl
  · obtain ⟨hgrace, hboth⟩ := State.loseLink_owner (s := pulled) hup' hm
    exact ⟨hgrace, hboth p, hboth p.other⟩

/-! ### D0 (spec/12 R331) -/

theorem State.d0Return_spec (hd : (s.port p).d3 = true) :
    ∃ t, exec (.d0Return p) s = .next t ∧ PortsOnly s t ∧ (t.port p).d3 = false ∧ t.port p.other = s.port p.other ∧
      ∀ n < 16, (tget none (t.port p).sess n).isSome = (tget none (s.port p).sess n).isSome := by
  obtain ⟨htold, hopen⟩ := PortState.toldOpen_resume s.mod.ctl { s.port p with d3 := false }
  refine ⟨_, congrArg Host.Outcome.next (if_pos hd), rfl, ?_, s.port_modPort_other p _, ?_⟩
  · rw [State.port_modPort_same, htold.1]
  · rw [State.port_modPort_same]
    exact hopen

theorem PortState.strapped_spec (x : PortState) (st : Straps) :
    Strapped x (x.strapped st) st ∧ x.strapped st = { x with delaySel := (x.strapped st).delaySel, pref := (x.strapped st).pref } := by
  unfold Strapped PortState.strapped
  cases x.cprsnt <;> simp

end

/-- Settles O47: each event by the state of its connector. -/
theorem connectorsAndLinks : Obligations.ConnectorsAndLinks := by
  unfold Obligations.ConnectorsAndLinks
  intro s p st x
  refine ⟨fun hdown hreset hperst hmated hpresent hsettled hgrace hstep rate width => ?trains, fun href rate width => ?noRefclk,
    fun hmated => congrArg _ (if_neg (Bool.eq_false_iff.1 hmated)), fun hunmated => congrArg _ (if_pos hunmated), ?deasserts, rfl,
    fun hdown => ?unmatedDown, fun hup => ⟨_, rfl, State.unmate_spec hup st⟩, fun hup => congrArg _ (if_pos hup),
    fun hdown => congrArg _ (if_neg (Bool.eq_false_iff.1 hdown)), State.d0Return_spec, fun hd0 => congrArg _ (if_neg (Bool.eq_false_iff.1 hd0))⟩
  case trains =>
    exact ⟨_, rfl, State.trainLink_spec ⟨hdown, hreset, hperst, hmated, (s.refUsable_iff p).2 ⟨hpresent, hsettled⟩, hgrace, hstep⟩ rate width⟩
  case noRefclk => exact congrArg _ (State.trainLink_noRefclk href rate width)
  case deasserts =>
    refine ⟨_, rfl, rfl, ?_⟩
    obtain ⟨hstraps, hframe⟩ := PortState.strapped_spec { x with perst := false, reset := false } st
    rw [State.port_modPort_same, State.port_modPort_other]
    refine ⟨?_, ?_, hstraps, rfl, ?_⟩ <;> rw [hframe]
  case unmatedDown =>
    exact congrArg _ (State.loseLink_of_down _ p (by rw [State.port_modPort_same]; exact hdown))

end Sys2Proof.Machine

/-! SUPPORT. JOBACK's way from a core to its field's controller, and the input that it ends (spec/13 R352, Table 13.10). -/

namespace Sys2Proof.Machine

open Sys2Proof.Claims

section

variable {s : State} {c : CoreId} {v : Word} {p : Packet} {f j : Nat}

/-- The answer to the one input that a job waits for, whose command is journaled. -/
theorem State.answerInput_only {i : InputSent} {e : Entry} (hi : (s.job j).inputs = [i]) (he : s.entry i.entry = some e) (reason : Nat) :
    s.answerInput j i.num reason =
      (s.modJob j (fun q => { q with inputs := [] })).complete e (if reason = 0 then stOk else stInputRefused) (leBytes 2 reason) := by
  have hgone : s.modJob j (fun q => { q with inputs := q.inputs.filter (fun y => y.num ≠ i.num) }) =
      s.modJob j (fun q => { q with inputs := [] }) := State.modJob_congr s j (by simp [hi])
  have hentry : (s.modJob j (fun q => { q with inputs := [] })).entry i.entry = some e := he
  simp only [State.answerInput, hi, List.find?_cons, BEq.rfl, hgone, hentry]

/-- A write of JOBACK by a core of the partition is its answer. -/
theorem State.joback_own (hf : coreField c = some f) (hj : (s.field f).job = some j) :
    s.joback f c v = s.answerInput j (nfld v.toNat 0 32) (nfld v.toNat 32 16) := by
  have hjob : s.fieldJob f = some j := hj
  simp [State.joback, State.coreJob, hf, hjob]

/-- A one-word WRITE of JOBACK by core `c` at the controller of field `f`. -/
structure JobackWrite (p : Packet) (c : CoreId) (f : Nat) (v : Word) : Prop where
  type : p.ptype = 0
  kind : p.dkind = 3
  field : p.dx = f
  source : p.srcCore = some c
  length : p.len = 1
  data : p.pay = [(v, false)]
  formed : p.wellFormed = true
  plain : p.counted = false
  space : nfld p.da 44 4 = 3
  offset : nfld p.da 0 17 = 0x1F00

theorem State.fcWrite_joback (h : JobackWrite p c f v) : s.fcWrite p = s.joback f c v := by
  simp [State.fcWrite, h.field, h.formed, h.space, h.offset, h.length, h.source, h.data, h.plain]

/-- The only packet in flight, bound for a field controller and no RDATA, arrives there. -/
theorem State.arrive_only (hnet : s.net = [p]) {ty : Nat} (hty : p.ptype = ty) (hr : ty ≠ pRdata) (hk : p.dkind = 3)
    (hfin : (s.route p).fin = .arrive) (g : State → Packet → State) :
    ∃ u, s.arrive 0 [ty] [3] g = g u p ∧ State.FlitsOnly { s with net := [] } u := by
  have harr : s.arriving 0 [ty] [3] = some p := by simp [State.arriving, hnet, hty, hk]
  have hdrop : s.dropNet 0 = { s with net := [] } := by simp [State.dropNet, hnet]
  refine ⟨(s.dropNet 0).passed p (s.route p), ?_, hdrop ▸ State.flitsOnly_passed _ _ (hty ▸ hr)⟩
  simp [State.arrive, harr, hfin, State.ungate, hk]

/-- JOBACK finds its write in the network. -/
theorem State.jobackArrives_only (hnet : s.net = [p]) (h : JobackWrite p c f v) :
    s.jobackArrives c v = s.arrive 0 [pWrite] [3] (fun s p => s.fcWrite p) := by
  simp [State.jobackArrives, hnet, h.type, h.kind, h.source, h.offset, h.data, pWrite]

end

/-- Settles O28: the write arrives at its field's controller, and its answer ends the one input. -/
theorem jobAnswers : Obligations.JobAnswers := by
  unfold Obligations.JobAnswers
  intro s c v p f j i e hnet hty hk hdx hsx hsy hf hlen hpay hwf hcnt hspace hoff hfin hjob hj hin hnum hentry reason
  have hsrc : p.srcCore = some c := by
    have hx : c.x < 768 := lt_of_coreField (by rw [hf]; rfl)
    simp [Packet.srcCore, hsx, hsy, hx]
  have hwrite : JobackWrite p c f v := ⟨hty, hk, hdx, hsrc, hlen, hpay, hwf, hcnt, hspace, hoff⟩
  obtain ⟨u, harr, hu⟩ := State.arrive_only hnet hty (by decide) hk hfin (fun s p => s.fcWrite p)
  unfold State.FlitsOnly at hu
  have hin' : (u.job j).inputs = [i] := by rw [hu]; exact hin
  have hjob' : (u.field f).job = some j := by rw [hu]; exact hjob
  have hentry' : u.entry i.entry = some e := by rw [hu]; exact hentry
  have hans : s.jobackArrives c v = (u.modJob j (fun q => { q with inputs := [] })).complete e (if reason = 0 then 0 else 0xD)
      (leBytes 2 reason) := by
    rw [State.jobackArrives_only hnet hwrite, show pWrite = 0 from rfl, harr, State.fcWrite_joback hwrite, State.joback_own hf hjob',
      hnum, State.answerInput_only hin' hentry']
    rfl
  refine ⟨_, u.modJob j (fun q => { q with inputs := [] }), congrArg Host.Outcome.next hans, rfl, ?_⟩
  rw [hu]
  rfl

end Sys2Proof.Machine

/-! SUPPORT. Fields of a byte list, data written to host memory, and the commands that report the module (spec/00 R11, spec/13 R346,
Table 13.11, spec/15 R395, R401, spec/14 R385, spec/17 R450). -/

namespace Sys2Proof

/-- The number that a little-endian field of a byte list spells. -/
theorem bytesAt_field {l pre post : List Byte} {lo n v : Nat} (h : l = pre ++ (leBytes n v ++ post)) (hlo : pre.length = lo) :
    bytesAt l lo n = v % 256 ^ n := by
  have hdrop : l.drop lo = leBytes n v ++ post := by rw [h, ← hlo, List.drop_left]
  have htake : (leBytes n v ++ post).take n = leBytes n v := by
    rw [List.take_append_of_le_length (by rw [leBytes_length]), List.take_of_length_le (by rw [leBytes_length])]
  rw [bytesAt, hdrop, htake, leNat_leBytes]

/-- A table whose entries take `k` bytes each. -/
theorem length_flatMap_const {α : Type} (l : List α) (f : α → List Byte) {k : Nat} (h : ∀ a ∈ l, (f a).length = k) :
    (l.flatMap f).length = l.length * k := by
  rw [List.length_flatMap, List.map_congr_left (g := fun _ => k) h, List.map_const', List.sum_replicate, smul_eq_mul]

namespace Machine

open Sys2Proof.Claims

/-! ### Data written to host memory (spec/13 R346) -/

section

variable {s : State} {n : Nat} {e : Entry}

theorem PortState.sendWrite_nil (x : PortState) (addr : Nat) : x.sendWrite addr [] = x := by
  simp [PortState.sendWrite, writeTlps]

theorem State.hostWrite_short {haddr hlen : Nat} {data : List Byte} (h : hlen < data.length) (pay : List Byte) :
    s.hostWrite e haddr hlen data pay = s.complete e 6 (leBytes 8 data.length) :=
  if_pos h

theorem State.hostWrite_fits {haddr hlen : Nat} {data : List Byte} (hpost : Posts (s.port e.port)) (h : data.length ≤ hlen)
    (pay : List Byte) : s.hostWrite e haddr hlen data pay = (written s e.port haddr data).complete e 0 pay := by
  have hout : (s.port e.port).noOutbound = false := by
    rw [Bool.eq_false_iff]
    exact fun hno => PortState.noOutbound_iff.1 hno hpost
  have hwrite : s.modPort e.port (fun x => if x.noOutbound then x else x.sendWrite haddr data) = written s e.port haddr data :=
    State.modPort_congr (by simp [hout])
  rw [State.hostWrite, if_neg (Nat.not_lt.2 h), hwrite]
  rfl

theorem State.hostWrite_nothing (hpost : Posts (s.port e.port)) (haddr hlen : Nat) (pay : List Byte) :
    s.hostWrite e haddr hlen [] pay = s.complete e 0 pay := by
  have hsame : written s e.port haddr [] = s := (State.modPort_congr (PortState.sendWrite_nil _ haddr)).trans (s.modPort_id e.port)
  rw [State.hostWrite_fits hpost (Nat.zero_le _), hsame]

/-! ### Lengths of what is written -/

theorem negativeOf_length (pos : KMap (BitVec 2)) (hubs : KMap Bool) (f : Nat) : (negativeOf pos hubs f).length = 3080 := by
  rw [negativeOf, List.length_append, List.length_map, List.length_range, leBytes_length]

theorem State.negative_length (s : State) : s.negative.length = 369600 := by
  rw [State.negative, length_flatMap_const _ _ (k := 6160), List.length_range]
  intro f _
  rw [List.length_append, negativeOf_length, negativeOf_length]

theorem State.sensorEntry_length (s : State) (id : Nat) : (s.sensorEntry id).length = 8 := by
  unfold State.sensorEntry
  split <;> simp

theorem State.sensorBytes_length (s : State) : s.sensorBytes.length = 1664 := by
  rw [State.sensorBytes, List.length_append, length_flatMap_const _ _ (fun id _ => s.sensorEntry_length id)]
  simp [sensorIds]

/-- The header of the sensors' list counts 206 readings. -/
theorem State.sensorBytes_count (s : State) : bytesAt s.sensorBytes 8 2 = 206 := by
  have hlist : s.sensorBytes = leBytes 8 s.mgmt.sensorTick ++ (leBytes 2 206 ++ (leBytes 6 0 ++ sensorIds.flatMap s.sensorEntry)) := by
    simp only [State.sensorBytes, List.append_assoc]
  exact bytesAt_field hlist (leBytes_length 8 _)

theorem ErrRec.bytes_length (r : ErrRec) (serial : Nat) : (r.bytes serial).length = 64 := by
  have hdetail : ((r.detail ++ leBytes 12 0).take 12).length = 12 := by
    rw [List.length_take, List.length_append, leBytes_length]
    omega
  unfold ErrRec.bytes
  extract_lets fields
  have hfields : fields.length = 63 := by simp only [fields, List.length_append, leBytes_length, hdetail]
  rw [List.length_append, leBytes_length, hfields]

/-! ### The commands -/

theorem exec_getNegative (h : Started s n 0x0402 e) (hc : e.clean [(0, 12)] = true) (ha : e.p 0 8 % 8 = 0) :
    exec (.getNegative n) s = .next (s.hostWrite e (e.p 0 8) (e.p 8 4) s.negative (leBytes 4 369600)) :=
  congrArg Host.Outcome.next (State.cmd_started (ok := fun e => e.p 0 8 % 8 == 0) h hc (beq_iff_eq.2 ha) _)

theorem exec_readSensors (h : Started s n 0x0503 e) (hc : e.clean [(0, 12)] = true) (ha : e.p 0 8 % 8 = 0) :
    exec (.readSensors n) s = .next (s.hostWrite e (e.p 0 8) (e.p 8 4) s.sensorBytes (leBytes 4 1664)) :=
  congrArg Host.Outcome.next (State.cmd_started (ok := fun e => e.p 0 8 % 8 == 0) h hc (beq_iff_eq.2 ha) _)

theorem exec_readErrors (h : Started s n 0x0403 e) (hc : e.clean [(0, 20)] = true) (ha : e.p 8 8 % 8 = 0) :
    exec (.readErrors n) s = .next (s.readErrors e) :=
  congrArg Host.Outcome.next (State.cmd_started (ok := fun e => e.p 8 8 % 8 == 0) h hc (beq_iff_eq.2 ha) _)

theorem exec_spdm (h : Started s n 0x0701 e) (hc : e.clean [(0, 12), (16, 4096)] = true) (ha : e.p 0 8 % 8 = 0) :
    exec (.spdm n) s = .next (s.spdmCmd e) :=
  congrArg Host.Outcome.next (State.cmd_started (ok := fun e => e.p 0 8 % 8 == 0) h hc (beq_iff_eq.2 ha) _)

theorem State.readErrors_one {r : ErrRec} (hpost : Posts (s.port e.port)) (hr : s.errs = [r]) (hfrom : e.p 0 8 ≤ r.seqno)
    (hlen : 64 ≤ e.p 16 4) : s.readErrors e = (written s e.port (e.p 8 8) (r.bytes s.fw.serial.toNat)).complete e 0
      (leBytes 4 1 ++ leBytes 4 0 ++ leBytes 8 (r.seqno + 1)) := by
  have htake : [r].take (e.p 16 4 / 64) = [r] := List.take_of_length_le (by simp; omega)
  have hlist : (s.errs.filter (fun r => decide (e.p 0 8 ≤ r.seqno))).take (e.p 16 4 / 64) = [r] := by
    simpa [hr, hfrom] using htake
  simp only [State.readErrors, hlist, List.flatMap_singleton, List.length_singleton, List.getLast?_singleton, Option.map_some,
    Option.getD_some]
  exact State.hostWrite_fits hpost (by rw [ErrRec.bytes_length]; exact hlen) _

theorem State.readErrors_none (hpost : Posts (s.port e.port)) (hr : ∀ r ∈ s.errs, r.seqno < e.p 0 8) :
    s.readErrors e = s.complete e 0 (leBytes 4 0 ++ leBytes 4 0 ++ leBytes 8 (e.p 0 8)) := by
  have hlist : s.errs.filter (fun r => decide (e.p 0 8 ≤ r.seqno)) = [] :=
    List.filter_eq_nil_iff.2 fun r h => by simpa using hr r h
  simp only [State.readErrors, hlist, List.take_nil, List.flatMap_nil]
  exact State.hostWrite_nothing hpost _ _ _

/-- The response that SPDM forms for a session that has exchanged `q.spdm` so far. -/
def State.spdmReply (s : State) (e : Entry) (q : Session) : List Byte :=
  Config.spdmResponse q.spdm (e.param.drop 16) s.measures s.keySeeds

theorem State.spdmCmd_short {q : Session} (hq : tget none (s.port e.port).sess e.sess = some q)
    (hlen : e.p 8 4 < (s.spdmReply e q).length) : s.spdmCmd e = s.complete e 6 (leBytes 8 (s.spdmReply e q).length) := by
  unfold State.spdmReply at *
  simp only [State.spdmCmd, hq, Option.map_some, Option.getD_some, if_pos hlen]
  exact State.hostWrite_short hlen _

theorem State.spdmCmd_fits {q : Session} (hpost : Posts (s.port e.port)) (hq : tget none (s.port e.port).sess e.sess = some q)
    (hlen : (s.spdmReply e q).length ≤ e.p 8 4) : s.spdmCmd e =
      (written (s.modPort e.port (fun x => { x with sess := tset x.sess e.sess (some { q with spdm := q.spdm ++ [e.param.drop 16] }) }))
        e.port (e.p 0 8) (s.spdmReply e q)).complete e 0 (leBytes 4 (s.spdmReply e q).length) := by
  have htaken : s.modPort e.port (fun x => x.modSess e.sess (fun q => { q with spdm := q.spdm ++ [e.param.drop 16] })) =
      s.modPort e.port (fun x => { x with sess := tset x.sess e.sess (some { q with spdm := q.spdm ++ [e.param.drop 16] }) }) :=
    State.modPort_congr (by rw [PortState.modSess, tmod_eq_tset none, hq]; rfl)
  unfold State.spdmReply at *
  simp only [State.spdmCmd, hq, Option.map_some, Option.getD_some, if_neg (Nat.not_lt.2 hlen), htaken]
  exact State.hostWrite_fits (by rw [State.port_modPort_same]; exact hpost) hlen _

end

/-- Settles O43: each command by its range; the data of a report by their length, and the buffer's. -/
theorem moduleReports : Obligations.ModuleReports := by
  unfold Obligations.ModuleReports
  intro s n e lo len
  refine ⟨fun h hc hp => ?policy, fun h hc => ⟨fun hlo hhi => ?cap, fun hout => ?capOut⟩, fun h hc => ?identity,
    fun h hc ha hpost => ?negative, fun h hc ha hpost => ?sensors, fun h hc ha hpost => ?errors, fun q h hc ha hpost hq => ?spdm,
    fun ha => ⟨fun h => ?negativeAt, fun h => ?sensorsAt, fun h => ?spdmAt⟩, fun ha h => ?errorsAt⟩
  case policy => exact congrArg _ (State.cmd_started h hc (decide_eq_true hp) _)
  case cap => exact congrArg _ (State.cmd_started h hc (decide_eq_true ⟨hlo, hhi⟩) _)
  case capOut => exact congrArg _ (State.cmd_badParam h (decide_eq_false (by omega)) _)
  case identity => exact congrArg _ (State.cmd_started h hc rfl _)
  case negative =>
    rw [exec_getNegative h hc ha]
    refine ⟨fun hfit => congrArg _ (State.hostWrite_fits hpost (by rwa [s.negative_length]) _), fun hshort => ?_⟩
    rw [State.hostWrite_short (by rwa [s.negative_length]), s.negative_length]
  case sensors =>
    rw [exec_readSensors h hc ha]
    refine ⟨fun hfit => ⟨s.sensorBytes, s.sensorBytes_length, s.sensorBytes_count,
      congrArg _ (State.hostWrite_fits hpost (by rwa [s.sensorBytes_length]) _)⟩, fun hshort => ?_⟩
    rw [State.hostWrite_short (by rwa [s.sensorBytes_length]), s.sensorBytes_length]
  case errors =>
    rw [exec_readErrors h hc ha]
    exact ⟨fun r hr hfrom hlen => congrArg _ (State.readErrors_one hpost hr hfrom hlen),
      fun hr => congrArg _ (State.readErrors_none hpost hr)⟩
  case spdm =>
    obtain ⟨-, hq⟩ := hq
    rw [exec_spdm h hc ha]
    exact ⟨s.spdmReply e q, fun hfit => congrArg _ (State.spdmCmd_fits hpost hq hfit),
      fun hshort => congrArg _ (State.spdmCmd_short hq hshort)⟩
  case negativeAt | sensorsAt | spdmAt =>
    exact congrArg Host.Outcome.next (State.cmd_badParam (ok := fun e => e.p 0 8 % 8 == 0) h (beq_eq_false_iff_ne.2 ha) _)
  case errorsAt =>
    exact congrArg Host.Outcome.next (State.cmd_badParam (ok := fun e => e.p 8 8 % 8 == 0) h (beq_eq_false_iff_ne.2 ha) _)

end Machine
end Sys2Proof

/-! SUPPORT. Regions of stack memory, the memory mode, the time base's fallback and the wait for an exposure (spec/13 R351, Tables 13.7,
13.9, 13.11, spec/14 R365, spec/15 R405). -/

namespace Sys2Proof.Machine

open Sys2Proof.Claims

section

variable {s : State} {n : Nat} {e : Entry}

/-! ### ALLOC_REGION (spec/13 R351) -/

/-- The stacks that a mask of 16 bits names, as the statement writes them. -/
theorem stacksOf_eq (m : Nat) : stacksOf m = (List.range 16).filter (fun i => m / 2 ^ i % 2 = 1) := by
  refine List.filter_congr fun i _ => ?_
  rw [nfld, Nat.pow_one, Bool.eq_iff_iff, beq_iff_eq, decide_eq_true_iff]

theorem exec_allocRegion (h : Started s n 0x0102 e) (hc : e.clean [(0, 4), (8, 8)] = true) (hok : allocOk e = true) :
    exec (.allocRegion n) s = .next (s.allocCmd e) :=
  congrArg _ (State.cmd_started h hc hok _)

theorem State.allocCmd_cut (h : ¬ Reaches s) : s.allocCmd e = s.complete e 7 [] :=
  if_pos (by rw [State.dataCut_iff.2 h, Bool.or_true])

/-- A resident job without a region of that number gets the lowest place, where there is one. -/
theorem State.allocCmd_reaches (hreach : Reaches s) (hres : (s.job (e.p 0 1)).state ≠ .empty)
    (hnew : ∀ r ∈ (s.job (e.p 0 1)).regions, r.id ≠ e.p 1 1) :
    s.allocCmd e = match s.lowestFree (stacksOf (e.p 2 2)) (e.p 8 8) with
      | none => s.complete e 8 []
      | some off => (s.allocRegion (e.p 0 1) (e.p 1 1) (stacksOf (e.p 2 2)) off (e.p 8 8)).complete e 0 (leBytes 8 off) := by
  have hcut : s.dataCut = false := by
    rw [Bool.eq_false_iff]
    exact fun h => State.dataCut_iff.1 h hreach
  have hany : (s.job (e.p 0 1)).regions.any (fun r => r.id == e.p 1 1) = false := by simpa using hnew
  exact if_neg (by simp [State.resident, hres, hany, hcut])

/-- A region is placed: the job has it in every named stack, and no other slot has changed. -/
theorem State.allocRegion_spec (s : State) {j : Nat} (hj : j < 16) (id : Nat) (sts : List Nat) (off size : Nat) :
    (s.allocRegion j id sts off size).jobs = (s.modJob j (fun q => q.placed id sts off size)).jobs ∧
      (s.allocRegion j id sts off size).job j = (s.job j).placed id sts off size ∧ (s.allocRegion j id sts off size).cp = s.cp := by
  have hzero := (s.reloads_zeroed sts off size).state
  have heq : s.allocRegion j id sts off size = (s.zeroed sts off size).modJob j (fun q => q.placed id sts off size) := rfl
  rw [heq, hzero]
  exact ⟨rfl, by rw [State.job_modJob, if_pos ⟨rfl, hj⟩]; rfl, rfl⟩

/-- ALLOC_REGION at the lowest place answers the command and changes its job's regions alone of the job table. -/
theorem State.allocCmd_spec {off : Nat} (hj : e.p 0 1 < 16) (hreach : Reaches s) (hres : (s.job (e.p 0 1)).state ≠ .empty)
    (hnew : ∀ r ∈ (s.job (e.p 0 1)).regions, r.id ≠ e.p 1 1) (hlow : Lowest s (stacksOf (e.p 2 2)) (e.p 8 8) off) :
    (s.allocCmd e).job (e.p 0 1) = (s.job (e.p 0 1)).placed (e.p 1 1) (stacksOf (e.p 2 2)) off (e.p 8 8) ∧
      (s.allocCmd e).jobs = (s.modJob (e.p 0 1) (fun _ => (s.allocCmd e).job (e.p 0 1))).jobs ∧ Answered s (s.allocCmd e) e := by
  rw [State.allocCmd_reaches hreach hres hnew, State.lowestFree_of_lowest hlow]
  dsimp only
  obtain ⟨hjobs, hjob, hcp⟩ := s.allocRegion_spec hj (e.p 1 1) (stacksOf (e.p 2 2)) off (e.p 8 8)
  generalize s.allocRegion (e.p 0 1) (e.p 1 1) (stacksOf (e.p 2 2)) off (e.p 8 8) = u at *
  have hjob' : (u.complete e 0 (leBytes 8 off)).job (e.p 0 1) = u.job (e.p 0 1) := by
    rw [(u.replied_complete e 0 (leBytes 8 off)).1]
    rfl
  refine ⟨hjob'.trans hjob, ?_, by rw [Answered, State.complete_cp, hcp]⟩
  rw [hjob', hjob, (u.replied_complete e 0 (leBytes 8 off)).1]
  exact hjobs.trans (congrArg State.jobs (State.modJob_congr s _ rfl))

/-! ### FREE_REGION (spec/13 R351) -/

/-- Closing windows of a port leaves those that the test spares, there and on the other port. -/
theorem State.closeInbound_inWin (s : State) (p q : Port) (sel : InWin → Bool) : ((s.closeInbound p sel).port q).inWin =
    if q = p then (s.port q).inWin.map (fun w => w.filter (fun i => !sel i)) else (s.port q).inWin := by
  obtain ⟨-, htold⟩ := s.closeInbound_told p sel
  rw [(htold q).1, State.port_modPort]
  split
  · next hq =>
    subst hq
    rfl
  · rfl

/-- Closing windows of both ports leaves those that the test spares. -/
theorem State.closeBoth_window (s : State) (sel : InWin → Bool) (p : Port) {m : Nat} (hm : m < 64) :
    tget none ((s.closeBoth sel).port p).inWin m = (tget none (s.port p).inWin m).filter (fun w => !sel w) := by
  have hwin : ((s.closeBoth sel).port p).inWin = (s.port p).inWin.map (fun w => w.filter (fun i => !sel i)) := by
    rw [State.closeBoth, State.closeInbound_inWin, State.closeInbound_inWin]
    cases p <;> rfl
  rw [hwin, tget_map hm]

theorem State.closeBoth_frame (s : State) (sel : InWin → Bool) : s.closeBoth sel = { s with ports := (s.closeBoth sel).ports } := by
  obtain ⟨ha, -⟩ := s.closeInbound_told .a sel
  obtain ⟨hb, -⟩ := (s.closeInbound .a sel).closeInbound_told .b sel
  unfold State.closeBoth
  rw [hb, ha]
  rfl

theorem exec_freeRegion (h : Started s n 0x0103 e) (hc : e.clean [(0, 2)] = true) (hj : e.p 0 1 < 16) (hlo : 1 ≤ e.p 1 1)
    (hhi : e.p 1 1 ≤ 15) : exec (.freeRegion n) s = .next (s.freeCmd e) :=
  congrArg _ (State.cmd_started h hc (decide_eq_true ⟨hj, hlo, hhi⟩) _)

/-- The inbound windows to a region of a job. -/
def InWin.into (j id : Nat) (w : InWin) : Bool := w.job == j && w.kind == 1 && w.region == id

theorem State.freeCmd_loaded {r : Region} (hstate : (s.job (e.p 0 1)).state = .loaded) (hr : r ∈ (s.job (e.p 0 1)).regions)
    (hid : r.id = e.p 1 1) : s.freeCmd e = ((s.closeBoth (InWin.into (e.p 0 1) (e.p 1 1))).modJob (e.p 0 1)
      (fun q => { q with regions := q.regions.filter (fun r => r.id ≠ e.p 1 1) })).complete e 0 [] := by
  have hany : (s.job (e.p 0 1)).regions.any (fun r => r.id == e.p 1 1) = true := List.any_eq_true.2 ⟨r, hr, beq_iff_eq.2 hid⟩
  exact if_neg (by simp [State.resident, Job.holdsPartition, hstate, hany])

/-- A freed region: the job no longer has it, and the windows into it are closed. -/
theorem State.freeCmd_spec {r : Region} (hj : e.p 0 1 < 16) (hstate : (s.job (e.p 0 1)).state = .loaded)
    (hr : r ∈ (s.job (e.p 0 1)).regions) (hid : r.id = e.p 1 1) :
    ((s.freeCmd e).job (e.p 0 1)).regions = (s.job (e.p 0 1)).regions.filter (fun r => r.id ≠ e.p 1 1) ∧ Answered s (s.freeCmd e) e ∧
      (∀ p m, m < 64 → tget none ((s.freeCmd e).port p).inWin m =
        (tget none (s.port p).inWin m).filter (fun w => !InWin.into (e.p 0 1) (e.p 1 1) w)) ∧
      (s.freeCmd e).net = s.net ∧ (s.freeCmd e).stk = s.stk := by
  rw [State.freeCmd_loaded hstate hr hid]
  have hclose := s.closeBoth_frame (InWin.into (e.p 0 1) (e.p 1 1))
  have hwin := s.closeBoth_window (InWin.into (e.p 0 1) (e.p 1 1))
  generalize s.closeBoth (InWin.into (e.p 0 1) (e.p 1 1)) = u at *
  obtain ⟨hreply, htold, -⟩ := (u.modJob (e.p 0 1)
    (fun q => { q with regions := q.regions.filter (fun r => r.id ≠ e.p 1 1) })).replied_complete e 0 []
  refine ⟨?_, ?_, fun p m hm => ?_, ?_, ?_⟩
  · have hjob (v : State) : (State.complete v e 0 []).job (e.p 0 1) = v.job (e.p 0 1) := by
      rw [(v.replied_complete e 0 []).1]
      rfl
    rw [hjob, State.job_modJob, if_pos ⟨rfl, hj⟩, hclose]
    rfl
  · rw [Answered, State.complete_cp, State.modJob_cp, hclose]
  · rw [(htold p).1]
    exact hwin p hm
  · rw [hreply, State.modJob_net, hclose]
  · rw [hreply, State.modJob_stk, hclose]

/-! ### SET_MEMMODE and WAIT_EXP (spec/13 R351, Table 13.11) -/

theorem exec_setMemmode (h : Started s n 0x0104 e) (hc : e.clean [(0, 1)] = true) (hmode : e.p 0 1 < 2) :
    exec (.setMemmode n) s = .next (s.setMemmode e) :=
  congrArg _ (State.cmd_started h hc (decide_eq_true hmode) _)

/-- Some slot has a region. -/
theorem State.anyRegion_iff (s : State) : s.jobs.toList.any (fun q => !q.regions.isEmpty) = true ↔ ∃ k < 16, (s.job k).regions ≠ [] := by
  rw [List.any_eq_true]
  constructor
  · rintro ⟨q, hq, hregion⟩
    obtain ⟨k, hk, rfl⟩ := Vector.getElem_of_mem (Vector.mem_toList_iff.1 hq)
    exact ⟨k, hk, by simpa [State.job, tget, hk] using hregion⟩
  · rintro ⟨k, hk, hregion⟩
    refine ⟨s.jobs[k], Vector.mem_toList_iff.2 (Vector.getElem_mem hk), ?_⟩
    simpa [State.job, tget, hk] using hregion

theorem exec_waitExp (h : Started s n 0x0302 e) (hc : e.clean [(0, 1), (8, 8)] = true) (hj : e.p 0 1 < 16) :
    exec (.waitExp n) s = .next (s.waitExp e) :=
  congrArg _ (State.cmd_started h hc (decide_eq_true hj) _)

theorem State.waitExp_empty (hwait : e.waiting = false) (hempty : (s.job (e.p 0 1)).state = .empty) :
    s.waitExp e = s.complete e 7 [] := by
  simp only [State.waitExp, State.resident, hwait, hempty]
  rfl

theorem State.waitExp_resident (hwait : e.waiting = false) (hres : (s.job (e.p 0 1)).state ≠ .empty) : s.waitExp e =
    if e.p 8 8 ≤ (s.job (e.p 0 1)).expNo then
      s.complete e 0 (leBytes 8 (s.job (e.p 0 1)).lastDev ++ leBytes 8 (s.job (e.p 0 1)).expNo)
    else s.wait e := by
  simp only [State.waitExp, State.resident, hwait, bne_iff_ne.2 hres]
  rfl

end

/-- Settles O38: ALLOC_REGION by the place that its stacks have; FREE_REGION by the slot and the windows it leaves; SET_MEMMODE by
whether any region is left; WAIT_EXP by EXPNO. -/
theorem memoryCommands : Obligations.MemoryCommands := by
  unfold Obligations.MemoryCommands
  intro s n e j q id sts size
  refine ⟨fun h hc hj hlo hhi hmask hsize hpos hres hnew => ?alloc, fun r h hc hj hlo hhi hstate hr hid => ?free,
    fun h hc hmode => ?memmode, fun h hc hp => congrArg _ (State.cmd_started h hc (decide_eq_true hp) _), fun h hc hj => ?waitExp⟩
  case alloc =>
    have hsts : stacksOf (e.p 2 2) = sts := stacksOf_eq _
    have hok : allocOk e = true := by simp [allocOk, hj, hlo, hhi, hmask, hsize, hpos, j, id, size]
    rw [exec_allocRegion h hc hok]
    refine ⟨fun hcut => congrArg _ (State.allocCmd_cut hcut), fun off hreach hlow => ⟨_, rfl, ?_⟩, fun hreach hnone => ?_⟩
    · rw [← hsts] at hlow ⊢
      obtain ⟨hjob, hjobs, hans⟩ := State.allocCmd_spec hj hreach hres hnew hlow
      exact ⟨congrArg Job.regions hjob, hjobs, hans⟩
    · rw [State.allocCmd_reaches hreach hres hnew, hsts, State.lowestFree_none hnone]
  case free => exact ⟨_, exec_freeRegion h hc hj hlo hhi, State.freeCmd_spec hj hstate hr hid⟩
  case memmode =>
    rw [exec_setMemmode h hc hmode]
    refine ⟨fun hnone => congrArg _ (if_neg ?_), fun k hk hregion => congrArg _ (if_pos ((State.anyRegion_iff s).2 ⟨k, hk, hregion⟩))⟩
    rw [State.anyRegion_iff]
    rintro ⟨k, hk, hregion⟩
    exact hregion (hnone k hk)
  case waitExp =>
    rw [exec_waitExp h hc hj]
    have hwait := not_waiting_of_started h
    refine ⟨fun hres hreached => ?_, fun hres hahead => ?_, fun hempty => congrArg _ (State.waitExp_empty hwait hempty)⟩
    · rw [State.waitExp_resident hwait hres, if_pos hreached]
    · rw [State.waitExp_resident hwait hres, if_neg (Nat.not_le.2 hahead)]
      rfl

end Sys2Proof.Machine

/-! SUPPORT. The reply ring: an entry that is posted, one that is kept, and the reply of a command (spec/13 R343, R345-R348, Table 13.4). -/

namespace Sys2Proof.Machine

open Sys2Proof.Claims

/-! ### One step of the ring (spec/13 R345, R347, R348) -/

section

variable {x : PortState} {n : Nat} {q : Session} {e : RingEntry} {rest : List RingEntry} (now fuel : Nat)

theorem PortState.canPost_iff : x.canPost n q = true ↔ (x.linkUp = true ∧ x.d3 = false ∧ x.grace = none) ∧
    (q.posted + 65536 - (tget 0 x.ringCons n).toNat) % 65536 < 2 ^ q.rlog2 := by
  simp [PortState.canPost, and_assoc]

theorem PortState.flushKept_empty (hq : tget none x.sess n = some q) (hkept : q.kept = []) : PortState.flushKept now fuel x n = x := by
  cases fuel <;> simp [PortState.flushKept, hq, hkept]

theorem PortState.flushKept_full (hq : tget none x.sess n = some q) (hfull : x.canPost n q = false) :
    PortState.flushKept now fuel x n = x := by
  cases fuel with
  | zero => rfl
  | succ fuel => cases hkept : q.kept <;> simp [PortState.flushKept, hq, hkept, hfull]

theorem PortState.flushKept_posts (hq : tget none x.sess n = some q) (hkept : q.kept = e :: rest) (hroom : x.canPost n q = true)
    (hplain : e.event = false ∨ q.lost = 0) : PortState.flushKept now (fuel + 1) x n =
      PortState.flushKept now fuel (PortState.write now x n { q with kept := rest } e) n := by
  have hlost : (e.event && q.lost != 0) = false := by
    rcases hplain with h | h <;> simp [h]
  simp [PortState.flushKept, hq, hkept, hroom, hlost]

/-- LOST goes out before the first event after a drop. -/
theorem PortState.flushKept_lost (hq : tget none x.sess n = some q) (hkept : q.kept = e :: rest) (hroom : x.canPost n q = true)
    (hevent : e.event = true) (hlost : q.lost ≠ 0) : PortState.flushKept now (fuel + 1) x n =
      PortState.flushKept now fuel (PortState.write now x n { q with lost := 0 } (lostEvent q.lost)) n := by
  simp [PortState.flushKept, hq, hkept, hroom, hevent, hlost]

/-- An entry without payload and message is its status block alone. -/
theorem PortState.write_quiet (hquiet : e.quiet = true) (hpay : e.payload = []) : PortState.write now x n q e = { x with
    tx := x.tx ++ [.write (q.rbase + q.posted % 2 ^ q.rlog2 * (64 * 2 ^ q.esize)) (statusBlock e q.posted n q)]
    sess := tset x.sess n (some { q with posted := q.posted + 1 }) } := by
  simp only [PortState.write, hpay, List.take_nil, PortState.sendWrite_nil, hquiet, if_true, PortState.send]

/-! ### An entry that finds nothing kept -/

/-- A port whose session `n` stands as `q`. -/
def PortState.withSession (x : PortState) (n : Nat) (q : Session) : PortState := { x with sess := tset x.sess n (some q) }

theorem PortState.withSession_same (x : PortState) (hn : n < 16) (q : Session) : tget none (x.withSession n q).sess n = some q :=
  (tget_tset _ _ _ _ _).trans (if_pos ⟨rfl, hn⟩)

theorem PortState.put_first_eq (hq : tget none x.sess n = some q) (hkept : q.kept = []) :
    PortState.put now x n e = PortState.flushKept now 2 (x.withSession n { q with kept := [e] }) n := by
  simp only [PortState.put, hq, hkept]
  rfl

theorem PortState.put_posts (hq : tget none x.sess n = some q) (hkept : q.kept = []) (hroom : x.canPost n q = true)
    (hevent : e.event = false) (hquiet : e.quiet = true) (hpay : e.payload = []) : PortState.put now x n e = { x with
      tx := x.tx ++ [.write (q.rbase + q.posted % 2 ^ q.rlog2 * (64 * 2 ^ q.esize)) (statusBlock e q.posted n q)]
      sess := tset x.sess n (some { q with posted := q.posted + 1 }) } := by
  have hn : n < 16 := lt_of_tget_some hq
  have hnone : ({ q with kept := [], posted := q.posted + 1 } : Session) = { q with posted := q.posted + 1 } := by rw [← hkept]
  rw [PortState.put_first_eq now hq hkept]
  refine (PortState.flushKept_posts now 1 (x.withSession_same hn { q with kept := [e] }) rfl hroom (.inl hevent)).trans ?_
  rw [PortState.write_quiet now hquiet hpay]
  refine (PortState.flushKept_empty now 1 ((tget_tset _ _ _ _ _).trans (if_pos ⟨rfl, hn⟩)) rfl).trans ?_
  simp only [PortState.withSession, tset_tset, hnone]
  rfl

theorem PortState.put_keeps (hq : tget none x.sess n = some q) (hkept : q.kept = []) (hfull : x.canPost n q = false) :
    PortState.put now x n e = x.withSession n { q with kept := [e] } := by
  rw [PortState.put_first_eq now hq hkept, PortState.flushKept_full now 2 (x.withSession_same (lt_of_tget_some hq) { q with kept := [e] }) hfull]

end

/-! ### The reply of a command (spec/13 R342, R343) -/

section

variable {s : State} {n : Nat} {e : Entry} {q : Session}

/-- A command completes: it leaves the journal, its status is kept, its reply goes to the ring. -/
theorem State.complete_session (hdeaf : e.deaf = false) (hq : tget none (s.port e.port).sess e.sess = some q) (st : Nat)
    (pay : List Byte) : s.complete e st pay = (s.answering e).modPort e.port (fun x => PortState.put s.mod.ctl
      (x.withSession e.sess (q.setStatus e.seq st)) e.sess
      { tag := e.tag, status := st, opcode := e.opcode, quiet := e.quiet, payload := pay }) := by
  unfold State.complete
  rw [if_neg (Bool.eq_false_iff.1 hdeaf)]
  refine State.modPort_congr (s := s.answering e) ?_
  have hq' : tget none ((s.answering e).port e.port).sess e.sess = some q := hq
  simp only [hq']
  rfl

theorem exec_nopCommand (h : Started s n 5 e) (hparam : e.param = []) : exec (.nop n) s = .next (s.complete e 0 []) := by
  obtain ⟨-, -, -, -, hresv, -⟩ := id h
  exact congrArg _ (State.cmd_started h (by simp [Entry.clean, hresv, hparam]) rfl _)

/-- The status block of a reply without payload (spec/13 Table 13.4). -/
theorem statusBlock_reply (e : RingEntry) (hevent : e.event = false) (hpay : e.payload = []) (k sess : Nat) (q : Session) :
    statusBlock e k sess q = leBytes 8 e.tag ++ leBytes 2 e.status ++ leBytes 2 e.opcode ++ leBytes 2 0 ++ leBytes 1 sess ++
      leBytes 1 (if k / 2 ^ q.rlog2 % 2 = 0 then 1 else 0) := by
  simp only [statusBlock, hevent, hpay, List.length_nil, Nat.not_lt_zero, decide_false, b2n, Bool.false_eq_true, if_false, beq_iff_eq,
    Nat.mul_zero, Nat.add_zero]

end

/-- Settles O35: the reply by the room of the ring, and the oldest kept entry by whether events were dropped before it. -/
theorem replyRing : Obligations.ReplyRing := by
  unfold Obligations.ReplyRing
  intro s e n q tail rest h hquiet hparam hq x c used at_ entry kept left up block
  obtain ⟨-, -, hop, -, -, -, hdeaf⟩ := id h
  obtain ⟨hn, hq⟩ := hq
  have hcanPost : x.canPost e.sess q = true ↔ up ∧ used < 2 ^ q.rlog2 := PortState.canPost_iff
  have hstatus : (x.withSession e.sess (q.setStatus e.seq 0)).canPost e.sess (q.setStatus e.seq 0) = x.canPost e.sess q := rfl
  have hreply : exec (.nop n) s = .next ((s.answering e).modPort e.port (fun x => PortState.put s.mod.ctl
      (x.withSession e.sess (q.setStatus e.seq 0)) e.sess entry)) := by
    rw [exec_nopCommand h hparam, State.complete_session hdeaf hq, hop, hquiet]
  have hpost : exec (.keptReplyPost e.port e.sess) s =
    .next (s.modPort e.port (fun z => PortState.flushKept s.mod.ctl 1 z e.sess)) := rfl
  refine ⟨fun hkept hup hroom => ?posted, fun hkept hup hfull => ?kept, fun hkept hup hroom hplain => ?oldest,
    fun hkept hup hroom hevent hlost => ?lost, fun hkept => ?none⟩
  case posted =>
    rw [hreply]
    refine congrArg _ (State.modPort_congr ?_)
    have hroom' := hstatus.trans (hcanPost.2 ⟨hup, hroom⟩)
    refine (PortState.put_posts (e := entry) _ (x.withSession_same hn (q.setStatus e.seq 0)) hkept hroom' rfl rfl rfl).trans ?_
    rw [statusBlock_reply _ rfl rfl, PortState.withSession, tset_tset]
    rfl
  case kept =>
    rw [hreply]
    refine congrArg _ (State.modPort_congr ?_)
    have hfull' : x.canPost e.sess q = false := by
      rw [Bool.eq_false_iff, ne_eq, hcanPost]
      exact fun hroom => absurd hroom.2 (Nat.not_lt.2 hfull)
    refine (PortState.put_keeps _ (x.withSession_same hn (q.setStatus e.seq 0)) hkept (hstatus.trans hfull')).trans ?_
    simp only [PortState.withSession, tset_tset]
    rfl
  case oldest =>
    rw [hpost]
    refine congrArg _ (State.modPort_congr ?_)
    exact PortState.flushKept_posts _ 0 hq hkept (hcanPost.2 ⟨hup, hroom⟩) hplain
  case lost =>
    rw [hpost]
    refine congrArg _ (State.modPort_congr ?_)
    exact PortState.flushKept_lost _ 0 hq hkept (hcanPost.2 ⟨hup, hroom⟩) hevent hlost
  case none =>
    rw [hpost]
    exact congrArg _ ((State.modPort_congr (PortState.flushKept_empty _ 1 hq hkept)).trans (s.modPort_id e.port))

end Sys2Proof.Machine

/-! SUPPORT. LOAD_OVERLAY, JOB_STATUS, JOB_INPUT, SET_PROOFING and READ_OVERRUN (spec/13 R352, R353, Tables 13.9, 13.11, spec/09 R242, R254,
spec/15 R398, R405). -/

namespace Sys2Proof.Machine

open Sys2Proof.Claims

section

variable {s : State} {n : Nat} {e : Entry}

/-! ### LOAD_OVERLAY (spec/09 R242, spec/13 R353) -/

theorem exec_loadOverlay (h : Started s n 0x0207 e) (hj : e.p 0 1 < 16) (hi : e.p 1 1 < 64) (hc : e.clean [(0, 2), (8, 16)] = true)
    (r : HostRead Overlay) : exec (.loadOverlay n r) s = .next (s.loadOverlay e r) :=
  congrArg _ (State.cmd_started h hc (by simp [slotOk, hj, hi]) _)

/-- What a port that can send reads is what its host holds. -/
theorem State.brought_posts {α : Type} (hpost : Posts (s.port e.port)) (r : HostRead α) : s.brought e r = r :=
  if_neg fun hno => PortState.noOutbound_iff.1 hno hpost

theorem State.loadOverlay_badState (r : HostRead Overlay) (h : (s.job (e.p 0 1)).state = .empty ∨ ¬ Reaches s) :
    s.loadOverlay e r = s.complete e 7 [] := by
  rw [State.loadOverlay]
  refine if_pos ?_
  rw [Bool.or_eq_true]
  exact h.imp (fun h => by simp [State.resident, h]) (fun h => State.dataCut_iff.2 h)

/-- The tables of a job with an overlay in a shadow entry, where the overlay keeps R242. -/
def State.overlayTaken (s : State) (e : Entry) (q : Job) (o : Overlay) : State :=
  if !q.overlayOk o then
    s.complete e stConfig (configPayload (((o.changes.head?).map (fun c => c.at_)).getD { lf := 0, pos := 0 }) 0xFF)
  else
    match (actionsBad q.image q.inForce o).or (configBad q.image (q.inForce ++ [o])) with
    | some (p, n) => s.complete e stConfig (configPayload p n)
    | none => (s.modJob (e.p 0 1) (fun q => { q with ovShadow := KMap.put q.ovShadow (e.p 1 1) o })).complete e stOk []

theorem State.loadOverlay_reads (r : HostRead Overlay) (hres : (s.job (e.p 0 1)).state ≠ .empty) (hreach : Reaches s) :
    s.loadOverlay e r = match s.brought e r with
      | .failed => (s.imageReads e).complete e 0xC []
      | .bad => (s.imageReads e).complete e 0xB []
      | .ok o => (s.imageReads e).overlayTaken e (s.job (e.p 0 1)) o := by
  have hcut : s.dataCut = false := by
    rw [Bool.eq_false_iff]
    exact fun h => State.dataCut_iff.1 h hreach
  rw [State.loadOverlay]
  refine (if_neg (by simp [State.resident, hres, hcut])).trans ?_
  cases s.brought e r <;> rfl

theorem State.overlayTaken_ok {q : Job} {o : Overlay} (hok : q.overlayOk o = true) (hact : actionsBad q.image q.inForce o = none)
    (hcfg : configBad q.image (q.inForce ++ [o]) = none) : s.overlayTaken e q o =
      (s.modJob (e.p 0 1) (fun x => { x with ovShadow := KMap.put x.ovShadow (e.p 1 1) o })).complete e 0 [] := by
  simp only [State.overlayTaken, hok, hact, hcfg]
  rfl

theorem State.loadOverlay_unsent (r : HostRead Overlay) (hres : (s.job (e.p 0 1)).state ≠ .empty) (hreach : Reaches s)
    (hpost : ¬ Posts (s.port e.port)) : s.loadOverlay e r = s.complete e 0xC [] := by
  have hno := PortState.noOutbound_iff.2 hpost
  rw [State.loadOverlay_reads r hres hreach, State.brought, if_pos hno, State.imageReads, if_pos hno]

/-! ### JOB_STATUS (spec/13 Table 13.9) -/

/-- The payload of JOB_STATUS. -/
def State.statusPayload (s : State) (j : Nat) : List Byte :=
  let q := s.job j
  leBytes 1 q.state.code ++ leBytes 1 (s.holdr j) ++ leBytes 1 q.proofCode ++ List.replicate 5 0 ++ leBytes 8 q.expNo ++
    leBytes 8 q.lastCkpt ++ leBytes 8 (s.invalidMarks q) ++ fieldBytes 60 q.fields ++ fieldBytes 8 q.spareFields

theorem exec_jobStatus (h : Started s n 0x020A e) (hj : e.p 0 1 < 16) (hc : e.clean [(0, 1)] = true) :
    exec (.jobStatus n) s = .next (s.complete e 0 (s.statusPayload (e.p 0 1))) :=
  congrArg _ (State.cmd_started h hc (decide_eq_true hj) _)

theorem fieldBytes_length (n : Nat) (l : List (Option Nat)) : (fieldBytes n l).length = n := by
  rw [fieldBytes, List.length_map, List.length_range]

theorem State.statusPayload_length (s : State) (j : Nat) : (s.statusPayload j).length = 100 := by
  simp only [State.statusPayload, List.length_append, leBytes_length, fieldBytes_length, List.length_replicate]

/-- The bytes of JOB_STATUS behind EXPNO. -/
def State.statusTail (s : State) (j : Nat) : List Byte :=
  leBytes 8 (s.invalidMarks (s.job j)) ++ fieldBytes 60 (s.job j).fields ++ fieldBytes 8 (s.job j).spareFields

/-- The fields of JOB_STATUS that the statement reads: the state, HOLDR, EXPNO, LASTCKPT. -/
theorem State.statusPayload_fields (s : State) (j : Nat) :
    bytesAt (s.statusPayload j) 0 1 = (s.job j).state.code % 256 ∧ bytesAt (s.statusPayload j) 1 1 = s.holdr j % 256 ∧
      bytesAt (s.statusPayload j) 8 8 = (s.job j).expNo % 2 ^ 64 ∧ bytesAt (s.statusPayload j) 16 8 = (s.job j).lastCkpt % 2 ^ 64 := by
  have hlist : s.statusPayload j = leBytes 1 (s.job j).state.code ++ (leBytes 1 (s.holdr j) ++ (leBytes 1 (s.job j).proofCode ++
      (List.replicate 5 0 ++ (leBytes 8 (s.job j).expNo ++ (leBytes 8 (s.job j).lastCkpt ++ s.statusTail j))))) := by
    simp only [State.statusPayload, State.statusTail, List.append_assoc]
  refine ⟨?_, ?_, ?_, ?_⟩
  · exact bytesAt_field (pre := []) hlist rfl
  · exact bytesAt_field hlist (leBytes_length 1 _)
  · refine bytesAt_field (pre := leBytes 1 (s.job j).state.code ++ leBytes 1 (s.holdr j) ++ leBytes 1 (s.job j).proofCode ++
      List.replicate 5 0) (post := leBytes 8 (s.job j).lastCkpt ++ s.statusTail j) ?_ ?_
    · simp only [hlist, List.append_assoc]
    · simp only [List.length_append, leBytes_length, List.length_replicate]
  · refine bytesAt_field (pre := leBytes 1 (s.job j).state.code ++ leBytes 1 (s.holdr j) ++ leBytes 1 (s.job j).proofCode ++
      List.replicate 5 0 ++ leBytes 8 (s.job j).expNo) (post := s.statusTail j) ?_ ?_
    · simp only [hlist, List.append_assoc]
    · simp only [List.length_append, leBytes_length, List.length_replicate]

/-! ### JOB_INPUT (spec/13 R352, spec/09 R254) -/

theorem exec_jobInput (h : Started s n 0x020B e) (hj : e.p 0 1 < 16) (hi : e.p 1 1 < 16) (hc : e.clean [(0, 2), (8, 4056)] = true) :
    exec (.jobInput n) s = .next (s.jobInput e) :=
  congrArg _ (State.cmd_started h hc (by simp [slotOk, hj, hi]) _)

theorem State.jobInput_loaded (hwait : e.waiting = false) (h : (s.job (e.p 0 1)).state = .loaded) : s.jobInput e = s.complete e 7 [] := by
  simp only [State.jobInput, hwait, h]
  rfl

/-- The die of the sender's port may send the input of a RUNNING job at once. -/
structure InputReady (s : State) (e : Entry) (lp : LPos) (qid : Nat) (c : CoreId) : Prop where
  fresh : e.waiting = false
  running : (s.job (e.p 0 1)).state = .running
  input : (s.job (e.p 0 1)).image.kernelIn.find? (fun k => k.1 == e.p 1 1) = some (e.p 1 1, lp, qid)
  placed : (s.job (e.p 0 1)).place lp = some c
  attached : (s.port e.port).viaPeer = false
  notHeld : s.inputHeld e = false
  first : s.inputBehind e = false

/-- A die that awaits the answer to input `num` of job `j`. -/
def PortState.awaiting (j num : Nat) (x : PortState) : PortState :=
  { x with tagNext := x.tagNext + 1, await := x.await ++ [(128 + x.tagNext, .input j num)] }

/-- A job with one more input sent. -/
def Job.asked (i : InputSent) (q : Job) : Job := { q with nextInput := q.nextInput + 1, inputs := q.inputs ++ [i] }

/-- The input that a JOB_INPUT sends. -/
def State.sentInput (s : State) (e : Entry) (lp : LPos) (qid : Nat) : InputSent :=
  { num := (s.job (e.p 0 1)).nextInput, input := e.p 1 1, entry := e.id, dest := lp, queue := qid }

/-- The state in which the QSEND of an input leaves. -/
def State.inputAsked (s : State) (e : Entry) (lp : LPos) (qid : Nat) : State :=
  (s.modPort e.port (PortState.awaiting (e.p 0 1) (s.job (e.p 0 1)).nextInput)).modJob (e.p 0 1) (Job.asked (s.sentInput e lp qid))

/-- The QSEND of an input. -/
def State.inputQsend (s : State) (e : Entry) (qid : Nat) (c : CoreId) : Packet :=
  s.inputPacket e (e.p 0 1) (s.job (e.p 0 1)).nextInput qid (128 + (s.port e.port).tagNext) c

theorem State.jobInput_sends {lp : LPos} {qid : Nat} {c : CoreId} (h : InputReady s e lp qid c) : s.jobInput e =
    ((s.inputAsked e lp qid).dieSend e.port (s.inputQsend e qid c) (some lp) true).modEntry e.id
      (fun d => { d with waiting := true, aux := 0 }) := by
  have hasked : ((s.newTag e.port).2.modPort e.port
      (fun x => { x with await := x.await ++ [((s.newTag e.port).1, .input (e.p 0 1) (s.job (e.p 0 1)).nextInput)] })).modJob (e.p 0 1)
        (fun q => { q with
          nextInput := (s.job (e.p 0 1)).nextInput + 1
          inputs := q.inputs ++ [s.sentInput e lp qid] }) = s.inputAsked e lp qid := by
    rw [State.newTag, State.modPort_modPort]
    refine (State.modJob_congr _ _ ?_).trans (congrArg (fun u => State.modJob u _ _) (State.modPort_congr ?_))
    · rfl
    · rfl
  unfold State.jobInput
  simp only [h.fresh, h.running, h.input, h.placed, State.dieAttach_own h.attached, h.notHeld, h.first]
  rw [← hasked]
  rfl

/-- Nothing is logged yet, and the input is short. -/
theorem State.inputHeld_false (hroll : (s.job (e.p 0 1)).rolled = false) (hreplay : (s.job (e.p 0 1)).replayTo = none)
    (hlog : (s.job (e.p 0 1)).log = []) (hlen : e.param.length = 16) : s.inputHeld e = false := by
  simp [State.inputHeld, hroll, hreplay, Job.logBytes, hlog, hlen]

theorem State.inputBehind_false (h : ∀ d ∈ s.cp.journal, d.opcode = 0x20B → d.waiting = false) : s.inputBehind e = false := by
  rw [State.inputBehind, List.any_eq_false]
  intro d hd
  by_cases hop : d.opcode = 0x20B
  · simp [h d hd hop]
  · simp [hop]

/-- The header word of an input of one data word (spec/13 R352). -/
theorem packFields_inputHead (num input : Nat) : packFields [(0, num), (32, input), (36, 1)] = num + 2 ^ 32 * input + 2 ^ 36 := by
  simp only [packFields, List.foldl_cons, List.foldl_nil, Nat.pow_zero, Nat.mul_one, Nat.zero_add, Nat.one_mul]
  rw [Nat.mul_comm input]

/-- The QSEND of an input of one data word: its header word names the input, and its data word follows. -/
theorem State.inputQsend_pay {qid : Nat} {c : CoreId} (hlen : e.param.length = 16) : (s.inputQsend e qid c).pay =
    [(BitVec.ofNat 64 ((s.job (e.p 0 1)).nextInput % 2 ^ 32 + 2 ^ 32 * e.p 1 1 + 2 ^ 36), false), (BitVec.ofNat 64 (e.p 8 8), false)] := by
  have hrange : (e.param.length - 8) / 8 = 1 := by rw [hlen]
  have hdata : bytesAt e.param 8 8 = e.p 8 8 := rfl
  simp only [State.inputQsend, State.inputPacket, hrange, List.range_one, List.map_cons, List.map_nil, List.length_singleton,
    packFields_inputHead, Nat.mul_zero, Nat.add_zero, hdata]

/-- What a JOB_INPUT leaves: the QSEND in the network and in the log, the input among those sent, and the command waiting. -/
theorem State.jobInput_spec {lp : LPos} {qid : Nat} {c : CoreId} (hj : e.p 0 1 < 16) (h : InputReady s e lp qid c) :
    (s.jobInput e).net = s.net ++ [entering s (s.inputQsend e qid c)] ∧
      (s.jobInput e).job (e.p 0 1) = { (s.job (e.p 0 1)).asked (s.sentInput e lp qid) with
        log := (s.job (e.p 0 1)).log ++
          [{ expo := (s.job (e.p 0 1)).expNo, die := e.port, pkt := s.inputQsend e qid c, dest := some lp }] } ∧
      (s.jobInput e).cp.journal = s.cp.journal.map (fun d => if d.id = e.id then { d with waiting := true, aux := 0 } else d) := by
  have hent : entering (s.inputAsked e lp qid) (s.inputQsend e qid c) = entering s (s.inputQsend e qid c) :=
    entering_modPort s e.port (f := PortState.awaiting (e.p 0 1) (s.job (e.p 0 1)).nextInput) (fun _ => rfl) _
  have hjob : (s.inputAsked e lp qid).job (e.p 0 1) = (s.job (e.p 0 1)).asked (s.sentInput e lp qid) := by
    rw [State.inputAsked, State.job_modJob, if_pos ⟨rfl, hj⟩, State.job_modPort]
  have hslot : (s.inputQsend e qid c).slot = e.p 0 1 := rfl
  rw [State.jobInput_sends h, State.dieSend_logged _ _ rfl, hent, hslot]
  refine ⟨rfl, ?_, rfl⟩
  have hlast (u : State) (g : Job → Job) : tget {} (tmod u.jobs (e.p 0 1) g) (e.p 0 1) = g (u.job (e.p 0 1)) :=
    (tget_tmod _ _ _ _ _).trans (if_pos ⟨rfl, hj⟩)
  refine (hlast (s.inputAsked e lp qid) _).trans ?_
  rw [hjob]
  rfl

/-! ### SET_PROOFING (spec/15 R398) -/

theorem exec_setProofing (h : Started s n 0x0400 e) (hj : e.p 0 1 < 16) (hcode : e.p 1 1 < 6) (hc : e.clean [(0, 2), (8, 8)] = true) :
    exec (.setProofing n) s = .next (s.setProofing e) :=
  congrArg _ (State.cmd_started h hc (by simp [slotOk, hj, hcode]) _)

theorem State.setProofing_empty (h : (s.job (e.p 0 1)).state = .empty) : s.setProofing e = s.complete e 7 [] :=
  if_pos (by simp [State.resident, h])

/-- A code takes effect from the exposure that the job's state names. -/
theorem State.setProofing_from {first : Job → Nat} (hres : (s.job (e.p 0 1)).state ≠ .empty)
    (hfirst : (if (s.job (e.p 0 1)).holdsPartition then (s.job (e.p 0 1)).expNo + 1
      else if (s.job (e.p 0 1)).state == .suspended then (s.job (e.p 0 1)).lastCkpt else 0) = first (s.job (e.p 0 1))) :
    s.setProofing e = (s.modJob (e.p 0 1) (fun x =>
      { x with proof := x.proof ++ [(first x, e.p 1 1, BitVec.ofNat 64 (e.p 8 8))] })).complete e 0 [] := by
  refine (if_neg (by simp [State.resident, hres])).trans ?_
  refine congrArg (fun u => State.complete u e 0 []) (State.modJob_congr s _ ?_)
  simp only [hfirst]

/-! ### READ_OVERRUN (spec/09 Table 9.4) -/

theorem OverrunRec.bytes_length (r : OverrunRec) (j : Nat) : (r.bytes j).length = 64 + 16 * r.entries.length := by
  have hentries : (r.entries.flatMap (fun x => leBytes 16 x.toNat)).length = r.entries.length * 16 :=
    length_flatMap_const _ _ (fun x _ => leBytes_length 16 _)
  simp only [OverrunRec.bytes, List.length_append, leBytes_length, List.length_replicate, hentries]
  omega

/-- The bytes of an overrun record behind EXPNO. -/
def OverrunRec.tail (r : OverrunRec) : List Byte :=
  leBytes 8 r.sched ++ leBytes 8 r.stopTick ++ leBytes 4 r.holdMax ++ leBytes 4 r.sum.toNat ++ leBytes 8 r.notReady ++
    List.replicate 16 0 ++ r.entries.flatMap (fun x => leBytes 16 x.toNat)

theorem OverrunRec.bytes_expNo (r : OverrunRec) (j : Nat) : bytesAt (r.bytes j) 8 8 = r.expNo % 2 ^ 64 := by
  refine bytesAt_field (pre := leBytes 1 0x10 ++ leBytes 1 1 ++ leBytes 1 j ++ leBytes 1 r.flags ++ leBytes 4 r.entries.length)
    (post := r.tail) ?_ ?_
  · simp only [OverrunRec.bytes, OverrunRec.tail, List.append_assoc]
  · simp only [List.length_append, leBytes_length]

theorem exec_readOverrun (h : Started s n 0x0404 e) (hj : e.p 0 1 < 16) (ha : e.p 8 8 % 8 = 0) (hc : e.clean [(0, 1), (8, 12)] = true) :
    exec (.readOverrun n) s = .next (s.readOverrun e) :=
  congrArg _ (State.cmd_started h hc (by simp [slotOk, hj, ha]) _)

theorem State.readOverrun_stopped {r : OverrunRec} (hstate : (s.job (e.p 0 1)).state = .stopped)
    (hr : (s.job (e.p 0 1)).overrun = some r) : s.readOverrun e =
      s.hostWrite e (e.p 8 8) (e.p 16 4) (r.bytes (e.p 0 1)) (leBytes 4 (64 + 16 * r.entries.length)) := by
  rw [← r.bytes_length (e.p 0 1)]
  simp only [State.readOverrun, hstate, hr, BEq.rfl, if_true]

theorem State.readOverrun_badState (h : (s.job (e.p 0 1)).state ≠ .stopped) : s.readOverrun e = s.complete e 7 [] := by
  simp only [State.readOverrun, beq_eq_false_iff_ne.2 h, Bool.false_eq_true, if_false]
  rfl

end

/-- Settles O41: LOAD_OVERLAY by what its reads bring; JOB_STATUS by the fields of its payload; JOB_INPUT by the one QSEND it sends;
SET_PROOFING by the exposure it takes effect from; READ_OVERRUN by the record's bytes. -/
theorem jobReportsAndInputs : Obligations.JobReportsAndInputs := by
  unfold Obligations.JobReportsAndInputs
  intro s n e hj j q
  refine ⟨fun o h hc hi => ⟨fun hres hreach hpost hsize => ?reads, fun hres hreach hpost => ?unsent, fun hbad => ?badState⟩,
    fun h hc hexp hckpt => ?status, fun lp qid c h hc hi hrun hin hplace hvia hroll hreplay hlog hlen hwaits => ?sends,
    fun h hc hi hloaded => ?loaded, fun h hc hcode => ⟨fun hrun => ?proofRunning, fun hloaded => ?proofLoaded, fun hempty => ?proofEmpty⟩,
    fun r h hc ha => ⟨fun hstop hr => ?overrun, fun hstop => ?notStopped⟩⟩
  case reads =>
    obtain ⟨l, hl, hsend, -⟩ := State.imageReads_sending (e := e) hpost hsize
    have hload (r : HostRead Overlay) := (exec_loadOverlay h hj hi hc r).trans (congrArg _ (State.loadOverlay_reads r hres hreach))
    simp only [State.brought_posts hpost, hsend] at hload
    exact ⟨l, hl, fun hok hact hcfg => (hload (.ok o)).trans (congrArg _ (State.overlayTaken_ok hok hact hcfg)), hload .failed,
      hload .bad⟩
  case unsent => rw [exec_loadOverlay h hj hi hc, State.loadOverlay_unsent _ hres hreach hpost]
  case badState => rw [exec_loadOverlay h hj hi hc, State.loadOverlay_badState _ hbad]
  case status =>
    obtain ⟨hstate, hholdr, hexpNo, hlast⟩ := s.statusPayload_fields j
    have hcode (st : JobState) (hst : q.state = st) : bytesAt (s.statusPayload j) 0 1 = st.code % 256 := by rw [hstate, hst]
    refine ⟨_, exec_jobStatus h hj hc, s.statusPayload_length j, hcode _, hcode _, hcode _, hcode _, hcode _, hcode _,
      fun hrun hheld => ?_, hexpNo.trans (Nat.mod_eq_of_lt hexp), hlast.trans (Nat.mod_eq_of_lt hckpt)⟩
    have hnone : s.holdr j = 0 := if_pos (by simp [q, hrun, hheld])
    rw [hholdr, hnone]
  case sends =>
    have hready : InputReady s e lp qid c := ⟨not_waiting_of_started h, hrun, hin, hplace, hvia,
      State.inputHeld_false hroll hreplay hlog hlen, State.inputBehind_false hwaits⟩
    obtain ⟨hnet, hjob, hjournal⟩ := State.jobInput_spec hj hready
    have hlog' : ((s.jobInput e).job j).log = [{ expo := q.expNo, die := e.port, pkt := s.inputQsend e qid c, dest := some lp }] := by
      rw [hjob]
      simp [hlog, q, j]
    exact ⟨_, s.inputQsend e qid c, exec_jobInput h hj hi hc, hnet, rfl, rfl, rfl, rfl, rfl, rfl, rfl, rfl, rfl,
      State.inputQsend_pay hlen, congrArg Job.nextInput hjob, congrArg Job.inputs hjob, hlog', hjournal⟩
  case loaded => rw [exec_jobInput h hj hi hc, State.jobInput_loaded (not_waiting_of_started h) hloaded]
  case proofRunning =>
    have hrun' : (s.job (e.p 0 1)).state = .running := hrun
    rw [exec_setProofing h hj hcode hc, State.setProofing_from (first := fun x => x.expNo + 1) (by rw [hrun']; decide)]
    simp [Job.holdsPartition, hrun']
  case proofLoaded =>
    have hloaded' : (s.job (e.p 0 1)).state = .loaded := hloaded
    rw [exec_setProofing h hj hcode hc, State.setProofing_from (first := fun _ => 0) (by rw [hloaded']; decide)]
    simp [Job.holdsPartition, hloaded']
  case proofEmpty => rw [exec_setProofing h hj hcode hc, State.setProofing_empty hempty]
  case overrun =>
    rw [exec_readOverrun h hj ha hc, State.readOverrun_stopped hstop hr]
    refine ⟨fun hfit hlink hd3 hmaster => ⟨r.bytes (e.p 0 1), r.bytes_length _, congrArg _ ?_, r.bytes_expNo _⟩, fun hshort => ?_⟩
    · exact State.hostWrite_fits ⟨hlink, hd3, hmaster⟩ (by rwa [r.bytes_length]) _
    · rw [State.hostWrite_short (by rwa [r.bytes_length]), r.bytes_length]
  case notStopped => rw [exec_readOverrun h hj ha hc, State.readOverrun_badState hstop]

end Sys2Proof.Machine

/-! SUPPORT. The inbox: the bytes that writes leave in a slot, the write that commits it, and aborts (spec/13 R335-R337, Table 13.1, spec/12
R322). -/

namespace Sys2Proof

theorem KMap.has_put {α : Type} (m : KMap α) (k j : Nat) (v : α) : KMap.has (m.put k v) j = (decide (j = k) || KMap.has m j) := by
  induction m with
  | nil => simp [KMap.put, KMap.has, eq_comm]
  | cons e t ih =>
    obtain ⟨k', v'⟩ := e
    simp only [KMap.put]
    split
    · by_cases hj : k = j <;> simp [KMap.has, hj, eq_comm]
    · split
      · next hk =>
        subst hk
        by_cases hj : k = j <;> simp [KMap.has, hj, eq_comm]
      · by_cases hj : k' = j <;> simp [KMap.has, hj, ih]

/-- A fold over numbers of which only one has an effect. -/
theorem foldl_range_single {α : Type} {n i : Nat} (hi : i < n) (f : α → Nat → α) (h : ∀ m < n, m ≠ i → ∀ x, f x m = x) (x : α) :
    (List.range n).foldl f x = f x i := by
  induction n with
  | zero => exact absurd hi (Nat.not_lt_zero i)
  | succ n ih =>
    rw [List.range_succ, List.foldl_append, List.foldl_cons, List.foldl_nil]
    rcases Nat.lt_succ_iff_lt_or_eq.1 hi with hlt | rfl
    · rw [ih hlt (fun m hm => h m (by omega)), h n (by omega) (by omega)]
    · have hnone : (List.range i).foldl f x = x :=
        List.foldlRecOn (motive := fun y => y = x) _ _ rfl fun y hy m hm => by
          have hlt := List.mem_range.1 hm
          rw [h m (by omega) hlt.ne, hy]
      rw [hnone]

namespace Machine

open Sys2Proof.Claims

/-! ### The bytes of a slot (spec/13 R336) -/

section

variable (y : InSlot) (lo : Nat) (bs : List Byte)

theorem InSlot.fill_rest : y.fill lo bs = { y with bytes := (y.fill lo bs).bytes } := by
  induction bs generalizing y lo with
  | nil => rfl
  | cons b t ih => rw [InSlot.fill, ih]

theorem InSlot.fill_get (k : Nat) : KMap.get 0 (y.fill lo bs).bytes k =
    if lo ≤ k ∧ k < lo + bs.length then bs.getD (k - lo) 0 else KMap.get 0 y.bytes k := by
  induction bs generalizing y lo with
  | nil => exact (if_neg (by simp)).symm
  | cons b t ih =>
    rw [InSlot.fill, ih, KMap.get_put, List.length_cons]
    by_cases hk : k = lo
    · subst hk
      rw [if_neg (by omega), if_pos rfl, if_pos (by omega), Nat.sub_self, List.getD_cons_zero]
    · by_cases hin : lo + 1 ≤ k ∧ k < lo + 1 + t.length
      · obtain ⟨i, hi⟩ : ∃ i, k - lo = i + 1 := ⟨k - lo - 1, by omega⟩
        rw [if_pos hin, if_pos (by omega), hi, List.getD_cons_succ]
        congr 1
        omega
      · rw [if_neg hin, if_neg hk, if_neg (by omega)]

theorem InSlot.fill_has (k : Nat) : KMap.has (y.fill lo bs).bytes k =
    (decide (lo ≤ k ∧ k < lo + bs.length) || KMap.has y.bytes k) := by
  induction bs generalizing y lo with
  | nil => simp [InSlot.fill]
  | cons b t ih =>
    rw [InSlot.fill, ih, KMap.has_put, ← Bool.or_assoc, List.length_cons]
    congr 1
    rw [Bool.eq_iff_iff, Bool.or_eq_true, decide_eq_true_iff, decide_eq_true_iff, decide_eq_true_iff]
    omega

end

/-- A slot that was FREE and has been written from its first byte on. -/
def freshSlot (bs : List Byte) : InSlot := InSlot.fill {} 0 bs

section

variable {bs : List Byte} {lo n : Nat}

@[simp] theorem freshSlot_busy : (freshSlot bs).busy = false := by rw [freshSlot, InSlot.fill_rest]

theorem freshSlot_get {k : Nat} (hk : k < bs.length) : KMap.get 0 (freshSlot bs).bytes k = bs.getD k 0 := by
  rw [freshSlot, InSlot.fill_get, if_pos ⟨Nat.zero_le k, by omega⟩, Nat.sub_zero]

/-- A number in the slot is the one that the bytes written spell. -/
theorem freshSlot_num (h : lo + n ≤ bs.length) : (freshSlot bs).num lo n = bytesAt bs lo n := by
  rw [InSlot.num, bytesAt]
  congr 1
  refine List.ext_getElem (by simp; omega) fun i hi _ => ?_
  have hin : i < n := by simpa using hi
  rw [List.getElem_map, List.getElem_range, freshSlot_get (by omega), List.getElem_take, List.getElem_drop,
    List.getD_eq_getElem _ _ (by omega)]

theorem freshSlot_covers : (freshSlot bs).covers 0 n = decide (n ≤ bs.length) := by
  rw [Bool.eq_iff_iff, InSlot.covers, List.all_eq_true, decide_eq_true_iff]
  simp only [List.mem_range, freshSlot, InSlot.fill_has, KMap.has, Nat.zero_add, Bool.or_false, decide_eq_true_iff, Nat.zero_le, true_and]
  constructor
  · intro h
    by_contra hlt
    have := h bs.length (by omega)
    omega
  · intro h k hk
    omega

/-- The header that the first 32 bytes spell (spec/13 R337). -/
theorem freshSlot_headerBad_magic (hlen : 32 ≤ bs.length) (h : bytesAt bs 0 4 ≠ 0x4E494641) : (freshSlot bs).headerBad = some inbMagic := by
  rw [InSlot.headerBad]
  exact if_pos (by rwa [freshSlot_num (by omega)])

theorem freshSlot_headerBad_none (hlen : 32 ≤ bs.length) (hmagic : bytesAt bs 0 4 = 0x4E494641) (hversion : bytesAt bs 4 2 = 1)
    (hlength : bytesAt bs 16 2 = 32) : (freshSlot bs).headerBad = none := by
  simp only [InSlot.headerBad, freshSlot_num (bs := bs) (lo := 0) (n := 4) (by omega), freshSlot_num (bs := bs) (lo := 4) (n := 2) (by omega),
    freshSlot_num (bs := bs) (lo := 16) (n := 2) (by omega), hmagic, hversion, hlength]
  decide

end

/-! ### Writes (spec/13 R336, R337, spec/12 R322) -/

/-- A port whose slot `i` stands as `y`. -/
def PortState.withSlot (x : PortState) (i : Nat) (y : InSlot) : PortState := { x with slots := tset x.slots i y }

section

variable {s : State} {p : Port} {i : Nat} {bs : List Byte}

/-- A write that lies in one slot is a write of that slot. -/
theorem State.inboxParts_one (hpos : 0 < bs.length) (hlen : bs.length ≤ 4096) :
    s.inboxParts p 9 (4096 * i) bs = s.slotWrite p i 0 bs := by
  have hslot : 4096 * i / 4096 = i := Nat.mul_div_cancel_left i (by decide)
  have hbyte : 4096 * i % 4096 = 0 := Nat.mul_mod_right 4096 i
  have hsome : bs.isEmpty = false := by
    rw [List.isEmpty_eq_false_iff]
    rintro rfl
    exact Nat.not_lt_zero 0 hpos
  have htake : bs.take 4096 = bs := List.take_of_length_le hlen
  have hdrop : bs.drop 4096 = [] := List.drop_eq_nil_of_le hlen
  simp only [State.inboxParts, hsome, hslot, hbyte, Nat.sub_zero, htake, hdrop, List.isEmpty_nil, Bool.false_eq_true, if_false, if_true]

theorem exec_inboxWrite (hs : Serves s p) (hpos : 0 < bs.length) (hlen : bs.length ≤ 4096) :
    exec (.inboxWrite p (4096 * i) bs) s = .next (s.slotWrite p i 0 bs) := by
  rw [← State.inboxParts_one hpos hlen]
  exact congrArg Host.Outcome.next (if_pos (State.serves_of_Serves hs))

/-- A write to a BUSY slot is discarded. -/
theorem State.slotWrite_busy (hpos : 0 < bs.length) (hbusy : (tget {} (s.port p).slots i).busy = true) :
    s.slotWrite p i 0 bs = s.modPort p (fun x => x.discard i inbSlotBusy) := by
  cases bs with
  | nil => exact absurd hpos (Nat.not_lt_zero 0)
  | cons b t => simp only [State.slotWrite, hbusy, List.isEmpty_cons, Bool.false_eq_true, if_false, if_true]

/-- Once a discarded write is logged, the next is only counted. -/
theorem PortState.discard_logged {x : PortState} (h : x.logValid = true) (reason : Nat) :
    x.discard i reason = { x with inboxDisc := sat1 x.inboxDisc } := by
  simp [PortState.discard, h]

/-- What a write to a FREE slot does once its bytes are there. -/
def State.slotFilled (s : State) (p : Port) (i : Nat) (y : InSlot) : State :=
  if !y.covers 0 32 then s
  else
    match y.headerBad with
    | some r => s.modPort p (fun x => (x.discard i r).freeSlot i)
    | none =>
      if !y.covers 0 (y.num 16 2) then s
      else if s.cp.active.isNone then s.modPort p (fun x => PortState.freeSlot { x with inboxDisc := sat1 x.inboxDisc } i)
      else (s.issueFence p).1.modPort p (fun x =>
        { x with slots := tset x.slots i { y with busy := true, fence := (s.issueFence p).2 }, order := x.order ++ [i] })

theorem State.slotWrite_free (hpos : 0 < bs.length) (hfree : tget {} (s.port p).slots i = {}) :
    s.slotWrite p i 0 bs = (s.modPort p (fun x => x.withSlot i (freshSlot bs))).slotFilled p i (freshSlot bs) := by
  cases bs with
  | nil => exact absurd hpos (Nat.not_lt_zero 0)
  | cons b t =>
    simp only [State.slotWrite, hfree, List.isEmpty_cons, Bool.false_eq_true, if_false]
    rfl

theorem State.slotFilled_part {y : InSlot} (h : y.covers 0 32 = false) : s.slotFilled p i y = s := if_pos (by simp [h])

theorem State.slotFilled_bad {y : InSlot} {r : Nat} (h : y.covers 0 32 = true) (hbad : y.headerBad = some r) :
    s.slotFilled p i y = s.modPort p (fun x => (x.discard i r).freeSlot i) := by
  simp [State.slotFilled, h, hbad]

theorem State.slotFilled_commits {y : InSlot} (h : y.covers 0 32 = true) (hgood : y.headerBad = none)
    (hall : y.covers 0 (y.num 16 2) = true) (hactive : s.cp.active.isSome = true) : s.slotFilled p i y =
      (s.issueFence p).1.modPort p (fun x =>
        { x with slots := tset x.slots i { y with busy := true, fence := (s.issueFence p).2 }, order := x.order ++ [i] }) := by
  have hactive' : s.cp.active.isNone = false := by rw [Option.isNone_eq_false_iff]; exact hactive
  simp [State.slotFilled, h, hgood, hall, hactive']

/-- With an empty fence table no READ goes out; the fence waits for those of the port that are still on their way. -/
theorem State.issueFence_empty (htab : (s.port p).fenceTab = [])
    (hwait : (s.port p).await = [] ∨ ∃ tag w, (s.port p).viaPeer = false ∧ (s.port p).await = [(tag, .fence p w)]) :
    s.issueFence p = (s.modPort p (fun x => { x with fenceTab := [] }), (s.port p).await.map (·.1)) := by
  have hvia : ((s.modPort p (fun x => { x with fenceTab := [] })).port p).viaPeer = (s.port p).viaPeer := by rw [State.port_modPort_same]
  have hawait : ((s.modPort p (fun x => { x with fenceTab := [] })).port p).await = (s.port p).await := by rw [State.port_modPort_same]
  simp only [State.issueFence, htab, List.foldl_nil, PortState.fenceTags, hawait]
  rcases hwait with hnone | ⟨tag, w, hown, hone⟩
  · rw [hnone]
    split <;> rfl
  · rw [State.dieAttach_own (hvia.trans hown), hone]
    simp

/-! ### Aborts (spec/13 R337) -/

theorem exec_inboxctlAbort (hs : Serves s p) (mask : BitVec 8) :
    exec (.inboxctlAbort p mask) s = .next (s.modPort p (fun x => x.abortSlots mask)) :=
  congrArg Host.Outcome.next (if_pos (State.serves_of_Serves hs))

/-- An abort of one slot looks at that slot alone. -/
theorem PortState.abortSlots_one (x : PortState) (hi : i < 8) : x.abortSlots (BitVec.ofNat 8 (2 ^ i)) =
    if !(tget {} x.slots i).busy && !(tget {} x.slots i).bytes.isEmpty then (x.discard i inbAborted).freeSlot i else x := by
  have hbit (m : Nat) (hm : m < 8) : (BitVec.ofNat 8 (2 ^ i)).getLsbD m = decide (i = m) := by
    rw [BitVec.getLsbD_ofNat, Nat.testBit_two_pow]
    simp [hm]
  rw [PortState.abortSlots, foldl_range_single hi _ (fun m hm hne x => ?_)]
  · simp only [hbit i hi, decide_true, Bool.true_and]
  · rw [hbit m hm, decide_eq_false (Ne.symm hne)]
    rfl

end

end Machine
end Sys2Proof

/-! SUPPORT. The steps that take a packet, the start of a command, and the statement about the inbox (spec/13 R342-R344, Table 13.3). -/

namespace Sys2Proof.Machine

open Sys2Proof.Claims

/-! ### Taking a packet (spec/13 R342, R343, Table 13.3) -/

section

variable {s : State} {p : Port} {i n : Nat} {q : Session} {y : InSlot}

/-- A packet of session `n` with the opcode of NOP. -/
structure NopPacket (y : InSlot) (n : Nat) : Prop where
  opcode : y.num 6 2 = 5
  session : y.num 18 2 = n

/-- A session that keeps fewer than 64 entries does not hold its packet back. -/
theorem State.packetTake_oldest (hcp : s.cpRuns = true) (horder : (s.port p).order = [i])
    (hsess : (tget {} (s.port p).slots i).num 18 2 = n) (hq : tget none (s.port p).sess n = some q) (hkept : q.kept.length < 64) :
    s.packetTake p = s.takePacket p { slot := i, y := tget {} (s.port p).slots i } := by
  have hheld : (s.port p).slotHeld i = false := by
    rw [PortState.slotHeld, hsess, hq]
    exact decide_eq_false (Nat.not_le.2 hkept)
  simp [State.packetTake, hcp, horder, hheld]

/-- A packet of an open session is judged by its sequence number. -/
theorem State.takePacket_nop (h : NopPacket y n) (hq : tget none (s.port p).sess n = some q) : s.takePacket p { slot := i, y := y } =
    if y.num 20 4 < q.nextSeq then s.refusePacket p { slot := i, y := y } stDuplicate (dupPayload q (y.num 20 4))
    else if q.nextSeq < y.num 20 4 then s.refusePacket p { slot := i, y := y } stSeqGap []
    else s.acceptPacket p { slot := i, y := y } := by
  have hop : ¬ ((InPacket.mk i y).opcode = 0 ∧ (InPacket.mk i y).sess = 0 ∧ (InPacket.mk i y).seq = 0) := by
    rintro ⟨h0, -⟩
    rw [InPacket.opcode, h.opcode] at h0
    cases h0
  rw [State.takePacket, if_neg hop]
  simp only [InPacket.sess, InPacket.seq, h.session, hq]
  rfl

/-- The reply to a packet that is not journaled. -/
theorem State.refusePacket_nop (h : NopPacket y n) (st : Nat) (pay : List Byte) : s.refusePacket p { slot := i, y := y } st pay =
    s.modPort p (fun x => PortState.put s.mod.ctl (x.freeSlot i) n
      { tag := y.num 8 8, status := st, opcode := 5, quiet := y.num 24 4 % 2 == 1, payload := pay }) := by
  simp only [State.refusePacket, InPacket.sess, InPacket.opcode, InPacket.quiet, h.session, h.opcode]

/-- A NOP without parameters is journaled, where the session has no 64 commands outstanding. -/
theorem State.acceptPacket_nop (h : NopPacket y n) (hlen : y.num 16 2 = 32) (hfew : ∀ e ∈ s.cp.journal, e.port ≠ p) :
    s.acceptPacket p { slot := i, y := y } = s.journalPacket p { slot := i, y := y } := by
  have hrow : opcodeRow 5 = some (.yes, .fixed 0) := by decide
  have hnone : s.cp.journal.filter (fun e => e.port == p && e.sess == n && !e.deaf) = [] :=
    List.filter_eq_nil_iff.2 fun e he => by simp [hfew e he]
  have hout : s.outstanding p n = 0 := by rw [State.outstanding, hnone, List.length_nil]
  simp only [State.acceptPacket, InPacket.opcode, InPacket.sess, InPacket.len, h.opcode, h.session, hrow, hlen, hout]
  rfl

/-- A number just used up is among the last 64 (spec/13 R343). -/
theorem Session.mem_useSeq (q : Session) (st : Option Nat) : (q.nextSeq, st) ∈ (q.useSeq st).hist := by
  have hdrop : (q.hist ++ [(q.nextSeq, st)]).length - 64 ≤ q.hist.length := by
    rw [List.length_append, List.length_singleton]
    omega
  show _ ∈ (q.hist ++ [(q.nextSeq, st)]).drop ((q.hist ++ [(q.nextSeq, st)]).length - 64)
  rw [List.drop_append_of_le_length hdrop]
  exact List.mem_append_right _ (List.mem_singleton_self _)

/-- The command that a packet becomes in the journal. -/
def InPacket.entry (k : InPacket) (p : Port) (id : Nat) : Entry :=
  { id := id, port := p, sess := k.sess, seq := k.seq, tag := k.y.num 8 8, opcode := k.opcode, quiet := k.quiet
    param := (List.range (k.len - 32)).map (fun i => KMap.get 0 k.y.bytes (32 + i)), fence := k.y.fence, resv := k.resv }

theorem State.journalPacket_cp (s : State) (p : Port) (k : InPacket) : (s.journalPacket p k).cp =
    { s.cp with journal := s.cp.journal ++ [k.entry p s.cp.nextId], nextId := s.cp.nextId + 1 } := rfl

/-- A journaled packet leaves its slot FREE, and its session counts its number. -/
theorem State.journalPacket_port (h : NopPacket y n) (hi : i < 8) (hq : tget none (s.port p).sess n = some q)
    (horder : (s.port p).order = [i]) :
    tget {} ((s.journalPacket p { slot := i, y := y }).port p).slots i = {} ∧
      ((s.journalPacket p { slot := i, y := y }).port p).order = [] ∧
      HasSession (s.journalPacket p { slot := i, y := y }) p n (q.useSeq none) := by
  have hn : n < 16 := lt_of_tget_some hq
  have hport : (s.journalPacket p { slot := i, y := y }).port p =
      PortState.freeSlot ((s.port p).modSess n (fun q => q.useSeq none)) i := by
    rw [← h.session]
    exact s.port_modPort_same p _
  rw [HasSession, hport]
  refine ⟨(tget_tset _ _ _ _ _).trans (if_pos ⟨rfl, hi⟩), ?_, hn, ?_⟩
  · show (s.port p).order.filter (· ≠ i) = []
    rw [horder]
    simp
  · refine (tget_tmod _ _ _ _ _).trans ?_
    rw [if_pos ⟨rfl, hn⟩, hq]
    rfl

end

/-! ### Starting a command (spec/13 R344, spec/12 R322) -/

section

variable {s : State} {d e : Entry}

/-- The one command of the journal, its fence complete, starts. -/
theorem State.commandStart_alone (hcp : s.cpRuns = true) (hjournal : s.cp.journal = [e]) (hfence : e.fence = []) :
    s.commandStart e.id = { s with cp := { s.cp with journal := [{ e with started := true }] } } := by
  have hentry : s.entry e.id = some e := by simp [State.entry, hjournal]
  have hfirst : e.after e = false := by simp [Entry.after]
  cases hstarted : e.started with
  | false => simp [State.commandStart, hentry, hcp, hstarted, hfence, hjournal, hfirst, State.modEntry]
  | true =>
    have hsame : ({ e with started := true } : Entry) = e := by rw [← hstarted]
    rw [hsame, ← hjournal]
    simp [State.commandStart, hentry, hstarted]

/-- A command behind an earlier one of its session that has not started waits. -/
theorem State.commandStart_behind (hjournal : s.cp.journal = [d, e]) (hid : d.id < e.id) (hport : d.port = e.port)
    (hsess : d.sess = e.sess) (hdeaf : d.deaf = e.deaf) (hstarted : d.started = false) : s.commandStart e.id = s := by
  have hentry : s.entry e.id = some e := by simp [State.entry, hjournal, hid.ne]
  have hafter : e.after d = true := by simp [Entry.after, Entry.holdsBack, hid, hport, hsess, hdeaf, hstarted]
  simp [State.commandStart, hentry, hjournal, hafter]

end

/-! ### The slot that a write leaves -/

section

variable {s : State} {p : Port} {i : Nat} {bs : List Byte}

/-- A write short of the header leaves its bytes, and the other slots as they were. -/
theorem State.slotWrite_part (hi : i < 8) (hpos : 0 < bs.length) (hlen : bs.length < 32) (hfree : tget {} (s.port p).slots i = {}) :
    s.slotWrite p i 0 bs = s.modPort p (fun x => x.withSlot i (freshSlot bs)) ∧
      ∀ m, tget {} ((s.slotWrite p i 0 bs).port p).slots m = if i = m then freshSlot bs else tget {} (s.port p).slots m := by
  have hwrite : s.slotWrite p i 0 bs = s.modPort p (fun x => x.withSlot i (freshSlot bs)) := by
    rw [State.slotWrite_free hpos hfree, State.slotFilled_part]
    rw [freshSlot_covers]
    exact decide_eq_false (Nat.not_le.2 hlen)
  refine ⟨hwrite, fun m => ?_⟩
  rw [hwrite, State.port_modPort_same]
  refine (tget_tset _ _ _ _ _).trans ?_
  by_cases hm : i = m
  · rw [if_pos ⟨hm, hm ▸ hi⟩, if_pos hm]
  · rw [if_neg (fun h => hm h.1), if_neg hm]

/-- A header whose MAGIC is wrong frees the slot. -/
theorem State.slotWrite_magic (hlen : bs.length = 32) (hfree : tget {} (s.port p).slots i = {}) (hmagic : bytesAt bs 0 4 ≠ 0x4E494641) :
    s.slotWrite p i 0 bs = s.modPort p (fun x => ((x.withSlot i (freshSlot bs)).discard i inbMagic).freeSlot i) := by
  rw [State.slotWrite_free (by omega) hfree, State.slotFilled_bad (by rw [freshSlot_covers, hlen]; rfl)
    (freshSlot_headerBad_magic (by omega) hmagic), State.modPort_modPort]

/-- A discarded packet is counted, and logged where the log is clear; the slot's return to FREE leaves both. -/
theorem PortState.discard_freeSlot (x : PortState) (hi : i < 8) (reason : Nat) :
    tget {} ((x.discard i reason).freeSlot i).slots i = {} ∧ ((x.discard i reason).freeSlot i).inboxDisc = sat1 x.inboxDisc ∧
      (x.logValid = false → ((x.discard i reason).freeSlot i).logReason = BitVec.ofNat 4 reason ∧
        ((x.discard i reason).freeSlot i).logSlot = BitVec.ofNat 3 i ∧ ((x.discard i reason).freeSlot i).logValid = true) := by
  refine ⟨(tget_tset _ _ _ _ _).trans (if_pos ⟨rfl, hi⟩), ?_, fun hclear => ?_⟩
  · show (x.discard i reason).inboxDisc = _
    unfold PortState.discard
    dsimp only
    split <;> rfl
  · simp [PortState.discard, PortState.freeSlot, hclear]

/-- The write that completes a packet without parameters commits it. -/
theorem State.slotWrite_commits (hlen : bs.length = 32) (hfree : tget {} (s.port p).slots i = {}) (hmagic : bytesAt bs 0 4 = 0x4E494641)
    (hversion : bytesAt bs 4 2 = 1) (hlength : bytesAt bs 16 2 = 32) (hactive : s.cp.active.isSome = true)
    (htab : (s.port p).fenceTab = [])
    (hwait : (s.port p).await = [] ∨ ∃ tag w, (s.port p).viaPeer = false ∧ (s.port p).await = [(tag, .fence p w)]) :
    s.slotWrite p i 0 bs = s.modPort p (fun x => { x with
      fenceTab := []
      slots := tset x.slots i { freshSlot bs with busy := true, fence := (s.port p).await.map (·.1) }
      order := x.order ++ [i] }) := by
  have hport : (s.modPort p (fun x => x.withSlot i (freshSlot bs))).port p = (s.port p).withSlot i (freshSlot bs) := s.port_modPort_same p _
  have hnum : (freshSlot bs).num 16 2 = 32 := (freshSlot_num (by omega)).trans hlength
  have hcommit := State.slotFilled_commits (s := s.modPort p (fun x => x.withSlot i (freshSlot bs))) (p := p) (i := i)
    (by rw [freshSlot_covers, hlen]; rfl) (freshSlot_headerBad_none (by omega) hmagic hversion hlength)
    (by rw [hnum, freshSlot_covers, hlen]; rfl) hactive
  rw [State.slotWrite_free (by omega) hfree, hcommit, State.issueFence_empty (by rw [hport]; exact htab) (by rw [hport]; exact hwait),
    hport, State.modPort_modPort, State.modPort_modPort]
  refine State.modPort_congr ?_
  simp only [PortState.withSlot, tset_tset]

end

/-- Settles O34: a write by the slot it finds and the header it completes; a packet by its sequence number; a command by what stands
before it. -/
theorem inboxAndTaking : Obligations.InboxAndTaking := by
  unfold Obligations.InboxAndTaking
  constructor
  · intro s p i bs hi hs x y
    refine ⟨fun hpos hlen hfree => ?part, fun hpos hlen hbusy hlog => ?busy, fun hlen hfree hmagic => ?magic,
      fun hlen hfree hmagic hversion hlength hactive htab hwait => ?commits, fun hidle hbytes hlog => ?aborts, fun hbusy => ?keeps⟩
    case part =>
      obtain ⟨hwrite, hslots⟩ := State.slotWrite_part hi hpos hlen hfree
      have hslot := (hslots i).trans (if_pos rfl)
      refine ⟨_, exec_inboxWrite hs hpos (by omega), fun b hb => ?_, ?_, fun m hm hne => ?_, ?_⟩
      · rw [hslot, freshSlot_get hb]
      · rw [hslot, freshSlot_busy]
      · exact (hslots m).trans (if_neg (Ne.symm hne))
      · rw [hwrite, State.port_modPort_same]
        exact State.modPort_congr rfl
    case busy =>
      rw [exec_inboxWrite hs hpos hlen, State.slotWrite_busy hpos hbusy]
      exact congrArg _ (State.modPort_congr (PortState.discard_logged hlog _))
    case magic =>
      have hport : (s.slotWrite p i 0 bs).port p = ((x.withSlot i (freshSlot bs)).discard i inbMagic).freeSlot i := by
        rw [State.slotWrite_magic hlen hfree hmagic, State.port_modPort_same]
      obtain ⟨hslot, hdisc, hlog⟩ := (x.withSlot i (freshSlot bs)).discard_freeSlot hi inbMagic
      refine ⟨_, exec_inboxWrite hs (by omega) (by omega), ?_, ?_, fun hclear => ?_, ?_, ?_⟩
      · rw [hport, hslot]
      · rw [hport, hdisc]
        rfl
      · rw [hport]
        exact hlog hclear
      · rw [State.slotWrite_magic hlen hfree hmagic, State.modPort_cp]
      · rw [State.slotWrite_magic hlen hfree hmagic, State.modPort_net]
    case commits =>
      refine ⟨_, exec_inboxWrite hs (by omega) (by omega), ?_⟩
      rw [State.slotWrite_commits hlen hfree hmagic hversion hlength hactive htab hwait, State.port_modPort_same]
      have hslot (z : InSlot) : tget {} (tset x.slots i z) i = z := (tget_tset _ _ _ _ _).trans (if_pos ⟨rfl, hi⟩)
      exact ⟨congrArg InSlot.busy (hslot _), congrArg InSlot.fence (hslot _), rfl, rfl, rfl⟩
    case aborts =>
      rw [exec_inboxctlAbort hs]
      refine congrArg _ (State.modPort_congr ?_)
      have hopen : (!(tget {} (s.port p).slots i).busy && !(tget {} (s.port p).slots i).bytes.isEmpty) = true := by
        simpa using ⟨hidle, hbytes⟩
      rw [PortState.abortSlots_one _ hi, if_pos hopen, PortState.discard_logged hlog]
      rfl
    case keeps =>
      have hshut : (!(tget {} (s.port p).slots i).busy && !(tget {} (s.port p).slots i).bytes.isEmpty) = false := by
        have hbusy' : (tget {} (s.port p).slots i).busy = true := hbusy
        simp [hbusy']
      rw [exec_inboxctlAbort hs]
      refine congrArg _ ((State.modPort_congr ?_).trans (s.modPort_id p))
      rw [PortState.abortSlots_one _ hi, if_neg (Bool.eq_false_iff.1 hshut)]
  · intro s p i n q hcp hi hq hn x y reply
    obtain ⟨-, hq⟩ := hq
    have htake (horder : x.order = [i]) (hop : y.num 6 2 = 5) (hsess : y.num 18 2 = n) (hkept : q.kept.length < 64) :=
      (State.packetTake_oldest hcp horder hsess hq hkept).trans (State.takePacket_nop ⟨hop, hsess⟩ hq)
    refine ⟨fun horder hop hsess hlen hkept hfew hseq => ?journaled, fun horder hop hsess hkept hseq => ?duplicate,
      fun horder hop hsess hkept hseq => ?gap, fun e hjournal hfence => congrArg _ (State.commandStart_alone hcp hjournal hfence),
      fun d e hjournal hid hport hsess hdeaf hstarted =>
        congrArg _ (State.commandStart_behind hjournal hid hport hsess hdeaf hstarted)⟩
    case journaled =>
      have hnop : NopPacket y n := ⟨hop, hsess⟩
      have haccept : s.packetTake p = s.journalPacket p { slot := i, y := y } := by
        rw [htake horder hop hsess hkept, if_neg hseq.not_lt, if_neg hseq.not_gt, State.acceptPacket_nop hnop hlen hfew]
      obtain ⟨hslot, horder', hsession⟩ := State.journalPacket_port hnop hi hq horder
      have hjournal := congrArg CpState.journal (s.journalPacket_cp p { slot := i, y := y })
      exact ⟨s.journalPacket p { slot := i, y := y }, InPacket.entry { slot := i, y := y } p s.cp.nextId,
        congrArg Host.Outcome.next haccept, hjournal, rfl, rfl, hsess, hseq, hop, rfl, rfl, rfl, hslot, horder',
        ⟨_, hsession, rfl, q.mem_useSeq none⟩, rfl⟩
    case duplicate =>
      have hrefuse : s.packetTake p = reply 1 (dupPayload q (y.num 20 4)) := by
        rw [htake horder hop hsess hkept, if_pos hseq, State.refusePacket_nop ⟨hop, hsess⟩]
        rfl
      exact congrArg _ hrefuse
    case gap =>
      have hrefuse : s.packetTake p = reply 2 [] := by
        rw [htake horder hop hsess hkept, if_neg (Nat.lt_asymm hseq), if_pos hseq, State.refusePacket_nop ⟨hop, hsess⟩]
        rfl
      exact congrArg _ hrefuse

end Sys2Proof.Machine
